-- ==== Sys2Proof/Word.lean ====
section
/-!
DEFINITION. The word types of the package and the sparse table.
A quantity is a bit vector where the spec treats it as bits; an index, a count or a time is a `Nat`.
-/
namespace Sys2Proof

/-- A 32-bit word: a scalar register, a vector lane, a register of a register block. -/
abbrev Word := BitVec 32

/-- One byte of a memory. -/
abbrev Byte := BitVec 8

/-- A 64-bit value: a syllable (R82), a seed (R80). -/
abbrev Dword := BitVec 64

/-- A sparse table: pairs of a key and a value with the keys strictly rising.
What an unlisted key reads as is the default that the reader of the table names. -/
abbrev Tab (α : Type) := List (Nat × α)

/-- A byte-addressed memory: an unlisted address reads as the memory's own default (see `Machine/Tab.lean`). -/
abbrev Mem := Tab Byte

end Sys2Proof
end

