-- ==== Sys2Proof/Syntax.lean ====
section
/-!
DEFINITION. The commands of the block: one constructor for each row of spec/opcode_table.json, in its order, with the operands the row takes.

Operands, where they recur: `tid` a logical tile (R39); `d`, `a`, `b`, `c` register fields of a syllable (R82), `u` its vector slot, `p` its predicate, `f` a flag; `pti` a physical tile, `r` a tile
row, `die` or `d` a die; `l` a Stoith link, `k` a lake stack, `c` a DMA or lake channel; `id` a packet in flight; `mb` a mailbox (0 to 3 `HMB0` to `HMB3`, 4 `MMB`, 5 the I3C port); `t` the true time
of the event in ticks of 0.25 ns since watch-domain power-up; `ups`, `errs`, `req`, `rsp` words with the bits that an upset or a transmission error flipped. What a sensor, a pin or an agent outside the
package supplies is an operand.
-/
namespace Sys2Proof

inductive Instr where
  /-- `NOP` (R83): An all-zero syllable issues and does nothing. -/
  | nop (tid slot : Nat)
  /-- `BR` (R89): Unconditional branch to TARGET, which leaves two empty issue cycles. -/
  | br (tid target : Nat)
  /-- `BRZ` (R89): Branch to TARGET if the scalar register is zero. -/
  | brz (tid sr target : Nat)
  /-- `BRNZ` (R89): Branch to TARGET if the scalar register is non-zero. -/
  | brnz (tid sr target : Nat)
  /-- `CALL` (R89): Writes the return address to a scalar register and branches. -/
  | call (tid sr target : Nat)
  /-- `RET` (R89): Branches to the address held in S[11:0]. -/
  | ret (tid sr : Nat)
  /-- `LOOPI` (R91): Activates a loop counter with an immediate count and end address. -/
  | loopi (tid l count target : Nat)
  /-- `LOOPS` (R91): Activates a loop counter with its count taken from a scalar register. -/
  | loops (tid l sr target : Nat)
  /-- `LEXIT` (R93): Deactivates the named loop. -/
  | lexit (tid l : Nat)
  /-- `WAITF` (R95): Holds the bundle until a flag reaches COUNT. -/
  | waitf (tid f count : Nat)
  /-- `WAITFS` (R95): As WAITF, with the count taken from a scalar register. -/
  | waitfs (tid f sr : Nat)
  /-- `WAITF_PASS` (R95): A held wait finds its flag at or above the count, issues with its bundle and consumes the count. -/
  | waitfPass (tid : Nat)
  /-- `BARRIER` (R96): Records the tile's arrival at the next instance of the step's barrier. -/
  | barrier (tid f : Nat)
  /-- `BARRIER_LIMIT_RELEASE` (R140): A BARRIER held at the four-instance limit issues once the oldest open instance completes. -/
  | barrierLimitRelease (tid : Nat)
  /-- `WAKE` (R45): Requests a wake of logical rows of a die. -/
  | wake (tid die rows : Nat)
  /-- `STEP_END` (R97): Holds until the tile's transfers, palette writes and drain finish, then ends the step on the tile. -/
  | stepEnd (tid : Nat)
  /-- `STEP_END_RELEASE` (R97): A held STEP_END issues once its XF transfers, palette writes and drain path are done. -/
  | stepEndRelease (tid : Nat)
  /-- `ADD` (R98): Scalar integer add. -/
  | add (tid d a b : Nat)
  /-- `SUB` (R98): Scalar integer subtract. -/
  | sub (tid d a b : Nat)
  /-- `AND` (R98): Scalar bitwise AND. -/
  | and (tid d a b : Nat)
  /-- `OR` (R98): Scalar bitwise OR. -/
  | or (tid d a b : Nat)
  /-- `XOR` (R98): Scalar bitwise XOR. -/
  | xor (tid d a b : Nat)
  /-- `SHL` (R98): Scalar shift left. -/
  | shl (tid d a b : Nat)
  /-- `SHR` (R98): Scalar logical shift right. -/
  | shr (tid d a b : Nat)
  /-- `SRA` (R98): Scalar arithmetic shift right. -/
  | sra (tid d a b : Nat)
  /-- `CMPEQ` (R98): Scalar compare for equality. -/
  | cmpeq (tid d a b : Nat)
  /-- `CMPLT` (R98): Scalar signed less-than compare. -/
  | cmplt (tid d a b : Nat)
  /-- `CMPLTU` (R98): Scalar unsigned less-than compare. -/
  | cmpltu (tid d a b : Nat)
  /-- `MUL` (R98): Scalar multiply giving the low 32 bits. -/
  | mul (tid d a b : Nat)
  /-- `ADDI` (R98): Scalar add of an immediate. -/
  | addi (tid d a : Nat) (imm : Word)
  /-- `MOVI` (R98): Loads an immediate into a scalar register. -/
  | movi (tid d : Nat) (imm : Word)
  /-- `MOVL` (R98): Reads the remaining count of a loop. -/
  | movl (tid d l : Nat)
  /-- `BCAST` (R98): Broadcasts a scalar to all 256 vector lanes. -/
  | bcast (tid d a : Nat)
  /-- `EXT` (R98): Extracts one vector lane into a scalar register. -/
  | ext (tid d a lane : Nat)
  /-- `ADW` (R100): Writes a descriptor word from a scalar register and resets the position. -/
  | adw (tid d word a : Nat)
  /-- `ADWI` (R100): Writes a descriptor word from an immediate and resets the position. -/
  | adwi (tid d word : Nat) (imm : Word)
  /-- `FSET` (R99): Sets a flag to an immediate value. -/
  | fset (tid f : Nat) (imm : BitVec 16)
  /-- `FEED` (R113): Starts an SU2 operand-A feed and replaces any previous feed. -/
  | feed (tid a pre : Nat)
  /-- `VLD` (R104): Loads 256 B into a quarter of a vector register. -/
  | vld (tid u reg a q : Nat)
  /-- `VLDX8` (R104): Loads 256 bytes zero-extended into lanes. -/
  | vldx8 (tid u reg a : Nat)
  /-- `VLDX4` (R104): Loads 256 4-bit elements zero-extended into lanes. -/
  | vldx4 (tid u reg a : Nat)
  /-- `SLD` (R104): Loads 4 B into a scalar register. -/
  | sld (tid u reg a : Nat)
  /-- `VST` (R104): Stores masked lanes of a vector quarter. -/
  | vst (tid u reg a q p : Nat)
  /-- `SST` (R104): Stores a scalar register. -/
  | sst (tid u reg a : Nat)
  /-- `WBF` (R105): Fills a WB register from local store or glaze. -/
  | wbf (tid wb a off len : Nat)
  /-- `PALW` (R107): Writes palette slots from contiguous memory. -/
  | palw (tid a pslot pcnt pt f : Nat)
  /-- `PALW_COMPLETE` (R107): All slots of a palette write are written and its flag increments. -/
  | palwComplete (tid : Nat)
  /-- `MKS` (R110): Issues a matrix K-step, which opens, extends or closes a block. -/
  | mks (tid fa fb acc wb half sp last : Nat)
  /-- `BLOCK_COMMIT` (R21): A closed block's sum is converted and added to the accumulator at the end of cycle t+8. -/
  | blockCommit (tid elem : Nat) (delta : Int)
  /-- `MCLR` (R108): Clears an accumulator. -/
  | mclr (tid acc : Nat)
  /-- `MDRN` (R112): Drains an accumulator, one converted row per cycle over 64 cycles. -/
  | mdrn (tid acc fmt cc a m : Nat)
  /-- `VFMA` (R74): Vector fused multiply-add. -/
  | vfma (tid u d a b c p ty elem : Nat) (delta : Int)
  /-- `VMUL` (R115): Vector multiply. -/
  | vmul (tid u d a b p ty elem : Nat) (delta : Int)
  /-- `VADD` (R115): Vector add. -/
  | vadd (tid u d a b p ty elem : Nat) (delta : Int)
  /-- `VSUB` (R115): Vector subtract. -/
  | vsub (tid u d a b p ty elem : Nat) (delta : Int)
  /-- `VIADD` (R115): Vector 32-bit integer add. -/
  | viadd (tid u d a b p : Nat)
  /-- `VISUB` (R115): Vector 32-bit integer subtract. -/
  | visub (tid u d a b p : Nat)
  /-- `VAND` (R115): Vector bitwise AND. -/
  | vand (tid u d a b p : Nat)
  /-- `VOR` (R115): Vector bitwise OR. -/
  | vor (tid u d a b p : Nat)
  /-- `VXOR` (R115): Vector bitwise XOR. -/
  | vxor (tid u d a b p : Nat)
  /-- `VSHL` (R115): Vector shift left. -/
  | vshl (tid u d a b p : Nat)
  /-- `VSHR` (R115): Vector logical shift right. -/
  | vshr (tid u d a b p : Nat)
  /-- `VSRA` (R115): Vector arithmetic shift right. -/
  | vsra (tid u d a b p : Nat)
  /-- `VSEL` (R115): Selects lanes by predicate. -/
  | vsel (tid u d a b p : Nat)
  /-- `VFMAX` (R115): Vector floating-point maximum. -/
  | vfmax (tid u d a b p ty : Nat)
  /-- `VFMIN` (R115): Vector floating-point minimum. -/
  | vfmin (tid u d a b p ty : Nat)
  /-- `VCMP` (R115): Vector compare into a predicate. -/
  | vcmp (tid u d a b p ty fn : Nat)
  /-- `VPERM` (R115): Vector lane permute. -/
  | vperm (tid u d a b p : Nat)
  /-- `VCVT` (R116): Vector format conversion, including MX group scaling. -/
  | vcvt (tid u d a p ty t2 cc fn q pk : Nat)
  /-- `VRED` (R117): Cross-lane reduction written to all lanes. -/
  | vred (tid u d a p ty fn : Nat)
  /-- `VPAL` (R115): Palette lookup widened to FP32. -/
  | vpal (tid u d a p sel imm8 : Nat)
  /-- `VTR` (R23): Transcendental operation on VX1. -/
  | vtr (tid d a p fn : Nat)
  /-- `FIXED_LATENCY_WRITEBACK` (R13): A fixed-latency operation writes its result at the end of execution cycle t+n-1. -/
  | fixedLatencyWriteback (tid : Nat)
  /-- `RESIDUE_MX_CHECK` (R49): The matrix residue check of a block completes and raises RESIDUE_MX on mismatch. -/
  | residueMxCheck (tid : Nat)
  /-- `RESIDUE_VX_CHECK` (R49): The vector residue check of an FMA, MUL or ADD completes and raises RESIDUE_VX on mismatch. -/
  | residueVxCheck (tid u : Nat)
  /-- `XRD` (R118): Transfer from a global address into local memory. -/
  | xrd (tid f a sa len : Nat)
  /-- `XWR` (R118): Transfer from local memory to a global address. -/
  | xwr (tid f a sa len : Nat)
  /-- `XWRB` (R118): Broadcast write to tiles of this die. -/
  | xwrb (tid f a sa sb len : Nat)
  /-- `XRED` (R118): Reduce-on-write of local data into lake. -/
  | xred (tid f a sa fmt rop len : Nat)
  /-- `XGATH` (R118): Indexed gather from lake. -/
  | xgath (tid f a sa sb es len : Nat)
  /-- `XSCAT` (R118): Indexed scatter-add into lake. -/
  | xscat (tid f a sa sb fmt es len : Nat)
  /-- `XPDEC` (R200): Reads and decodes P4 blocks from lake. -/
  | xpdec (tid f a sa sb fmt len : Nat)
  /-- `XZERO` (R118): Zeroes a lake range. -/
  | xzero (tid f sa len : Nat)
  /-- `XF_LIMIT_RELEASE` (R120): An XF operation held at 64 outstanding operations issues when one completes. -/
  | xfLimitRelease (tid : Nat)
  /-- `FLAG_INCREMENT` (R32): A variable-latency operation completes at the tile and increments its flag. -/
  | flagIncrement (tid f : Nat)
  /-- `HELD_INCREMENT_REGISTER` (R32): Held increments beyond four per cycle are registered in later cycles. -/
  | heldIncrementRegister (tid f : Nat)
  /-- `BUNDLE_STORE_WRITE` (R36): A bundle store write is accepted, or refused while a step is active. -/
  | bundleStoreWrite (pti addr : Nat) (data : BitVec 512)
  /-- `TILE_SCRUB` (R51): Patrol scrub visits a local-store or bundle-store word through port X. -/
  | tileScrub (pti space : Nat) (ups : List (Nat × Nat))
  /-- `STEP_LAUNCH` (R130): The sequencer launches the next run entry when its conditions hold and sends wake requests. -/
  | stepLaunch (t : Nat)
  /-- `TIMED_WAKE` (R132): FT reaches START_FT minus the wake lead and wake requests go out. -/
  | timedWake (t : Nat)
  /-- `STEP_START` (R127): A launched step starts on its participating tiles after the wake lead or at START_FT. -/
  | stepStart (t : Nat)
  /-- `ROW_WAKE_COMPLETE` (R42): A waking row becomes ACTIVE after its wake time. -/
  | rowWakeComplete (r t : Nat)
  /-- `ROW_RETAIN` (R381): A row idle in CLKGATE for 100 µs is put in RETAIN. -/
  | rowRetain (r t : Nat)
  /-- `STEP_COMPLETE` (R134): The sequencer records a step's completion after the last STEP_END, and the run ends after its last entry. -/
  | stepComplete (t : Nat)
  /-- `WATCHDOG` (R136): A tile's counted periods reach BUDGET without STEP_END, and WATCHDOG is raised. -/
  | watchdog (tid : Nat)
  /-- `CONTEXT_KILL` (R407): A kill begins: the sequencer stops, tiles stop and RUN_STATE becomes killed. -/
  | contextKill (t : Nat)
  /-- `ABORT_SEND` (R276): The killing package sends ABORT on every usable link and takes CTX_GEN plus 1. -/
  | abortSend (t : Nat)
  /-- `LAKE_DRAIN_END` (R212): Old-generation lake requests are applied and teardown zeroing starts. -/
  | lakeDrainEnd (rsp : List (Nat × List (Nat × Nat))) (t : Nat)
  /-- `GLAZE_ZERO_DONE` (R189): Teardown zeroing of the glaze slices finishes. -/
  | glazeZeroDone (t : Nat)
  /-- `TILE_ZERO_DONE` (R407): Local store, palettes, registers, flags and the step table are cleared and bundle stores invalidated. -/
  | tileZeroDone (t : Nat)
  /-- `LAKE_ZERO_DONE` (R212): A stack finishes teardown zeroing, and held generation-free requests are served. -/
  | lakeZeroDone (k : Nat) (rsp : List (Nat × List (Nat × Nat))) (t : Nat)
  /-- `FREEZE_NOTE_SEND` (R143): A die frozen for 50 µs, or for a further 1 ms, sends FREEZE_NOTE to the group root. -/
  | freezeNoteSend (d g t : Nat)
  /-- `FREEZE_NOTE` (R143): A received freeze notice is relayed down the tree and becomes live. -/
  | freezeNote (l t : Nat)
  /-- `FREEZE_NOTE_LAPSE` (R143): A freeze notice lapses 3 ms after the last one received. -/
  | freezeNoteLapse (g t : Nat)
  /-- `BARRIER_UP` (R139): A child's arrival is received; the package may arrive and forward it or complete as root. -/
  | barrierUp (l t : Nat)
  /-- `BARRIER_DONE` (R139): A completion is received, forwarded to children, and the instance completes. -/
  | barrierDone (l t : Nat)
  /-- `ARBITER_GRANT` (R167): An arbiter decides its next grant, using the reserved-grant rule. -/
  | arbiterGrant (kind idx : Nat) (reqs : List (Nat × Nat × Nat)) (rsp : List (Nat × List (Nat × Nat)))
  /-- `EMERGENCY_GRANT` (R168): An emergency requester is granted at the next beat boundary and interrupts any transfer. -/
  | emergencyGrant (kind idx t : Nat)
  /-- `PACKET_HOP` (R184): A router or bridge input checks each word, corrects, drops or poisons, and forwards. -/
  | packetHop (id : Nat) (errs : List (Nat × Nat))
  /-- `BRIDGE_CROSSING` (R182): A packet crosses a bridge with its SRC_EP and TAG replaced. -/
  | bridgeCrossing (id : Nat) (errs : List (Nat × Nat))
  /-- `RD_REQ` (R178): A read request reaches its endpoint and is served. -/
  | rdReq (id : Nat)
  /-- `RD_DATA` (R178): Read data reaches the requester and is written through port X. -/
  | rdData (id : Nat)
  /-- `WR` (R178): A write reaches its endpoint and is applied. -/
  | wr (id : Nat)
  /-- `WR_ACK` (R178): A write acknowledgement reaches the requester. -/
  | wrAck (id : Nat)
  /-- `BCAST_WR` (R180): A broadcast write is copied to masked tiles and written. -/
  | bcastWr (id : Nat)
  /-- `BCAST_ACK` (R180): A combined broadcast acknowledgement reaches the source. -/
  | bcastAck (id : Nat)
  /-- `GEN_NACK` (R412): A generation NACK reaches the requester, which does not increment its flag. -/
  | genNack (id : Nat)
  /-- `ERR_RESP` (R124): An error response reaches the requester. -/
  | errResp (id : Nat)
  /-- `GLAZE_ARBITER_READ` (R185): A read through the glaze arbiter path corrects, or raises GLAZE_DBE. -/
  | glazeArbiterRead (id : Nat) (ups : List (Nat × Nat))
  /-- `GLAZE_SCRUB_VISIT` (R186): Glaze patrol scrub reads a beat and writes back a correction. -/
  | glazeScrubVisit (d : Nat) (ups : List (Nat × Nat)) (wrote : Bool)
  /-- `LAKE_READ` (R195): A lake read is registered and applied at its burst. -/
  | lakeRead (id : Nat) (req rsp ups : List (Nat × Nat)) (t : Nat)
  /-- `LAKE_WRITE` (R195): A lake write is registered and applied. -/
  | lakeWrite (id : Nat) (req rsp : List (Nat × Nat)) (t : Nat)
  /-- `LAKE_REDUCE` (R196): A reduce-on-write piece is applied to the lake elements. -/
  | lakeReduce (id : Nat) (req rsp ups : List (Nat × Nat)) (t : Nat)
  /-- `LAKE_SCATTER_ADD` (R198): A scatter-add element piece is applied. -/
  | lakeScatterAdd (id : Nat) (req rsp ups : List (Nat × Nat)) (t : Nat)
  /-- `LAKE_GATHER` (R198): A gather piece reads an element and returns it. -/
  | lakeGather (id : Nat) (req rsp ups : List (Nat × Nat)) (t : Nat)
  /-- `LAKE_PALETTE_DECODE` (R203): A palette decode piece decodes P4 blocks. -/
  | lakePaletteDecode (id : Nat) (req rsp ups : List (Nat × Nat)) (t : Nat)
  /-- `LAKE_RANGE_ZERO` (R204): A range zeroing piece writes zeros through the internal path. -/
  | lakeRangeZero (id : Nat) (req rsp : List (Nat × Nat)) (t : Nat)
  /-- `LAKE_DONE` (R207): A lake operation's completion reaches the issuer. -/
  | lakeDone (id : Nat)
  /-- `LAKE_REFRESH` (R209): Refresh takes an emergency grant on a channel. -/
  | lakeRefresh (k c t : Nat)
  /-- `LAKE_SCRUB_VISIT` (R216): Lake patrol scrub reads a burst and writes back a correction. -/
  | lakeScrubVisit (k c : Nat) (ups : List (Nat × Nat)) (t : Nat)
  /-- `LAKE_SPARE_COPY_DONE` (R217): The sparing copy finishes and waiting requests go to the spare row. -/
  | lakeSpareCopyDone (k : Nat) (rsp : List (Nat × List (Nat × Nat)))
  /-- `LAKE_CHANNEL_PDN` (R384): A channel idle for 1 µs enters L_PDN. -/
  | lakeChannelPdn (k c t : Nat)
  /-- `LAKE_CHANNEL_SREF` (R384): A channel idle for 10 ms with no context enters L_SREF. -/
  | lakeChannelSref (k c t : Nat)
  /-- `LAKE_CHANNEL_WAKE` (R210): A request wakes a channel, which returns to L_ACTIVE and serves it. -/
  | lakeChannelWake (k c : Nat) (rsp : List (Nat × List (Nat × Nat))) (t : Nat)
  /-- `DEFECT_LIST_WRITE` (R345): The firmware writes a newly found defective unit to the flash list. -/
  | defectListWrite (t : Nat)
  /-- `DMA_DOORBELL` (R236): The doorbell begins a descriptor, rereads a parked one, or sets PEND. -/
  | dmaDoorbell (c : Nat) (byHost : Bool) (t : Nat)
  /-- `DMA_STOP` (R237): A stop issues no new request and leads the channel to IDLE. -/
  | dmaStop (c : Nat) (byHost : Bool) (t : Nat)
  /-- `DMA_NEXT_WRITE` (R236): A write to DMA_NEXT takes effect only in IDLE or HALTED. -/
  | dmaNextWrite (c : Nat) (byHost hi : Bool) (v : Nat)
  /-- `DMA_DESC_FETCH` (R233): A descriptor read completes and the channel halts, parks or runs it. -/
  | dmaDescFetch (c code : Nat) (data : BitVec 2048) (t : Nat)
  /-- `DMA_SHADOW_READ` (R234): The next descriptor is read into the shadow registers. -/
  | dmaShadowRead (c t : Nat)
  /-- `DMA_COPY` (R230): COPY moves LEN bytes unchanged. -/
  | dmaCopy (c : Nat) (wr : Bool) (t : Nat)
  /-- `DMA_ILV` (R230): ILV splits or joins interleaved element groups. -/
  | dmaIlv (c : Nat) (wr : Bool) (t : Nat)
  /-- `DMA_BPL` (R231): BPL splits or merges bit planes. -/
  | dmaBpl (c : Nat) (wr : Bool) (t : Nat)
  /-- `DMA_MXS` (R232): MXS separates or joins MX element and scale streams. -/
  | dmaMxs (c : Nat) (wr : Bool) (t : Nat)
  /-- `DMA_REQUEST_ANSWER` (R242): An answer to a DMA request arrives, and a failure ends the descriptor. -/
  | dmaRequestAnswer (c tok code : Nat) (data : BitVec 2048) (t : Nat)
  /-- `DMA_REQUEST_TIMEOUT` (R241): A request timer expires and the descriptor ends with DMA_S_TIMEOUT. -/
  | dmaRequestTimeout (c tok t : Nat)
  /-- `FRAME_RX` (R259): A frame is received, accepted or found bad and discarded with NAK. -/
  | frameRx (l : Nat) (frame : BitVec 5140) (fecBad : Bool) (corrected t : Nat)
  /-- `NAK_REPEAT` (R259): The NAK ACK is repeated every 1 µs until RSTART arrives. -/
  | nakRepeat (l t : Nat)
  /-- `ACK_SEND` (R260): The receiver sends an ACK every 32 frames or 200 ns. -/
  | ackSend (l t : Nat)
  /-- `ACK` (R259): An ACK frees replay entries and credits; a NAK starts a replay. -/
  | ack (l t : Nat)
  /-- `REPLAY_EXHAUSTION` (R261): Resend count or the 4 µs ACK timer expires, starting a fast retrain. -/
  | replayExhaustion (l t : Nat)
  /-- `PKT` (R272): A PKT arrives at the package edge and is checked for DLPN and generation. -/
  | pkt (l t : Nat)
  /-- `EGRESS_GRANT` (R265): The link egress arbiter grants a packet or slot to the next frame. -/
  | egressGrant (l t : Nat)
  /-- `HEARTBEAT` (R429): A member's HEARTBEAT slot is received by the spare. -/
  | heartbeat (l t : Nat)
  /-- `HEARTBEAT_SEND` (R427): A bound package sends a HEARTBEAT slot every 1 ms. -/
  | heartbeatSend (t : Nat)
  /-- `ABORT` (R276): A received ABORT is relayed and kills a matching context, or is dropped. -/
  | abort (l t : Nat)
  /-- `LPN_CLAIM` (R277): A received LPN_CLAIM is applied under R437 and relayed once. -/
  | lpnClaim (l t : Nat)
  /-- `LPN_CLAIM_RESEND` (R277): The spare resends its LPN_CLAIM 2 s after the first. -/
  | lpnClaimResend (t : Nat)
  /-- `SYNC` (R147): A parent's SYNC is received and the package replies DREQ. -/
  | sync (l t : Nat)
  /-- `DREQ` (R147): A child's DREQ is received and answered with RESP. -/
  | dreq (l t : Nat)
  /-- `RESP` (R147): A RESP completes a measurement and the package steers its rate and time state. -/
  | resp (l t : Nat)
  /-- `TIM_SYNC_SEND` (R147): The parent sends SYNC every 62.5 µs on the parent link or 1 ms otherwise. -/
  | timSyncSend (l : Nat) (child : Bool) (t : Nat)
  /-- `TIM_PARENT_TIMEOUT` (R148): The parent sends no TIM for 250 µs; the package changes parent or enters holdover. -/
  | timParentTimeout (t : Nat)
  /-- `MASTER_LISTEN_END` (R153): A new master ends its 10 ms listen and adopts a holdover far end's time or keeps its own. -/
  | masterListenEnd (t : Nat)
  /-- `PPS_IN_EDGE` (R156): The master timestamps a PPS_IN edge and steers or rejects it. -/
  | ppsInEdge (t : Nat)
  /-- `PPS_IN_MISSED` (R156): An expected PPS_IN edge does not come, which counts toward losing PPS_IN_LOCKED. -/
  | ppsInMissed (t : Nat)
  /-- `PPS_OUT_RISE` (R157): FT plus TAI offset crosses a whole second by counting and PPS_OUT rises. -/
  | ppsOutRise (t : Nat)
  /-- `PPS_OUT_FALL` (R157): PPS_OUT goes low 100 µs after its rising edge. -/
  | ppsOutFall (t : Nat)
  /-- `SYNC_AUX_TIMECODE` (R158): A timecode frame is sent 200 µs after a PPS_OUT edge. -/
  | syncAuxTimecode (t : Nat)
  /-- `PTP_SYNC_SEND` (R159): The PTP master sends Sync and Follow_Up at logSyncInterval. -/
  | ptpSyncSend (t : Nat)
  /-- `PTP_ANNOUNCE_SEND` (R159): The PTP master sends Announce at logAnnounceInterval. -/
  | ptpAnnounceSend (t : Nat)
  /-- `DELAY_REQ` (R159): A received Delay_Req is answered with Delay_Resp. -/
  | delayReq (domain t : Nat)
  /-- `PTP_MESSAGE_RX` (R160): A received Announce or Sync is counted, or another message is dropped. -/
  | ptpMessageRx (kind domain : Nat)
  /-- `FT_SAMPLE_READ` (R161): An 8-byte read at 0x2000 returns one FT sample. -/
  | ftSampleRead (t : Nat)
  /-- `FT_LO_READ` (R161): A 4-byte FT_LO read takes a sample and latches its high half. -/
  | ftLoRead (t : Nat)
  /-- `IDENT` (R279): A received identity block is compared against the wiring plan. -/
  | ident (l t : Nat)
  /-- `IDENT_SEND` (R278): IDENT is sent every 10 µs in IDENT or every 1 s in UP and MISWIRED. -/
  | identSend (l t : Nat)
  /-- `HANDOFF_REQ` (R269): The far end stops the failed link, frees its credits and answers EXP_SEQ. -/
  | handoffReq (l t : Nat)
  /-- `HANDOFF_RSP` (R269): The package resends unacknowledged packets on the new link. -/
  | handoffRsp (l t : Nat)
  /-- `HANDOFF_TIMEOUT` (R270): No HANDOFF_RSP arrives in 20 µs; packets are discarded and LINK_LOST may be raised. -/
  | handoffTimeout (l t : Nat)
  /-- `RETRAIN` (R285): A received RETRAIN starts a fast retrain. -/
  | retrain (l t : Nat)
  /-- `LINK_TRAIN_START` (R282): Full training of a link starts, at once, after 1 s retry, or when a ROLLING slot frees. -/
  | linkTrainStart (l : Nat) (pmd : Option Nat) (t : Nat)
  /-- `TRAIN_PHASE_TIMEOUT` (R282): A training phase exceeds its bound and the link returns to DOWN. -/
  | trainPhaseTimeout (l t : Nat)
  /-- `LINK_TRAIN_COMPLETE` (R282): Training ends with credit initialisation and the link enters UP, SPARE_HELD or MISWIRED. -/
  | linkTrainComplete (l : Nat) (asym : Int) (t : Nat)
  /-- `LOSS_OF_SIGNAL` (R284): Loss of signal on both lanes takes the link to DOWN. -/
  | lossOfSignal (l t : Nat)
  /-- `LANE_LOCK_LOSS` (R285): Loss of codeword lock on one lane starts a fast retrain or DEGRADED. -/
  | laneLockLoss (l lane t : Nat)
  /-- `FAST_RETRAIN_END` (R285): A fast retrain ends, the previous state is restored and replay resumes. -/
  | fastRetrainEnd (l : Nat) (ok0 ok1 : Bool) (t : Nat)
  /-- `FAST_RETRAIN_TIMEOUT` (R267): A fast retrain exceeds 100 µs; the link goes to full training and its slot moves. -/
  | fastRetrainTimeout (l t : Nat)
  /-- `DEGRADED_TIMEOUT` (R285): A link DEGRADED for 1 s enters full training when an SCH spare is held. -/
  | degradedTimeout (l t : Nat)
  /-- `CONFIG_REQUEST` (R288): A CXL configuration request is answered. -/
  | configRequest (write : Bool) (reg v t : Nat)
  /-- `CXL_LINK_TRAIN` (R288): The CXL port trains to the highest common rate and width. -/
  | cxlLinkTrain (cxl : Bool) (rate width t : Nat)
  /-- `CXL_LINK_DOWN` (R290): The CXL link goes down and HDM requests in flight are discarded. -/
  | cxlLinkDown (t : Nat)
  /-- `PERST_N` (R290): PERST_N assertion resets the CXL side, mailbox indices and host DMA. -/
  | perstN (t : Nat)
  /-- `HOT_RESET` (R290): A hot reset acts as PERST_N on the CXL side. -/
  | hotReset (t : Nat)
  /-- `PERST_N_DEASSERT` (R483): PERST_N deasserts, the reference clock presence is detected and the port comes up. -/
  | perstNDeassert (refclk : Bool) (t : Nat)
  /-- `HDM_READ` (R294): A host read through the HDM window reaches lake. -/
  | hdmRead (hpa tag : Nat) (req rsp ups : List (Nat × Nat)) (t : Nat)
  /-- `HDM_WRITE` (R294): A host write through the HDM window reaches lake. -/
  | hdmWrite (hpa tag : Nat) (data : BitVec 512) (poisoned : Bool) (req rsp : List (Nat × Nat)) (t : Nat)
  /-- `BAR2_ACCESS` (R293): A host access to BAR2 rings or staging. -/
  | bar2Access (write : Bool) (addr len : Nat) (data : BitVec 2048) (poisoned : Bool) (ups : List (Nat × Nat)) (t : Nat)
  /-- `PROD_WRITE` (R298): A PROD write registers commands or is ignored with PROD_ERR. -/
  | prodWrite (n v t : Nat)
  /-- `SM_ADDR_WRITE` (R292): A status-mirror address write, ignored while EN is 1. -/
  | smAddrWrite (hi : Bool) (v t : Nat)
  /-- `STATUS_MIRROR_ENABLE` (R304): Setting EN writes the whole page within 100 µs, then sets ACTIVE. -/
  | statusMirrorEnable (t : Nat)
  /-- `STATUS_RECORD_WRITE` (R306): A record is rewritten within 10 µs of a registered change. -/
  | statusRecordWrite (r t : Nat)
  /-- `STATUS_MIRROR_REFRESH` (R306): Every record is rewritten at least once every 1 ms. -/
  | statusMirrorRefresh (t : Nat)
  /-- `MIRROR_HEARTBEAT` (R306): HEARTBEAT increments every 1 ms while the Mordant complex runs. -/
  | mirrorHeartbeat (t : Nat)
  /-- `RC_READ` (R10): A read of an RC field returns the value and clears it. -/
  | rcRead (byHost : Bool) (addr size same t : Nat)
  /-- `REGISTER_WRITE` (R10): A write to a register without its own row, applied by access code. -/
  | registerWrite (byHost : Bool) (addr v size t : Nat)
  /-- `MAILBOX_DEADLINE_EXPIRY` (R300): A command not begun by its deadline is answered MBX_E_EXPIRED. -/
  | mailboxDeadlineExpiry (mb t : Nat)
  /-- `MMB_DATAGRAM` (R317): A management datagram is authenticated and registered, repeated or discarded. -/
  | mmbDatagram (b : List Byte) (t : Nat)
  /-- `INDEX_QUERY` (R318): An index query is answered with an index reply. -/
  | indexQuery (b : List Byte) (t : Nat)
  /-- `MANAGER_ABSENT_TIMEOUT` (R374): After 30 s without a datagram, CAP_MGR takes ORPHAN_CAP. -/
  | managerAbsentTimeout (t : Nat)
  /-- `ENTDAA` (R315): The I3C target port takes its dynamic address. -/
  | entdaa (addr t : Nat)
  /-- `I3C_PRIVATE_WRITE` (R315): A tray controller command arrives by I3C private write. -/
  | i3cPrivateWrite (b : List Byte) (t : Nat)
  /-- `I3C_PRIVATE_READ` (R315): A private read returns the ready response once, or is NACKed. -/
  | i3cPrivateRead (t : Nat)
  /-- `I3C_PRESENCE_TIMEOUT` (R315): The tray controller counts absent after 30 s without a command. -/
  | i3cPresenceTimeout (t : Nat)
  /-- `ID_GET` (R320): Returns identity. -/
  | idGet (mb t : Nat)
  /-- `STATE_GET` (R320): Returns state, faults, power and time summary. -/
  | stateGet (mb t : Nat)
  /-- `CFG_PART` (R321): Appends staged image data to the configuration buffer. -/
  | cfgPart (mb t : Nat)
  /-- `CFG_COMMIT` (R361): Validates and accepts an image, entering CONFIGURED. -/
  | cfgCommit (mb t : Nat)
  /-- `CFG_INFO` (R321): Returns the accepted image's digest, length and FT. -/
  | cfgInfo (mb t : Nat)
  /-- `CFG_CLEAR` (R321): Discards the accepted image and enters AWAIT_CONFIG. -/
  | cfgClear (mb t : Nat)
  /-- `CLAIM_SET` (R323): Adds or releases a resource claim. -/
  | claimSet (mb t : Nat)
  /-- `CTX_ACCEPT` (R324): Accepts a context, maps rows and enters RUNNING. -/
  | ctxAccept (mb t : Nat)
  /-- `BUNDLE_LOAD` (R324): Loads bundles into masked tiles, optionally across the fabric. -/
  | bundleLoad (mb t : Nat)
  /-- `STEP_WRITE` (R129): Writes step headers to the step table. -/
  | stepWrite (mb t : Nat)
  /-- `RUN_SUBMIT` (R129): Submits a run of step-table indices. -/
  | runSubmit (mb t : Nat)
  /-- `RUN_STOP` (R324): Stops further launches of the run. -/
  | runStop (mb t : Nat)
  /-- `CTX_KILL` (R324): Kills the context with ABORT. -/
  | ctxKill (mb t : Nat)
  /-- `CTX_END` (R324): Tears the context down without ABORT. -/
  | ctxEnd (mb t : Nat)
  /-- `WARM_RESET` (R324): Package warm reset after writing the response. -/
  | warmReset (mb t : Nat)
  /-- `CAP_SET` (R327): Sets CAP_HOST or CAP_MGR. -/
  | capSet (mb t : Nat)
  /-- `CAP_GET` (R327): Returns the caps. -/
  | capGet (mb t : Nat)
  /-- `HOLD_SET` (R328): Sets the party's hold. -/
  | holdSet (mb t : Nat)
  /-- `HOLD_RELEASE` (R328): Releases the party's own hold. -/
  | holdRelease (mb t : Nat)
  /-- `SPRINT_SET` (R397): Sets the party's sprint permission. -/
  | sprintSet (mb t : Nat)
  /-- `POWER_GET` (R327): Returns power and cooling values. -/
  | powerGet (mb t : Nat)
  /-- `TIME_GET` (R330): Returns time state and FT. -/
  | timeGet (mb t : Nat)
  /-- `TAI_SET` (R330): Sets the master's TAI offset. -/
  | taiSet (mb t : Nat)
  /-- `MASTER_SET` (R330): Replaces the time master LPN. -/
  | masterSet (mb t : Nat)
  /-- `PTP_GET` (R330): Returns PTP counters and clock values. -/
  | ptpGet (mb t : Nat)
  /-- `SPARE_BIND` (R424): Binds the package as member or spare. -/
  | spareBind (mb t : Nat)
  /-- `SPARE_UNBIND` (R425): Ends the binding and releases fences. -/
  | spareUnbind (mb t : Nat)
  /-- `SPARE_GET` (R331): Returns spare and mirror state. -/
  | spareGet (mb t : Nat)
  /-- `MIRROR_REGIONS` (R331): Sets the mirrored lake regions. -/
  | mirrorRegions (mb t : Nat)
  /-- `MIRROR_POINT` (R432): Starts copying a consistent point on DMA15. -/
  | mirrorPoint (mb t : Nat)
  /-- `FW_STAGE_BEGIN` (R445): Begins or resumes firmware staging. -/
  | fwStageBegin (mb t : Nat)
  /-- `STAGING_ERASE_DONE` (R445): The staging erase finishes and the begin response is written. -/
  | stagingEraseDone (t : Nat)
  /-- `FW_CHUNK` (R445): Stores a firmware part and checks a completed chunk. -/
  | fwChunk (mb t : Nat)
  /-- `CHUNK_WRITE_DONE` (R445): A checked chunk is written to staging and its bitmap bit set. -/
  | chunkWriteDone (t : Nat)
  /-- `FW_STATUS` (R333): Returns firmware versions and staging state. -/
  | fwStatus (mb t : Nat)
  /-- `FW_ACTIVATE` (R448): Verifies the staged image and requests activation. -/
  | fwActivate (mb t : Nat)
  /-- `FW_DEFER` (R449): Defers a requested activation once by a lease. -/
  | fwDefer (mb t : Nat)
  /-- `ACTIVATION_PREP_DONE` (R448): Slot write, readback and standby load finish, or fail and cancel the request. -/
  | activationPrepDone (good : Bool) (left : List Byte) (t : Nat)
  /-- `ACTIVATION_BEGIN` (R449): The notice or lease ends and activation begins with a drain. -/
  | activationBegin (t : Nat)
  /-- `HANDOVER_START` (R450): The drain ends; HANDOVER is set and the handover record written. -/
  | handoverStart (t : Nat)
  /-- `HANDOVER_IMPORT` (R450): The new firmware imports the handover record and signals the watch core. -/
  | handoverImport (good : Bool) (t : Nat)
  /-- `WATCH_BANK_SWITCH` (R450): The watch core switches code bank at a control-period boundary. -/
  | watchBankSwitch (t : Nat)
  /-- `HANDOVER_END` (R450): HANDOVER clears, commands resume and the self-check begins. -/
  | handoverEnd (t : Nat)
  /-- `SELF_CHECK_PASS` (R452): After 60 s the boot record names the new slot and staging is emptied. -/
  | selfCheckPass (cut : Bool) (t : Nat)
  /-- `ROLLBACK` (R452): A self-check failure restarts the previous firmware. -/
  | rollback (own : Bool) (t : Nat)
  /-- `ARB_RAISE` (R453): After 60 s of running the anti-rollback level rises and keys are revoked. -/
  | arbRaise (t : Nat)
  /-- `ATTEST` (R457): Returns, or builds and signs, an attestation report. -/
  | attest (mb t : Nat)
  /-- `IDENTITY` (R455): Returns the identity blob. -/
  | identity (mb t : Nat)
  /-- `KEY_SET` (R335): Stores a management key. -/
  | keySet (mb t : Nat)
  /-- `KEY_CLEAR` (R336): Empties a key slot. -/
  | keyClear (mb t : Nat)
  /-- `LOG_READ` (R337): Returns log entries. -/
  | logRead (mb t : Nat)
  /-- `REG_READ` (R337): Reads a register range, clearing RC fields. -/
  | regRead (mb : Nat) (same : List Nat) (t : Nat)
  /-- `DEBUG_ENABLE` (R338): Records a party's scope enable. -/
  | debugEnable (mb t : Nat)
  /-- `DEBUG_DISABLE` (R338): Ends the named scopes. -/
  | debugDisable (mb t : Nat)
  /-- `PERTURB_SET` (R460): Writes a perturbation register. -/
  | perturbSet (mb t : Nat)
  /-- `PERTURB_GET` (R338): Reads a perturbation register. -/
  | perturbGet (mb t : Nat)
  /-- `PT_LINK_DELAY` (R459): Delays PKT and MGT slots at link egress. -/
  | ptLinkDelay (t : Nat)
  /-- `PT_CREDIT_HOLD` (R459): Withholds freed credits of a pool. -/
  | ptCreditHold (t : Nat)
  /-- `PT_LAKE_LAT` (R459): Holds external lake requests before registration. -/
  | ptLakeLat (t : Nat)
  /-- `PT_MBX_DELAY` (R459): Delays the begin of commands of masked mailboxes. -/
  | ptMbxDelay (t : Nat)
  /-- `PT_MEAS_OFS` (R459): Scales a power sense channel reading. -/
  | ptMeasOfs (t : Nat)
  /-- `PT_TEMP_OFS` (R459): Offsets temperature sensor readings. -/
  | ptTempOfs (t : Nat)
  /-- `PT_FLOW_OFS` (R459): Scales flow or drops FLOW_PULSE edges. -/
  | ptFlowOfs (t : Nat)
  /-- `PT_FORCE_SHED` (R459): Forces the hardware shed path. -/
  | ptForceShed (t : Nat)
  /-- `FORCED_SHED_END` (R459): A forced shed ends after DURATION or at the PT_TIMER off edge. -/
  | forcedShedEnd (t : Nat)
  /-- `PT_CLK_START` (R459): Adds extra time to wakes or fast retrain starts. -/
  | ptClkStart (t : Nat)
  /-- `PT_CHECKS` (R459): Disables checks ORed with CHECKS_OFF. -/
  | ptChecks (t : Nat)
  /-- `PT_TRIGGER` (R459): Claims SYNC_AUX and drives it while an action is in effect. -/
  | ptTrigger (t : Nat)
  /-- `PT_TIMER` (R459): Claims a timer and gates actions to an on window. -/
  | ptTimer (t : Nat)
  /-- `PT_TIMER_EDGE` (R459): A PT_TIMER on or off edge starts or stops the actions. -/
  | ptTimerEdge (t : Nat)
  /-- `DEBUG_SCOPE_EXPIRY` (R338): A scope's duration ends and registers return to defaults. -/
  | debugScopeExpiry (t : Nat)
  /-- `DEBUG_EN_N_DEASSERT` (R467): The DEBUG_EN_N strap goes high and ends both scopes. -/
  | debugEnNDeassert (t : Nat)
  /-- `IDCODE` (R465): JTAG IDCODE instruction. -/
  | idcode
  /-- `SAMPLE_PRELOAD` (R465): JTAG SAMPLE/PRELOAD instruction. -/
  | samplePreload (lands shift : Nat)
  /-- `EXTEST` (R465): JTAG EXTEST, only in STANDBY with debug strap low. -/
  | extest (lands shift : Nat)
  /-- `CLAMP` (R465): JTAG CLAMP instruction. -/
  | clamp
  /-- `HIGHZ` (R465): JTAG HIGHZ instruction. -/
  | highz
  /-- `BYPASS` (R465): JTAG BYPASS instruction. -/
  | bypass
  /-- `DAP` (R465): Selects the debug access register. -/
  | dap
  /-- `DAP_READ` (R466): A debug access read at Update-DR. -/
  | dapRead (addrW same : Nat) (req rsp : List (Nat × Nat)) (t : Nat)
  /-- `DAP_WRITE` (R466): A debug access write, refused outside RW and W1C fields. -/
  | dapWrite (addrW data : Nat) (req rsp : List (Nat × Nat)) (t : Nat)
  /-- `CONTROL_PERIOD` (R369): The watch core computes the limit, allotment, run fractions and thermal responses every 100 µs. -/
  | controlPeriod (a b va vb : Nat) (ts : List (Nat × Nat)) (dem : List Nat) (t : Nat)
  /-- `DIE_FREEZE` (R382): Freeze duty freezes and unfreezes a die within each 10 µs pattern. -/
  | dieFreeze (d t : Nat)
  /-- `CALIBRATION_WINDOW` (R387): Every 100 ms the estimate factor k and divergence are updated. -/
  | calibrationWindow (t : Nat)
  /-- `CAP_HW_RAMP` (R392): CAP_HW rises by 20 % every 10 ms after a release. -/
  | capHwRamp (t : Nat)
  /-- `SPRINT_BIN_ROLL` (R398): A sprint bin closes and bins are written to flash every 60 s. -/
  | sprintBinRoll (t : Nat)
  /-- `SHED_N_ASSERT` (R391): SHED_N asserts; all dies freeze and a 1,200 W term follows. -/
  | shedNAssert (t : Nat)
  /-- `SHED_N_DEASSERT` (R390): SHED_N counts as deasserted after 1 ms high and the ramp starts. -/
  | shedNDeassert (t : Nat)
  /-- `LEAK_N_ASSERT` (R391): LEAK_N asserts; dies freeze and a controlled stop starts. -/
  | leakNAssert (t : Nat)
  /-- `LEAK_N_DEASSERT` (R390): LEAK_N counts as deasserted after 1 ms high. -/
  | leakNDeassert (t : Nat)
  /-- `LEAK_RELEASE` (R391): LEAK_N high for 10 s releases the leak response. -/
  | leakRelease (t : Nat)
  /-- `FLOW_PULSE_EDGE` (R390): A FLOW_PULSE edge updates the flow measurement. -/
  | flowPulseEdge (t : Nat)
  /-- `FLOW_TIMEOUT` (R391): No flow edge for 20 ms or low flow sets a 600 W term with dies at n = 0. -/
  | flowTimeout (t : Nat)
  /-- `FLOW_STOP_TIMEOUT` (R391): Flow not released 5 s after the response starts a controlled stop. -/
  | flowStopTimeout (t : Nat)
  /-- `FLOW_RELEASE` (R391): Flow at or above MIN_FLOW for 1 s releases the flow response. -/
  | flowRelease (t : Nat)
  /-- `CONTROLLED_STOP_FREEZE` (R393): At stop start plus 100 ms, dies with active steps are held at n = 0. -/
  | controlledStopFreeze (t : Nat)
  /-- `CONTROLLED_STOP_END` (R393): The cause released for 10 s ends the controlled stop. -/
  | controlledStopEnd (t : Nat)
  /-- `HOLD_N_ASSERT` (R328): HOLD_N asserts and sets the tray controller's hold. -/
  | holdNAssert (t : Nat)
  /-- `HOLD_N_DEASSERT` (R328): HOLD_N deasserts and releases that hold. -/
  | holdNDeassert (t : Nat)
  /-- `THERMTRIP` (R391): A sensor at 115 °C drives THERMTRIP_N low, stops stage 1 and goes to STANDBY. -/
  | thermtrip (tray : Bool) (t : Nat)
  /-- `STAGE1_CURRENT_LIMIT` (R370): A stage-1 chiplet reaches its limit and freezes every die. -/
  | stage1CurrentLimit (t : Nat)
  /-- `REGULATOR_CURRENT_LIMIT` (R368): A C-die regulator reaches its rated output and freezes its die. -/
  | regulatorCurrentLimit (d t : Nat)
  /-- `CONVERTER_PHASE_FAIL` (R366): A converter phase fails, is masked and adds a defect entry. -/
  | converterPhaseFail (reg phase t : Nat)
  /-- `REGULATOR_OUT_OF_REGULATION` (R476): A stage-2 regulator leaves regulation and PG_OUT goes low. -/
  | regulatorOutOfRegulation (reg : Nat)
  /-- `SENSOR_DISAGREE` (R389): A sensor pair differs by over 5 °C for 100 ms and sets FAULTS bit 9. -/
  | sensorDisagree (location t : Nat)
  /-- `COLD_PLATE_READ` (R389): Cold-plate sensors are read every 10 ms. -/
  | coldPlateRead (answers : Bool) (inlet outlet pressure t : Nat)
  /-- `WATCH_CORE_STALL` (R414): The hardware watchdog applies the safe cap after a 50 ms stall. -/
  | watchCoreStall (t : Nat)
  /-- `WATCH_CORE_RESTART` (R414): The watch core runs again and resumes control. -/
  | watchCoreRestart (t : Nat)
  /-- `MORDANT_RESTART` (R413): A core misses check-ins for 20 ms and the Mordant complex restarts. -/
  | mordantRestart (core t : Nat)
  /-- `MORDANT_RESTART_END` (R413): The restart ends and journalled commands are completed or answered. -/
  | mordantRestartEnd (started : List Nat) (t : Nat)
  /-- `BLADE_POWER_UP` (R340): The blade rises through 46 V and the package enters STANDBY with FT counting. -/
  | bladePowerUp (straps : Nat) (thermLow : Bool)
  /-- `BLADE_POWER_LOSS` (R340): The blade falls below 46 V and hold-up starts. -/
  | bladePowerLoss (t : Nat)
  /-- `HOLD_UP_EXPIRY` (R477): Hold-up runs out and the package enters OFF. -/
  | holdUpExpiry (t : Nat)
  /-- `PWR_EN_HIGH` (R476): PWR_EN high with PRSNT_N low enters BOOT and sequences the rails. -/
  | pwrEnHigh (straps t : Nat)
  /-- `PWR_EN_LOW` (R477): PWR_EN low closes the gate and leads to STANDBY. -/
  | pwrEnLow (t : Nat)
  /-- `PRSNT_N_BREAK` (R477): PRSNT_N breaks; the gate closes, an unclean removal is recorded and STANDBY follows. -/
  | prsntNBreak (t : Nat)
  /-- `BLADE_UNDERVOLTAGE` (R478): The blade below 43 V for 10 µs stops stage 1. -/
  | bladeUndervoltage (t : Nat)
  /-- `BLADE_OVERVOLTAGE` (R478): The blade above 59 V for 10 µs stops stage 1. -/
  | bladeOvervoltage (t : Nat)
  /-- `REFCLK_LOSS` (R483): REFCLK_25 stopped for 10 µs stops stage 1. -/
  | refclkLoss (t : Nat)
  /-- `BIST_DONE` (R344): BIST ends and the defect union is formed; the package enters TRAIN, NOT_READY or FAILED. -/
  | bistDone (results : List (Nat × Nat)) (hdieOk listOk : Bool) (t : Nat)
  /-- `FIRMWARE_BOOT_VERIFY` (R447): The boot ROM verifies and starts the active slot or the other slot. -/
  | firmwareBootVerify (t : Nat)
  /-- `LAKE_TRAIN_DONE` (R349): Lake stacks finish training and the package enters AWAIT_CONFIG, CONFIGURED or NOT_READY. -/
  | lakeTrainDone (trained : Bool) (t : Nat)
  /-- `FENCE_IN_ASSERT` (R430): FENCE_IN_N asserts; the output gate closes and any context is killed. -/
  | fenceInAssert (t : Nat)
  /-- `FENCE_RELEASE` (R340): FENCE_IN_N high for 1 ms leads to a warm reset into BOOT. -/
  | fenceRelease (t : Nat)
  /-- `HB_ACK_EDGE` (R429): An edge on HB_ACK_IN keeps path B alive and may arm a line. -/
  | hbAckEdge (k : Nat) (high : Bool) (t : Nat)
  /-- `HEARTBEAT_PATH_A_SILENT` (R429): No HEARTBEAT from a member for 5 ms marks path A silent. -/
  | heartbeatPathASilent (k t : Nat)
  /-- `HEARTBEAT_PATH_B_SILENT` (R429): No HB_ACK_IN edge for 5 ms marks path B silent. -/
  | heartbeatPathBSilent (k t : Nat)
  /-- `TAKEOVER_FENCE` (R435): The spare asserts FENCE_OUT_N for the silent member. -/
  | takeoverFence (t : Nat)
  /-- `TAKEOVER_PROCEED` (R435): A steady low for 1 ms lets the spare take the LPN and broadcast LPN_CLAIM. -/
  | takeoverProceed (rsp : List (Nat × List (Nat × Nat))) (t : Nat)
  /-- `FENCE_FAIL` (R438): No steady low within 20 ms abandons the takeover. -/
  | fenceFail (t : Nat)
  /-- `MIRROR_RESTORE_DONE` (R436): The last complete point is restored and the rest of the lake is zeroed. -/
  | mirrorRestoreDone (regions : List (Nat × Nat)) (t : Nat)
  /-- `TAKEOVER_DONE` (R435): Zeroing ends and the spare shows CONFIGURED and TAKEOVER_DONE. -/
  | takeoverDone (rsp : List (Nat × List (Nat × Nat))) (t : Nat)
  /-- `MIRROR_WRITE` (R434): A mirror-class write is translated and applied or refused, and point completion is tracked. -/
  | mirrorWrite (id : Nat) (req rsp : List (Nat × Nat)) (t : Nat)
  /-- `LOADER_PACKET` (R364): A fabric load packet is applied, forwarded to children and written to tiles. -/
  | loaderPacket (t : Nat)
  /-- `LOADER_REPORT` (R364): A child's load report arrives at its parent. -/
  | loaderReport (t : Nat)
  /-- `LOADER_REPORT_TIMEOUT` (R364): No report within 100 ms counts the child's subtree as not loaded. -/
  | loaderReportTimeout (t : Nat)
  /-- `PRSNT_N_ASSERT` (R340): PRSNT_N goes low as the package is mated, and with PWR_EN high and THERMTRIP_N high the package enters BOOT. -/
  | prsntNAssert (straps t : Nat)
  /-- `THERMTRIP_N_DEASSERT` (R340): THERMTRIP_N returns high at the pin, so that with PWR_EN high and PRSNT_N low the package may enter BOOT. -/
  | thermtripNDeassert (t : Nat)
  /-- `THERMTRIP_N_RELEASE` (R479): After PWR_EN has been low for 1 s, the package stops holding THERMTRIP_N low. -/
  | thermtripNRelease (t : Nat)
  /-- `CODEWORD_LOCK` (R282): A lane gains codeword lock, advancing training from TRAIN toward IDENT or setting LANEn_OK while DEGRADED. -/
  | codewordLock (l lane t : Nat)
  /-- `DEBUG_EN_N_ASSERT` (R465): The DEBUG_EN_N strap goes low, which sets DEBUG_FLAGS bit 2 and allows scope enables and the EXTEST, CLAMP and HIGHZ instructions in STANDBY. -/
  | debugEnNAssert (t : Nat)
  /-- `POWER_GOOD` (R476): Stage-2 regulators reach regulation after the ramp, the CXL port is powered and PG_OUT is released high. -/
  | powerGood (t : Nat)
  deriving DecidableEq, Repr

end Sys2Proof
end

