-- ==== Sys2Proof/Config.lean ====
section
/-!
DEFINITION. The values the spec leaves open. Each is a constant with no body: nothing in Lean can evaluate it, so a statement that
holds holds for every value of it.
-/
namespace Sys2Proof

/-- Which of the results within the error bound of R24 a transcendental function gives, by function number and operand (log entry 10). -/
opaque Config.trPick : Nat → Word → Nat

/-- What a (39,32) check makes of a word with three or more bit errors (R485), by the data and the error pattern:
0 a double-bit error, 1 a wrong correction, anything else a word passed as correct (log entry 11). -/
opaque Config.eccOpen : Nat → Nat → Nat

/-- The word that comes out of a wrong correction of a word with three or more bit errors (R485), by the data and the error pattern (log entry 11). -/
opaque Config.eccWrong : Nat → Nat → Nat

/-- Whether a word of an outgoing transfer takes the value its local source holds when the packet moves on, or keeps the one it carries (R122: the old or the
new value of each word), by tile, request, router inputs passed and word (log entry 25). -/
opaque Config.srcNew : Nat → Nat → Nat → Nat → Bool

/-- The credits of a hop of the die network on one plane (R172), less one: the packets that one input of a router holds. The spec gives no number (log entry 122). -/
opaque Config.hopCredits : Nat

/-- Whether an entry of a cached palette table that was changed during a run decodes as the new one (R202), by stack, number of packets sent and byte pair (log entry 37). -/
opaque Config.palNew : Nat → Nat → Nat → Bool

/-- Whether the package uses the new copy of a registered slot that the host writes before `CONS` has passed it (R298), by address and time of the write (log entry 54). -/
opaque Config.slotNew : Nat → Nat → Bool

/-- The rate correction that the steering picks, from the offset and the rate in force (R147, R156): the spec gives limits and no control law (log entry 12). -/
opaque Config.steerPick : Int → Int → Nat

/-- Whether a signature verifies (R442, R443): public key, context string, message and signature. The spec names SLH-DSA of FIPS 205 and states no value of it (log entry 15). -/
opaque Config.sigOk : List Byte → List Byte → List Byte → List Byte → Bool

/-- The signature of the identity key over a report body (R456), 49,856 bytes: byte `i` of it for the body given (log entry 15). -/
opaque Config.signByte : List Byte → Nat → Byte

/-- Byte `i` of the identity blob where R455 leaves it to the part: serial, dates, keys and signatures of its certificates (log entry 15). -/
opaque Config.certByte : Nat → Byte

/-- A byte-addressed register of the function's configuration space, or of the CXL component registers, for which the spec refers to the PCI Express and CXL specifications: its
value by dword address and by the value last written there (log entry 16). -/
opaque Config.cfgReg : Nat → Nat → Nat

/-- What the 48-bit provisional ID of the I3C port holds beside the PID (R315): the manufacturer ID in bits [47:33], and bits [32:19], which the spec does not state (log entry 17). -/
opaque Config.i3cIdent : BitVec 29

/-- The code of the term in an event-log entry of a `CAP_HW` change (R421), which the spec does not number: by 1 shed, 2 leak, 3 flow, 4 inlet, 5 H-die, 0 none (log entry 49). -/
opaque Config.termCode : Nat → Nat

/-- The JEDEC manufacturer identity in `IDCODE` (R465), which the spec does not state (log entry 17). -/
opaque Config.jedecId : BitVec 11

/-- The fused operating point of a die for 1.7 GHz (R367), in mV above the bottom of the core rails' range: 0 to 3 the C-dies, 4 and 5 the H-dies. Each part has its own. -/
opaque Config.corePoint : Nat → Nat

/-- The bytes of the handover record, over which its digest is formed (R450): the spec gives no layout. -/
opaque Config.recordBytes : List Nat → List Byte

/-- The fused energy coefficient of a count of R386, in pJ: 16 × `FA` + `FB` the K-steps of a format of each operand, 256 vector operations, 257 transcendental ones, 258 stream bytes,
259 `XF` words, 260 die-network flits, 261 lake bursts, 262 link flits. Each part has its own. -/
opaque Config.energyCoef : Nat → Nat

/-- The static power of a die in W by its number, its temperature in units of 0.25 °C and its voltage in mV (R386). Each part has its own. -/
opaque Config.staticPower : Nat → Nat → Nat → Nat

end Sys2Proof
end

