-- ==== Sys2Proof/Machine/Tab.lean ====
section
/-!
DEFINITION. The operations over sparse tables and byte memories.
`Tab.set` keeps every key it is given; `Tab.put` keeps the canonical form of a memory, in which no entry equals the default.
-/
namespace Sys2Proof

/-- The value at key `a`, or the default. -/
def Tab.get {α : Type} (d : α) : Tab α → Nat → α
  | [], _ => d
  | (k, v) :: r, a => if a = k then v else Tab.get d r a

/-- Whether key `a` is listed. -/
def Tab.has {α : Type} : Tab α → Nat → Bool
  | [], _ => false
  | (k, _) :: r, a => if a = k then true else Tab.has r a

/-- The value at key `a` where it is listed. -/
def Tab.find {α : Type} : Tab α → Nat → Option α
  | [], _ => none
  | (k, v) :: r, a => if a = k then some v else Tab.find r a

/-- Insert or replace the entry of key `a`, keeping the keys rising. -/
def Tab.set {α : Type} : Tab α → Nat → α → Tab α
  | [], a, v => [(a, v)]
  | (k, w) :: r, a, v =>
    if a = k then (a, v) :: r
    else if a < k then (a, v) :: (k, w) :: r
    else (k, w) :: Tab.set r a v

/-- Remove the entry of key `a`. -/
def Tab.del {α : Type} : Tab α → Nat → Tab α
  | [], _ => []
  | (k, w) :: r, a => if a = k then Tab.del r a else (k, w) :: Tab.del r a

/-- Write in canonical form: the default is not listed. -/
def Tab.put {α : Type} [DecidableEq α] (d : α) (t : Tab α) (a : Nat) (v : α) : Tab α :=
  if v = d then Tab.del t a else Tab.set t a v

/-- Change the value at key `a` by `f`. -/
def Tab.upd {α : Type} (d : α) (t : Tab α) (a : Nat) (f : α → α) : Tab α :=
  Tab.set t a (f (Tab.get d t a))

/-- The keys are strictly rising from a lower bound. -/
def Tab.risingFrom {α : Type} (lo : Nat) : Tab α → Bool
  | [] => true
  | (k, _) :: r => decide (lo ≤ k) && Tab.risingFrom (k + 1) r

/-- The canonical form: keys strictly rising, and no entry equal to the default. -/
def Tab.wf {α : Type} [DecidableEq α] (d : α) (t : Tab α) : Bool :=
  Tab.risingFrom 0 t && t.all (fun p => decide (p.2 ≠ d))

/-- One byte of a memory; an address nothing has written reads as zero (DESIGN CHOICE, log entry 2, where the spec gives no contents). -/
def Mem.read (m : Mem) (a : Nat) : Byte := Tab.get 0#8 m a

/-- Write one byte. -/
def Mem.write (m : Mem) (a : Nat) (b : Byte) : Mem := Tab.put 0#8 m a b

/-- The form of a memory. -/
def Mem.wf (m : Mem) : Bool := Tab.wf 0#8 m

/-- `n` bytes from address `a` on. -/
def Mem.bytes (m : Mem) (a : Nat) : Nat → List Byte
  | 0 => []
  | n + 1 => Mem.read m a :: Mem.bytes m (a + 1) n

/-- Store a list of bytes from address `a` on. -/
def Mem.store (m : Mem) (a : Nat) : List Byte → Mem
  | [] => m
  | b :: r => Mem.store (Mem.write m a b) (a + 1) r

/-- Store zeros over `n` bytes. -/
def Mem.zero (m : Mem) (a n : Nat) : Mem :=
  m.filter (fun p => decide (p.1 < a) || decide (a + n ≤ p.1))

/-- The number a little-endian byte list stands for (R8). -/
def leNat : List Byte → Nat
  | [] => 0
  | b :: r => b.toNat + 256 * leNat r

/-- `n` bytes of a number, little-endian (R8). -/
def leBytes : Nat → Nat → List Byte
  | 0, _ => []
  | n + 1, v => BitVec.ofNat 8 v :: leBytes n (v / 256)

/-- A little-endian field of `n` bytes of a memory. -/
def Mem.le (m : Mem) (a n : Nat) : Nat := leNat (Mem.bytes m a n)

/-- A little-endian 32-bit word of a memory. -/
def Mem.word (m : Mem) (a : Nat) : Word := BitVec.ofNat 32 (Mem.le m a 4)

/-- Field [hi:lo] of a number, both ends included (R8). -/
def fld (v hi lo : Nat) : Nat := (v >>> lo) % 2 ^ (hi + 1 - lo)

/-- Bit `n` of a number. -/
def bitAt (v n : Nat) : Bool := (v >>> n) % 2 = 1

/-- A flag as a number. -/
def b2n (b : Bool) : Nat := if b then 1 else 0

/-- The value placed at bit `lo`, cut to `w` bits. -/
def place (v w lo : Nat) : Nat := (v % 2 ^ w) <<< lo

/-- Number `v` read as a two's complement number of `w` bits. -/
def sext (w v : Nat) : Int :=
  let u := v % 2 ^ w
  if u < 2 ^ (w - 1) then (u : Int) else (u : Int) - (2 ^ w : Nat)

/-- Replace list element `i`. -/
def setAt {α : Type} (l : List α) (i : Nat) (v : α) : List α := l.set i v

/-- Saturating count of `w` bits. -/
def satInc (w v : Nat) : Nat := if v + 1 < 2 ^ w then v + 1 else 2 ^ w - 1

/-- Number of set bits among the first `n`. -/
def popN : Nat → Nat → Nat
  | 0, _ => 0
  | n + 1, v => v % 2 + popN n (v / 2)

/-- Indices of the set bits among the first `n`, rising. -/
def bitsOf (n v : Nat) : List Nat := (List.range n).filter (fun i => bitAt v i)

/-- The bits of a list of numbers as a mask. -/
def maskOf : List Nat → Nat
  | [] => 0
  | i :: r => (2 ^ i) ||| maskOf r

end Sys2Proof
end

