-- ==== Sys2Proof/Machine/Formats.lean ====
section
/-!
DEFINITION. The number formats of spec/02_number_formats.md: the values of R55, exact arithmetic (R74), the one rounding of R75,
the overflow and special rules of R76, the E8M0 scales of R58 and R78, and the stochastic rounding of R79 and R80.
Every operation computes exactly on dyadic numbers and rounds once.
-/
namespace Sys2Proof

/-- A value of a number format: NaN, an infinity, or (−1)^neg × m × 2^e. A zero keeps its sign (R57). -/
inductive Val where
  | nan
  | inf (neg : Bool)
  | fin (neg : Bool) (m : Nat) (e : Int)
  deriving DecidableEq, Repr

/-- A floating-point element format of R55. `hasInf` says that the top exponent holds infinity and NaN;
`hasNan` without `hasInf` is E4M3, whose one NaN is E = 15, M = 7. -/
structure FpFmt where
  ew : Nat
  mw : Nat
  bias : Int
  hasInf : Bool
  hasNan : Bool
  deriving DecidableEq, Repr

def fFP32 : FpFmt := ⟨8, 23, 127, true, true⟩
def fBF16 : FpFmt := ⟨8, 7, 127, true, true⟩
def fFP16 : FpFmt := ⟨5, 10, 15, true, true⟩
def fE4M3 : FpFmt := ⟨4, 3, 7, false, true⟩
def fE5M2 : FpFmt := ⟨5, 2, 15, true, true⟩
def fE3M2 : FpFmt := ⟨3, 2, 3, false, false⟩
def fE2M3 : FpFmt := ⟨2, 3, 1, false, false⟩
def fE2M1 : FpFmt := ⟨2, 1, 1, false, false⟩

/-- The bits of an element as a value (R55); a subnormal keeps the exponent of its format, so that `e` is always that of the lowest mantissa bit. -/
def FpFmt.dec (f : FpFmt) (b : Nat) : Val :=
  let neg := bitAt b (f.ew + f.mw)
  let E := (b >>> f.mw) % 2 ^ f.ew
  let M := b % 2 ^ f.mw
  if f.hasInf && E == 2 ^ f.ew - 1 then (if M = 0 then .inf neg else .nan)
  else if f.hasNan && !f.hasInf && E == 2 ^ f.ew - 1 && M == 2 ^ f.mw - 1 then .nan
  else if E = 0 then .fin neg M (1 - f.bias - f.mw)
  else .fin neg (2 ^ f.mw + M) ((E : Int) - f.bias - f.mw)

/-- The largest finite value as mantissa and exponent (R55). -/
def FpFmt.maxFin (f : FpFmt) : Nat × Int :=
  if f.hasInf then (2 ^ (f.mw + 1) - 1, ((2 ^ f.ew - 2 : Nat) : Int) - f.bias - f.mw)
  else if f.hasNan then (2 ^ (f.mw + 1) - 2, ((2 ^ f.ew - 1 : Nat) : Int) - f.bias - f.mw)
  else (2 ^ (f.mw + 1) - 1, ((2 ^ f.ew - 1 : Nat) : Int) - f.bias - f.mw)

def FpFmt.signBit (f : FpFmt) (neg : Bool) : Nat := if neg then 2 ^ (f.ew + f.mw) else 0

/-- The largest finite value's bits with a sign. -/
def FpFmt.maxBits (f : FpFmt) (neg : Bool) : Nat :=
  f.signBit neg +
    (if f.hasInf then (2 ^ f.ew - 1) * 2 ^ f.mw - 1
     else if f.hasNan then 2 ^ (f.ew + f.mw) - 2
     else 2 ^ (f.ew + f.mw) - 1)

/-- The canonical positive quiet NaN of R57: the top fraction bit alone in FP32, FP16 and BF16, all fraction bits in E4M3 and E5M2. -/
def FpFmt.nanBits (f : FpFmt) : Nat :=
  if f.hasInf ∧ 2 < f.mw then (2 ^ f.ew - 1) * 2 ^ f.mw + 2 ^ (f.mw - 1) else 2 ^ (f.ew + f.mw) - 1

def FpFmt.infBits (f : FpFmt) (neg : Bool) : Nat := f.signBit neg + (2 ^ f.ew - 1) * 2 ^ f.mw

/-- m × 2^e ≤ m' × 2^e'. -/
def dyLe (m : Nat) (e : Int) (m' : Nat) (e' : Int) : Bool :=
  if e ≤ e' then decide (m ≤ m' <<< (e' - e).toNat) else decide (m <<< (e - e').toNat ≤ m')

/-- m × 2^e < m' × 2^e'. -/
def dyLt (m : Nat) (e : Int) (m' : Nat) (e' : Int) : Bool := !(dyLe m' e' m e)

/-- A rounding rule: to nearest even, or stochastic with a 24-bit draw (R79). -/
inductive Rnd where
  | rne
  | sr (r : Nat)
  deriving DecidableEq, Repr

/-- The magnitude `m` with its lowest `sh` bits rounded away (R75, R79). -/
def roundMag (rnd : Rnd) (m sh : Nat) : Nat :=
  let q := m >>> sh
  let rem := m - (q <<< sh)
  match rnd with
  | .rne => if 2 ^ sh < 2 * rem || (2 * rem == 2 ^ sh && sh ≠ 0 && q % 2 == 1) then q + 1 else q
  | .sr r => if 2 ^ 24 ≤ ((rem <<< 24) >>> sh) + r % 2 ^ 24 then q + 1 else q

/-- A value in a floating-point format: one rounding at the destination's exponent, subnormal precision where the result is
subnormal (R75), then overflow and specials (R76). `sat` is the saturating control. -/
def FpFmt.enc (f : FpFmt) (rnd : Rnd) (sat : Bool) : Val → Nat
  | .nan => if f.hasNan then f.nanBits else 0
  | .inf neg =>
    if sat then f.maxBits neg
    else if f.hasInf then f.infBits neg
    else if f.hasNan then f.nanBits
    else f.maxBits neg
  | .fin neg m e =>
    if m = 0 then f.signBit neg
    else
      let emin : Int := 1 - f.bias - f.mw
      let q : Int := max ((m.log2 : Int) + e - f.mw) emin
      let n := if q ≤ e then m <<< (e - q).toNat else roundMag rnd m (q - e).toNat
      let mx := f.maxFin
      let exceeds := match rnd with
        | .rne => dyLe (2 * mx.1 + 1) (mx.2 - 1) m e
        | .sr _ => dyLt mx.1 mx.2 n q
      if exceeds then
        if sat then f.maxBits neg
        else if f.hasInf then f.infBits neg
        else if f.hasNan then f.nanBits
        else f.maxBits neg
      else
        let n' := if n = 2 ^ (f.mw + 1) then 2 ^ f.mw else n
        let q' : Int := if n = 2 ^ (f.mw + 1) then q + 1 else q
        if n' < 2 ^ f.mw then f.signBit neg + n'
        else f.signBit neg + (q' + f.bias + f.mw).toNat * 2 ^ f.mw + (n' - 2 ^ f.mw)

/-- A value rounded to an integer of `w` bits in two's complement, saturating; NaN gives 0 (R76). The integer is v × 2^sh. -/
def intEnc (w : Nat) (sh : Int) (rnd : Rnd) : Val → Nat
  | .nan => 0
  | .inf neg => if neg then 2 ^ (w - 1) else 2 ^ (w - 1) - 1
  | .fin neg m e0 =>
    let e := e0 + sh
    let n := if 0 ≤ e then m <<< e.toNat else roundMag rnd m (-e).toNat
    if neg then (if 2 ^ (w - 1) ≤ n then 2 ^ (w - 1) else (2 ^ w - n) % 2 ^ w)
    else (if 2 ^ (w - 1) ≤ n then 2 ^ (w - 1) - 1 else n)

/-- A two's complement number as a value. -/
def intDec (w : Nat) (sh : Int) (b : Nat) : Val :=
  let i := sext w b
  .fin (decide (i < 0)) i.natAbs sh

/-- Change of sign. -/
def Val.neg : Val → Val
  | .nan => .nan
  | .inf s => .inf (!s)
  | .fin s m e => .fin (!s) m e

/-- Exact product, with the specials of IEEE 754 (R74). -/
def Val.mul : Val → Val → Val
  | .nan, _ => .nan
  | _, .nan => .nan
  | .inf s, .inf t => .inf (s != t)
  | .inf s, .fin t m _ => if m = 0 then .nan else .inf (s != t)
  | .fin s m _, .inf t => if m = 0 then .nan else .inf (s != t)
  | .fin s m e, .fin t n f => .fin (s != t) (m * n) (e + f)

/-- Exact sum, with the specials of IEEE 754; an exact zero sum of unlike signs is +0 (R74). -/
def Val.add : Val → Val → Val
  | .nan, _ => .nan
  | _, .nan => .nan
  | .inf s, .inf t => if s = t then .inf s else .nan
  | .inf s, .fin _ _ _ => .inf s
  | .fin _ _ _, .inf t => .inf t
  | .fin s m e, .fin t n f =>
    let lo := min e f
    let a : Int := ((m <<< (e - lo).toNat : Nat) : Int)
    let b : Int := ((n <<< (f - lo).toNat : Nat) : Int)
    let r := (if s then -a else a) + (if t then -b else b)
    if r = 0 then .fin (if m = 0 ∧ n = 0 then s && t else false) 0 lo
    else .fin (decide (r < 0)) r.natAbs lo

def Val.isNan : Val → Bool
  | .nan => true
  | _ => false

/-- Numeric order of two values that are not NaN; −0 and +0 are equal. -/
def Val.lt : Val → Val → Bool
  | .nan, _ => false
  | _, .nan => false
  | .inf s, .inf t => s && !t
  | .inf s, .fin _ _ _ => s
  | .fin _ _ _, .inf t => !t
  | .fin s m e, .fin t n f =>
    if m = 0 ∧ n = 0 then false
    else if m = 0 then !t
    else if n = 0 then s
    else match s, t with
      | true, false => true
      | false, true => false
      | false, false => dyLt m e n f
      | true, true => dyLt n f m e

def Val.eqv (a b : Val) : Bool := !a.isNan && !b.isNan && !a.lt b && !b.lt a

/-- The sign of a value, a zero's sign included. -/
def Val.sgn : Val → Bool
  | .nan => false
  | .inf s => s
  | .fin s _ _ => s

/-- The order of `VFMAX` and `VFMIN`: −0 below +0 (R115). -/
def Val.ltz (a b : Val) : Bool := a.lt b || (a.eqv b && a.sgn && !b.sgn)

/-- Bits of an operand, sum, product rounded once to a format (R74). -/
def FpFmt.rne (f : FpFmt) (v : Val) : Nat := f.enc .rne false v

/-- FP32 bits of a value, rounded to nearest even. -/
def toF32 (v : Val) : Word := BitVec.ofNat 32 (fFP32.rne v)

/-- An FP32 word as a value. -/
def ofF32 (w : Word) : Val := fFP32.dec w.toNat

/-- The value with a corruption added to its significand. -/
def Val.upset (d : Int) : Val → Val
  | .nan => .nan
  | .inf s => .inf s
  | .fin s m e => .fin s ((m : Int) + d).toNat e

/-- Fused multiply-add on element bits, one rounding (R74). The integer `upset` is added to the significand product: it is the physical
corruption that the residue check of R49 looks for, 0 where the datapath is sound. -/
def FpFmt.fma (f : FpFmt) (upset : Int) (a b c : Nat) : Nat :=
  let p := (f.dec a).mul (f.dec b)
  f.rne ((p.upset upset).add (f.dec c))

def FpFmt.one (f : FpFmt) : Nat := f.bias.toNat * 2 ^ f.mw

/-- Product on element bits: the exact product rounded once (R74). -/
def FpFmt.mulB (f : FpFmt) (upset : Int) (a b : Nat) : Nat :=
  f.rne (((f.dec a).mul (f.dec b)).upset upset)

/-- Sum on element bits: A × 1 + B, rounded once (R74). -/
def FpFmt.addB (f : FpFmt) (upset : Int) (a b : Nat) : Nat := f.fma upset a f.one b

def FpFmt.subB (f : FpFmt) (upset : Int) (a b : Nat) : Nat :=
  f.rne (((f.dec a).upset upset).add (f.dec b).neg)

/-- Maximum and minimum (R115): any NaN gives NaN, −0 below +0. -/
def FpFmt.maxB (f : FpFmt) (a b : Nat) : Nat :=
  let x := f.dec a
  let y := f.dec b
  if x.isNan || y.isNan then f.nanBits else if x.ltz y then b else a

def FpFmt.minB (f : FpFmt) (a b : Nat) : Nat :=
  let x := f.dec a
  let y := f.dec b
  if x.isNan || y.isNan then f.nanBits else if y.ltz x then b else a

/-- A number format code of R54 as its element format, where it is a floating-point one. -/
def fpOf : Nat → Option FpFmt
  | 0x0 => some fFP32
  | 0x1 => some fBF16
  | 0x2 => some fFP16
  | 0x3 => some fE4M3
  | 0x4 => some fE5M2
  | 0x7 => some fE4M3
  | 0x8 => some fE5M2
  | 0x9 => some fE3M2
  | 0xA => some fE2M3
  | 0xB => some fE2M1
  | _ => none

/-- Element width in bits of a format code (R54). -/
def fmtWidth : Nat → Nat
  | 0x0 => 32
  | 0x1 => 16
  | 0x2 => 16
  | 0x3 => 8
  | 0x4 => 8
  | 0x5 => 8
  | 0x6 => 32
  | 0x7 => 8
  | 0x8 => 8
  | 0x9 => 6
  | 0xA => 6
  | 0xB => 4
  | 0xC => 8
  | 0xD => 4
  | _ => 0

/-- Whether a code is an MX format (R54). -/
def isMx (c : Nat) : Bool := decide (0x7 ≤ c) && decide (c ≤ 0xC)

/-- An element of a format code as a value (R55); INT8 and INT32 are integers and an MXINT8 element is an integer times 2^−6. -/
def elemDec (c b : Nat) : Val :=
  match fpOf c with
  | some f => f.dec b
  | none =>
    if c = 0x6 then intDec 32 0 b
    else if c = 0xC then intDec 8 (-6) b
    else intDec 8 0 b

/-- An element of a format code from a value (R75, R76). -/
def elemEnc (c : Nat) (rnd : Rnd) (sat : Bool) (v : Val) : Nat :=
  match fpOf c with
  | some f => f.enc rnd sat v
  | none =>
    if c = 0x6 then intEnc 32 0 rnd v
    else if c = 0xC then intEnc 8 6 rnd v
    else intEnc 8 0 rnd v

/-- An E8M0 scale as a value (R58). -/
def e8m0 (b : Nat) : Val := if b % 256 = 255 then .nan else .fin false 1 (((b % 256 : Nat) : Int) - 127)

/-- The exponent of the largest element value of an MX format (R78). -/
def mxEmax : Nat → Int
  | 0x7 => 8
  | 0x8 => 15
  | 0x9 => 4
  | 0xA => 2
  | 0xB => 2
  | _ => 0

/-- The magnitude of the larger of two finite values as mantissa and exponent. -/
def magMax (x : Nat × Int) : Val → Nat × Int
  | .fin _ m e => if dyLt x.1 x.2 m e then (m, e) else x
  | _ => x

/-- One MX group (R78): the scale byte and the element codes of the values, each drawn with its own rounding. -/
def mxGroup (c : Nat) (sat : Bool) (vs : List (Val × Rnd)) : Nat × List Nat :=
  let big : Val → Val := fun v => match v with
    | .inf s => if sat then .fin s (2 ^ 24 - 1) 104 else .inf s
    | w => w
  let ws := vs.map (fun p => (big p.1, p.2))
  let bad := ws.any (fun p => match p.1 with
    | .nan => true
    | .inf _ => true
    | .fin _ _ _ => false)
  let amax := ws.foldl (fun a p => magMax a p.1) (0, 0)
  if bad then (255, ws.map (fun _ => 0))
  else if amax.1 = 0 then (0, ws.map (fun _ => 0))
  else
    let x0 : Int := (amax.1.log2 : Int) + amax.2 - mxEmax c
    let x := max (-127) (min 127 x0)
    ((x + 127).toNat, ws.map (fun p => elemEnc c p.2 sat (match p.1 with
      | .fin s m e => .fin s m (e - x)
      | v => v)))

/-- The random bits of R80. -/
def srBits (seed : Dword) (tid ctr lane unit : Nat) : Nat :=
  let z0 : Dword := seed ^^^ (BitVec.ofNat 64 tid <<< 48) ^^^ (BitVec.ofNat 64 (ctr % 2 ^ 32) <<< 16)
    ^^^ (BitVec.ofNat 64 unit <<< 14) ^^^ BitVec.ofNat 64 lane
  let z1 := (z0 ^^^ (z0 >>> 30)) * 0xBF58476D1CE4E5B9#64
  let z2 := (z1 ^^^ (z1 >>> 27)) * 0x94D049BB133111EB#64
  let z3 := z2 ^^^ (z2 >>> 31)
  z3.toNat % 2 ^ 24

/-- The rounding rule of a conversion control: bit 0 selects stochastic rounding (R75). -/
def ccRnd (cc : Nat) (seed : Dword) (tid ctr lane unit : Nat) : Rnd :=
  if bitAt cc 0 then .sr (srBits seed tid ctr lane unit) else .rne

/-- Bit 1 of a conversion control selects saturation. -/
def ccSat (cc : Nat) : Bool := bitAt cc 1

/-- Element `i` of a list of bytes packed with elements of `w` bits (R59). -/
def packedGet (bs : List Byte) (w i : Nat) : Nat :=
  let lo := i * w
  let byte0 := lo / 8
  let two := (bs.getD byte0 0#8).toNat + 256 * (bs.getD (byte0 + 1) 0#8).toNat
    + 65536 * (bs.getD (byte0 + 2) 0#8).toNat + 16777216 * (bs.getD (byte0 + 3) 0#8).toNat
    + 4294967296 * (bs.getD (byte0 + 4) 0#8).toNat
  (two >>> (lo % 8)) % 2 ^ w

/-- Elements of `w` bits packed into a number, element 0 lowest (R59). -/
def packNat (w : Nat) : List Nat → Nat
  | [] => 0
  | x :: r => x % 2 ^ w + (packNat w r) * 2 ^ w

/-- Elements of `w` bits packed into bytes (R59). -/
def packBytes (w : Nat) (es : List Nat) : List Byte := leBytes ((es.length * w + 7) / 8) (packNat w es)

end Sys2Proof
end

