-- ==== Sys2Proof/Machine/TileState.lean ====
section
/-!
DEFINITION. The state of one physical tile (spec/01_tile.md, spec/02_number_formats.md, spec/03_tile_bundles.md): registers, memories,
matrix engine, operations in flight, and the tile register block. A reset value that the spec does not give is zero (log entry 1).
-/
namespace Sys2Proof.Machine

/-- The faults of a tile, in the bit order of `TILE_FAULT` (spec/01_tile.md, Tile register block). -/
inductive TileFault where
  | illOp | illBundle | bankConflict | streamRange | residueMx | residueVx | dbeLocal | dbeGlaze | dbeBundle
  | flagOverflow | watchdog | bundleInvalid | pcRange
  deriving DecidableEq, Repr

/-- The bit of `TILE_FAULT` that records a fault. -/
def TileFault.bit : TileFault → Nat
  | .illOp => 0
  | .illBundle => 1
  | .bankConflict => 2
  | .streamRange => 3
  | .residueMx => 4
  | .residueVx => 5
  | .dbeLocal => 6
  | .dbeGlaze => 7
  | .dbeBundle => 8
  | .flagOverflow => 9
  | .watchdog => 10
  | .bundleInvalid => 11
  | .pcRange => 12

/-- A stream descriptor `An`: seven words and the position counter (R100). -/
structure Desc where
  w0 : Word
  w1 : Word
  w2 : Word
  w3 : Word
  w4 : Word
  w5 : Word
  w6 : Word
  pos : Nat
  deriving DecidableEq, Repr

def Desc.zero : Desc := ⟨0#32, 0#32, 0#32, 0#32, 0#32, 0#32, 0#32, 0⟩

/-- A loop counter `Ln` (R91): `order` numbers its activation, the most recent highest (R92). -/
structure Loop where
  active : Bool
  remaining : Nat
  start : Nat
  endPc : Nat
  order : Nat
  deriving DecidableEq, Repr

def Loop.zero : Loop := ⟨false, 0, 0, 0, 0⟩

/-- A palette slot (R62): its type and its 16 entries of 16 bits. -/
structure Palette where
  bf16 : Bool
  ents : List (BitVec 16)
  deriving DecidableEq, Repr

/-- The content of a slot after its row leaves `OFF`: 16 entries of +0 of type E4M3 (R63). -/
def Palette.zero : Palette := ⟨false, List.replicate 16 0#16⟩

/-- A WB register (R20): 5,120 bytes, the slice counter (R111), and the number of the fill that loaded it (R486). -/
structure WbReg where
  data : Mem
  slice : Nat
  load : Nat
  deriving DecidableEq, Repr

def WbReg.zero : WbReg := ⟨[], 0, 0⟩

/-- One K-step of a block, with its operands decoded (R65, R66, R486): per row of A and per column of B the one or two elements. -/
structure KStep where
  wb : Nat
  load : Nat
  slice : Nat
  a : List (List Val)
  b : List (List Val)
  ix : List Nat
  deriving DecidableEq, Repr

/-- A block in the matrix engine (R110): the fields its opening K-step fixed, the scales read then (R111, R114), and its K-steps. -/
structure Block where
  acc : Nat
  fa : Nat
  fb : Nat
  half : Nat
  sp : Nat
  sa : List Nat
  sb : List Nat
  mb : List Nat
  palNo : List Nat
  steps : List KStep
  closedAt : Nat
  deriving DecidableEq, Repr

/-- The SU2 feed (R113): its copy of the descriptor, `PREFIX`, L, the cycle it started, its initial reads made, its queue of read
slices (128 bytes each), and the slices of previous feeds still queued, each with its `PREFIX`. `newFeed` is a `FEED` of the bundle in issue, which takes over at the end of
the cycle; `stepNow` says that a K-step issued in this cycle. -/
structure FeedSt where
  on : Bool
  desc : Desc
  pre : Bool
  lat : Nat
  start : Nat
  made : Nat
  queue : List (List Byte)
  prevQueue : List (List Byte × Bool)
  newFeed : Option (Desc × Bool)
  stepNow : Bool
  deriving DecidableEq, Repr

def FeedSt.zero : FeedSt := ⟨false, Desc.zero, false, 4, 0, 0, [], [], none, false⟩

/-- A drain in progress (R112). -/
structure Drain where
  acc : Nat
  fmt : Nat
  cc : Nat
  descA : Desc
  descM : Desc
  start : Nat
  ctr : Nat
  deriving DecidableEq, Repr

/-- A running WB fill (R105): the next byte of the WB register, the bytes left, the next source byte; `fresh` in its issue cycle, the execution cycle
`start`. -/
structure Fill where
  wb : Nat
  off : Nat
  left : Nat
  space : Nat
  addr : Nat
  lat : Nat
  fresh : Bool
  start : Nat
  deriving DecidableEq, Repr

/-- The result of an operation in flight: what is written when it is due. -/
inductive Wr where
  | sreg (d : Nat) (v : Word)
  | vreg (d : Nat) (lanes : List (Nat × Word))
  | vconv (d : Nat) (lanes : List (Nat × Word)) (scales : List (Nat × Nat))
  | preg (d : Nat) (mask bits : Nat)
  | dword (a word : Nat) (v : Word)
  | dpos (a : Nat) (p : Nat)
  | mem (space addr : Nat) (bytes : List Byte)
  | flag (f : Nat) (v : Nat)
  | macc (acc : Nat)
  | wbuf (wb : Nat) (off : Nat) (bytes : List Byte)
  | pal (slot : Nat) (p : Palette)
  deriving DecidableEq, Repr

/-- An operation in flight: written at the end of execution cycle `due`; `at_` is its issue cycle, which orders collisions (R15). -/
structure Pend where
  due : Nat
  at_ : Nat
  wr : Wr
  deriving DecidableEq, Repr

/-- A palette write issued and not complete (R107). -/
structure PalWrite where
  slot : Nat
  pals : List Palette
  flag : Nat
  at_ : Nat
  deriving DecidableEq, Repr

/-- A residue check that has not completed (R49): the cycle its bound counts from, the slot, and whether the residues differ. -/
structure Chk where
  at_ : Nat
  slot : Nat
  bad : Bool
  deriving DecidableEq, Repr

/-- The kind of an `XF` operation (R118). -/
inductive XfKind where
  | rd | wr | wrb | red | gath | scat | pdec | zero
  deriving DecidableEq, Repr

/-- An `XF` operation issued and not complete (R120): its token, its flag and generation, the number of its requests not yet answered, and
whether it ended without completing (R488, R123). -/
structure XfOp where
  id : Nat
  kind : XfKind
  flag : Nat
  gen : Nat
  answers : Nat
  failed : Bool
  deriving DecidableEq, Repr

/-- One request of an `XF` operation that waits for its answer, under its `TAG` (R177): the local bytes that an answer with data writes. -/
structure XfPiece where
  tag : Nat
  op : Nat
  space : Nat
  laddr : Nat
  bytes : Nat
  srcSpace : Nat
  srcAddr : Nat
  deriving DecidableEq, Repr

/-- What the `CT` syllable of the bundle in issue decides about the next bundle. -/
inductive CtAct where
  | seq
  | jump (target : Nat)
  | loopOn (l : Nat) (count : Nat) (endPc : Nat)
  | loopOff (l : Nat)
  | loopSkip (l target : Nat)
  | stop
  deriving DecidableEq, Repr

/-- The execution registers of a tile. -/
structure TileRegs where
  sregs : Tab Word
  vregs : Tab (List Word)
  pregs : Tab Nat
  loops : Tab Loop
  descs : Tab Desc
  flags : Tab Nat
  regNow : Tab Nat
  heldInc : List (Nat × Bool)
  pals : Tab Palette
  loopSeq : Nat
  deriving DecidableEq, Repr

def TileRegs.zero : TileRegs := ⟨[], [], [], [], [], [], [], [], [], 0⟩

/-- The matrix engine of a tile. -/
structure TileMx where
  accs : Tab (List Word)
  wb0 : WbReg
  wb1 : WbReg
  fill : Option Fill
  blk : Option Block
  closed : List Block
  lastClear : Tab Nat
  feed : FeedSt
  drain : Option Drain
  drainFree : Nat
  ctrDrain : Nat
  ctrVx0 : Nat
  ctrVx1 : Nat
  mxChecks : List Chk
  vxChecks : List Chk
  trFree : Nat
  deriving DecidableEq, Repr

def TileMx.zero : TileMx :=
  ⟨[], WbReg.zero, WbReg.zero, none, none, [], [], FeedSt.zero, none, 0, 0, 0, 0, [], [], 0⟩

/-- The memories of a tile with the flipped bits of their (39,32) words. `lsPre` and `lsPreFlips` hold, for the bytes and words of local store that
port X wrote in this clock period, what port T still reads in it (R28); `glazePre` and `glazePreFlips` the same for the glaze words that the bank
arbiter's path wrote (R164). -/
structure TileMem where
  ls : Mem
  glaze : Mem
  bundles : Mem
  lsFlips : Tab Nat
  glazeFlips : Tab Nat
  bundleFlips : Tab Nat
  lsPre : Tab Byte
  lsPreFlips : Tab Nat
  glazePre : Tab Byte
  glazePreFlips : Tab Nat
  deriving DecidableEq, Repr

def TileMem.zero : TileMem := ⟨[], [], [], [], [], [], [], [], [], []⟩

/-- The issue state of a tile: the program counter (4096 stands for the fetch past the end, R37), the execution cycle, the empty cycles left after a
branch (R25), the syllables of the bundle in issue that have issued, the held state (R87), the accesses of this cycle (R27), the operations in
flight, the flags of increments that have arrived and not been registered, and whether a debug grant freezes this period (R29). -/
structure TileIssue where
  pc : Nat
  cyc : Nat
  bubble : Nat
  issued : Nat
  held : Bool
  ct : CtAct
  acc : List (Nat × Nat × Nat × Nat)
  inflight : List Pend
  palw : List PalWrite
  xf : List XfOp
  pieces : List XfPiece
  xfSeq : Nat
  tagSeq : Nat
  arrive : List Nat
  stopped : Bool
  bundleValid : Bool
  dbgFreeze : Bool
  deriving DecidableEq, Repr

def TileIssue.zero : TileIssue := ⟨0, 0, 0, 0, false, .seq, [], [], [], [], [], 0, 0, [], false, false, false⟩

/-- The step a tile runs (R127, R136): its seed, budget, periods counted, barrier group, the barriers the tile has arrived at
(R139: `base` is the first instance, `key` the barrier unit; `barFlags` holds the outstanding ones, of earlier steps too, by unit, instance and flag),
the count at which a bundle last issued (R406), the bundle in issue in the last counted period (R487), and whether the step has started and waits for the
row (R46). -/
structure TileStep where
  active : Bool
  startPending : Bool
  wakeWait : Bool
  entryPc : Nat
  stepId : Nat
  seed : Dword
  budget : Nat
  used : Nat
  group : Nat
  arrivals : Nat
  barFlags : List (Nat × Nat × Nat)
  ended : Bool
  lastIssue : Nat
  key : Nat
  base : Nat
  serial : Nat
  endPc : Nat
  startWait : Bool
  deriving DecidableEq, Repr

def TileStep.zero : TileStep := ⟨false, false, false, 0, 0, 0#64, 0, 0, 0, 0, [], false, 0, 0, 0, 0, 0, false⟩

/-- The register block of a tile (spec/01_tile.md, Tile register block); `chkEff` is `TILE_CHK_CTL` as in effect since the last step start (R53).
`sbe` counts on; the register shows it saturated at 0xFFFF. `raised` holds the faults detected in the command that runs, by their bits, until the package records them (R404). -/
structure TileBlk where
  fault : Nat
  faultPc : Nat
  faultSlot : Nat
  precise : Bool
  faultGen : Nat
  infoSet : Bool
  chk : Nat
  chkEff : Nat
  sbe : Nat
  lateWake : Nat
  frozen : Nat
  stepCount : Nat
  nearMiss : Nat
  gen : Nat
  scrubLs : Nat
  scrubBs : Nat
  raised : List Nat
  deriving DecidableEq, Repr

def TileBlk.reset : TileBlk := ⟨0, 0, 0, false, 0, false, 7, 7, 0, 0, 0, 0, 0, 0, 0, 0, []⟩

/-- One physical tile. `act` holds its part of its row's activity counters (R386) since they were last read, by the numbers of `Config.energyCoef`. -/
structure Tile where
  r : TileRegs
  mx : TileMx
  mem : TileMem
  iss : TileIssue
  st : TileStep
  blk : TileBlk
  act : Tab Nat
  deriving DecidableEq, Repr

def Tile.reset : Tile :=
  ⟨TileRegs.zero, TileMx.zero, TileMem.zero, TileIssue.zero, TileStep.zero, TileBlk.reset, []⟩

end Sys2Proof.Machine
end

