-- ==== Sys2Proof/Machine/NetState.lean ====
section
/-!
DEFINITION. The state of the die networks and bridges (R172 to R184), the shared arbiters (R166 to R168), the glaze register blocks
(spec/05_glaze_and_die_network.md), and the lake stacks (spec/06_lake_stacks.md). A reset value the spec does not give is zero (log entry 1).
-/
namespace Sys2Proof.Machine

/-- Who waits for the answer to a request: a tile (with the number of its request), a DMA channel, another package (by the link that carried the `PKT` in, with its tag, `SLPN` and class),
the broadcast loader, a host access through the HDM window, or the debug access port. -/
inductive Asker where
  | tile (pti seq : Nat)
  | dma (ch : Nat)
  | link (l tag slpn tc : Nat) (mir : Bool)
  | loader
  | host (tag : Nat)
  | probe
  deriving DecidableEq, Repr

/-- Where a packet is going in the end: a tile position, a lake stack, or an endpoint on H-die `h`. -/
inductive Dest where
  | tile (pti : Nat)
  | lake (stack : Nat)
  | hub (h : Nat)
  deriving DecidableEq, Repr

/-- A packet in flight (R177): the header fields, words 4 to 7, the data words, its destination and asker, and where it is: on the network of `die` (in `plane` at router
`row`, `col`, on its way to router `trow`, `tcol`; `hops` counts the router inputs passed), or in the fabric of H-die `hub`. `lpn` is the LPN a request names; `via` lists the
bridges that hold an entry for it, the last one crossed first (R182); `since` is the time it left the mesh. `inp` is the input by which it came into its router: 0 north,
1 east, 2 south, 3 west, 4 local or edge port. Of a broadcast (R180), `copyOf` names the branching that a copy comes from or an answer goes back to, and `targets` lists the tiles a copy
still has to reach. `made` counts the bytes that the beats of an access to a glaze slice have moved (R164). -/
structure Pkt where
  id : Nat
  kind : Nat
  addr : Nat
  lpn : Nat
  tag : Nat
  srcEp : Nat
  dstEp : Nat
  words : Nat
  gen : Nat
  genChk : Bool
  ext : List Nat
  data : List Word
  asker : Asker
  dest : Dest
  inHub : Bool
  hub : Nat
  die : Nat
  plane : Nat
  row : Nat
  col : Nat
  trow : Nat
  tcol : Nat
  hops : Nat
  arrived : Bool
  poisoned : Bool
  via : List Nat
  since : Nat
  inp : Nat
  copyOf : Option Nat
  targets : List Nat := []
  made : Nat := 0
  deriving DecidableEq, Repr

/-- A branching of a broadcast (R180): the packet that branched, where it did, the branches that have not answered, and the answers so far, each by its kind and its word 4. -/
structure Bcast where
  pkt : Pkt
  left : Nat
  answers : List (Nat × Nat)
  deriving DecidableEq, Repr

/-- An entry of a bridge's table: the tag it gave and what it restores on the response (R182): `SRC_EP`, `TAG`, who asked, and the bridges crossed before. -/
structure BrEnt where
  tag : Nat
  srcEp : Nat
  origTag : Nat
  asker : Asker
  via : List Nat
  deriving DecidableEq, Repr

/-- An arbiter (R166 to R168): grants numbered from 0, waiting requesters with the cycle they registered in and the beats they ask for, and the transfer in
use with its beats left. -/
structure Arb where
  grants : Nat
  waiting : List (Nat × Nat × Nat)
  inUse : Option Nat
  beats : Nat
  deriving DecidableEq, Repr

def Arb.zero : Arb := ⟨0, [], none, 0⟩

/-- A read waiting for its glaze bank (R185), with the bytes that its beats have read (R164). -/
structure GlazeReq where
  pkt : Pkt
  pti : Nat
  off : Nat
  got : List Byte
  deriving DecidableEq, Repr

/-- The register block of a C-die's network and glaze (spec/05_glaze_and_die_network.md). `scrubNow` is `GLAZE_SCRUB_EN` as in effect since the last bank row boundary. -/
structure DieReg where
  skipRow : Nat
  scrubEn : Bool
  dnSbe : Nat
  dbeValid : Bool
  dbePlane : Nat
  dbeLoc : Nat
  dbeHdr : Bool
  dbeInput : Nat
  dbeGen : Nat
  glzSbe : Nat
  gdbeValid : Bool
  gdbeScrub : Bool
  gdbeSlice : Nat
  gdbeWord : Nat
  scrubPass : Nat
  scrubAt : Nat
  zeroing : Bool
  scrubNow : Bool
  deriving DecidableEq, Repr

def DieReg.reset : DieReg :=
  { skipRow := 12, scrubEn := true, dnSbe := 0, dbeValid := false, dbePlane := 0, dbeLoc := 0, dbeHdr := false, dbeInput := 0, dbeGen := 0,
    glzSbe := 0, gdbeValid := false, gdbeScrub := false, gdbeSlice := 0, gdbeWord := 0, scrubPass := 0, scrubAt := 0,
    zeroing := false, scrubNow := true }

/-- The die networks of the package. `dbgLast` is the time of the debug port's last glaze access (R171). -/
structure Net where
  pkts : List Pkt
  seq : Nat
  bridges : Tab (List BrEnt)
  arbs : Tab Arb
  glazeQ : List GlazeReq
  dies : Tab DieReg
  bcasts : List Bcast
  dbgLast : Option Nat
  flits : Nat
  deriving DecidableEq, Repr

def Net.reset : Net := ⟨[], 0, [], [], [], [], [], none, 0⟩

/-- A lake channel: its power state (0 `L_ACTIVE`, 1 `L_PDN`, 2 `L_SREF`), the time of its last request, its scrub
position and passes, a wake asked for with the earliest time it may end, and the time of its last refresh. -/
structure Chan where
  power : Nat
  lastUse : Nat
  scrubAt : Nat
  passes : Nat
  wakeReq : Option Nat
  refreshed : Nat
  deriving DecidableEq, Repr

def Chan.zero : Chan := ⟨0, 0, 0, 0, none, 0⟩

/-- A palette table in a stack's cache (R202): its local address and bytes; the list is ordered by last use, the most recent first. -/
structure PalTab where
  addr : Nat
  bytes : List Byte
  deriving DecidableEq, Repr

/-- A lake stack. `spares` maps a row (channel, bank, row as one number) to its spare row; `corr` and `corrPrev` hold the words corrected in this scrub pass
and in the last one; `copying` lists rows whose sparing copy runs; `waitQ` holds the identifiers of registered packets that wait for a copy, a channel or an earlier request, in
registration order, and `heldQ` those of packets that wait for the end of zeroing. `temp` is in units of 0.25 °C. -/
structure Stack where
  gen : Nat
  zeroing : Bool
  draining : Bool
  scrubEn : Bool
  spareEn : Bool
  sbe : Nat
  dbeValid : Bool
  dbeScrub : Bool
  dbeCh : Nat
  dbeBank : Nat
  dbeRow : Nat
  dbeOp : Nat
  dbeCol : Nat
  dbeGen : Nat
  exhausted : Bool
  idxSkip : Nat
  genDrop : Nat
  palRange : Nat
  palCache : List PalTab
  chans : Tab Chan
  spares : Tab Nat
  corr : List Nat
  corrPrev : List Nat
  copying : List Nat
  waitQ : List Nat
  heldQ : List Nat
  zeroStart : Nat
  temp : Nat
  deriving DecidableEq, Repr

def Stack.reset : Stack :=
  { gen := 0, zeroing := false, draining := false, scrubEn := true, spareEn := true, sbe := 0, dbeValid := false, dbeScrub := false, dbeCh := 0,
    dbeBank := 0, dbeRow := 0, dbeOp := 0, dbeCol := 0, dbeGen := 0, exhausted := false, idxSkip := 0, genDrop := 0, palRange := 0,
    palCache := [], chans := [], spares := [], corr := [], corrPrev := [], copying := [], waitQ := [], heldQ := [],
    zeroStart := 0, temp := 0 }

/-- Lake memory: one address space of 384 GiB behind the mapping of R192, the flipped bits of its words, and the stacks. -/
structure Lake where
  mode : Nat
  mem : Mem
  flips : Tab Nat
  stackTab : Tab Stack
  bursts : Nat
  deriving DecidableEq, Repr

def Lake.reset : Lake := ⟨0, [], [], [], 0⟩

end Sys2Proof.Machine
end

