-- ==== Sys2Proof/Machine/SeqState.lean ====
section
/-!
DEFINITION. The state of the row controllers (R42 to R47), the step sequencer and its table (R129 to R134), the barrier unit (R139, R140), the freeze
notices (R143), and the fabric time block (spec/04_steps_and_fabric_time.md). A reset value the spec does not give is zero (log entry 1).
-/
namespace Sys2Proof.Machine

/-- A tile row: its power state code (R42), the time its wake ends, a wake held back by a power action (R47), the watch-clock cycle
of the last `WAKE` that found it ACTIVE (R45), and the time since which it has been idle in CLKGATE (R381). -/
structure Row where
  power : Nat
  wakeAt : Option Nat
  deferred : Bool
  wakeCyc : Option Nat
  idleSince : Nat
  deriving DecidableEq, Repr

/-- A row after reset is `OFF`, code 3 (`TILE_STATE.ROW_POWER`). -/
def Row.reset : Row := ⟨3, none, false, none, 0⟩

/-- The phase of a launched step. -/
inductive StepPhase where
  | waiting
  | started
  | complete
  deriving DecidableEq, Repr

/-- A launched step (R130 to R134): its place in the run, its table index, its launch time, whether the wake requests went out, the late start mark, and the
first barrier instance (R139). `key` names its barrier unit; `serial`
counts the launches since the context was accepted. -/
structure LStep where
  runIdx : Nat
  tblIdx : Nat
  hdr : List Byte
  launched : Nat
  woken : Bool
  late : Bool
  phase : StepPhase
  key : Nat
  base : Nat
  serial : Nat
  deriving DecidableEq, Repr

/-- A completion record (R134): run index, `STEP_ID`, `LATE_START`. -/
structure StepDone where
  runIdx : Nat
  stepId : Nat
  late : Bool
  ft : Nat
  deriving DecidableEq, Repr

/-- One open instance of a barrier: the tiles that arrived with their flags, the children (LPN) whose arrival was received, whether the package has
arrived, and whether its completion has been received. -/
structure BarInst where
  idx : Nat
  tiles : List (Nat × Nat)
  kids : List Nat
  up : Bool
  done : Bool
  deriving DecidableEq, Repr

/-- The barrier unit of one group: the oldest incomplete instance, the first at which the package has not arrived, and the open ones (R140). -/
structure BarUnit where
  base : Nat
  pkgNext : Nat
  open_ : List BarInst
  deriving DecidableEq, Repr

def BarUnit.zero : BarUnit := ⟨0, 0, []⟩

/-- The step sequencer. `table` maps a step-table index to its 128 bytes; an empty entry is not listed. `lastStep` and `lastFt` are of the last completion recorded (R307). -/
structure Seq where
  table : Tab (List Byte)
  runActive : Bool
  runState : Nat
  run : List Nat
  nextEntry : Nat
  stopReq : Bool
  steps : List LStep
  done : List StepDone
  lateStarts : Nat
  barSeq : Nat
  bars : Tab BarUnit
  barDrop : Nat
  notices : Tab Nat
  noteSent : Tab Nat
  runLate : Bool
  runNear : Bool
  runNo : Nat
  runsEnded : Nat
  lastStep : Nat
  lastFt : Nat
  deriving DecidableEq, Repr

def Seq.reset : Seq := ⟨[], false, 0, [], 0, false, [], [], 0, 0, [], 0, [], [], false, false, 0, 0, 0, 0⟩

/-- What the last TIM of a link told (R148), and the exchange in progress (R147): `t1` and `t1Seq` of the own `SYNC` sent last, `t2`, `t3` and `seq` of the far end's, and when
its delay was last measured. -/
structure TimLink where
  tstate : Nat
  mlpn : Nat
  hops : Nat
  tai : Int
  lastAt : Nat
  known : Bool
  t1 : Nat
  t2 : Nat
  t3 : Nat
  sentAt : Nat
  delay : Int
  off : Int
  seq : Nat
  conflict : Bool
  t1Seq : Nat
  measAt : Option Nat
  deriving DecidableEq, Repr

def TimLink.zero : TimLink := ⟨0, 0, 0, 0, 0, false, 0, 0, 0, 0, 0, 0, 0, false, 0, none⟩

/-- The fabric time block (R144 to R161). `now` counts 0.25 ns ticks of true time since the watch domain was powered; `ft` counts with the rate correction, whose
part below one tick is `frac` in units of 10^−12. `noParent` is the time since which there is no usable parent (R146), and `parentAt` the time at which the parent was chosen (R148); `ppsRose` is the true time of
the last rise of `PPS_OUT` (R157), and `ppsSrc` says that the lock on `PPS_IN` has a traceable source (R159); `ppsSteps` holds the rate steps of the last second with
the FT of each (R156). -/
structure TimeSt where
  now : Nat
  ft : Nat
  frac : Nat
  rate : Int
  tstate : Nat
  ppsLocked : Bool
  conflict : Bool
  holdConflict : Bool
  hops : Nat
  parent : Nat
  offset : Int
  delay : Nat
  tai : Int
  holdSince : Nat
  latchHi : Nat
  good : Nat
  bad : Nat
  links : Tab TimLink
  listenEnd : Option Nat
  ppsPrev : Option Nat
  ppsBad : Nat
  ppsGoodSince : Option Nat
  ppsOut : Bool
  ppsEdge : Nat
  ppsK : Int
  ppsFrameDue : Bool
  ppsLostAt : Option Nat
  ptpAnnounceRx : Nat
  ptpSyncRx : Nat
  ptpSyncTx : Nat
  ptpAnnounceTx : Nat
  ptpDelayResp : Nat
  ptpSyncAt : Nat
  ptpAnnAt : Nat
  lastSync : Tab Nat
  ptpDrop : Nat
  setDue : Bool
  noParent : Option Nat
  ppsSteps : List (Nat × Int)
  parentAt : Nat
  ppsRose : Nat
  ppsSrc : Bool
  deriving DecidableEq, Repr

def TimeSt.reset : TimeSt :=
  { now := 0, ft := 0, frac := 0, rate := 0, tstate := 0, ppsLocked := false, conflict := false, holdConflict := false, hops := 0,
    parent := 0x7F, offset := 0, delay := 0, tai := 0, holdSince := 0, latchHi := 0, good := 0,
    bad := 0, links := [], listenEnd := none, ppsPrev := none, ppsBad := 0, ppsGoodSince := none,
    ppsOut := false, ppsEdge := 0, ppsK := 0, ppsFrameDue := false, ppsLostAt := none, ptpAnnounceRx := 0,
    ptpSyncRx := 0, ptpSyncTx := 0, ptpAnnounceTx := 0, ptpDelayResp := 0, ptpSyncAt := 0, ptpAnnAt := 0, lastSync := [], ptpDrop := 0, setDue := false,
    noParent := none, ppsSteps := [], parentAt := 0, ppsRose := 0, ppsSrc := false }

end Sys2Proof.Machine
end

