-- ==== Sys2Proof/Machine/CtxState.lean ====
section
/-!
DEFINITION. The state of the accepted context and its kill (R405 to R412), the collected faults (R404), the logs (R421, R422), the defect list
(R345, R346), and the reset and kill register block (spec/13_faults_and_reset.md). A reset value the spec does not give is zero (log entry 1).
-/
namespace Sys2Proof.Machine

/-- The context. `genLive` holds from acceptance to the generation change of its teardown (R412). `phase` is `TEARDOWN_STATE.PHASE`. -/
structure Ctx where
  accepted : Bool
  genLive : Bool
  gen : Nat
  id : Nat
  killDue : Nat
  killing : Bool
  phase : Nat
  killCause : Nat
  oldGen : Nat
  abortOrigin : Nat
  abortCtxId : Nat
  abortSent : Bool
  tdStart : Nat
  genAt : Nat
  glazeZeroed : Bool
  tileZeroed : Bool
  lakeLeft : List Nat
  relayed : List (Nat × Nat × Nat)
  noSpareRow : Bool
  warm : Nat
  deriving DecidableEq, Repr

def Ctx.reset : Ctx :=
  { accepted := false, genLive := false, gen := 0, id := 0, killDue := 0, killing := false, phase := 0, killCause := 0, oldGen := 0,
    abortOrigin := 0, abortCtxId := 0, abortSent := false, tdStart := 0, genAt := 0, glazeZeroed := false, tileZeroed := false,
    lakeLeft := [], relayed := [], noSpareRow := false, warm := 0 }

/-- An entry of the fault log (R422). -/
structure FaultEnt where
  ft : Nat
  bit : Nat
  killed : Bool
  gen : Nat
  ctxId : Nat
  stepId : Nat
  location : Nat
  detail : Nat
  deriving DecidableEq, Repr

/-- An entry of the event log (R421); `data` is bytes 12 to 31 as a number. -/
structure EventEnt where
  ft : Nat
  event : Nat
  source : Nat
  data : Nat
  deriving DecidableEq, Repr

/-- A defective unit (R346). -/
structure Defect where
  ft : Nat
  kind : Nat
  source : Nat
  location : Nat
  spare : Nat
  deriving DecidableEq, Repr

/-- The collected faults of the status mirror (R404), and the reset block. -/
structure Faults where
  sticky : Nat
  firstFault : Nat
  firstTid : Nat
  firstTileFault : Nat
  firstStepId : Nat
  firstFt : Nat
  count : Nat
  sbeTotal : Nat
  lastReset : Nat
  mordRestarts : Nat
  watchRestarts : Nat
  tileDrop : Nat
  nackRx : Nat
  deriving DecidableEq, Repr

def Faults.reset : Faults :=
  { sticky := 0, firstFault := 0xFFFF, firstTid := 0x3FF, firstTileFault := 0, firstStepId := 0xFFFF, firstFt := 0, count := 0, sbeTotal := 0,
    lastReset := 0, mordRestarts := 0, watchRestarts := 0, tileDrop := 0, nackRx := 0 }

/-- The logs in flash, oldest first: event log (log 0), order-conflict log (log 1, its entries as 32-byte numbers), fault log (log 2), and the defect list (log 3),
with the defects found and not written yet (R345). -/
structure Logs where
  events : List EventEnt
  orders : List Nat
  faults : List FaultEnt
  defects : List Defect
  pendingDefects : List Defect
  digestOk : Bool
  fuses : List Defect
  bist : List Defect
  deriving DecidableEq, Repr

/-- Two entries mark the same unit: a lake row is one unit whether it is spared or not (R346). -/
def Defect.same (a b : Defect) : Bool := a.location == b.location && (a.kind == b.kind || ((a.kind == 4 || a.kind == 5) && (b.kind == 4 || b.kind == 5)))

/-- A later mark joins the entry of its unit (R346): `SOURCE` is the OR, a row spared again has its new spare row (R217), and a row left without one is unspared (R218). -/
def Defect.join (d e : Defect) : Defect :=
  { ft := if d.ft = 0 then e.ft else d.ft, kind := max d.kind e.kind, source := d.source ||| e.source, location := d.location, spare := if max d.kind e.kind = 4 then e.spare else 0 }

/-- A mark joins a list of defects: the entry of its unit, or one of its own. -/
def markIn (e : Defect) (l : List Defect) : List Defect := if l.any e.same then l.map (fun d => if e.same d then d.join e else d) else l ++ [e]

def Logs.reset : Logs := ⟨[], [], [], [], [], true, [], []⟩

end Sys2Proof.Machine
end

