-- ==== Sys2Proof/Machine/LinkState.lean ====
section
/-!
DEFINITION. The state of the 96 Stoith links, the octets, the route table and the link-edge registers (spec/08_stoith_links.md), and of the sixteen DMA
channels (spec/07_descriptor_dma.md). A reset value the spec does not give is zero (log entry 1).
-/
namespace Sys2Proof.Machine

/-- A transaction packet of a `PKT` slot (R254): `ext` holds die-network header words 4 to 7. -/
structure LPkt where
  tc : Nat
  mir : Bool
  hops : Nat
  dlpn : Nat
  slpn : Nat
  gen : Nat
  tag : Nat
  words : Nat
  addr : Nat
  kind : Nat
  ext : List Nat
  data : List Word
  deriving DecidableEq, Repr

/-- An `MGT` slot (R256). -/
structure Mgt where
  mkind : Nat
  bcast : Bool
  hops : Nat
  dlpn : Nat
  slpn : Nat
  gen : Nat
  arg : Nat
  deriving DecidableEq, Repr

/-- A `TIM` slot (R257). `rxFt` is the FT at which the frame that held a received one crossed the lands; a slot that is sent has none. -/
structure TimS where
  tkind : Nat
  tstate : Nat
  hops : Nat
  mlpn : Nat
  seq : Nat
  ta : Nat
  tb : Nat
  tai : Nat
  rxFt : Option Nat
  deriving DecidableEq, Repr

/-- A header slot as received or sent (R253, R258). -/
inductive Slot where
  | pkt (p : LPkt)
  | mgt (m : Mgt)
  | tim (t : TimS)
  | ack (seq : Nat) (nak : Bool) (credits : List Nat)
  | ident (blk : Nat)
  | handoffReq (link : Nat)
  | handoffRsp (link exp : Nat)
  | retrain
  deriving DecidableEq, Repr

/-- A packet or slot queued at a link's egress: its rank of R265 (0 `TIM`, 1 `MGT`, 2 SCH responses, 3 UNS responses, 4 SCH requests, 5 UNS requests), the time it
registered, the SCH slot it belongs to, the time before which a perturbation holds it, and, for a response, the link its request arrived on (R273). -/
structure QEnt where
  slot : Slot
  rank : Nat
  since : Nat
  sch : Option Nat
  notBefore : Nat
  arrival : Option Nat
  deriving DecidableEq, Repr

/-- A frame (R250): `RSTART`, `INS` and its ten flits of 512 bits, flit 0 first. Its 5,140 bits, the CRC among them, are `Frame.bits`. -/
structure Frame where
  rstart : Bool
  ins : Nat
  flits : List Nat
  deriving DecidableEq, Repr

/-- A packet placed in frames and kept for a handoff: the number of the frame that holds its last flit, counted from link initialisation (R259, R269). -/
structure Sent where
  ent : QEnt
  last : Nat
  deriving DecidableEq, Repr

/-- The transmit side of a link: sequenced frames completed and frames covered by an `ACK`, counted from link initialisation; when an `ACK` last advanced; the end of a replay in
progress; whether the next frame carries `RSTART`; the frame under construction, its `INS`, the time and the FT at which it was begun, and the place in it of a packet's header flit whose
slot 1 is free (R254); the replay buffer, oldest frame first, each with the times it
was resent (R259, R260); the packets in those frames; queues; credits. -/
structure LinkTx where
  frames : Nat
  acked : Nat
  ackAt : Nat
  replayTo : Nat
  rstart : Bool
  cur : List Nat
  curIns : Nat
  curAt : Nat
  curFt : Nat
  hdr : Option Nat
  buf : List (Frame × Nat)
  sent : List Sent
  q : List QEnt
  emq : List Mgt
  credit : List Nat
  used : List Nat
  arb : Arb
  deriving DecidableEq, Repr

def LinkTx.zero : LinkTx :=
  { frames := 0, acked := 0, ackAt := 0, replayTo := 0, rstart := false, cur := [], curIns := 0, curAt := 0, curFt := 0, hdr := none, buf := [], sent := [], q := [], emq := [],
    credit := [0, 0, 0, 0, 0, 0], used := [0, 0, 0, 0, 0, 0], arb := Arb.zero }

/-- The receive side: frames accepted, a `NAK` outstanding, frames since the last `ACK`, freed credits per pool, the packet being assembled with its data flits left, the data flits
to pass over of a packet that was dropped,
the slots received and not yet acted on, the emergency slots among them in a queue of their own (R264), and whether a handoff has stopped reception (R269). -/
structure LinkRx where
  accepted : Nat
  nak : Bool
  nakAt : Nat
  sinceAck : Nat
  ackAt : Nat
  freed : List Nat
  held : List Nat
  part : Option (LPkt × Nat)
  skip : Nat
  q : List Slot
  em : List Mgt
  stopped : Bool
  deriving DecidableEq, Repr

def LinkRx.zero : LinkRx := ⟨0, false, 0, 0, 0, [0, 0, 0, 0, 0, 0], [0, 0, 0, 0, 0, 0], none, 0, [], [], false⟩

/-- One link (R281 to R285, and its register block). `phase`: 0 none, 1 PMD start-up, 2 codeword lock, 3 identity, 4 credit initialisation. `solo` is the surviving lane in `DEGRADED`
(R252); `pmdEnd` the time at which the PHYs end PMD start-up (R282); `wasSch` the slot that the far end's handoff has moved away (R267); `farPlan` the `PLAN_TAG` of the last identity block (R279). -/
structure Link where
  state : Nat
  prev : Nat
  lane0 : Bool
  lane1 : Bool
  sch : Option Nat
  wasSch : Option Nat
  solo : Option Nat
  planMismatch : Bool
  queued : Bool
  claim : Nat
  fast : Bool
  phase : Nat
  phaseAt : Nat
  pmdEnd : Option Nat
  retryAt : Option Nat
  fastAt : Nat
  lastFast : Option Nat
  degAt : Nat
  farId : Nat
  farPort : Nat
  farLpn : Nat
  farLpnValid : Bool
  farRole : Nat
  farDev : Nat
  farTim : Bool
  farHandoff : Bool
  farPlan : Nat
  identGot : Bool
  identAt : Nat
  fecCorr : Nat
  badFrames : Nat
  replays : Nat
  fastRetrains : Nat
  fullTrains : Nat
  handoffs : Nat
  nearMiss : Nat
  asym : Int
  genDrop : Nat
  misroute : Nat
  repeatDrop : Nat
  handoff : Option (Nat × Nat)
  tx : LinkTx
  rx : LinkRx
  deriving DecidableEq, Repr

def Link.reset : Link :=
  { state := 0, prev := 0, lane0 := false, lane1 := false, sch := none, wasSch := none, solo := none, planMismatch := false, queued := false, claim := 0, fast := false,
    phase := 0, phaseAt := 0, pmdEnd := none, retryAt := none, fastAt := 0, lastFast := none, degAt := 0, farId := 0, farPort := 0, farLpn := 0,
    farLpnValid := false, farRole := 3, farDev := 0, farTim := false, farHandoff := false, farPlan := 0, identGot := false, identAt := 0, fecCorr := 0,
    badFrames := 0, replays := 0, fastRetrains := 0, fullTrains := 0, handoffs := 0, nearMiss := 0, asym := 0, genDrop := 0, misroute := 0,
    repeatDrop := 0, handoff := none, tx := LinkTx.zero, rx := LinkRx.zero }

/-- An octet (R266 to R268): its spare index (0xFE names none), the link index that carries each slot, and `OCTET_SHORT`. -/
structure Octet where
  spare : Nat
  slots : List Nat
  short : Bool
  deriving DecidableEq, Repr

/-- The default spare is index 7, and slots 0 to 6 map in ascending order to the other indices (R266). -/
def Octet.reset : Octet := ⟨7, [0, 1, 2, 3, 4, 5, 6], false⟩

/-- The Stoith links of the package. `claimsSeen` holds the relayed (`SLPN`, PID, time) of R277; `claimAgain` is the time a spare sends its own claim again; `handoffs` counts since power-up, and `flits` counts the flits sent since the power manager last read it (R386). -/
structure Stoith where
  links : Tab Link
  octets : Tab Octet
  routes : Tab Nat
  unreach : Tab Nat
  trainMode : Nat
  claimsSeen : List (Nat × Nat × Nat)
  claimAgain : Option Nat
  handoffs : Nat
  flits : Nat
  deriving DecidableEq, Repr

def Stoith.reset : Stoith := ⟨[], [], [], [], 0, [], none, 0, 0⟩

/-- A request of a DMA channel that waits for its answer (R228, R241): its token, what it is for (0 source read, 1 descriptor read, 2 shadow read, 3 status write, 4 ownership write,
5 destination write, 6 auxiliary source read, 7 auxiliary destination write, 8 a read whose answer will be discarded), its place in its stream, whether it is a host request, and its expiry time. -/
structure DmaReq where
  tok : Nat
  what : Nat
  off : Nat
  len : Nat
  host : Bool
  expires : Nat
  deriving DecidableEq, Repr

/-- The descriptor a channel runs: its sixteen words, its address, the source bytes read so far (by stream offset), how far reads and writes have issued, the destination
ranges written, the first failure and when it was registered, and the completion step reached (R238): 0 moving data, 1 its status is settled (`fail` holds it), 3 status written. -/
structure DmaDesc where
  words : List Nat
  addr : Nat
  gen : Nat
  src : Tab Byte
  auxSrc : Tab Byte
  readAt : Nat
  auxReadAt : Nat
  writeAt : Nat
  auxWriteAt : Nat
  written : List (Nat × Nat)
  fail : Option Nat
  failAt : Nat
  stage : Nat
  peeked : Bool
  deriving DecidableEq, Repr

/-- A descriptor as it begins: its words, its address and its `TAG_GEN`. -/
def DmaDesc.start (words : List Nat) (addr gen : Nat) : DmaDesc :=
  { words := words, addr := addr, gen := gen, src := [], auxSrc := [], readAt := 0, auxReadAt := 0, writeAt := 0, auxWriteAt := 0, written := [], fail := none, failAt := 0, stage := 0, peeked := false }

/-- A DMA channel (R233 to R244). `state` is the code of `DMA_STATUS`, the one a pause leaves; `fetching` says that a descriptor read is outstanding or waits to be issued; `stopAt` is
the time of the stop that `stopReq` tells of, `okAt` the time at which the last descriptor completed with status 0, and `late` the tokens of requests given up whose answer may still come, with whether it comes from the host. -/
structure DmaCh where
  next : Nat
  state : Nat
  pend : Bool
  fetchErr : Bool
  lastStatus : Nat
  tagGen : Nat
  timeoutUs : Nat
  nearMiss : Nat
  done : Nat
  claim : Nat
  cur : Option DmaDesc
  fetching : Bool
  shadow : Option (List Nat)
  stopReq : Bool
  stopAt : Nat
  okAt : Option Nat
  reqs : List DmaReq
  tokSeq : Nat
  late : List (Nat × Bool)
  deriving DecidableEq, Repr

def DmaCh.reset : DmaCh :=
  { next := 0, state := 0, pend := false, fetchErr := false, lastStatus := 0, tagGen := 0, timeoutUs := 10000, nearMiss := 0, done := 0,
    claim := 1, cur := none, fetching := false, shadow := none, stopReq := false, stopAt := 0, okAt := none, reqs := [], tokSeq := 0, late := [] }

end Sys2Proof.Machine
end

