-- ==== Sys2Proof/Machine/DebugState.lean ====
section
/-!
DEFINITION. The state of the perturbation registers, the two debug scopes, and the JTAG port (spec/16_perturbation_and_debug.md; the scopes are those of R338).
A reset value the spec does not give is zero (log entry 1).
-/
namespace Sys2Proof.Machine

/-- A party's enable of scopes (R338): party 0 host, 1 rack manager; the scopes as a mask, the duration in seconds, and when it was given. -/
structure ScopeAsk where
  party : Nat
  scopes : Nat
  secs : Nat
  at_ : Nat
  deriving DecidableEq, Repr

/-- The perturbation registers (R458, R459) and the scopes (R338). `regs` holds the values as written, `eff` those in effect (R460). `on` says that the on window of `PT_TIMER` runs, `timerAt`
when its first period began and `timerSet` when the register was last written; `shedEnd` is the end of a forced shed that stands, and `shedNew` says that a write of `PT_FORCE_SHED` is still to take effect; `setBy` names the party that last wrote a register;
`strapLow` that `DEBUG_EN_N` is low. -/
structure Pert where
  regs : Tab Nat
  eff : Tab Nat
  setBy : Tab Nat
  asks : List ScopeAsk
  pertEnd : Option Nat
  debugEnd : Option Nat
  on : Bool
  timerAt : Nat
  timerSet : Nat
  shedEnd : Option Nat
  shedNew : Bool
  strapLow : Bool
  deriving DecidableEq, Repr

/-- `DEBUG_EN_N` is high and every register is at its default, 0 (R458, R459). -/
def Pert.reset : Pert := ⟨[], [], [], [], none, none, false, 0, 0, none, false, false⟩

/-- A scope's enable needs both parties within this time (R338), in seconds. -/
def askWindow : Nat := 60

/-- A debug access to a tile's window that waits for its row or for the glaze bank (R46, R171): the physical tile, 0 local store or 1 glaze, the offset, and the word to write. -/
structure DapAccess where
  pti : Nat
  space : Nat
  off : Nat
  data : Option Nat
  deriving DecidableEq, Repr

/-- The JTAG port (R465, R466): the instruction register, the boundary cells, what Capture-DR loads into the debug access register (read data and status), and a window access under way. -/
structure Jtag where
  ir : Nat
  boundary : Nat
  data : Nat
  status : Nat
  access : Option DapAccess
  deriving DecidableEq, Repr

/-- `IDCODE` is selected after Test-Logic-Reset (R465). -/
def Jtag.reset : Jtag := ⟨1, 0, 0, 0, none⟩

end Sys2Proof.Machine
end

