-- ==== Sys2Proof/Machine/CfgState.lean ====
section
/-!
DEFINITION. The accepted configuration image by its fields (R352 to R359), and the configuration buffer (R321).
-/
namespace Sys2Proof.Machine

/-- An accepted configuration image: the values of its fields with the defaults of R354 filled in, its digest, length and the FT of its acceptance. `barriers` maps a group to
its LPN ranges (first LPN, count); `wiring` gives for each link the far `ID`, the far `PORT` and `USED`. -/
structure Image where
  digest : List Byte
  len : Nat
  serial : Nat
  ft : Nat
  pid : Nat
  lpn : Nat
  timeMaster : Nat
  ip : Nat
  udpPort : Nat
  mgr : Bool
  interleave : Nat
  checksOff : Nat
  trainMode : Nat
  spareIdx : List Nat
  pools : List (List Nat)
  wiring : List (Nat × Nat × Bool)
  planTag : Nat
  routes : Tab Nat
  barriers : Tab (List (Nat × Nat))
  loadList : List (Nat × Nat)
  timeEn : Nat
  ptp : List Nat
  phyLatency : Nat
  orphanCap : Nat
  minFlow : Nat
  flowK : Nat
  claims : List (Nat × Nat × Nat)
  spareEn : Nat
  deriving DecidableEq, Repr

/-- The image in force (`CLAIM_SET` changes its explicit claims), the buffer of `CFG_PART` with the image length that its parts name, and the `MMB` address kept in flash (R341). -/
structure Cfg where
  image : Option Image
  buf : List Byte
  bufLen : Nat
  flashIp : Nat
  flashPort : Nat
  deriving DecidableEq, Repr

def Cfg.reset : Cfg := ⟨none, [], 0, 0, 47800⟩

/-! ### LPN range lists (R358) -/

/-- Insert a range by its first LPN. -/
def insRange (x : Nat × Nat) : List (Nat × Nat) → List (Nat × Nat)
  | [] => [x]
  | y :: r => if x.1 ≤ y.1 then x :: y :: r else y :: insRange x r

/-- The ranges by ascending LPN. -/
def sortRanges (l : List (Nat × Nat)) : List (Nat × Nat) := l.foldr insRange []

/-- The number of LPNs a range list names. -/
def rangeCount (l : List (Nat × Nat)) : Nat := (l.map Prod.snd).foldl (· + ·) 0

/-- The index of an LPN among the members of a sorted range list (R138). -/
def rangeIndex : List (Nat × Nat) → Nat → Option Nat
  | [], _ => none
  | (a, n) :: r, x =>
    if a ≤ x ∧ x < a + n then some (x - a)
    else match rangeIndex r x with
      | some k => some (k + n)
      | none => none

/-- Member k of a sorted range list. -/
def rangeMember : List (Nat × Nat) → Nat → Option Nat
  | [], _ => none
  | (a, n) :: r, k => if k < n then some (a + k) else rangeMember r (k - n)

/-- The children of member k in a tree of eight (R138, R363). -/
def kidsOf (m k : Nat) : List Nat := ((List.range 8).map (fun i => 8 * k + 1 + i)).filter (fun c => decide (c < m))

end Sys2Proof.Machine
end

