-- ==== Sys2Proof/Machine/HostState.lean ====
section
/-!
DEFINITION. The state of the CXL port, the mailboxes and the status mirror (spec/09_host_attachment.md), and of the command parties, the I3C port and the management
datagram (spec/10_mordant_commands.md). A reset value the spec does not give is zero (log entry 1).
-/
namespace Sys2Proof.Machine

/-- A mailbox: 0 to 3 are `HMB0` to `HMB3`, 4 is `MMB`, 5 stands for the I3C port. `regs` lists the registered commands by index, with the time of
their registration (R298, R299). `handover` says that it answers `MBX_E_HANDOVER` (R301), `hoHidden` that a port reset has since set `HMBn_INFO.HANDOVER` to 0. `busy` says that a command has begun and is not answered; `ghost` is the opcode of one that a
port reset has left without an answer while its effect runs on (R290). -/
structure Mbx where
  prod : Nat
  cons : Nat
  busy : Bool
  prodErr : Bool
  handover : Bool
  nearMiss : Nat
  regs : List (Nat × Nat)
  lastStatus : Nat
  lastSeq : Nat
  lastOp : Nat
  hoHidden : Bool
  ghost : Option Nat
  deriving DecidableEq, Repr

def Mbx.reset : Mbx := ⟨0, 0, false, false, false, 0, [], 0, 0, 0, false, none⟩

/-- The host side. `ram` holds BAR2 below 0x1000000; from there on it holds the `MMB` ring (0x1000000), the staged data of `MMB` requests (0x1100000) and responses
(0x1200000), 1,024 bytes a slot, and the I3C command (0x1300000). `slotOld` holds, by address, the copy of a registered slot that the package uses where the host wrote the
slot before `CONS` passed it (R298). `aer` holds errors by their bit since its status bit was cleared, `ras` CXL.mem errors and `rasStat` the Uncorrectable Error Status of the RAS
capability (R289). `mem` is host memory as the package's writes left it; `space` the configuration registers as written. -/
structure HostSt where
  linkUp : Bool
  cxl : Bool
  rate : Nat
  width : Nat
  cfgReady : Bool
  refclk : Bool
  perst : Bool
  space : Tab Nat
  comp : Tab Nat
  hdmBase : Nat
  hdmSize : Nat
  hdmCommit : Bool
  hdmLock : Bool
  aer : Tab Nat
  ras : Nat
  rasStat : Nat
  ram : Mem
  ramFlips : Tab Nat
  slotOld : Tab (List Byte)
  mem : Mem
  mbx : Tab Mbx
  smAddr : Nat
  smEn : Bool
  smActive : Bool
  recSeq : Tab Nat
  heartbeat : Nat
  beatAt : Nat
  deriving DecidableEq, Repr

def HostSt.reset : HostSt :=
  { linkUp := false, cxl := false, rate := 0, width := 0, cfgReady := false, refclk := false, perst := true, space := [], comp := [], hdmBase := 0, hdmSize := 0,
    hdmCommit := false, hdmLock := false, aer := [], ras := 0, rasStat := 0, ram := [], ramFlips := [], slotOld := [], mem := [], mbx := [], smAddr := 0,
    smEn := false, smActive := false, recSeq := [], heartbeat := 0, beatAt := 0 }

/-- A management key slot (R316, R317): the key, the last counter accepted, and the package's own counter. -/
structure KeySlot where
  key : List Byte
  rx : Nat
  tx : Nat
  deriving DecidableEq, Repr

/-- The command parties: I3C address, command and response, the management keys in flash, what is kept of each `MMB` slot (`reqKey`), the key that authenticated its request
(`reqAuth`, R336), the manager's presence, and the orders each party holds (R328, R372, R374, R397). -/
structure Mgmt where
  i3cAddr : Option Nat
  i3cPending : Bool
  i3cReady : Bool
  i3cAt : Option Nat
  keys : Tab KeySlot
  reqKey : Tab Nat
  reqAuth : Tab KeySlot
  mmbDone : Nat
  mgrFrom : Option Nat
  mgrHeard : Option Nat
  mgrFired : Option Nat
  capHost : Nat
  capBy : Nat
  capMgr : Nat
  orphan : Bool
  holders : List Nat
  sprintHost : Bool
  sprintMgr : Bool
  taiBy : Nat
  taiVal : Int
  deriving DecidableEq, Repr

/-- Both caps are 2,800 W and no party holds after watch-domain power-up (R372, R415). -/
def Mgmt.reset : Mgmt :=
  { i3cAddr := none, i3cPending := false, i3cReady := false, i3cAt := none, keys := [], reqKey := [], reqAuth := [], mmbDone := 0,
    mgrFrom := none, mgrHeard := none, mgrFired := none, capHost := 2800, capBy := 1, capMgr := 2800, orphan := false, holders := [], sprintHost := false, sprintMgr := false, taiBy := 0, taiVal := 0 }

end Sys2Proof.Machine
end

