-- ==== Sys2Proof/Machine/PkgState.lean ====
section
/-!
DEFINITION. The state of the package states and pins (spec/11_bring_up_and_configuration.md, spec/17_package_and_electrical.md), of the power manager
(spec/12_power_and_cooling.md), of the spare group (spec/14_spares_and_fencing.md), of the firmware (spec/15_firmware_and_attestation.md) and of the bundle loader (R363, R364).
A reset value the spec does not give is zero (log entry 1).
-/
namespace Sys2Proof.Machine

/-- The package states in their code of R308; `FENCED` and `HOLD` overlay the underlying state (R342). -/
def psOff : Nat := 0
def psStandby : Nat := 1
def psBoot : Nat := 2
def psTrain : Nat := 3
def psAwait : Nat := 4
def psConf : Nat := 5
def psRun : Nat := 7
def psTear : Nat := 8
def psHold : Nat := 9
def psFenced : Nat := 10
def psWatch : Nat := 11
def psNotReady : Nat := 12
def psFailed : Nat := 13

/-- The underlying package state with the pins it follows. `warm` says that `BOOT` was entered by a warm reset, `bootOk` and `bistOk` what is done of it; `cycleNeeded` that
`PWR_EN` counts as low until a low of 100 ms (R478); `hPower` that H-die 0 has power (R288); `straps` are the levels at the strap lands; `therm` that the package holds `THERMTRIP_N` low, `thermExt` that the tray does. -/
structure Pkg where
  under : Nat
  fenced : Bool
  reason : Nat
  blade : Bool
  bladeLow : Option Nat
  pwrEn : Bool
  pwrLowAt : Option Nat
  cycleNeeded : Bool
  mated : Bool
  therm : Bool
  thermExt : Bool
  fenceLow : Bool
  pgOut : Bool
  stage1 : Bool
  warm : Bool
  bootOk : Bool
  bistOk : Bool
  lakeTries : Nat
  lakeTrained : Bool
  mordRuns : Bool
  mordBack : Option Nat
  watchStall : Bool
  unclean : Bool
  lpnValid : Bool
  role : Bool
  straps : Nat
  serial : Nat
  refLost : Bool
  hPower : Bool
  deriving DecidableEq, Repr

/-- Before the blade is powered every pin is at its inactive level and nothing runs. -/
def Pkg.reset : Pkg :=
  { under := 0, fenced := false, reason := 0, blade := false, bladeLow := none, pwrEn := false, pwrLowAt := none, cycleNeeded := false, mated := false, therm := false,
    thermExt := false, fenceLow := false, pgOut := false, stage1 := false, warm := false,
    bootOk := false, bistOk := false, lakeTries := 0, lakeTrained := false, mordRuns := false, mordBack := none, watchStall := false, unclean := false,
    lpnValid := false, role := false, straps := 0, serial := 0, refLost := false, hPower := false }

/-- A controlled stop (R393): its start, its causes (1 leak, 2 flow, 3 both), and the dies it holds at n = 0. -/
structure CStop where
  start : Nat
  cause : Nat
  held : List Nat
  deriving DecidableEq, Repr

/-- The power manager (R365 to R398). Power in W, temperatures in units of 0.25 °C, flow in 0.01 L/min, times in ticks. `hwTerm` lists the standing terms of `CAP_HW` by
number: 1 shed, 2 leak, 3 flow, 4 inlet, 5 H-die at 95 °C, 6 H-die at 105 °C. `curBin`, `bins` and `flashBins` count ticks, and `sprintMark` is the time from which an episode is still
to be counted (R398); `capHostWas` and `capMgrWas` are the caps as the last boundary found them, and `respNew` says that a response was registered after it (R394); `dieTemp` is the hottest
reading of each die by regulator, `sensorSince` the time since which a sensor pair has differed by more than 5 °C, by location (R389), and `actAt` the time of the last reading of the
activity counters (R386). `coreV` is the core voltage of each die in mV, by regulator, 0 without power (R367); `chipLimit` the current limit of each stage-1
chiplet in mA (R370); `winP` and `winL` sum P and L over the calibration window, and `overAt` is the start of a run of periods with P above L. -/
structure Power where
  limit : Nat
  capHw : Nat
  rampAt : Option Nat
  rampLow : Bool
  hwTerm : Tab Nat
  run : List Nat
  thermal : List Nat
  thermalAt : List Nat
  dieHot : List Nat
  stackHot : Bool
  throttle : Bool
  hdieAt : Nat
  hdieHot : Bool
  hwFreeze : List Nat
  safeCap : Bool
  shedLow : Bool
  leakLow : Bool
  leakHighAt : Option Nat
  leakResp : Bool
  flowResp : Option Nat
  flowGood : Option Nat
  edges : List Nat
  stopFree : Option Nat
  cstop : Option CStop
  meas : Nat
  est : Nat
  p : Nat
  measA : Nat
  measB : Nat
  k : Nat
  diverge : Nat
  divN : Nat
  okN : Nat
  divergence : Bool
  suspect : Bool
  clearN : Nat
  abSince : Option Nat
  winM : Nat
  winE : Nat
  winAt : Nat
  winBad : Bool
  periodAt : Nat
  inlet : Nat
  outlet : Nat
  pressure : Nat
  hottest : Nat
  hotAll : Bool
  coldFail : Option Nat
  coldAbsent : Bool
  sprintAt : Option Nat
  sprintEnd : Option Nat
  sprintLow : Option Nat
  bins : List Nat
  curBin : Nat
  flashBins : List Nat
  binAt : Nat
  sheds : Nat
  flows : Nat
  leaks : Nat
  sprints : Nat
  phases : List Nat
  coreV : List Nat
  chipLimit : Nat
  winP : Nat
  winL : Nat
  overAt : Option Nat
  frozenAt : Tab Nat
  sprintMark : Nat
  capHostWas : Nat
  capMgrWas : Nat
  respNew : Bool
  dieTemp : List Nat
  sensorSince : Tab Nat
  actAt : Nat
  deriving DecidableEq, Repr

/-- The caps, run fractions and the factor k after watch-domain power-up (spec/12_power_and_cooling.md, Power register block). -/
def Power.reset : Power :=
  { limit := 2800, capHw := 2800, rampAt := none, rampLow := false, hwTerm := [], run := [16, 16, 16, 16], thermal := [16, 16, 16, 16], thermalAt := [0, 0, 0, 0], dieHot := [],
    stackHot := false, throttle := false, hdieAt := 0, hdieHot := false, hwFreeze := [], safeCap := false, shedLow := false, leakLow := false,
    leakHighAt := none, leakResp := false, flowResp := none, flowGood := none, edges := [], stopFree := none, cstop := none, meas := 0, est := 0,
    p := 0, measA := 0, measB := 0, k := 0x1000, diverge := 0, divN := 0, okN := 0, divergence := false, suspect := false, clearN := 0, abSince := none,
    winM := 0, winE := 0, winAt := 0, winBad := false, periodAt := 0, inlet := 0, outlet := 0, pressure := 0, hottest := 0, hotAll := false, coldFail := none,
    coldAbsent := false, sprintAt := none, sprintEnd := none, sprintLow := none, bins := [], curBin := 0, flashBins := [], binAt := 0, sheds := 0,
    flows := 0, leaks := 0, sprints := 0, phases := [0, 0, 0, 0, 0, 0], coreV := [0, 0, 0, 0, 0, 0], chipLimit := 0, winP := 0, winL := 0, overAt := none,
    frozenAt := [], sprintMark := 0, capHostWas := 2800, capMgrWas := 2800, respNew := false, dieTemp := [0, 0, 0, 0, 0, 0], sensorSince := [], actAt := 0 }

/-- A binding entry (R424). -/
structure Member where
  pid : Nat
  lpn : Nat
  line : Nat
  deriving DecidableEq, Repr

/-- A heartbeat line of a spare (R429) with the mirror points of the member on it (R432 to R434). `bytes` counts what was applied under the current point; `low` is the time
since which the line has been steady low, `lastUnits` the units of the last complete point. -/
structure SprLine where
  armed : Bool
  aOk : Bool
  bOk : Bool
  lastA : Option Nat
  lastB : Option Nat
  level : Bool
  low : Nat
  lastPoint : Nat
  curPoint : Nat
  units : Nat
  bytes : Nat
  lastUnits : Nat
  silentAt : Option Nat
  deriving DecidableEq, Repr

/-- With no unit driving it the tray holds a line low (R474). -/
def SprLine.zero : SprLine := ⟨false, false, false, none, none, false, 0, 0, 0, 0, 0, 0, none⟩

/-- The spare group. `role` is 0 not bound, 1 member, 2 spare; `phase` of a takeover is 1 silent, 2 fenced, 3 claimed and restoring, 4 zeroing. `hbAt` is the time of the last heartbeat
sent, `txDone` the mirror offset from which the point is still to be copied, `txLast` the member's last complete point. -/
structure Spr where
  role : Nat
  group : Nat
  members : List Member
  budget : Nat
  state : Nat
  displaced : Bool
  fenceFail : Bool
  multiSilent : Bool
  noTake : Bool
  fenceOut : Nat
  fenceDrop : Nat
  lines : Tab SprLine
  takeLine : Nat
  phase : Nat
  takeAt : Nat
  restored : Nat
  takenLpn : Option Nat
  hbSeq : Nat
  hbAt : Nat
  txPoint : Nat
  txUnits : Nat
  txLast : Nat
  copying : Bool
  txDone : Nat
  regions : List (Nat × Nat)
  takeovers : Nat
  fenceFails : Nat
  mirRefused : Nat
  deriving DecidableEq, Repr

def Spr.reset : Spr :=
  { role := 0, group := 0xFF, members := [], budget := 0, state := 0, displaced := false, fenceFail := false, multiSilent := false, noTake := false, fenceOut := 0, fenceDrop := 0,
    lines := [], takeLine := 0, phase := 0, takeAt := 0, restored := 0, takenLpn := none, hbSeq := 0, hbAt := 0, txPoint := 0, txUnits := 0, txLast := 0,
    copying := false, txDone := 0, regions := [], takeovers := 0, fenceFails := 0, mirRefused := 0 }

/-- A copy of the boot record (R441): `ACTIVE_SLOT`, the sequence number, and the copy's SHAKE256 digest; a copy never written has none. -/
structure BootRec where
  slot : Nat
  seq : Nat
  digest : List Byte
  deriving DecidableEq, Repr

/-- The handover record (R450): the journal, the binding state, the pending orders, the log heads, and the digest. The spec gives no layout: the parts are kept as numbers. -/
structure HandRec where
  journal : List Nat
  binding : List Nat
  orders : List Nat
  heads : List Nat
  digest : List Byte
  deriving DecidableEq, Repr

/-- The firmware (R441 to R457). Slots and staging hold image bytes, `recs` the two copies of the boot record. `region` and `standby` are the running and the standby Mordant program region; `watch` is the
code that the watch core runs (empty: its own ROM code), `watchBank` its standby code bank, and `watchNext` the code to which it passes at the next control-period boundary (R447, R448, R450, R452). `act` is the stage of an activation: 0 none, 1 requested, 2 drain, 3 handover, 4 imported, 5 switched,
6 self-check, 7 rollback; `fail` is the cause of R452 that the self-check has met. `writing` is the checked chunk that goes to flash. `reports` holds the nonce and the report body cached for each mailbox (R457), `boots` the entries to `BOOT` since manufacture (R456). -/
structure Fw where
  slots : List (List Byte)
  recs : List BootRec
  run : Nat
  prev : Nat
  runImage : List Byte
  stageLen : Nat
  stageDigest : List Byte
  manifest : List Byte
  chunks : Tab (List Byte)
  parts : Tab (List Byte)
  staging : Bool
  erasing : Bool
  writing : Option (Nat × List Byte)
  arb : Nat
  keyDigests : List (List Byte)
  revoked : Nat
  act : Nat
  reqAt : Nat
  reqSeq : Nat
  prepared : Bool
  leaseEnd : Option Nat
  leaseUsed : Bool
  record : Option HandRec
  selfAt : Nat
  runAt : Nat
  rolled : Bool
  fail : Nat
  boots : Nat
  reports : Tab (List Byte × List Byte)
  region : List Byte
  standby : List Byte
  watch : List Byte
  watchBank : List Byte
  watchNext : Option (List Byte)
  deriving DecidableEq, Repr

def Fw.reset : Fw :=
  { slots := [[], []], recs := [⟨0, 0, []⟩, ⟨0, 0, []⟩], run := 0, prev := 0, runImage := [], stageLen := 0, stageDigest := [], manifest := [], chunks := [], parts := [],
    staging := false, erasing := false, writing := none, arb := 0, keyDigests := [[], [], [], []], revoked := 0, act := 0, reqAt := 0, reqSeq := 0, prepared := false,
    leaseEnd := none, leaseUsed := false, record := none, selfAt := 0, runAt := 0, rolled := false, fail := 0, boots := 0, reports := [],
    region := [], standby := [], watch := [], watchBank := [], watchNext := none }

/-- A `BCAST_WR` that a load still has to send into die `die`: word 4 without `BSTORE`, the number of its group of tiles, and the bytes it carries of the load's bundles. -/
structure LoadBc where
  die : Nat
  mask : Nat
  group : Nat
  off : Nat
  len : Nat
  deriving DecidableEq, Repr

/-- A load in the loader window (R363, R364): the window, the pieces received (offset, length), the loads applied (origin LPN, `LOAD_ID`), the children by LPN and those that have not
reported (by their place), the tiles refused and the members not loaded so far, and at the origin the mailbox that waits. Of the writes into the tiles (R181): whether they have been cut
into broadcasts, those still to be sent, those sent and not answered (tag, group, number of tiles), and per group the most tiles that refused one. `repLen` is the length of the load that
repeated packets may belong to, `repAll` that its record has come again. -/
structure Loader where
  window : Mem
  got : List (Nat × Nat)
  nextId : Nat
  applied : List (Nat × Nat)
  active : Bool
  origin : Bool
  mbx : Nat
  pos : Nat
  kids : List Nat
  waiting : List Nat
  wroteAt : Nat
  written : Bool
  refused : Nat
  missing : Nat
  issued : Bool
  sends : List LoadBc
  bcs : List (Nat × Nat × Nat)
  bcSeq : Nat
  grp : Tab Nat
  repLen : Nat
  repAll : Bool
  deriving DecidableEq, Repr

def Loader.reset : Loader :=
  { window := [], got := [], nextId := 0, applied := [], active := false, origin := false, mbx := 0, pos := 0, kids := [], waiting := [],
    wroteAt := 0, written := false, refused := 0, missing := 0, issued := false, sends := [], bcs := [], bcSeq := 0, grp := [], repLen := 0, repAll := false }

end Sys2Proof.Machine
end

