-- ==== Sys2Proof/Machine/State.lean ====
section
/-!
DEFINITION. The state of the package, its faults and refusals. The state of each unit stands in a file of its own: TileState, SeqState, NetState, CtxState, LinkState, DebugState, CfgState, HostState,
PkgState.
-/
namespace Sys2Proof.Machine

/-- What the package has sent to a party outside that State holds no other trace of, oldest first: a slot placed on a link, a frame on a lane of a link, a datagram or management frame, a private read answered, a pin message.
Channels: 1 the result of a bundle store write; 2 data and 3 error of an HDM access; 5 `SYNC_AUX`; 6 PTP; 7 host reads; 8 management Ethernet; 9 I3C; 10 JTAG; 11 configuration requests; 12 AER error messages. -/
inductive Out where
  | slot (link : Nat) (s : Slot)
  | frame (link lane : Nat) (f : Frame)
  | bytes (channel : Nat) (b : List Byte)
  | value (channel : Nat) (v : Nat)
  deriving DecidableEq, Repr

/-- The package. `pending` is the queue of waiting commands, first in, first out. `tiles` maps physical tiles, `rows` tile rows (die × 13 + physical row); a unit that no table lists is at its reset
value. `gate` says that the output gate is closed (R430); `lpn` and `pid` are the package's numbers (R5, R475); `dieFrozen` lists the C-dies that are frozen (R13). -/
structure State where
  pending : List Instr
  tiles : Tab Tile
  rows : Tab Row
  seq : Seq
  time : TimeSt
  net : Net
  lake : Lake
  ctx : Ctx
  faults : Faults
  logs : Logs
  dieFrozen : Tab Bool
  st : Stoith
  dma : Tab DmaCh
  pkg : Pkg
  lpn : Nat
  gate : Bool
  pert : Pert
  jtag : Jtag
  cfg : Cfg
  pid : Nat
  h : HostSt
  m : Mgmt
  pw : Power
  spr : Spr
  fw : Fw
  ld : Loader
  out : List Out
  deriving DecidableEq, Repr

/-- No command stops the machine with a fault: the faults of the spec are records and kills in the state (R404, R407), error answers and error bits, so this type has no value. -/
inductive Fault where
  deriving DecidableEq, Repr

/-- Why a command has no meaning. -/
inductive Refusal where
  /-- A command whose row is not modelled; raised by `exec` alone, and safe. No command of this model raises it. -/
  | notModelled (mnemonic : String)
  deriving DecidableEq, Repr

/-- The package without blade power, `OFF` (R340, R415): every unit at its reset value, no lake or SRAM byte written, no command waiting, and nothing in flash and fuses. -/
def State.reset : State :=
  { pending := [], tiles := [], rows := [], seq := Seq.reset, time := TimeSt.reset, net := Net.reset, lake := Lake.reset, ctx := Ctx.reset, faults := Faults.reset, logs := Logs.reset,
    dieFrozen := [], st := Stoith.reset, dma := [], pkg := Pkg.reset, lpn := 0, gate := false, pert := Pert.reset, jtag := Jtag.reset, cfg := Cfg.reset, pid := 0, h := HostSt.reset,
    m := Mgmt.reset, pw := Power.reset, spr := Spr.reset, fw := Fw.reset, ld := Loader.reset, out := [] }

end Sys2Proof.Machine
end

