-- ==== Sys2Proof/Machine/Syllable.lean ====
section
/-!
DEFINITION. The encodings of syllables (spec/03_tile_bundles.md): the formats of R82 to R118 written as encoders, the test whether a syllable is
undefined (R83, R84, R88), and the destinations an operation names (R86). A syllable is the number of its 64 bits.
-/
namespace Sys2Proof.Machine

/-- Slots in the order of R82. -/
def slotCT : Nat := 0
def slotSC : Nat := 1
def slotLS0 : Nat := 2
def slotLS1 : Nat := 3
def slotMX : Nat := 4
def slotVX0 : Nat := 5
def slotVX1 : Nat := 6
def slotXF : Nat := 7

/-- Format CT-B. -/
def encCTB (op s l imm target : Nat) : Nat :=
  place op 8 56 + place s 5 51 + place l 2 49 + place imm 20 29 + place target 12 0

/-- Format CT-W. -/
def encCTW (op s f count die rows : Nat) : Nat :=
  place op 8 56 + place s 5 51 + place f 6 45 + place count 16 29 + place die 2 27 + place rows 12 15

/-- Format SC. -/
def encSC (op d a b x imm : Nat) : Nat :=
  place op 8 56 + place d 5 51 + place a 5 46 + place b 5 41 + place x 9 32 + place imm 32 0

/-- Format LS. -/
def encLS (op reg a q p wb off len f pslot pcnt pt : Nat) : Nat :=
  place op 8 56 + place reg 5 51 + place a 4 47 + place q 2 45 + place p 3 42 + place wb 1 41 + place off 7 34
    + place len 7 27 + place f 6 21 + place pslot 8 13 + place pcnt 3 10 + place pt 1 9

/-- Format MX-K. -/
def encMXK (op fa fb acc wb half sp last : Nat) : Nat :=
  place op 8 56 + place fa 4 52 + place fb 4 48 + place acc 2 46 + place wb 1 45 + place half 1 44 + place sp 1 43 + place last 1 42

/-- Format MX-D. -/
def encMXD (op acc fmt cc a m : Nat) : Nat :=
  place op 8 56 + place acc 2 54 + place fmt 4 50 + place cc 2 48 + place a 4 44 + place m 4 40

/-- Format VX. -/
def encVX (op d a b c p t t2 cc fn q pk sel imm8 : Nat) : Nat :=
  place op 8 56 + place d 5 51 + place a 5 46 + place b 5 41 + place c 5 36 + place p 3 33 + place t 4 29 + place t2 4 25
    + place cc 2 23 + place fn 4 19 + place q 2 17 + place pk 1 16 + place sel 1 15 + place imm8 8 7

/-- Format XF. -/
def encXF (op f a sa sb fmt rop es len : Nat) : Nat :=
  place op 8 56 + place f 6 50 + place a 4 46 + place sa 5 41 + place sb 5 36 + place fmt 4 32 + place rop 2 30 + place es 4 26
    + place len 20 6

/-- The mask of a field [hi:lo]. -/
def fmask (hi lo : Nat) : Nat := 2 ^ (hi + 1) - 2 ^ lo

/-- No bit below the opcode is set outside the mask: every field the operation does not use is zero (R84). -/
def onlyIn (w m : Nat) : Bool := ((w % 2 ^ 56) ||| m) == m

/-- The opcode of a syllable (R83). -/
def opOf (w : Nat) : Nat := fld w 63 56

def definedCT (w : Nat) : Bool :=
  match opOf w with
  | 0x01 => onlyIn w (fmask 11 0)
  | 0x02 => onlyIn w (fmask 55 51 + fmask 11 0)
  | 0x03 => onlyIn w (fmask 55 51 + fmask 11 0)
  | 0x04 => onlyIn w (fmask 55 51 + fmask 11 0)
  | 0x05 => onlyIn w (fmask 55 51)
  | 0x08 => onlyIn w (fmask 50 49 + fmask 48 29 + fmask 11 0)
  | 0x09 => onlyIn w (fmask 55 51 + fmask 50 49 + fmask 11 0)
  | 0x0A => onlyIn w (fmask 50 49)
  | 0x10 => onlyIn w (fmask 50 45 + fmask 44 29)
  | 0x11 => onlyIn w (fmask 55 51 + fmask 50 45)
  | 0x18 => onlyIn w (fmask 50 45)
  | 0x19 => onlyIn w (fmask 28 27 + fmask 26 15)
  | 0x1F => onlyIn w 0
  | _ => false

/-- The syllables of `SC` that are defined (R84, R98). `FSET` has a value of 16 bits in the 32 of `IMM`: one with IMM[31:16] not zero is undefined (DESIGN CHOICE, log entry 119). -/
def definedSC (w : Nat) : Bool :=
  let op := opOf w
  if (1 ≤ op && op ≤ 0x0B) || op == 0x10 then onlyIn w (fmask 55 51 + fmask 50 46 + fmask 45 41)
  else match op with
  | 0x18 => onlyIn w (fmask 55 51 + fmask 50 46 + fmask 31 0)
  | 0x19 => onlyIn w (fmask 55 51 + fmask 31 0)
  | 0x1A => onlyIn w (fmask 55 51 + fmask 33 32)
  | 0x20 => onlyIn w (fmask 55 51 + fmask 50 46)
  | 0x21 => onlyIn w (fmask 55 51 + fmask 50 46 + fmask 39 32)
  | 0x28 => onlyIn w (fmask 54 51 + fmask 50 46 + fmask 34 32) && decide (fld w 34 32 ≤ 6)
  | 0x29 => onlyIn w (fmask 54 51 + fmask 34 32 + fmask 31 0) && decide (fld w 34 32 ≤ 6)
  | 0x30 => onlyIn w (fmask 37 32 + fmask 15 0)
  | 0x31 => onlyIn w (fmask 54 51 + fmask 32 32)
  | _ => false

def definedLS (slot w : Nat) : Bool :=
  match opOf w with
  | 0x01 => onlyIn w (fmask 55 51 + fmask 50 47 + fmask 46 45)
  | 0x02 => onlyIn w (fmask 55 51 + fmask 50 47)
  | 0x03 => onlyIn w (fmask 55 51 + fmask 50 47)
  | 0x04 => onlyIn w (fmask 55 51 + fmask 50 47)
  | 0x08 => onlyIn w (fmask 55 51 + fmask 50 47 + fmask 46 45 + fmask 44 42)
  | 0x09 => onlyIn w (fmask 55 51 + fmask 50 47)
  | 0x10 => slot == 3 && onlyIn w (fmask 50 47 + fmask 41 41 + fmask 40 34 + fmask 33 27)
      && decide (1 ≤ fld w 33 27) && decide (fld w 40 34 + fld w 33 27 ≤ 80)
  | 0x11 => slot == 3 && onlyIn w (fmask 50 47 + fmask 26 21 + fmask 20 13 + fmask 12 10 + fmask 9 9)
      && decide (fld w 20 13 + fld w 12 10 ≤ 255)
  | _ => false

/-- The format combinations of R109. -/
def mksCombo (fa fb sp half : Nat) : Bool :=
  let fp8 := fun x => x == 3 || x == 4
  if sp = 0 then
    if half = 0 then
      (fp8 fa && fp8 fb) || (fa == 5 && fb == 5) || ((fa == 7 || fa == 8) && (fb == 7 || fb == 8))
        || ((fa == 9 || fa == 10) && (fb == 9 || fb == 10)) || (fa == 12 && fb == 12) || (fa == 11 && fb == 11)
        || (fp8 fa && fb == 13) || (fa == 1 && fb == 1) || (fa == 2 && fb == 2)
    else (fa == 1 && fb == 1) || (fa == 2 && fb == 2)
  else half == 0 && ((fp8 fa && fp8 fb) || (fa == 5 && fb == 5))

def definedMX (w : Nat) : Bool :=
  match opOf w with
  | 0x01 => onlyIn w (fmask 55 42) && mksCombo (fld w 55 52) (fld w 51 48) (fld w 43 43) (fld w 44 44)
  | 0x02 => onlyIn w (fmask 55 54)
  | 0x03 => onlyIn w (fmask 55 40) && decide (fld w 53 50 ≤ 0xC)
  | _ => false

/-- Whether R77 lists a vector conversion from format `t` to `t2`. -/
def vcvtPair (t t2 : Nat) : Bool :=
  (t == 0 && decide (1 ≤ t2) && decide (t2 ≤ 0xC))
    || (t2 == 0 && (t == 6 || (decide (1 ≤ t) && decide (t ≤ 5)) || (decide (7 ≤ t) && decide (t ≤ 0xC))))

/-- The conversions R116 defines. -/
def vcvtDefined (t t2 fn q pk : Nat) : Bool :=
  if fn = 1 then t == 0 && t2 == 0 && pk == 0 && q == 0
  else fn == 0 && vcvtPair t t2 &&
    (if pk = 0 then q == 0
     else
       let narrow := if t = 0 then t2 else t
       let wd := fmtWidth narrow
       !(isMx t2) && (wd == 8 || (wd == 16 && decide (q < 2))))

/-- The defined syllables of `VX` (R84). `VPAL` with `SEL` = 1 does not use `IMM8`; whether a non-zero one is then undefined R84 leaves open: the model accepts it (DEDUCED, log entry 26). -/
def definedVX (slot w : Nat) : Bool :=
  let d := fmask 55 51
  let a := fmask 50 46
  let b := fmask 45 41
  let p := fmask 35 33
  let t := fld w 32 29
  let tm := fmask 32 29
  let fn := fld w 22 19
  let op := opOf w
  if op = 0x01 then onlyIn w (d + a + b + fmask 40 36 + p + tm) && decide (t ≤ 2)
  else if 0x02 ≤ op ∧ op ≤ 0x04 then onlyIn w (d + a + b + p + tm) && decide (t ≤ 2)
  else if 0x08 ≤ op ∧ op ≤ 0x0F then onlyIn w (d + a + b + p + tm) && t == 6
  else match op with
  | 0x10 => onlyIn w (d + a + b + p)
  | 0x11 => onlyIn w (d + a + b + p + tm) && decide (t ≤ 2)
  | 0x12 => onlyIn w (d + a + b + p + tm) && decide (t ≤ 2)
  | 0x18 => onlyIn w (fmask 53 51 + a + b + p + tm + fmask 22 19) && (t == 0 || t == 6) && decide (fn ≤ 5) && decide (fld w 53 51 ≠ 0)
  | 0x1C => onlyIn w (d + a + b + p)
  | 0x20 => onlyIn w (d + a + p + tm + fmask 28 25 + fmask 24 23 + fmask 22 19 + fmask 18 17 + fmask 16 16)
      && vcvtDefined t (fld w 28 25) fn (fld w 18 17) (fld w 16 16)
  | 0x24 => onlyIn w (d + a + p + tm + fmask 22 19) && (t == 0 || t == 6) && decide (fn ≤ 2)
  | 0x28 => onlyIn w (d + a + p + fmask 15 15 + fmask 14 7)
  | 0x30 => slot == 6 && onlyIn w (d + a + p + fmask 22 19) && decide (fn ≤ 8)
  | _ => false

def definedXF (w : Nat) : Bool :=
  let f := fmask 55 50
  let a := fmask 49 46
  let sa := fmask 45 41
  let sb := fmask 40 36
  let fm := fmask 35 32
  let len := fmask 25 6
  let fmt := fld w 35 32
  let redFmt := fmt == 0 || fmt == 1 || fmt == 6
  let esOk := decide (2 ≤ fld w 29 26) && decide (fld w 29 26 ≤ 12)
  fld w 41 41 == 0 && (match opOf w with
  | 0x01 => onlyIn w (f + a + sa + len)
  | 0x02 => onlyIn w (f + a + sa + len)
  | 0x03 => onlyIn w (f + a + sa + sb + len)
  | 0x08 => onlyIn w (f + a + sa + fm + fmask 31 30 + len) && redFmt && decide (fld w 31 30 ≤ 1)
  | 0x09 => onlyIn w (f + a + sa + sb + fmask 29 26 + len) && esOk
  | 0x0A => onlyIn w (f + a + sa + sb + fm + fmask 29 26 + len) && esOk && redFmt
  | 0x0B => onlyIn w (f + a + sa + sb + fm + len) && (fmt == 3 || fmt == 1) && fld w 36 36 == 0
  | 0x0C => onlyIn w (f + sa + len)
  | _ => false)

/-- Whether the syllable of a slot is defined (R83, R84). The all-zero syllable is NOP. -/
def sylDefined (slot w : Nat) : Bool :=
  if w = 0 then true
  else match slot with
  | 0 => definedCT w
  | 1 => definedSC w
  | 2 => definedLS 2 w
  | 3 => definedLS 3 w
  | 4 => definedMX w
  | 5 => definedVX 5 w
  | 6 => definedVX 6 w
  | _ => definedXF w

/-- A destination an operation names (R86). -/
inductive Dst where
  | s (n : Nat)
  | v (n : Nat)
  | p (n : Nat)
  | a (n : Nat)
  | f (n : Nat)
  | wb (n : Nat)
  deriving DecidableEq, Repr

/-- The destinations of a slot's syllable (R86). -/
def sylDst (slot w : Nat) : List Dst :=
  if w = 0 then []
  else
    let op := opOf w
    match slot with
    | 0 =>
      if op = 0x04 then [.s (fld w 55 51)]
      else if op = 0x10 ∨ op = 0x11 then [.f (fld w 50 45)]
      else []
    | 1 =>
      if op = 0x20 then [.v (fld w 55 51)]
      else if op = 0x28 ∨ op = 0x29 then [.a (fld w 54 51)]
      else if op = 0x30 then [.f (fld w 37 32)]
      else if op = 0x31 then []
      else [.s (fld w 55 51)]
    | 2 =>
      if op = 0x04 then [.s (fld w 55 51), .a (fld w 50 47)]
      else if op = 0x08 ∨ op = 0x09 then [.a (fld w 50 47)]
      else [.v (fld w 55 51), .a (fld w 50 47)]
    | 3 =>
      if op = 0x04 then [.s (fld w 55 51), .a (fld w 50 47)]
      else if op = 0x08 ∨ op = 0x09 ∨ op = 0x11 then [.a (fld w 50 47)]
      else if op = 0x10 then [.wb (fld w 41 41), .a (fld w 50 47)]
      else [.v (fld w 55 51), .a (fld w 50 47)]
    | 4 =>
      if op = 0x03 then
        (if isMx (fld w 53 50) && fld w 47 44 ≠ fld w 43 40 then [.a (fld w 47 44), .a (fld w 43 40)] else [.a (fld w 47 44)])
      else []
    | 5 => if op = 0x18 then [.p (fld w 53 51)] else [.v (fld w 55 51)]
    | 6 => if op = 0x18 then [.p (fld w 53 51)] else [.v (fld w 55 51)]
    | _ => if op = 0x0C then [] else [.a (fld w 49 46)]

/-- The lower slots of pairs of slots that name one destination. -/
def dupSlots (bw : List Nat) : List Nat :=
  (List.range 8).filter (fun i =>
    (sylDst i (bw.getD i 0)).any (fun d =>
      (List.range 8).any (fun j => decide (i < j) && (sylDst j (bw.getD j 0)).contains d)))

/-- Whether the syllable is one of those that may hold its bundle on its own condition (R87). -/
def isWait (w : Nat) : Bool := opOf w == 0x10 || opOf w == 0x11

end Sys2Proof.Machine
end

