-- ==== Sys2Proof/Machine/Trans.lean ====
section
/-!
DEFINITION. The transcendental functions of R24. The spec gives an error bound and not the bits: within the listed operand ranges the
result is any FP32 value within the bound of the exact value, picked by a constant of Config; outside them infinities, zeros and invalid
operands follow the special-value rules (R56, R57, R74), and a finite result keeps the bound of its function, as the spec states none there.
`SQRT` is correctly rounded. The exact value is computed to far below the last place, so that the set of results taken here is the
bound of R24 widened by less than 2^−20 of the last place (log entry 10).
-/
namespace Sys2Proof

/-- Integer square root by bits: the largest r with r² ≤ n, r < 2^k. -/
def isqrtGo (n : Nat) : Nat → Nat → Nat
  | 0, r => r
  | k + 1, r => isqrtGo n k (if (r + 2 ^ k) * (r + 2 ^ k) ≤ n then r + 2 ^ k else r)

def isqrt (n : Nat) : Nat := isqrtGo n (n.log2 / 2 + 1) 0

/-- Fraction bits of the fixed-point working. -/
def fxP : Nat := 256

/-- Product over the set bits of a fraction of 2^(2^−i): the power 2^f of a fraction with `k` bits left to read. -/
def exp2Go (f : Nat) : Nat → Nat → Nat → Nat
  | 0, _, acc => acc
  | k + 1, root, acc =>
    exp2Go f k (isqrt (root <<< fxP)) (if (f >>> k) % 2 = 1 then (acc * root) >>> fxP else acc)

/-- 2^f for a fixed-point fraction f in [0, 1). -/
def exp2Frac (f : Nat) : Nat := exp2Go f fxP (isqrt (2 <<< (2 * fxP))) (1 <<< fxP)

/-- A dyadic number as a fixed-point integer, rounded down in magnitude. -/
def fxOf (m : Nat) (e : Int) : Nat :=
  let s := e + fxP
  if 0 ≤ s then m <<< s.toNat else m >>> (-s).toNat

/-- 2^x for a fixed-point integer x, as mantissa (fixed point, in [1, 2)) and exponent. -/
def exp2Fix (x : Int) : Nat × Int :=
  let n := x.fdiv (2 ^ fxP : Nat)
  let f := (x - n * (2 ^ fxP : Nat)).toNat
  (exp2Frac f, n)

def log2Go : Nat → Nat → Nat → Nat
  | 0, _, acc => acc
  | k + 1, y, acc =>
    let z := (y * y) >>> fxP
    if 2 <<< fxP ≤ z then log2Go k (z >>> 1) (2 * acc + 1) else log2Go k z (2 * acc)

/-- log2 of m × 2^e as a fixed-point integer with 120 fraction bits. -/
def log2Fix (m : Nat) (e : Int) : Int :=
  let n := m.log2
  let y := (m <<< fxP) >>> n
  ((n : Int) + e) * (2 ^ 120 : Nat) + (log2Go 120 y 0 : Nat)

/-- log2(e) in fixed point: 2^256 × 1.44269504... from the series of 1/ln 2, by ln 2 = Σ 1/(k 2^k). -/
def ln2Go : Nat → Nat → Nat → Nat
  | 0, _, acc => acc
  | k + 1, i, acc => ln2Go k (i + 1) (acc + (1 <<< (fxP + 40)) / (i * 2 ^ i))

def log2eFix : Nat := (1 <<< (2 * fxP + 40)) / ln2Go 300 1 0

/-- arctan(1/n) in fixed point, by its series. -/
def atanGo (n : Nat) : Nat → Nat → Int → Int → Int
  | 0, _, _, acc => acc
  | k + 1, i, term, acc => atanGo n k (i + 2) (-(term.tdiv (n * n : Nat))) (acc + term.tdiv (i : Nat))

/-- π in fixed point (Machin). -/
def piFix : Nat :=
  let one : Int := ((1 <<< (fxP + 40) : Nat) : Int)
  let a5 := atanGo 5 140 1 (one.tdiv 5) 0
  let a239 := atanGo 239 60 1 (one.tdiv 239) 0
  ((16 * a5 - 4 * a239).toNat) >>> 40

def sinGo (y2 : Nat) : Nat → Nat → Int → Int → Int
  | 0, _, _, acc => acc
  | k + 1, i, term, acc =>
    let t := -((term * (y2 : Int)).tdiv ((2 ^ fxP : Nat) * ((i + 1) * (i + 2) : Nat)))
    sinGo y2 k (i + 2) t (acc + t)

/-- sin(π r) for a fixed-point r in [0, 1/2]. -/
def sinPiFix (r : Nat) : Nat :=
  let y := (piFix * r) >>> fxP
  (sinGo ((y * y) >>> fxP) 40 1 (y : Int) (y : Int)).toNat

/-- sin(π x) for a fixed-point x reduced modulo 2: sign and magnitude. -/
def sinPiRed (x : Nat) : Bool × Nat :=
  let x2 := x % (2 <<< fxP)
  let neg := decide (1 <<< fxP ≤ x2)
  let r := x2 % (1 <<< fxP)
  let r' := if 2 * r ≤ 1 <<< fxP then r else (1 <<< fxP) - r
  (neg, sinPiFix r')

/-- The FP32 results within `k` units in the last place of the value ±V × 2^e; `pick` chooses one of them, and its lowest bit the sign of a zero. -/
def within (k : Nat) (neg : Bool) (V : Nat) (e : Int) (pick : Nat) : Word :=
  let q : Int := if V = 0 then -149 else max ((V.log2 : Int) + e - 23) (-149)
  let sh := q - e
  let n0 : Nat := if 0 ≤ sh then V >>> sh.toNat else V <<< (-sh).toNat
  let off : Int := ((pick / 2 % (2 * k + 2) : Nat) : Int) - (k : Int)
  let n : Int := (n0 : Int) + off
  -- |n × 2^q − V × 2^e| ≤ (k + 2^−20) × 2^q, compared at the finer of the two scales
  let lo := min (q - 20) e
  let nv : Int := n * (2 ^ (q - lo).toNat : Nat)
  let vv : Int := (V <<< (e - lo).toNat : Nat)
  let bound : Int := ((k * 2 ^ 20 + 1) * 2 ^ (q - 20 - lo).toNat : Nat)
  let ok := decide ((nv - vv).natAbs ≤ bound.natAbs)
  let r : Int := if ok then n else (n0 : Int)
  let s := if r = 0 then decide (pick % 2 = 1) else (if r < 0 then !neg else neg)
  toF32 (.fin s r.natAbs q)

/-- The canonical NaN (R57). -/
def trNan : Word := toF32 .nan

/-- A function at an infinity: the limit of the function there, NaN where it has none (R24, R74). -/
def transInf (fn : Nat) (neg : Bool) : Word :=
  match fn with
  | 0 => if neg then toF32 (.fin false 0 0) else toF32 (.inf false)
  | 1 => if neg then trNan else toF32 (.inf false)
  | 2 => toF32 (.fin neg 0 0)
  | 3 => if neg then trNan else toF32 (.fin false 0 0)
  | 4 => if neg then trNan else toF32 (.inf false)
  | 5 => toF32 (.fin neg 1 0)
  | 6 => if neg then toF32 (.fin false 0 0) else toF32 (.fin false 1 0)
  | _ => trNan

/-- A correctly rounded square root of a non-negative value (R24); a zero keeps its sign, as IEEE 754 has it (log entry 10). -/
def sqrtRne (neg : Bool) (m : Nat) (e : Int) : Word :=
  if m = 0 then toF32 (.fin neg 0 0)
  else
    let odd := e.emod 2
    let m1 := (if odd = 0 then m else 2 * m) <<< 80
    let e1 := (e - odd) / 2 - 40
    let r := isqrt m1
    toF32 (.fin false (2 * r + (if r * r = m1 then 0 else 1)) (e1 - 1))

/-- x log2(e) in fixed point for |x| = m × 2^e. -/
def xLog2e (m : Nat) (e : Int) : Nat := (fxOf m e * log2eFix) >>> fxP

/-- The transcendental function `fn` of R115 on one FP32 lane (R24, R56, R57, R74). -/
def transF (fn : Nat) (w : Word) : Word :=
  let p := Config.trPick fn w
  match ofF32 w with
  | .nan => trNan
  | .inf s => transInf fn s
  | .fin s m e =>
    match fn with
    | 0 =>
      if !s && dyLe 128 0 m e then toF32 (.inf false)
      else if s && dyLe 152 0 m e then toF32 (.fin false 0 0)
      else
        let x : Int := (fxOf m e : Nat)
        let r := exp2Fix (if s then -x else x)
        within 2 false r.1 (r.2 - fxP) p
    | 1 =>
      if m = 0 then toF32 (.inf true)
      else if s then trNan
      else
        let l := log2Fix m e
        within 2 (decide (l < 0)) l.natAbs (-120) p
    | 2 => if m = 0 ∨ dyLe m e 1 (-128) = true then toF32 (.inf s) else within 1 s ((1 <<< 400) / m) (-400 - e) p
    | 3 =>
      if m = 0 then toF32 (.inf s)
      else if s then trNan
      else
        let odd := e.emod 2
        let m1 := if odd = 0 then m else 2 * m
        within 1 false (isqrt ((1 <<< 400) / m1)) (-200 - (e - odd) / 2) p
    | 4 => if s && m ≠ 0 then trNan else sqrtRne s m e
    | 5 =>
      if dyLt 128 0 m e then within 4 s 1 0 p
      else
        let r := exp2Fix ((2 * xLog2e m e : Nat) : Int)
        let big := r.1 <<< r.2.toNat
        within 4 s (((big - (1 <<< fxP)) <<< fxP) / (big + (1 <<< fxP))) (-(fxP : Int)) p
    | 6 =>
      if dyLt 256 0 m e then (if s then within 4 false 0 0 p else within 4 false 1 0 p)
      else
        let r := exp2Fix ((xLog2e m e : Nat) : Int)
        let big := r.1 <<< r.2.toNat
        if s then within 4 false ((1 <<< (3 * fxP)) / (big + (1 <<< fxP))) (-2 * (fxP : Int)) p
        else within 4 false ((big <<< fxP) / (big + (1 <<< fxP))) (-(fxP : Int)) p
    | 7 =>
      let r := sinPiRed (fxOf m e)
      within 4 (s != r.1) r.2 (-(fxP : Int)) p
    | _ =>
      let r := sinPiRed (fxOf m e + (1 <<< (fxP - 1)))
      within 4 r.1 r.2 (-(fxP : Int)) p

end Sys2Proof
end

