-- ==== Sys2Proof/Machine/TileOps.lean ====
section
/-!
DEFINITION. The operations of one tile that every meaning shares: registers, descriptors and addresses (R100 to R102), the (39,32) check of
its memories (R50, R485), range and bank checks (R27, R30), faults (R52, R487), the flag unit (R32 to R34), and operations in flight (R13 to R15).
-/
namespace Sys2Proof.Machine

/-! ### Registers -/

def Tile.sreg (t : Tile) (n : Nat) : Word := Tab.get 0#32 t.r.sregs n

/-- A vector register: 256 lanes; a register nothing has written reads as zero lanes. -/
def Tile.vreg (t : Tile) (n : Nat) : List Word := Tab.get (List.replicate 256 0#32) t.r.vregs n

def Tile.lane (t : Tile) (n i : Nat) : Word := (t.vreg n).getD i 0#32

/-- A predicate as a mask of 256 lanes; `P0` reads as all lanes set (R88). -/
def Tile.pred (t : Tile) (n : Nat) : Nat := if n = 0 then 2 ^ 256 - 1 else Tab.get 0 t.r.pregs n

def Tile.desc (t : Tile) (n : Nat) : Desc := Tab.get Desc.zero t.r.descs n

def Tile.loop (t : Tile) (n : Nat) : Loop := Tab.get Loop.zero t.r.loops n

def Tile.flag (t : Tile) (n : Nat) : Nat := Tab.get 0 t.r.flags n

/-- What a wait evaluated in this period sees: an increment registered in the period is not seen yet (R32). -/
def Tile.flagSeen (t : Tile) (n : Nat) : Nat := t.flag n - Tab.get 0 t.r.regNow n

def Tile.pal (t : Tile) (n : Nat) : Palette := Tab.get Palette.zero t.r.pals n

/-- One row of 128 elements of an accumulator. -/
def Tile.accRow (t : Tile) (acc row : Nat) : List Word :=
  Tab.get (List.replicate 128 0#32) t.mx.accs (acc * 64 + row)

def Tile.setAccRow (t : Tile) (acc row : Nat) (v : List Word) : Tile :=
  { t with mx := { t.mx with accs := Tab.put (List.replicate 128 0#32) t.mx.accs (acc * 64 + row) v } }

def Tile.wbReg (t : Tile) (n : Nat) : WbReg := if n = 0 then t.mx.wb0 else t.mx.wb1

def Tile.setWb (t : Tile) (n : Nat) (w : WbReg) : Tile :=
  if n = 0 then { t with mx := { t.mx with wb0 := w } } else { t with mx := { t.mx with wb1 := w } }

/-! ### Faults -/

/-- Raise a tile fault: its bit is set, the first since acceptance fills `TILE_FAULT_INFO`, and the tile issues no further bundle (R52, R487). -/
def Tile.raise (t : Tile) (f : TileFault) (slot pc : Nat) (precise : Bool) : Tile :=
  let b1 := { t.blk with fault := t.blk.fault ||| 2 ^ f.bit, raised := t.blk.raised ++ [f.bit] }
  let b2 := if t.blk.infoSet then b1
    else { b1 with faultPc := pc % 4096, faultSlot := slot, precise := precise, faultGen := t.blk.gen, infoSet := true }
  { t with blk := b2, iss := { t.iss with stopped := true } }

/-- The bundle in issue, or the one that issues next (R487). With no step active on the tile R487 names none: the model gives the address of the bundle that ended the last step (DESIGN
CHOICE, log entry 121). -/
def Tile.pcNow (t : Tile) : Nat := min t.iss.pc 4095

/-! ### Descriptors (R100 to R102) -/

def Desc.word (d : Desc) : Nat → Word
  | 0 => d.w0
  | 1 => d.w1
  | 2 => d.w2
  | 3 => d.w3
  | 4 => d.w4
  | 5 => d.w5
  | _ => d.w6

/-- A descriptor write: word 0 clears words 1 to 6, reserved fields read zero, and the position becomes 0 (R100). -/
def Desc.setWord (d : Desc) (n : Nat) (v : Word) : Desc :=
  match n with
  | 0 => ⟨v &&& 0x00FFFFFF#32, 0#32, 0#32, 0#32, 0#32, 0#32, 0#32, 0⟩
  | 1 => { d with w1 := v, pos := 0 }
  | 2 => { d with w2 := v, pos := 0 }
  | 3 => { d with w3 := v &&& 0x00FFFFFF#32, pos := 0 }
  | 4 => { d with w4 := v &&& 0x00FFFFFF#32, pos := 0 }
  | 5 => { d with w5 := v &&& 0x00FFFFFF#32, pos := 0 }
  | _ => { d with w6 := v &&& 0x00FFFFFF#32, pos := 0 }

def Desc.space (d : Desc) : Nat := fld d.w0.toNat 23 23

/-- A count of 0 is taken as 1 (R100). -/
def cnt1 (n : Nat) : Nat := if n = 0 then 1 else n

def Desc.n0 (d : Desc) : Nat := cnt1 (fld d.w1.toNat 15 0)
def Desc.n1 (d : Desc) : Nat := cnt1 (fld d.w1.toNat 31 16)
def Desc.n2 (d : Desc) : Nat := cnt1 (fld d.w2.toNat 15 0)
def Desc.n3 (d : Desc) : Nat := cnt1 (fld d.w2.toNat 31 16)

/-- The number of positions of a descriptor. -/
def Desc.total (d : Desc) : Nat := d.n0 * d.n1 * d.n2 * d.n3

/-- The address of position p, a signed number (R101). -/
def Desc.addrAt (d : Desc) (p : Nat) : Int :=
  let i0 := p % d.n0
  let i1 := (p / d.n0) % d.n1
  let i2 := (p / (d.n0 * d.n1)) % d.n2
  let i3 := p / (d.n0 * d.n1 * d.n2)
  (fld d.w0.toNat 22 0 : Int) + i0 * sext 24 d.w3.toNat + i1 * sext 24 d.w4.toNat + i2 * sext 24 d.w5.toNat + i3 * sext 24 d.w6.toNat

/-- The address at the current position. -/
def Desc.addr (d : Desc) : Int := d.addrAt d.pos

/-- The position after `n` steps (R101). -/
def Desc.step (d : Desc) (n : Nat) : Nat := (d.pos + n) % d.total

/-- Address bits below the alignment are ignored (R102). -/
def alignDown (a : Int) (al : Nat) : Int := a - a.emod (al : Int)

/-- The size of a space: local store 1 MiB, glaze slice 5 MiB. -/
def spaceSize (space : Nat) : Nat := if space = 0 then 0x100000 else 0x500000

/-- An access lies inside its space (R102). -/
def inSpace (space : Nat) (a : Int) (len : Nat) : Bool :=
  decide (0 ≤ a) && decide (a + (len : Int) ≤ (spaceSize space : Int))

/-- The fixed latency of a load from a space (R38). -/
def loadLat (space : Nat) : Nat := if space = 0 then 4 else 10

/-! ### Banks (R27, R162) -/

def bankOf (space a : Nat) : Nat := if space = 0 then (a / 64) % 32 else (a / 128) % 40

/-- The banks an access touches. -/
def banks (space a len : Nat) : List Nat :=
  (List.range (len / 64 + 2)).filterMap (fun k =>
    let b := (a / 64 + k) * 64
    if b < a + len then some (bankOf space b) else none)

/-- Two accesses of different units meet in a bank (R27). -/
def bankMeet (x y : Nat × Nat × Nat × Nat) : Bool :=
  x.1 ≠ y.1 && x.2.1 == y.2.1 && (banks x.2.1 x.2.2.1 x.2.2.2).any (fun b => (banks y.2.1 y.2.2.1 y.2.2.2).contains b)

/-- The slot a unit's access belongs to (R85): units 0 to 2 are SU0 to SU2, unit 3 the drain. -/
def unitSlot (u : Nat) : Nat := if u = 0 then slotLS0 else if u = 1 then slotLS1 else slotMX

/-- Generate one access of a stream unit or the drain: the range check, the bank check, and the record of the access. The flag says whether the access
is made (R27, R30). -/
def Tile.touch (t : Tile) (unit space : Nat) (a : Int) (len : Nat) : Tile × Bool :=
  if inSpace space a len then
    let acc := (unit, space, a.toNat, len)
    let hits := t.iss.acc.filter (bankMeet acc)
    if hits.isEmpty then ({ t with iss := { t.iss with acc := acc :: t.iss.acc } }, true)
    else
      let slot := hits.foldl (fun m h => min m (unitSlot h.1)) (unitSlot unit)
      (t.raise .bankConflict slot t.pcNow true, false)
  else (t.raise .streamRange (unitSlot unit) t.pcNow true, false)

/-- Activity of a kind is counted (R386). -/
def Tile.count (t : Tile) (i n : Nat) : Tile := if n = 0 then t else { t with act := Tab.set t.act i (Tab.get 0 t.act i + n) }

/-! ### The (39,32) check (R50, R485) -/

/-- What a check makes of a stored word: correct, corrected, or a double-bit error with the word as stored. -/
inductive Ecc where
  | ok (v : Nat)
  | fixed (v : Nat)
  | dbe (v : Nat)
  deriving DecidableEq, Repr

def Ecc.val : Ecc → Nat
  | .ok v => v
  | .fixed v => v
  | .dbe v => v

def Ecc.isDbe : Ecc → Bool
  | .dbe _ => true
  | _ => false

def Ecc.isFixed : Ecc → Bool
  | .fixed _ => true
  | _ => false

/-- The check of a word whose stored bits differ from the code word of `data` in `flips` (39 bits, data lowest): one error is corrected, two are
detected, and three or more are outside the promise of R485. -/
def eccCheck (data flips : Nat) : Ecc :=
  match popN 39 flips with
  | 0 => .ok data
  | 1 => .fixed data
  | 2 => .dbe (data ^^^ (flips % 2 ^ 32))
  | _ =>
    let o := Config.eccOpen data flips
    if o = 0 then .dbe (data ^^^ (flips % 2 ^ 32))
    else if o = 1 then .fixed (Config.eccWrong data flips % 2 ^ 32)
    else .ok (data ^^^ (flips % 2 ^ 32))

/-- The words [a, a + 4n) of a memory with flipped bits, through the check. -/
def eccWords (m : Mem) (flips : Tab Nat) (a : Nat) : Nat → List Ecc
  | 0 => []
  | n + 1 => eccCheck (Mem.le m a 4) (Tab.get 0 flips (a / 4)) :: eccWords m flips (a + 4) n

def eccBytes (ws : List Ecc) : List Byte := ws.flatMap (fun w => leBytes 4 w.val)

/-- The flipped bits of words that are written whole: gone. -/
def clearFlips (flips : Tab Nat) (a n : Nat) : Tab Nat :=
  flips.filter (fun p => decide (p.1 < a / 4) || decide ((a + n + 3) / 4 ≤ p.1))

def Tile.memOf (t : Tile) (space : Nat) : Mem := if space = 0 then t.mem.ls else t.mem.glaze

def Tile.flipsOf (t : Tile) (space : Nat) : Tab Nat := if space = 0 then t.mem.lsFlips else t.mem.glazeFlips

/-- What port X has written over in this period (R28, R164): the bytes of a space and the flipped bits of its words as they were. -/
def Tile.preOf (t : Tile) (space : Nat) : Tab Byte := if space = 0 then t.mem.lsPre else t.mem.glazePre

def Tile.preFlipsOf (t : Tile) (space : Nat) : Tab Nat := if space = 0 then t.mem.lsPreFlips else t.mem.glazePreFlips

/-- A space as port T reads it in this period: a byte that port X wrote in it still reads as before (R28). -/
def Tile.memT (t : Tile) (space : Nat) : Mem := (t.preOf space).foldl (fun m p => Mem.write m p.1 p.2) (t.memOf space)

/-- The flipped bits that a port T read of this period meets. -/
def Tile.flipsT (t : Tile) (space : Nat) : Tab Nat := (t.preFlipsOf space).foldl (fun fs p => Tab.put 0 fs p.1 p.2) (t.flipsOf space)

/-- A port T read of n words: single-bit errors corrected and counted, a double-bit error raised with the uncorrected word returned (R50). -/
def Tile.readT (t : Tile) (space a n slot : Nat) : Tile × List Byte :=
  let ws := eccWords (t.memT space) (t.flipsT space) a n
  let fixedN := (ws.filter Ecc.isFixed).length
  let t1 := { t with blk := { t.blk with sbe := t.blk.sbe + fixedN } }
  let t2 := if ws.any Ecc.isDbe then t1.raise (if space = 0 then .dbeLocal else .dbeGlaze) slot t1.pcNow false else t1
  (t2, eccBytes ws)

/-- Write bytes into a space, whole words with new check bits. -/
def Tile.writeMem (t : Tile) (space a : Nat) (bs : List Byte) : Tile :=
  if space = 0 then
    { t with mem := { t.mem with ls := Mem.store t.mem.ls a bs, lsFlips := clearFlips t.mem.lsFlips a bs.length } }
  else
    { t with mem := { t.mem with glaze := Mem.store t.mem.glaze a bs, glazeFlips := clearFlips t.mem.glazeFlips a bs.length } }

/-- Remember what port T still reads in this period, for bytes port X is about to write. -/
def keepPre (m : Mem) (pre : Tab Byte) (a : Nat) : Nat → Tab Byte
  | 0 => pre
  | n + 1 => keepPre m (if Tab.has pre a then pre else Tab.set pre a (Mem.read m a)) (a + 1) n

/-- Remember the flipped bits of `n` words from word `w` on. -/
def keepFlips (fs pre : Tab Nat) (w : Nat) : Nat → Tab Nat
  | 0 => pre
  | n + 1 => keepFlips fs (if Tab.has pre w then pre else Tab.set pre w (Tab.get 0 fs w)) (w + 1) n

/-- A port X write, or one of the bank arbiter's path: at once, with the old bytes and flipped bits kept for port T's reads of this period (R28, R164). -/
def Tile.writeX (t : Tile) (space a : Nat) (bs : List Byte) : Tile :=
  let pre := keepPre (t.memOf space) (t.preOf space) a bs.length
  let fl := keepFlips (t.flipsOf space) (t.preFlipsOf space) (a / 4) ((a + bs.length + 3) / 4 - a / 4)
  let m := if space = 0 then { t.mem with lsPre := pre, lsPreFlips := fl } else { t.mem with glazePre := pre, glazePreFlips := fl }
  ({ t with mem := m }).writeMem space a bs

/-- The period ends: port T sees what port X wrote. -/
def TileMem.newPeriod (m : TileMem) : TileMem := { m with lsPre := [], lsPreFlips := [], glazePre := [], glazePreFlips := [] }

/-- A port T write at the end of a period: a byte that port X wrote in it keeps the port X value (R28). -/
def Tile.writeT (t : Tile) (space a : Nat) : List Byte → Tile
  | [] => t
  | b :: r =>
    let t1 := if Tab.has (t.preOf space) a then t
      else if space = 0 then { t with mem := { t.mem with ls := Mem.write t.mem.ls a b, lsFlips := Tab.del t.mem.lsFlips (a / 4) } }
      else { t with mem := { t.mem with glaze := Mem.write t.mem.glaze a b, glazeFlips := Tab.del t.mem.glazeFlips (a / 4) } }
    t1.writeT space (a + 1) r

/-! ### Operations in flight (R13 to R15) -/

/-- An operation issued in this cycle with latency `lat`: its write is due at the end of cycle t + lat − 1 (R13). -/
def Tile.pend (t : Tile) (lat : Nat) (w : Wr) : Tile :=
  { t with iss := { t.iss with inflight := t.iss.inflight ++ [⟨t.iss.cyc + lat - 1, t.iss.cyc, w⟩] } }

/-- The register a write names, for R15; memory writes name none. -/
def Wr.reg : Wr → Option (Nat × Nat)
  | .sreg d _ => some (0, d)
  | .vreg d _ => some (1, d)
  | .vconv d _ _ => some (1, d)
  | .preg d _ _ => some (2, d)
  | .dword a w _ => some (3, a * 8 + w)
  | .dpos a _ => some (4, a)
  | .flag f _ => some (5, f)
  | .macc a => some (6, a)
  | .mem _ _ _ => none
  | .wbuf _ _ _ => none
  | .pal _ _ => none

/-- Of the writes due in one cycle, the ones that are kept: where two issue cycles write one register, the later issue (R15). The spec leaves open what
becomes of two `WB` fills whose bytes come due in one cycle (a glaze fill's last, and those of a local one issued after it): the model writes both byte
ranges, the later issue last (DESIGN CHOICE, log entry 103). -/
def keptWrites (l : List Pend) : List Pend :=
  l.filter (fun p => p.wr.reg == none || !l.any (fun q => q.wr.reg == p.wr.reg && decide (p.at_ < q.at_)))

/-- Lanes written over a vector register's previous lanes. -/
def setLanes (old : List Word) : List (Nat × Word) → List Word
  | [] => old
  | (i, v) :: r => setLanes (old.set i v) r

/-- Scale bytes written to bits [15:8] of lanes (R116). -/
def setScales (old : List Word) : List (Nat × Nat) → List Word
  | [] => old
  | (i, b) :: r => setScales (old.set i ((old.getD i 0#32 &&& 0xFFFF00FF#32) ||| BitVec.ofNat 32 (b % 256 * 256))) r

def Tile.applyWr (t : Tile) : Wr → Tile
  | .sreg d v => { t with r := { t.r with sregs := Tab.put 0#32 t.r.sregs d v } }
  | .vreg d ls => { t with r := { t.r with vregs := Tab.put (List.replicate 256 0#32) t.r.vregs d (setLanes (t.vreg d) ls) } }
  | .vconv d ls sc => { t with r := { t.r with vregs := Tab.put (List.replicate 256 0#32) t.r.vregs d (setScales (setLanes (t.vreg d) ls) sc) } }
  | .preg d mask bits =>
    let v := (Tab.get 0 t.r.pregs d &&& (2 ^ 256 - 1 - mask)) ||| (bits &&& mask)
    { t with r := { t.r with pregs := Tab.put 0 t.r.pregs d v } }
  | .dword a w v => { t with r := { t.r with descs := Tab.put Desc.zero t.r.descs a ((t.desc a).setWord w v) } }
  | .dpos a p => { t with r := { t.r with descs := Tab.put Desc.zero t.r.descs a { t.desc a with pos := p } } }
  | .mem sp a bs => t.writeT sp a bs
  | .flag f v => { t with r := { t.r with flags := Tab.put 0 t.r.flags f (v + Tab.get 0 t.r.regNow f) } }
  | .macc a =>
    { t with mx := { t.mx with accs := t.mx.accs.filter (fun p => decide (p.1 / 64 ≠ a)) } }
  | .wbuf w off bs => t.setWb w { t.wbReg w with data := Mem.store (t.wbReg w).data off bs }
  | .pal s p => { t with r := { t.r with pals := Tab.put Palette.zero t.r.pals s p } }

def Tile.applyAll (t : Tile) : List Pend → Tile
  | [] => t
  | p :: r => (t.applyWr p.wr).applyAll r

/-- Write what is due at the end of this cycle, oldest issue first, and keep the rest in flight. -/
def Tile.writeback (t : Tile) : Tile :=
  let due := t.iss.inflight.filter (fun p => decide (p.due ≤ t.iss.cyc))
  let rest := t.iss.inflight.filter (fun p => !decide (p.due ≤ t.iss.cyc))
  ({ t with iss := { t.iss with inflight := rest } }).applyAll (keptWrites due)

/-! ### The flag unit (R32 to R34) -/

/-- Register one increment of flag `f`: at most four per flag in a period, the rest held in arrival order (R32); `xf` says that it completes an `XF`
operation of the tile (R97). What a wait or `FSET` of the same cycle does to the flag is counted before `Tile.capFlags` (R33, R99). -/
def Tile.incFlag (t : Tile) (f : Nat) (xf : Bool) : Tile :=
  if Tab.get 0 t.r.regNow f < 4 then
    { t with r := { t.r with regNow := Tab.upd 0 t.r.regNow f (· + 1), flags := Tab.put 0 t.r.flags f (t.flag f + 1) } }
  else { t with r := { t.r with heldInc := t.r.heldInc ++ [(f, xf)] } }

/-- The end of a period in the flag unit: a flag that the period took above 65,535 stays there, and FLAG_OVERFLOW is raised (R34). -/
def Tile.capFlags (t : Tile) : Tile :=
  let u := { t with r := { t.r with regNow := [] } }
  if t.r.flags.any (fun e => decide (65535 < e.2)) then
    ({ u with r := { u.r with flags := u.r.flags.map (fun (e : Nat × Nat) => (e.1, min 65535 e.2)) } } : Tile).raise .flagOverflow slotCT t.pcNow false
  else u

/-- Take the first entry equal to `f` out of a list. -/
def dropFirst (f : Nat) : List Nat → List Nat
  | [] => []
  | x :: r => if x = f then r else x :: dropFirst f r

/-- Take the first held increment of flag `f` out of the held ones. -/
def dropHeld (f : Nat) : List (Nat × Bool) → List (Nat × Bool)
  | [] => []
  | x :: r => if x.1 = f then r else x :: dropHeld f r

/-- Register one held increment of flag `f` in a later period, the earliest first (R32). -/
def Tile.regHeld (t : Tile) (f : Nat) : Tile :=
  match t.r.heldInc.find? (fun e => e.1 == f) with
  | some e =>
    if Tab.get 0 t.r.regNow f < 4 then ({ t with r := { t.r with heldInc := dropHeld f t.r.heldInc } }).incFlag f e.2 else t
  | none => t

/-! ### The bundle -/

/-- The eight syllables of the bundle at the program counter, through the (39,32) check: the syllables, the number of corrected words, and whether a word
has a double-bit error (R50). -/
def Tile.fetch (t : Tile) : List Nat × Nat × Bool :=
  let ws := eccWords t.mem.bundles t.mem.bundleFlips (t.iss.pc * 64) 16
  ((List.range 8).map (fun i => (ws.getD (2 * i) (.ok 0)).val + 2 ^ 32 * (ws.getD (2 * i + 1) (.ok 0)).val),
   (ws.filter Ecc.isFixed).length, ws.any Ecc.isDbe)

/-- The syllable of a slot of the bundle at the program counter. -/
def Tile.syl (t : Tile) (slot : Nat) : Nat := t.fetch.1.getD slot 0

/-- The fault that fetch or decode finds in the bundle, with its slot: PC_RANGE (R37), DBE_BUNDLE (R50), ILL_OP before ILL_BUNDLE (R84, R85, R97), then
the duplicate destinations of R16, a second drain (R22) or a transcendental too soon (R23). R22, R23 and R128 check at decode, and leave open whether the
distance of a bundle held under R87 counts from its first cycle in decode or from its issue: the model takes the first cycle in decode (DESIGN CHOICE, log
entry 104). -/
def Tile.bundleFault (t : Tile) : Option (TileFault × Nat) :=
  if 4096 ≤ t.iss.pc then some (.pcRange, slotCT)
  else
    let b := t.fetch
    let bw := b.1
    if b.2.2 then some (.dbeBundle, slotCT)
    else
      let isEnd := opOf (bw.getD 0 0) == 0x1F && sylDefined 0 (bw.getD 0 0)
      let undef := (List.range 8).filter (fun i =>
        !(sylDefined i (bw.getD i 0)) || (isEnd && decide (i ≠ 0) && decide (bw.getD i 0 ≠ 0)))
      match undef with
      | i :: _ => some (.illOp, i)
      | [] =>
        let bad := dupSlots bw
          ++ (if opOf (bw.getD 4 0) = 0x03 ∧ t.iss.cyc < t.mx.drainFree then [4] else [])
          ++ (if opOf (bw.getD 6 0) = 0x30 ∧ t.iss.cyc < t.mx.trFree then [6] else [])
        match bad with
        | [] => none
        | x :: r => some (.illBundle, r.foldl min x)

/-- The limit of counted periods: `BUDGET` 0 stands for 2^24 (R125). -/
def Tile.budgetLimit (t : Tile) : Nat := if t.st.budget = 0 then 2 ^ 24 else t.st.budget

/-- A block whose commit is due has not been committed yet. -/
def Tile.commitDue (t : Tile) : Bool := t.mx.closed.any (fun b => decide (b.closedAt + 8 < t.iss.cyc))

/-- The tile is at a point where a bundle may issue: its step runs, its execution clock runs, no empty cycle of a branch remains, and no commit of
the last cycle is outstanding. -/
def Tile.atIssue (t : Tile) (run : Bool) : Bool :=
  run && t.st.active && (!t.iss.stopped || decide (t.iss.issued ≠ 0)) && t.iss.bubble == 0 && !t.commitDue
    && decide (t.st.used < t.budgetLimit) && !(t.iss.dbgFreeze && t.iss.issued == 0)

/-- Whether the wait of the bundle's `CT` syllable is met: the flag holds at least the count (R95). -/
def Tile.waitMet (t : Tile) (w : Nat) : Bool :=
  if opOf w = 0x10 then decide (fld w 44 29 ≤ t.flagSeen (fld w 50 45))
  else decide (fld (t.sreg (fld w 55 51)).toNat 15 0 ≤ t.flagSeen (fld w 50 45))

/-- `STEP_END` may issue: the transfers with their flag increments, the palette writes and the drain path are done (R97). In the very cycle in which the last increment or palette write is
registered it may (DESIGN CHOICE, log entry 120). -/
def Tile.endMet (t : Tile) : Bool :=
  t.iss.xf.isEmpty && t.iss.palw.isEmpty && !t.r.heldInc.any Prod.snd && decide (t.mx.drainFree ≤ t.iss.cyc)

/-- Whether a slot of the bundle in issue has issued. -/
def Tile.hasIssued (t : Tile) (slot : Nat) : Bool := bitAt t.iss.issued slot

/-- Nothing holds the bundle (R87): the wait is met or has issued, `STEP_END` may pass, the `XF` operation is below its limit (R120), and a `BARRIER` is
below its instance limit (`barOk`, R140). -/
def Tile.unheld (t : Tile) (barOk : Bool) : Bool :=
  let ct := t.syl 0
  let xf := t.syl 7
  (t.hasIssued 0 || ((!isWait ct || t.waitMet ct) && (opOf ct ≠ 0x1F || t.endMet) && (opOf ct ≠ 0x18 || barOk)))
    && (t.hasIssued 7 || xf == 0 || decide (t.iss.xf.length < 64))

/-- Mark a slot as issued. The corrected words of the fetch are counted with the first slot. -/
def Tile.mark (t : Tile) (slot : Nat) : Tile :=
  let sbe := if t.iss.issued = 0 then t.blk.sbe + t.fetch.2.1 else t.blk.sbe
  { t with iss := { t.iss with issued := t.iss.issued ||| 2 ^ slot }, blk := { t.blk with sbe := sbe } }

/-- Issue one syllable: where the bundle at the program counter has a fault it is raised and no part issues; where its syllable in this slot is `w`, has not
issued, and nothing holds the bundle, `eff` is its effect; else nothing happens. -/
def Tile.issue (t : Tile) (run barOk : Bool) (slot w : Nat) (eff : Tile → Tile) : Tile :=
  if !t.atIssue run then t
  else
    match (if t.iss.issued = 0 then t.bundleFault else none) with
    | some (f, s) =>
      if f = .pcRange then t.raise f s 4095 true
      else ({ t with blk := { t.blk with sbe := t.blk.sbe + t.fetch.2.1 } }).raise f s t.iss.pc true
    | none =>
      if t.hasIssued slot || t.syl slot ≠ w || t.iss.held || !t.unheld barOk then t
      else eff (t.mark slot)

/-- As `Tile.issue`, for a syllable that may hold its bundle: where the bundle may not issue yet, it is held (R87). -/
def Tile.issueHold (t : Tile) (run barOk : Bool) (slot w : Nat) (eff : Tile → Tile) : Tile :=
  if t.atIssue run && !(t.iss.issued == 0 && t.bundleFault.isSome) && !t.hasIssued slot && t.syl slot == w && !t.iss.held
      && !t.unheld barOk then
    { t with iss := { t.iss with held := true } }
  else t.issue run barOk slot w eff

/-- A held bundle is released and its syllable in `slot`, one that `sel` picks, issues; the other syllables may then issue in the same cycle. -/
def Tile.release (t : Tile) (run barOk : Bool) (slot : Nat) (sel : Nat → Bool) (eff : Nat → Tile → Tile) : Tile :=
  if t.atIssue run && t.iss.held && t.iss.issued == 0 && sel (t.syl slot) && t.unheld barOk then
    eff (t.syl slot) (({ t with iss := { t.iss with held := false } }).mark slot)
  else t

end Sys2Proof.Machine
end

