-- ==== Sys2Proof/Machine/TileScalar.lean ====
section
/-!
DEFINITION. The effects of the scalar slot (R98 to R100, R113) and of the stream load and store slots (R104 to R107) on one tile.
Each reads its sources in its issue cycle and leaves its write in flight.
-/
namespace Sys2Proof.Machine

/-- The two-operand scalar operations of R98, by opcode. -/
def aluOp (op : Nat) (a b : Word) : Word :=
  match op with
  | 0x01 => a + b
  | 0x02 => a - b
  | 0x03 => a &&& b
  | 0x04 => a ||| b
  | 0x05 => a ^^^ b
  | 0x06 => a <<< (b.toNat % 32)
  | 0x07 => a >>> (b.toNat % 32)
  | 0x08 => a.sshiftRight (b.toNat % 32)
  | 0x09 => if a = b then 1#32 else 0#32
  | 0x0A => if a.slt b then 1#32 else 0#32
  | 0x0B => if a.ult b then 1#32 else 0#32
  | _ => a * b

/-- A scalar operation: S`D` ← S`A` op S`B`, latency 1, or 3 for the multiply (R98). -/
def effAlu (op d a b : Nat) (t : Tile) : Tile :=
  t.pend (if op = 0x10 then 3 else 1) (.sreg d (aluOp op (t.sreg a) (t.sreg b)))

def effAddi (d a imm : Nat) (t : Tile) : Tile := t.pend 1 (.sreg d (t.sreg a + BitVec.ofNat 32 imm))

def effMovi (d imm : Nat) (t : Tile) : Tile := t.pend 1 (.sreg d (BitVec.ofNat 32 imm))

/-- The remaining count of a loop; 0 if inactive. -/
def effMovl (d l : Nat) (t : Tile) : Tile :=
  t.pend 1 (.sreg d (if (t.loop l).active then BitVec.ofNat 32 (t.loop l).remaining else 0#32))

def effBcast (d a : Nat) (t : Tile) : Tile :=
  t.pend 2 (.vreg d ((List.range 256).map (fun i => (i, t.sreg a))))

def effExt (d a lane : Nat) (t : Tile) : Tile := t.pend 3 (.sreg d (t.lane a lane))

/-- A descriptor write is seen by an operation two cycles later (R31). -/
def effAdw (d word a : Nat) (t : Tile) : Tile := t.pend 2 (.dword d word (t.sreg a))

def effAdwi (d word imm : Nat) (t : Tile) : Tile := t.pend 2 (.dword d word (BitVec.ofNat 32 imm))

/-- `FSET`: the flag holds the value plus the increments of the cycle (R99). -/
def effFset (f imm : Nat) (t : Tile) : Tile := t.pend 1 (.flag f imm)

/-- `FEED`: SU2 takes a copy of the descriptor with its position; the new feed replaces the previous one in this cycle (R113). -/
def effFeed (d pre : Nat) (t : Tile) : Tile :=
  { t with mx := { t.mx with feed := { t.mx.feed with newFeed := some (t.desc d, pre % 2 == 1) } } }

/-- One step of the descriptor's position (R101), seen by the next cycle. -/
def Tile.advance (t : Tile) (a n : Nat) : Tile := t.pend 1 (.dpos a ((t.desc a).step n))

/-- The unit of an LS slot. -/
def lsUnit (slot : Nat) : Nat := slot - 2

/-- A load through SU0 or SU1: the checks, the read, the position, and the write that `mk` makes of the bytes, after 4 or 10 cycles (R104). -/
def effLoad (slot a al bytes : Nat) (mk : List Byte → Wr) (t : Tile) : Tile :=
  let d := t.desc a
  let ad := alignDown d.addr al
  let r := t.touch (lsUnit slot) d.space ad bytes
  if r.2 then
    let q := r.1.readT d.space ad.toNat (bytes / 4) slot
    (q.1.pend (loadLat d.space) (mk q.2)).advance a 1
  else r.1.advance a 1

def wordAt (bs : List Byte) (j : Nat) : Word :=
  BitVec.ofNat 32 (leNat [bs.getD (4 * j) 0#8, bs.getD (4 * j + 1) 0#8, bs.getD (4 * j + 2) 0#8, bs.getD (4 * j + 3) 0#8])

def effVld (slot reg a q : Nat) : Tile → Tile :=
  effLoad slot a 64 256 (fun bs => .vreg reg ((List.range 64).map (fun j => (64 * q + j, wordAt bs j))))

def effVldx8 (slot reg a : Nat) : Tile → Tile :=
  effLoad slot a 64 256 (fun bs => .vreg reg ((List.range 256).map (fun i => (i, (bs.getD i 0#8).setWidth 32))))

def effVldx4 (slot reg a : Nat) : Tile → Tile :=
  effLoad slot a 64 128 (fun bs => .vreg reg ((List.range 256).map (fun i =>
    (i, BitVec.ofNat 32 (((bs.getD (i / 2) 0#8).toNat / (if i % 2 = 0 then 1 else 16)) % 16)))))

def effSld (slot reg a : Nat) : Tile → Tile :=
  effLoad slot a 4 4 (fun bs => .sreg reg (wordAt bs 0))

/-- A vector store of the lanes of a quarter that are set in P, seen by a load of the next cycle (R104). -/
def effVst (slot reg a q p : Nat) (t : Tile) : Tile :=
  let d := t.desc a
  let ad := alignDown d.addr 64
  let r := t.touch (lsUnit slot) d.space ad 256
  if r.2 then
    let m := t.pred p
    let lanes := (List.range 64).filter (fun j => bitAt m (64 * q + j))
    (lanes.foldl (fun u j => u.pend 1 (.mem d.space (ad.toNat + 4 * j) (leBytes 4 (t.lane reg (64 * q + j)).toNat))) r.1).advance a 1
  else r.1.advance a 1

def effSst (slot reg a : Nat) (t : Tile) : Tile :=
  let d := t.desc a
  let ad := alignDown d.addr 4
  let r := t.touch (lsUnit slot) d.space ad 4
  if r.2 then (r.1.pend 1 (.mem d.space ad.toNat (leBytes 4 (t.sreg reg).toNat))).advance a 1
  else r.1.advance a 1

/-- The fill that streams ends: what it has read and would write after this cycle is not written (R106). -/
def Tile.endFill (t : Tile) : Tile :=
  match t.mx.fill with
  | none => t
  | some f =>
    let dead := fun (p : Pend) => match p.wr with
      | .wbuf _ _ _ => decide (f.start ≤ p.at_) && decide (t.iss.cyc < p.due)
      | _ => false
    { t with mx := { t.mx with fill := none }, iss := { t.iss with inflight := t.iss.inflight.filter (fun p => !dead p) } }

/-- `WBF`: a fill of 64·LEN bytes begins and ends an earlier one; it streams from this cycle on and clears the slice counter (R105, R106). -/
def effWbf (wb a off len : Nat) (t : Tile) : Tile :=
  let d := t.desc a
  let f : Fill := ⟨wb, 64 * off, 64 * len, d.space, (alignDown d.addr 64).toNat, loadLat d.space, true, t.iss.cyc⟩
  let t1 := if inSpace d.space (alignDown d.addr 64) 64 then { t.endFill with mx := { t.endFill.mx with fill := some f } }
    else t.raise .streamRange slotLS1 t.pcNow true
  t1.advance a 1

/-- The palettes that a palette write reads (R62). -/
def palsOf (bs : List Byte) (n : Nat) (bf16 : Bool) : List Palette :=
  (List.range n).map (fun k => ⟨bf16, (List.range 16).map (fun i =>
    BitVec.ofNat 16 ((bs.getD (32 * k + 2 * i) 0#8).toNat + 256 * (bs.getD (32 * k + 2 * i + 1) 0#8).toNat))⟩)

/-- `PALW`: the slots' bytes are read in one SU1 cycle; the write completes within 16 execution cycles (R107). A source of 256 bytes aligned to 32 may span
five banks, where R26 allows four in a cycle; the model reads all five in the one cycle of R107 (DESIGN CHOICE, log entry 105). -/
def effPalw (a pslot pcnt pt f : Nat) (t : Tile) : Tile :=
  let d := t.desc a
  let ad := alignDown d.addr 32
  let n := 32 * (pcnt + 1)
  let r := t.touch 1 d.space ad n
  if r.2 then
    let q := r.1.readT d.space ad.toNat (n / 4) slotLS1
    let w : PalWrite := ⟨pslot, palsOf q.2 (pcnt + 1) (pt == 1), f, t.iss.cyc⟩
    ({ q.1 with iss := { q.1.iss with palw := q.1.iss.palw ++ [w] } }).advance a 1
  else r.1.advance a 1

/-- The oldest palette write completes: its slots are written at the end of this cycle, after every read of the cycle (R63), and its flag increments. -/
def Tile.palComplete (t : Tile) : Tile :=
  match t.iss.palw with
  | [] => t
  | w :: r =>
    let t1 := { t with iss := { t.iss with palw := r } }
    let t2 := (List.range w.pals.length).foldl (fun u k => u.pend 1 (.pal (w.slot + k) (w.pals.getD k Palette.zero))) t1
    t2.incFlag w.flag false

/-- One fill cycle of a WB fill: up to 256 bytes are read and written to the WB register after the latency of the space (R105). -/
def Tile.fillCycle (t : Tile) : Tile :=
  match t.mx.fill with
  | none => t
  | some f =>
    let n := min 256 f.left
    let t0 := if f.fresh then t.setWb f.wb { t.wbReg f.wb with slice := 0, load := (t.wbReg f.wb).load + 1 } else t
    let r := t0.touch 1 f.space (f.addr : Int) n
    if r.2 then
      let q := r.1.readT f.space f.addr (n / 4) slotLS1
      let t1 := q.1.pend f.lat (.wbuf f.wb f.off q.2)
      let f' : Fill := { f with off := f.off + n, left := f.left - n, addr := f.addr + n, fresh := false }
      { t1 with mx := { t1.mx with fill := if f'.left = 0 then none else some f' } }
    else { r.1 with mx := { r.1.mx with fill := none } }

end Sys2Proof.Machine
end

