-- ==== Sys2Proof/Machine/TileMatrix.lean ====
section
/-!
DEFINITION. The matrix engine (R19 to R22, R60 to R73, R108 to R114, R486): the K-step, the block sum, the commit, the clear, the drain
and the operand A feed.
-/
namespace Sys2Proof.Machine

/-- K elements per K-step (R19): 2 for MXFP4, P4 and 2:4 sparse operands, else 1. -/
def kPerStep (fb sp : Nat) : Nat := if fb = 0xB ∨ fb = 0xD ∨ sp = 1 then 2 else 1

/-- K-steps of a full block (R21). -/
def stepsPerBlock (fb sp : Nat) : Nat := if kPerStep fb sp = 2 then 16 else 32

/-- Columns of a block: 64 for BF16 and FP16, else 128. -/
def colsOf (fa : Nat) : Nat := if fa = 1 ∨ fa = 2 then 64 else 128

def getB (bs : List Byte) (i : Nat) : Nat := (bs.getD i 0#8).toNat

/-- Mantissa width of an operand format (R67); 0 for integers. -/
def mantW (f : Nat) : Nat :=
  match fpOf f with
  | some p => p.mw
  | none => 0

/-- An operand element of the matrix engine; an MXINT8 element is the integer, whose weight R69 gives. -/
def opVal (f b : Nat) : Val := if f = 0xC ∨ f = 0x5 then intDec 8 0 b else elemDec f b

/-- The elements of row `r` of an A slice (R66). -/
def aElems (fa fb sp : Nat) (sl : List Byte) (r : Nat) : List Val :=
  if fa = 1 ∨ fa = 2 then [opVal fa (getB sl (2 * r) + 256 * getB sl (2 * r + 1))]
  else if fa = 0xB then [opVal fa (getB sl r % 16), opVal fa (getB sl r / 16)]
  else if fa = 9 ∨ fa = 0xA then [opVal fa (packedGet sl 6 r)]
  else if fb = 0xD ∨ sp = 1 then [opVal fa (getB sl (2 * r)), opVal fa (getB sl (2 * r + 1))]
  else [opVal fa (getB sl r)]

/-- Bytes of a WB register. -/
def wbByte (w : WbReg) (i : Nat) : Nat := (Mem.read w.data i).toNat

/-- A palette entry as a value (R62). -/
def palVal (p : Palette) (i : Nat) : Val :=
  let e := (p.ents.getD i 0#16).toNat
  if p.bf16 then fBF16.dec e else fE4M3.dec (e % 256)

/-- The elements of column `c` at slice `s` of a WB load (R65); a P4 index selects an entry of the column's palette, read by the slot type
that the opening K-step found: `mb` is 7 for BF16. -/
def bElems (t : Tile) (w : WbReg) (fb : Nat) (palNo mb : List Nat) (c s : Nat) : List Val :=
  if fb = 1 ∨ fb = 2 then [opVal fb (wbByte w (64 * c + 2 * s) + 256 * wbByte w (64 * c + 2 * s + 1))]
  else if fb = 0xB then [opVal fb (wbByte w (32 * c + s) % 16), opVal fb (wbByte w (32 * c + s) / 16)]
  else if fb = 0xD then
    let p := { t.pal (palNo.getD c 0) with bf16 := mb.getD c 3 == 7 }
    [palVal p (wbByte w (32 * c + s) % 16), palVal p (wbByte w (32 * c + s) / 16)]
  else if fb = 9 ∨ fb = 0xA then
    [opVal fb (packedGet ((List.range 24).map (fun i => Mem.read w.data (24 * c + i))) 6 s)]
  else [opVal fb (wbByte w (32 * c + s))]

/-- The index of the stored element of column `c` at slice `s` (R65). -/
def bIndex (w : WbReg) (c s : Nat) : Nat :=
  let b := wbByte w (4096 + 8 * c + s / 4)
  (b / 4 ^ (s % 4)) % 4

/-- The scale of column `c` that the opening K-step reads at slice `s` (R65, R111). -/
def bScale (w : WbReg) (fb c s : Nat) : Nat :=
  if fb = 0xB then wbByte w (4096 + 2 * c + (if s < 16 then 0 else 1))
  else wbByte w (4096 + c)

/-- The `PREFIX` of a `FEED` that the bundle in issue holds, if it holds one. -/
def Tile.feedNow (t : Tile) : Option Bool :=
  let w := t.syl slotSC
  if fld w 63 56 = 0x31 then some (fld w 32 32 == 1) else none

/-- The slice a K-step consumes, with the scale prefix it finds (R113, R114). In the first L cycles of a feed, the cycle of its `FEED` among them, it is
the oldest slice still queued by the feeds before it; later the oldest slice of the feed in force. Where none is queued the bytes are zeros. -/
def Tile.takeSlice (t : Tile) : Tile × List Byte × Bool :=
  let f := t.mx.feed
  let early := f.on && decide (t.iss.cyc < f.start + f.lat)
  let fromPrev := early && (t.feedNow.isNone || !f.prevQueue.isEmpty)
  if fromPrev then
    ({ t with mx := { t.mx with feed := { f with prevQueue := f.prevQueue.tail, stepNow := true } } },
     (f.prevQueue.headD ([], f.pre)).1, (f.prevQueue.headD ([], f.pre)).2)
  else
    ({ t with mx := { t.mx with feed := { f with queue := f.queue.tail, stepNow := true } } },
     f.queue.headD [], if f.queue.isEmpty then t.feedNow.getD f.pre else f.pre)

/-- The slice bytes and the prefix bytes of a 128-byte read (R114): with `PREFIX` the first half is the prefix and the slice has 64 bytes; a read that is
missing is all zeros. -/
def sliceBytes (rd : List Byte) (pre : Bool) : List Byte :=
  if pre then rd.drop 64 ++ List.replicate 64 0#8 else rd

/-- `MKS` (R110, R111): opens, extends or closes a block. The K-step reads its operands in the issue cycle. -/
def effMks (fa fb acc wb half sp last : Nat) (t : Tile) : Tile :=
  let q := t.takeSlice
  let t1 := q.1
  let rd := q.2.1
  let pre := q.2.2
  let w := t1.wbReg wb
  let s := w.slice
  let blk : Block := match t1.mx.blk with
    | some b => b
    | none =>
      let mxA := isMx fa
      let cols := List.range (colsOf fa)
      let palNo := if fb = 0xD then cols.map (fun c => wbByte w (4096 + c)) else []
      { acc := acc, fa := fa, fb := fb, half := half, sp := sp,
        sa := if mxA then (List.range 64).map (fun r => if pre then getB rd r else 127) else [],
        sb := if isMx fb then cols.map (fun c => bScale w fb c s) else [],
        mb := cols.map (fun c => if fb = 0xD then (if (t1.pal (palNo.getD c 0)).bf16 then 7 else 3) else mantW fb),
        palNo := palNo, steps := [], closedAt := 0 }
  let sl := sliceBytes rd pre
  let step : KStep :=
    { wb := wb, load := w.load, slice := s,
      a := (List.range 64).map (fun r => aElems blk.fa blk.fb blk.sp sl r),
      b := (List.range (colsOf blk.fa)).map (fun c => bElems t1 w blk.fb blk.palNo blk.mb c s),
      ix := if blk.sp = 1 then (List.range 128).map (fun c => bIndex w c s) else [] }
  let blk1 := { blk with steps := blk.steps ++ [step] }
  let t2 := t1.setWb wb { w with slice := (s + 1) % 32 }
  if last = 1 ∨ stepsPerBlock blk.fb blk.sp ≤ blk1.steps.length then
    { t2 with mx := { t2.mx with blk := none, closed := t2.mx.closed ++ [{ blk1 with closedAt := t2.iss.cyc }] } }
  else { t2 with mx := { t2.mx with blk := some blk1 } }

/-! ### The block sum (R64, R67, R69, R70, R486) -/

/-- The products of a 2:4 sparse operand for one output element: each stored element with the A position its index names, where that position lies in
a half of its group that issued within the block (R64, R486). -/
def sparsePairs (steps : List KStep) (r c : Nat) : List (Val × Val) :=
  steps.flatMap (fun st =>
    let w := ((st.b.getD c []).headD (.fin false 0 0))
    let i := st.ix.getD c 0
    let half := i / 2
    if half = st.slice % 2 then [((st.a.getD r []).getD (i % 2) (.fin false 0 0), w)]
    else
      match steps.find? (fun q => q.wb == st.wb && q.load == st.load && q.slice / 2 == st.slice / 2 && decide (q.slice ≠ st.slice)) with
      | some q => [((q.a.getD r []).getD (i % 2) (.fin false 0 0), w)]
      | none => [])

/-- The operand pairs of the products of one output element. -/
def blockPairs (b : Block) (r c : Nat) : List (Val × Val) :=
  if b.sp = 1 then sparsePairs b.steps r c
  else b.steps.flatMap (fun st => (st.a.getD r []).zip (st.b.getD c []))

/-- A pair whose operands are finite and not zero: sign, significand product and exponent sum. -/
def pairTerm : Val × Val → Option (Bool × Nat × Int)
  | (.fin s m e, .fin u n f) => if m = 0 ∨ n = 0 then none else some (s != u, m * n, e + f)
  | _ => none

/-- The block sum of R67 with its window, or the exact sum of R69 for integers: S and the exponent of its least significant bit. -/
def blockSum (b : Block) (r c : Nat) : Int × Int :=
  let terms := (blockPairs b r c).filterMap pairTerm
  if b.fb = 5 ∨ b.fb = 0xC then
    ((terms.map (fun x => if x.1 then -(x.2.1 : Int) else (x.2.1 : Int))).sum, if b.fb = 5 then 0 else -12)
  else
    let mm : Int := (mantW b.fa : Int) + (b.mb.getD c 0 : Int)
    match terms with
    | [] => (0, 0)
    | x :: rest =>
      let q := rest.foldl (fun m y => max m y.2.2) x.2.2 + mm
      let lsb := q - 40
      ((terms.map (fun y =>
          let sh := y.2.2 - lsb
          let mag : Int := if 0 ≤ sh then ((y.2.1 <<< sh.toNat : Nat) : Int) else ((y.2.1 >>> (-sh).toNat : Nat) : Int)
          if y.1 then -mag else mag)).sum, lsb)

/-- The special value of a block, where it has one (R70): NaN operands or scales, ∞ × 0, and infinite products. -/
def blockSpecial (b : Block) (r c : Nat) : Option Val :=
  let ps := blockPairs b r c
  let nan := ps.any (fun p => p.1.isNan || p.2.isNan || (p.1.mul p.2).isNan)
    || (b.sa.getD r 0 == 255) || (b.sb.getD c 0 == 255)
  let inf := fun (neg : Bool) => ps.any (fun p => match p.1.mul p.2 with
    | .inf s => s == neg
    | _ => false)
  if nan || (inf true && inf false) then some .nan
  else if inf true then some (.inf true)
  else if inf false then some (.inf false)
  else none

/-- The value of a block with block sum S (R71). -/
def blockVal (b : Block) (r c : Nat) (s lsb : Int) : Val :=
  match blockSpecial b r c with
  | some v => v
  | none =>
    let sa : Int := if b.sa.isEmpty then 0 else (b.sa.getD r 127 : Int) - 127
    let sb : Int := if b.sb.isEmpty then 0 else (b.sb.getD c 127 : Int) - 127
    .fin (decide (s < 0)) s.natAbs (lsb + sa + sb)

/-- The accumulator element after the add of R71: one rounding, an exact zero sum is +0. -/
def accAdd (acc : Word) (v : Val) : Word :=
  match (ofF32 acc).add v with
  | .fin _ 0 _ => 0#32
  | x => toF32 x

/-- The accumulator row after a block is added to its columns. The corruption `delta` falls on the block sum of element `elem` = 128 × row + column. -/
def blockRow (b : Block) (elem : Nat) (delta : Int) (r : Nat) (old : List Word) : List Word :=
  (List.range 128).map (fun k =>
    let lo := if colsOf b.fa = 64 then 64 * b.half else 0
    let acc := old.getD k 0#32
    if lo ≤ k ∧ k < lo + colsOf b.fa then
      let s := blockSum b r (k - lo)
      accAdd acc (blockVal b r (k - lo) (s.1 + (if elem = 128 * r + k then delta else 0)) s.2)
    else acc)

/-- The oldest closed block is committed at the end of cycle t + 8 (R21), unless a clear of its accumulator issued in that cycle (R72). The residue check
of R73 finds a corruption that is no multiple of 7 and completes later (R49). -/
def Tile.commit (t : Tile) (elem : Nat) (delta : Int) : Tile :=
  match t.mx.closed with
  | [] => t
  | b :: rest =>
    if t.iss.cyc ≤ b.closedAt + 8 then t
    else
      let lost := Tab.has t.mx.lastClear b.acc && Tab.get 0 t.mx.lastClear b.acc == b.closedAt + 8
      let t1 := { t with mx := { t.mx with closed := rest } }
      let bad := decide (delta.emod 7 ≠ 0)
      let t2 := { t1 with mx := { t1.mx with mxChecks := t1.mx.mxChecks ++ [⟨b.closedAt, slotMX, bad⟩] } }
      if lost then t2
      else (List.range 64).foldl (fun u r => u.setAccRow b.acc r (blockRow b elem delta r (u.accRow b.acc r))) t2

/-- `MCLR`: all elements of the accumulator become +0 at the end of the cycle. -/
def effMclr (acc : Nat) (t : Tile) : Tile :=
  ({ t with mx := { t.mx with lastClear := Tab.set t.mx.lastClear acc t.iss.cyc } }).pend 1 (.macc acc)

/-- `MDRN` (R112): the drain path is taken for 64 cycles; a narrowing drain with stochastic rounding advances the drain's conversion counter (R81). -/
def effMdrn (acc fmt cc a m : Nat) (t : Tile) : Tile :=
  let dr : Drain := ⟨acc, fmt, cc, t.desc a, t.desc m, t.iss.cyc, t.mx.ctrDrain⟩
  let t1 := { t with mx := { t.mx with drain := some dr, drainFree := t.iss.cyc + 64,
                                       ctrDrain := if bitAt cc 0 ∧ fmt ≠ 0 then (t.mx.ctrDrain + 1) % 2 ^ 32 else t.mx.ctrDrain } }
  let t2 := t1.advance a 64
  if isMx fmt ∧ a ≠ m then t2.advance m 64 else t2

/-- The bytes of row `r` of a drain (R112, R75 to R78): the element bytes, and the four scale bytes of an MX format. -/
def drainRow (t : Tile) (tid : Nat) (d : Drain) (r : Nat) : List Byte × List Byte :=
  let row := t.accRow d.acc r
  let rnd := fun k => ccRnd d.cc t.st.seed tid d.ctr (128 * r + k) 0
  if d.fmt = 0 then (row.flatMap (fun w => leBytes 4 w.toNat), [])
  else if isMx d.fmt then
    let gs := (List.range 4).map (fun g =>
      mxGroup d.fmt (ccSat d.cc) ((List.range 32).map (fun j => (ofF32 (row.getD (32 * g + j) 0#32), rnd (32 * g + j)))))
    (packBytes (fmtWidth d.fmt) (gs.flatMap (fun g => g.2)), gs.map (fun g => BitVec.ofNat 8 g.1))
  else
    (packBytes (fmtWidth d.fmt) ((List.range 128).map (fun k => elemEnc d.fmt (rnd k) (ccSat d.cc) (ofF32 (row.getD k 0#32)))), [])

/-- The drain's part of this cycle: row t − start is read, converted, checked and written at the end of the cycle (R112). -/
def Tile.drainCycle (t : Tile) (tid : Nat) : Tile :=
  match t.mx.drain with
  | none => t
  | some d =>
    let r := t.iss.cyc - d.start
    let bs := drainRow t tid d r
    let ea := alignDown (d.descA.addrAt ((d.descA.pos + r) % d.descA.total)) 64
    let x := t.touch 3 d.descA.space ea bs.1.length
    let t1 := if x.2 then x.1.pend 1 (.mem d.descA.space ea.toNat bs.1) else x.1
    let t2 :=
      if isMx d.fmt then
        let ma := alignDown (d.descM.addrAt ((d.descM.pos + r) % d.descM.total)) 4
        let y := t1.touch 3 d.descM.space ma 4
        if y.2 then y.1.pend 1 (.mem d.descM.space ma.toNat bs.2) else y.1
      else t1
    if r = 63 then { t2 with mx := { t2.mx with drain := none } } else t2

/-! ### The operand A feed (R113, R114) -/

/-- One SU2 read of 128 bytes at the feed's position, which then advances one step. -/
def Tile.feedRead (t : Tile) : Tile :=
  let f := t.mx.feed
  let ad := alignDown f.desc.addr 64 - (if f.pre then 64 else 0)
  let x := t.touch 2 f.desc.space ad 128
  let f1 := { f with desc := { f.desc with pos := f.desc.step 1 }, made := f.made + 1 }
  if x.2 then
    let q := x.1.readT f.desc.space ad.toNat 32 slotMX
    { q.1 with mx := { q.1.mx with feed := { f1 with queue := f.queue ++ [q.2] } } }
  else { x.1 with mx := { x.1.mx with feed := f1 } }

/-- SU2's part of this cycle: a new feed takes over, the first L reads, the read of a K-step from cycle t + L on, and the discard of the previous feed's
slices at cycle t + L (R113). -/
def Tile.feedCycle (t : Tile) : Tile :=
  let f0 := t.mx.feed
  let t1 := match f0.newFeed with
    | none => t
    | some (d, pre) =>
      let early := f0.on && decide (t.iss.cyc < f0.start + f0.lat)
      let left := (if early then f0.prevQueue else []) ++ f0.queue.map (fun x => (x, f0.pre))
      { t with mx := { t.mx with feed :=
        ⟨true, d, pre, loadLat d.space, t.iss.cyc, 0, [], left, none, f0.stepNow⟩ } }
  let f := t1.mx.feed
  let t2 := if f.on && (decide (f.made < f.lat) || (f.stepNow && f0.newFeed.isNone && decide (f.start + f.lat ≤ t.iss.cyc)))
    then t1.feedRead else t1
  let g := t2.mx.feed
  let drop := g.on && decide (g.start + g.lat ≤ t.iss.cyc + 1)
  { t2 with mx := { t2.mx with feed := { g with stepNow := false, prevQueue := if drop then [] else g.prevQueue } } }

end Sys2Proof.Machine
end

