-- ==== Sys2Proof/Machine/TileVector.lean ====
section
/-!
DEFINITION. The effects of the vector slots (R74, R115 to R117, R23, R24) on one tile. Each reads its sources in its issue cycle and leaves its
masked lanes in flight.
-/
namespace Sys2Proof.Machine

/-- Lanes of a vector write that the mask keeps. -/
def maskLanes (m : Nat) (vs : List Word) : List (Nat × Word) :=
  (List.range 256).filterMap (fun i => if bitAt m i then some (i, vs.getD i 0#32) else none)

/-- A lane-wise operation of latency `lat`, masked by P. -/
def vecOp (t : Tile) (lat d p : Nat) (f : Nat → Word) : Tile :=
  t.pend lat (.vreg d (maskLanes (t.pred p) ((List.range 256).map f)))

/-- The unit number of a vector slot for R80. -/
def vxUnit (u : Nat) : Nat := u + 1

/-- The slot of VX0 or VX1. -/
def vxSlot (u : Nat) : Nat := u + 5

/-- An arithmetic operation on one 32-bit lane: FP32, or two packed 16-bit elements (R74). `g` gets the format, the element number and the operand bits. -/
def laneArith (t : Nat) (i : Nat) (g : FpFmt → Nat → Nat → Nat → Nat → Nat) (a b c : Word) : Word :=
  if t = 0 then BitVec.ofNat 32 (g fFP32 i a.toNat b.toNat c.toNat)
  else
    let f := if t = 1 then fBF16 else fFP16
    let h := fun (w : Word) (k : Nat) => (w.toNat / 65536 ^ k) % 65536
    BitVec.ofNat 32 (g f (2 * i) (h a 0) (h b 0) (h c 0) + 65536 * g f (2 * i + 1) (h a 1) (h b 1) (h c 1))

/-- The vector residue check of an operation issued now: it completes within 3 cycles of the result write (R49). -/
def Tile.vxCheck (t : Tile) (u : Nat) (delta : Int) : Tile :=
  { t with mx := { t.mx with vxChecks := t.mx.vxChecks ++ [⟨t.iss.cyc + 5, vxSlot u, decide (delta.emod 7 ≠ 0)⟩] } }

/-- FMA, MUL, ADD, SUB of latency 6. A physical upset adds `delta` to the significand product of element `elem`. -/
def vecFma (u d p ty : Nat) (delta : Int) (f : Nat → Word) (t : Tile) : Tile :=
  let _ := ty
  (vecOp t 6 d p f).vxCheck u delta

def upAt (elem : Nat) (delta : Int) (i : Nat) : Int := if i = elem then delta else 0

def effVfma (u d a b c p ty elem : Nat) (delta : Int) (t : Tile) : Tile :=
  vecFma u d p ty delta (fun i => laneArith ty i (fun f k x y z => f.fma (upAt elem delta k) x y z)
    (t.lane a i) (t.lane b i) (t.lane c i)) t

def effVmul (u d a b p ty elem : Nat) (delta : Int) (t : Tile) : Tile :=
  vecFma u d p ty delta (fun i => laneArith ty i (fun f k x y _ => f.mulB (upAt elem delta k) x y)
    (t.lane a i) (t.lane b i) 0#32) t

def effVadd (u d a b p ty elem : Nat) (delta : Int) (t : Tile) : Tile :=
  vecFma u d p ty delta (fun i => laneArith ty i (fun f k x y _ => f.addB (upAt elem delta k) x y)
    (t.lane a i) (t.lane b i) 0#32) t

def effVsub (u d a b p ty elem : Nat) (delta : Int) (t : Tile) : Tile :=
  vecFma u d p ty delta (fun i => laneArith ty i (fun f k x y _ => f.subB (upAt elem delta k) x y)
    (t.lane a i) (t.lane b i) 0#32) t

/-- The lane-wise integer operations of R115 by opcode. -/
def vint (op : Nat) (a b : Word) : Word :=
  match op with
  | 0x08 => a + b
  | 0x09 => a - b
  | 0x0A => a &&& b
  | 0x0B => a ||| b
  | 0x0C => a ^^^ b
  | 0x0D => a <<< (b.toNat % 32)
  | 0x0E => a >>> (b.toNat % 32)
  | _ => a.sshiftRight (b.toNat % 32)

def effVint (op d a b p : Nat) (t : Tile) : Tile :=
  vecOp t 2 d p (fun i => vint op (t.lane a i) (t.lane b i))

/-- `VSEL`: the lane of A where P is set, else of B; all lanes written. -/
def effVsel (d a b p : Nat) (t : Tile) : Tile :=
  vecOp t 2 d 0 (fun i => if bitAt (t.pred p) i then t.lane a i else t.lane b i)

def effVmax (d a b p ty : Nat) (t : Tile) : Tile :=
  vecOp t 2 d p (fun i => laneArith ty i (fun f _ x y _ => f.maxB x y) (t.lane a i) (t.lane b i) 0#32)

def effVmin (d a b p ty : Nat) (t : Tile) : Tile :=
  vecOp t 2 d p (fun i => laneArith ty i (fun f _ x y _ => f.minB x y) (t.lane a i) (t.lane b i) 0#32)

/-- A comparison of `VCMP` (R115): with a NaN operand NE is true and the rest false; −0 and +0 compare equal. -/
def vcmpRel (fn ty : Nat) (a b : Word) : Bool :=
  let lt := if ty = 0 then (ofF32 a).lt (ofF32 b) else a.slt b
  let gt := if ty = 0 then (ofF32 b).lt (ofF32 a) else b.slt a
  let nan := ty == 0 && ((ofF32 a).isNan || (ofF32 b).isNan)
  let eq := !nan && !lt && !gt
  match fn with
  | 0 => eq
  | 1 => !eq
  | 2 => lt
  | 3 => lt || eq
  | 4 => gt
  | _ => gt || eq

def effVcmp (d a b p ty fn : Nat) (t : Tile) : Tile :=
  let bits := maskOf ((List.range 256).filter (fun i => vcmpRel fn ty (t.lane a i) (t.lane b i)))
  t.pend 2 (.preg d (t.pred p) bits)

def effVperm (d a b p : Nat) (t : Tile) : Tile :=
  vecOp t 3 d p (fun i => t.lane a ((t.lane b i).toNat % 256))

/-- `VRED` (R117): a balanced tree over the 256 lanes in lane order. -/
def treeFold (f : Word → Word → Word) : Nat → List Word → List Word
  | 0, l => l
  | k + 1, l => treeFold f k (pairUp f l)
where
  /-- One level of the tree: neighbours combined. -/
  pairUp (f : Word → Word → Word) : List Word → List Word
    | a :: b :: r => f a b :: pairUp f r
    | l => l

def redOp (fn ty : Nat) (a b : Word) : Word :=
  if ty = 0 then
    match fn with
    | 0 => BitVec.ofNat 32 (fFP32.addB 0 a.toNat b.toNat)
    | 1 => BitVec.ofNat 32 (fFP32.maxB a.toNat b.toNat)
    | _ => BitVec.ofNat 32 (fFP32.minB a.toNat b.toNat)
  else
    match fn with
    | 0 => a + b
    | 1 => if a.slt b then b else a
    | _ => if a.slt b then a else b

/-- What a lane not set in P contributes (R117). -/
def redNeutral (fn ty : Nat) : Word :=
  if ty = 0 then (match fn with
    | 0 => 0#32
    | 1 => 0xFF800000#32
    | _ => 0x7F800000#32)
  else (match fn with
    | 0 => 0#32
    | 1 => 0x80000000#32
    | _ => 0x7FFFFFFF#32)

def effVred (d a p ty fn : Nat) (t : Tile) : Tile :=
  let ls := (List.range 256).map (fun i => if bitAt (t.pred p) i then t.lane a i else redNeutral fn ty)
  let r := (treeFold (redOp fn ty) 8 ls).headD 0#32
  vecOp t 8 d 0 (fun _ => r)

/-- `VPAL`: a palette entry widened to FP32 (R63, R115). -/
def effVpal (d a p sel imm8 : Nat) (t : Tile) : Tile :=
  vecOp t 2 d p (fun i =>
    let x := (t.lane a i).toNat
    toF32 (palVal (t.pal (if sel = 0 then imm8 else fld x 11 4)) (x % 16)))

/-- `VTR`: latency 14, and the transcendental unit is taken for 4 cycles (R23). -/
def effVtr (d a p fn : Nat) (t : Tile) : Tile :=
  let t1 := vecOp t 14 d p (fun i => transF fn (t.lane a i))
  { t1 with mx := { t1.mx with trFree := t.iss.cyc + 4 } }

/-! ### `VCVT` (R77, R116) -/

/-- Element `i` of a narrow source. -/
def cvtSrc (t : Tile) (a ty q pk i : Nat) : Nat :=
  let wd := fmtWidth ty
  if pk = 0 then (t.lane a i).toNat % 2 ^ wd
  else if wd = 8 then ((t.lane a (64 * q + i / 4)).toNat / 256 ^ (i % 4)) % 256
  else ((t.lane a (128 * (q % 2) + i / 2)).toNat / 65536 ^ (i % 2)) % 65536

/-- The random rounding of element `i` of a vector conversion (R80). -/
def cvtRnd (t : Tile) (tid u cc i : Nat) : Rnd :=
  ccRnd cc t.st.seed tid (if u = 0 then t.mx.ctrVx0 else t.mx.ctrVx1) i (vxUnit u)

/-- What a conversion to an MX format writes (R116): the lanes set in P, and the scale bytes of the groups with a lane set. -/
def cvtMxLanes (t : Tile) (tid u a p t2 cc : Nat) : List (Nat × Word) × List (Nat × Nat) :=
  let m := t.pred p
  let gs := (List.range 8).filterMap (fun g =>
    let on := ((List.range 32).map (fun j => 32 * g + j)).filter (fun i => bitAt m i)
    if on.isEmpty then none
    else
      let gr := mxGroup t2 (ccSat cc) (on.map (fun i => (ofF32 (t.lane a i), cvtRnd t tid u cc i)))
      some ((on.zip gr.2).map (fun x => (x.1, BitVec.ofNat 32 (x.2 % 256))), (32 * g, gr.1)))
  (gs.flatMap (fun x => x.1), gs.map (fun x => x.2))

/-- The lanes an ordinary conversion writes (R116): whole lanes, or elements packed into a quarter or half of the register. P masks the lanes of the destination (R115). -/
def cvtLanes (t : Tile) (tid u a p ty t2 cc fn q pk : Nat) : List (Nat × Word) :=
  let narrow := ty = 0 ∧ t2 ≠ 6 ∧ fn = 0
  let el : Nat → Nat := fun i =>
    if fn = 1 then (toF32 (e8m0 ((t.lane a i).toNat % 256))).toNat
    else if ty = 0 then elemEnc t2 (cvtRnd t tid u cc i) (ccSat cc) (ofF32 (t.lane a i))
    else (toF32 (elemDec ty (cvtSrc t a ty q pk i))).toNat
  if narrow ∧ pk = 1 then
    let wd := fmtWidth t2
    let per := 32 / wd
    let lo := if wd = 8 then 64 * q else 128 * (q % 2)
    (List.range (256 / per)).filterMap (fun k =>
      if bitAt (t.pred p) (lo + k) then some (lo + k, BitVec.ofNat 32 (packNat wd ((List.range per).map (fun j => el (per * k + j))))) else none)
  else (List.range 256).filterMap (fun i => if bitAt (t.pred p) i then some (i, BitVec.ofNat 32 (el i)) else none)

/-- `VCVT`: latency 4; a narrowing conversion with stochastic rounding advances the unit's counter (R81). -/
def effVcvt (tid u d a p ty t2 cc fn q pk : Nat) (t : Tile) : Tile :=
  let t1 := if isMx t2 ∧ fn = 0 ∧ ty = 0 then
      (let x := cvtMxLanes t tid u a p t2 cc
       t.pend 4 (.vconv d x.1 x.2))
    else t.pend 4 (.vreg d (cvtLanes t tid u a p ty t2 cc fn q pk))
  if bitAt cc 0 ∧ ty = 0 ∧ fn = 0 then
    (if u = 0 then { t1 with mx := { t1.mx with ctrVx0 := (t1.mx.ctrVx0 + 1) % 2 ^ 32 } }
     else { t1 with mx := { t1.mx with ctrVx1 := (t1.mx.ctrVx1 + 1) % 2 ^ 32 } })
  else t1

end Sys2Proof.Machine
end

