-- ==== Sys2Proof/Machine/TilePeriod.lean ====
section
/-!
DEFINITION. The control slot (R89 to R97) and the end of a tile clock period (R13 to R15, R25, R91 to R95, R135) on one tile.
-/
namespace Sys2Proof.Machine

/-- What the `CT` syllable decides about the next bundle, and the link register of `CALL` (R89). -/
def effBr (target : Nat) (t : Tile) : Tile := { t with iss := { t.iss with ct := .jump target } }

def effBrz (s target : Nat) (t : Tile) : Tile :=
  if t.sreg s = 0#32 then effBr target t else t

def effBrnz (s target : Nat) (t : Tile) : Tile :=
  if t.sreg s = 0#32 then t else effBr target t

def effCall (s target : Nat) (t : Tile) : Tile :=
  effBr target (t.pend 1 (.sreg s (BitVec.ofNat 32 (t.iss.pc + 1))))

def effRet (s : Nat) (t : Tile) : Tile := effBr ((t.sreg s).toNat % 4096) t

/-- A loop with count N ≥ 1 is activated; with N = 0 the next bundle is end + 1 with the timing of a taken branch (R91). Either replaces a loop that the
counter holds (R94). -/
def effLoop (l count endPc : Nat) (t : Tile) : Tile :=
  if count = 0 then { t with iss := { t.iss with ct := .loopSkip l (endPc + 1) } }
  else { t with iss := { t.iss with ct := .loopOn l count endPc } }

def effLexit (l : Nat) (t : Tile) : Tile := { t with iss := { t.iss with ct := .loopOff l } }

/-- A met wait consumes its count (R33, R95). -/
def effWait (f count : Nat) (t : Tile) : Tile :=
  { t with r := { t.r with flags := Tab.put 0 t.r.flags f (t.flag f - count) } }

/-- `STEP_END` issues (R97): the tile issues no further bundle in the step, and an open block is discarded. -/
def effStepEnd (t : Tile) : Tile :=
  { t with iss := { t.iss with ct := .stop }, mx := { t.mx with blk := none } }

/-- Loop `l` set. -/
def Tile.setLoop (t : Tile) (l : Nat) (v : Loop) : Tile := { t with r := { t.r with loops := Tab.put Loop.zero t.r.loops l v } }

/-- Of the active loops that end at `pc`, the most recently activated. -/
def Tile.lastLoop (t : Tile) (pc : Nat) : Option Nat :=
  ([0, 1, 2, 3].filter (fun l => (t.loop l).active && (t.loop l).endPc == pc)).foldl
    (fun m l => match m with
      | none => some l
      | some k => if (t.loop k).order < (t.loop l).order then some l else some k) none

/-- The loop ends at a bundle (R92): from the most recently activated loop on, a loop with one pass left deactivates and the first with more decrements
and jumps. The first argument bounds the four loops. -/
def Tile.loopEnd (t : Tile) (pc : Nat) : Nat → Tile × Nat
  | 0 => (t, pc + 1)
  | n + 1 =>
    match t.lastLoop pc with
    | none => (t, pc + 1)
    | some l =>
      let v := t.loop l
      if 1 < v.remaining then (t.setLoop l { v with remaining := v.remaining - 1 }, v.start)
      else (t.setLoop l { v with active := false }).loopEnd pc n

/-- The next bundle after the one in issue (R89 to R93). A loop activated by this bundle is not yet active at its end. Where a loop of count 0 skips its body, another loop that ends
at this bundle keeps its count and stays active, as R93 has it for a taken branch (DESIGN CHOICE, log entry 118). -/
def Tile.nextBundle (t : Tile) : Tile :=
  let pc := t.iss.pc
  match t.iss.ct with
  | .stop => { t with iss := { t.iss with ct := .seq } }
  | .jump tgt => { t with iss := { t.iss with pc := tgt, bubble := 2, ct := .seq } }
  | .loopSkip l tgt =>
    let t1 := t.setLoop l { t.loop l with active := false }
    { t1 with iss := { t1.iss with pc := tgt, bubble := 2, ct := .seq } }
  | .loopOff l =>
    let t1 := t.setLoop l { t.loop l with active := false }
    let r := t1.loopEnd pc 4
    { r.1 with iss := { r.1.iss with pc := r.2, ct := .seq } }
  | .loopOn l count endPc =>
    let t0 := t.setLoop l { t.loop l with active := false }
    let r := t0.loopEnd pc 4
    let seq := r.1.r.loopSeq + 1
    let t1 := r.1.setLoop l ⟨true, count, pc + 1, endPc, seq⟩
    { t1 with r := { t1.r with loopSeq := seq }, iss := { t1.iss with pc := r.2, ct := .seq } }
  | .seq =>
    let r := t.loopEnd pc 4
    { r.1 with iss := { r.1.iss with pc := r.2 } }

/-- The bundle is held in a wait on a flag that an outstanding `BARRIER` of this tile names, and a freeze notice for that barrier's group is live (R135). A
unit below 256 is the unit of that group; `live` says of which groups a notice is live. -/
def Tile.barrierWait (t : Tile) (live : Nat → Bool) : Bool :=
  t.iss.held && isWait (t.syl 0) && t.st.barFlags.any (fun b => b.2.2 == fld (t.syl 0) 50 45 && decide (b.1 < 256) && live b.1)

/-- The fixed bounds that this cycle may not pass: a palette write 16 cycles after issue (R107), a residue check 64 cycles after the last K-step or 3 after
the result write (R49). -/
def Tile.boundsMet (t : Tile) : Bool :=
  t.iss.palw.all (fun w => decide (t.iss.cyc < w.at_ + 16))
    && t.mx.mxChecks.all (fun c => decide (t.iss.cyc < c.at_ + 64))
    && t.mx.vxChecks.all (fun c => decide (t.iss.cyc < c.at_ + 3))

/-- This period's execution cycle may end: its bundle has issued whole, or none issues in it (a hold, an empty cycle of a branch, no step, a stop). -/
def Tile.mayEnd (t : Tile) : Bool :=
  !t.commitDue && t.boundsMet &&
    (t.iss.issued == 255 || t.iss.stopped || !t.st.active
      || (t.iss.issued == 0 && (t.iss.held || decide (0 < t.iss.bubble))))
    && (!t.st.active || t.iss.stopped || decide (t.st.used < t.budgetLimit))

/-- The SU1 fill streams in this cycle unless another `LS1` operation used SU1 (R106). -/
def Tile.fillPaused (t : Tile) : Bool :=
  t.hasIssued 3 && decide (t.syl 3 ≠ 0) && decide (opOf (t.syl 3) ≠ 0x10)

/-- A period without an execution cycle: frozen, or the row is not active (R13). The flag unit starts a new period. -/
def Tile.frozenPeriod (t : Tile) : Tile :=
  let u := t.capFlags
  { u with
    mem := u.mem.newPeriod
    iss := { u.iss with dbgFreeze := false }
    blk := if t.st.active || t.st.startWait then { u.blk with frozen := min 0xFFFFFFFF (u.blk.frozen + 1) } else u.blk }

/-- Count the period against the budget where R135 counts it; at the limit the count holds (R136). `TILE_STEP_COUNT` has 24 bits: with `BUDGET` 0 the limit
is 2^24 periods, and the field then shows its highest value (DESIGN CHOICE, log entry 106). -/
def Tile.countPeriod (t : Tile) (live : Nat → Bool) : Tile :=
  if t.st.active && decide (t.st.used < t.budgetLimit) && !t.barrierWait live then
    { t with st := { t.st with used := t.st.used + 1, endPc := t.pcNow }, blk := { t.blk with stepCount := min (2 ^ 24 - 1) (t.st.used + 1) } }
  else t

/-- The end of the step on this tile: `STEP_END` issued in this period; a count that reaches the budget in it is a near miss (R136). -/
def Tile.endStep (t : Tile) : Tile :=
  { t with
    st := { t.st with active := false, ended := true }
    blk := if t.st.used = t.budgetLimit then { t.blk with nearMiss := satInc 16 t.blk.nearMiss } else t.blk }

/-- The activity of an execution cycle (R386): the stream bytes of its accesses, and the K-step, the vector and the transcendental operations of a bundle that issued whole. -/
def Tile.countCycle (t : Tile) : Tile :=
  let t1 := t.count 258 ((t.iss.acc.map (fun (x : Nat × Nat × Nat × Nat) => x.2.2.2)).sum)
  if t.iss.issued ≠ 255 then t1
  else
    let vx := [t.syl 5, t.syl 6].filter (· ≠ 0)
    let tr := (vx.filter (fun w => opOf w == 0x30)).length
    let t2 := if opOf (t.syl 4) = 0x01 then t1.count (fld (t.syl 4) 55 48) 1 else t1
    (t2.count 256 (vx.length - tr)).count 257 tr

/-- The end of one tile clock period. `run` says that the execution clock ran, `live` for which groups a freeze notice is live (R143). A debug grant's freeze begins at a bundle boundary
(R47). -/
def Tile.endPeriod (t : Tile) (tid : Nat) (run : Bool) (live : Nat → Bool) : Tile :=
  if !run || (t.iss.dbgFreeze && t.iss.issued == 0) then t.frozenPeriod
  else if !t.mayEnd then t
  else
    let ends := t.iss.issued == 255 && t.iss.ct == .stop
    let t1 := if t.fillPaused then t else t.fillCycle
    let t2 := ((t1.drainCycle tid).feedCycle).countCycle
    let t3 := t2.countPeriod live
    let t4 := t3.writeback.capFlags
    let t5 := if t.iss.issued = 255 then t4.nextBundle
      else { t4 with iss := { t4.iss with bubble := t4.iss.bubble - 1 } }
    let t5a := if t.iss.issued = 255 then { t5 with st := { t5.st with lastIssue := t5.st.used } } else t5
    let t6 := if ends then t5a.endStep else t5a
    { t6 with
      mem := t6.mem.newPeriod
      iss := { t6.iss with cyc := t6.iss.cyc + 1, issued := 0, acc := [], held := if t.iss.issued = 255 then false else t6.iss.held } }

end Sys2Proof.Machine
end

