-- ==== Sys2Proof/Machine/Ops.lean ====
section
/-!
DEFINITION. The operations over the whole state that the meanings share: time, the map of logical tiles (R39), the record of faults (R404, R405), row
wakes (R42 to R47), and the lift of a tile's operation to the state.
-/
namespace Sys2Proof.Machine

/-- The outcome of every meaning that has its effect. -/
abbrev Out1 := Host.Outcome State Fault Refusal

def ok (s : State) : Out1 := .next s

/-! ### Time (R144, R145) -/

/-- Move true time to `t` ticks after watch-domain power-up and let FT count with its rate correction. Time never goes back. Without `REFCLK_25` FT stands (R483). -/
def State.advance (s : State) (t : Nat) : State :=
  if t ≤ s.time.now then s
  else if s.pkg.refLost then { s with time := { s.time with now := t } }
  else
    let dt := t - s.time.now
    let x := (dt : Int) * (10 ^ 12 + s.time.rate) + (s.time.frac : Int)
    { s with time := { s.time with now := t, ft := s.time.ft + (x / 10 ^ 12).toNat, frac := (x % 10 ^ 12).toNat } }

/-- FT as it will stand `n` ticks from now at the present rate. -/
def State.ftIn (s : State) (n : Nat) : Nat :=
  if s.pkg.refLost then s.time.ft else s.time.ft + (((n : Int) * (10 ^ 12 + s.time.rate) + (s.time.frac : Int)) / 10 ^ 12).toNat

/-- Ticks of 0.25 ns in a microsecond and in a millisecond. -/
def us : Nat := 4000
def ms : Nat := 4000000

/-- The watch-clock cycle (50 MHz) of a time. -/
def watchCycle (t : Nat) : Nat := t / 80

/-! ### Logical and physical tiles (R39, R41) -/

def State.die (s : State) (d : Nat) : DieReg := Tab.get DieReg.reset s.net.dies d

def State.setDie (s : State) (d : Nat) (v : DieReg) : State := { s with net := { s.net with dies := Tab.set s.net.dies d v } }

/-- The physical row of a logical row with skipped row f (R39). -/
def physRow (f r : Nat) : Nat := if r < f then r else r + 1

/-- The logical row of a physical row, none for the skipped one. -/
def logRow (f p : Nat) : Option Nat := if p = f then none else if p < f then some p else some (p - 1)

/-- The physical tile index of a TID. -/
def State.ptiOf (s : State) (tid : Nat) : Nat :=
  let d := tid / 144
  d * 156 + physRow (s.die d).skipRow (tid % 144 / 12) * 12 + tid % 12

/-- The TID of a physical tile while a context is accepted. -/
def State.tidOf (s : State) (pti : Nat) : Option Nat :=
  let d := pti / 156
  match logRow (s.die d).skipRow (pti % 156 / 12) with
  | none => none
  | some r => if s.ctx.accepted then some (d * 144 + r * 12 + pti % 12) else none

def State.tile (s : State) (pti : Nat) : Tile := Tab.get Tile.reset s.tiles pti

/-- The row of a physical tile: die × 13 + physical row. -/
def rowOf (pti : Nat) : Nat := pti / 156 * 13 + pti % 156 / 12

def State.row (s : State) (r : Nat) : Row := Tab.get Row.reset s.rows r

def State.setRow (s : State) (r : Nat) (v : Row) : State := { s with rows := Tab.set s.rows r v }

def State.frozenDie (s : State) (d : Nat) : Bool := Tab.get false s.dieFrozen d

/-- The execution clock of a tile runs: its row is ACTIVE and its die is not frozen. A freeze begins at a bundle boundary, so a bundle of which a part has issued goes on to the end of
its period (R47, R382). -/
def State.runs (s : State) (pti : Nat) : Bool :=
  (s.row (rowOf pti)).power == 0 && (!s.frozenDie (pti / 156) || decide ((s.tile pti).iss.issued ≠ 0))

/-! ### Faults of the package (R404, R405, R422) -/

/-- A unit that a fault marks: an entry of its own, or the source joins the entry that the unit has (R345, R346); a lake row spared again has its new spare row there
(R217). -/
def State.markDefect (s : State) (kind location spare : Nat) : State :=
  let e : Defect := ⟨0, kind, 8, location, spare⟩
  if s.logs.defects.any e.same then { s with logs := { s.logs with defects := markIn e s.logs.defects } }
  else { s with logs := { s.logs with pendingDefects := markIn e s.logs.pendingDefects } }

/-- Location of a tile row in a defect entry (R346, kind 1). -/
def rowLocation (die row : Nat) : Nat := die + 4 * row

/-- The kill event of the log with the cause and origin that a fault of the same watch-clock cycle gives it (R409). -/
def recause (origin : Nat) : List EventEnt → List EventEnt
  | [] => []
  | e :: r => if e.event = 9 ∧ !r.any (fun x => x.event == 9) then { e with data := 1 + 2 ^ 16 * origin + e.data / 2 ^ 32 * 2 ^ 32 } :: r else e :: recause origin r

/-- Record a package fault: its `FAULTS` bit, the first-fault fields, the count, the fault log, and the kill it begins while a context is accepted and no kill
of it has begun (R405). A fault in the watch-clock cycle in which an `ABORT` began the kill takes its place as the cause (R409). -/
def State.recordFault (s : State) (bit : Nat) (kills : Bool) (stepId location detail : Nat) : State :=
  let f := s.faults
  let begins := kills && s.ctx.accepted && !s.ctx.killing && s.ctx.killDue == 0
  let joins := kills && s.ctx.killing && s.ctx.killCause == 2 && s.ctx.phase == 1 && s.time.now / 80 == s.ctx.tdStart / 80
  let f1 := { f with
    sticky := f.sticky ||| 2 ^ bit, count := satInc 32 f.count,
    firstFault := if f.firstFault = 0xFFFF then bit else f.firstFault,
    firstFt := if f.firstFault = 0xFFFF then s.time.ft else f.firstFt }
  let e : FaultEnt := ⟨s.time.ft, bit, begins || joins, s.ctx.gen, if s.ctx.accepted then s.ctx.id else 0, stepId, location, detail⟩
  { s with
    faults := f1
    logs := { s.logs with faults := s.logs.faults ++ [e], events := if joins then recause s.lpn s.logs.events else s.logs.events }
    ctx := if begins then { s.ctx with killDue := 1 } else if joins then { s.ctx with killCause := 1, abortOrigin := s.lpn, abortCtxId := s.ctx.id } else s.ctx }

/-- `TILE_FAULT` and `TILE_FAULT_INFO` as a 64-bit detail. -/
def faultDetail (b : TileBlk) : Nat :=
  b.fault + 2 ^ 32 * (b.faultPc + 2 ^ 12 * b.faultSlot + 2 ^ 15 * b2n b.precise + 2 ^ 16 * b.faultGen)

/-- A tile that raised `WATCHDOG` was stuck (R406): no bundle issued in its last 1,024 counted periods and nothing of R135 held it. -/
def Tile.stuck (t : Tile) : Bool := decide (t.st.lastIssue + 1024 ≤ t.st.used) && !t.iss.held

/-- Record at the package every fault that an operation of a tile has detected, one whose `TILE_FAULT` bit stood already among them (R52, R404, R405). -/
def State.recordTile (s : State) (pti : Nat) (t : Tile) : State :=
  ((List.range 13).flatMap (fun b => t.blk.raised.filter (· == b))).foldl (fun u b =>
    let tid := (u.tidOf pti).getD 0x3FF
    let step := if t.st.active || t.st.ended || t.st.startWait then t.st.stepId else 0xFFFF
    let u1 := u.recordFault 0 true step tid (faultDetail t.blk)
    let f := u1.faults
    let u2 := if f.firstTileFault = 0 then
        { u1 with faults := { f with firstTid := tid, firstTileFault := t.blk.fault, firstStepId := step } }
      else u1
    let marks := (decide (4 ≤ b) && decide (b ≤ 8)) || (b == 10 && t.stuck)
    if marks then u2.markDefect 1 (rowLocation (pti / 156) (pti % 156 / 12)) 0 else u2) s

/-- Put a tile back after an operation of its own: what it raised and corrected is recorded. -/
def State.putTile (s : State) (pti : Nat) (t : Tile) : State :=
  let old := s.tile pti
  let s1 := { s with tiles := Tab.set s.tiles pti { t with blk := { t.blk with raised := [] } }, faults := { s.faults with sbeTotal := s.faults.sbeTotal + (t.blk.sbe - old.blk.sbe) } }
  s1.recordTile pti t

/-- Apply a tile operation to the physical tile `pti`. -/
def State.onTile (s : State) (pti : Nat) (f : Tile → Tile) : State := s.putTile pti (f (s.tile pti))

/-- Apply a tile operation to the logical tile `tid` while a context is accepted; without one no tile answers to a TID (R41). -/
def State.onTid (s : State) (tid : Nat) (f : Tile → Tile) : State :=
  if s.ctx.accepted ∧ tid < 576 then s.onTile (s.ptiOf tid) f else s

/-! ### Barrier units (R139, R140) -/

def State.bar (s : State) (key : Nat) : BarUnit := Tab.get BarUnit.zero s.seq.bars key

/-- The instance the next `BARRIER` of a tile arrives at, and whether the unit can take it (R139, R140). -/
def Tile.nextBar (t : Tile) : Nat := t.st.base + t.st.arrivals

def State.barOk (s : State) (t : Tile) : Bool := decide (t.nextBar < (s.bar t.st.key).base + 4)

/-- The logical tile `tid`. -/
def State.ltile (s : State) (tid : Nat) : Tile := s.tile (s.ptiOf tid)

/-- Issue a syllable of a logical tile's bundle. -/
def State.issue (s : State) (tid slot w : Nat) (eff : Tile → Tile) : State :=
  s.onTid tid (fun t => t.issue (s.runs (s.ptiOf tid)) (s.barOk t) slot w eff)

/-- Issue a syllable that may hold its bundle (R87): where only the hold is in the way, the bundle is held from this cycle on. -/
def State.issueHold (s : State) (tid slot w : Nat) (eff : Tile → Tile) : State :=
  s.onTid tid (fun t => t.issueHold (s.runs (s.ptiOf tid)) (s.barOk t) slot w eff)

/-- Whether slot `slot` of tile `tid` issued between two states. -/
def issuedBetween (s s' : State) (tid slot : Nat) : Bool :=
  !(s.ltile tid).hasIssued slot && (s'.ltile tid).hasIssued slot

/-- Release a held bundle by its syllable in `slot`, which then issues (R95, R97, R120, R140). -/
def State.release (s : State) (tid slot : Nat) (sel : Nat → Bool) (eff : Nat → Tile → Tile) : State :=
  s.onTid tid (fun t => t.release (s.runs (s.ptiOf tid)) (s.barOk t) slot sel eff)

/-! ### Row wakes (R42, R45 to R47) -/

/-- Ticks of 0.25 ns from the wake request to ACTIVE: 64 tile clock periods (37.6 ns), 1.5 µs, 20 µs (R42). -/
def wakeTicks (power : Nat) : Nat := if power = 1 then 151 else if power = 2 then 6000 else if power = 3 then 80000 else 0

/-- A wake on demand or by a wake lead (R45, R46), which no power action holds (R381). `extra` is the wake time that the perturbation PT_CLK_START adds. -/
def State.wakeNow (s : State) (r extra : Nat) : State :=
  let w := s.row r
  if w.power = 0 ∨ w.wakeAt ≠ none ∨ r % 13 = (s.die (r / 13)).skipRow then s
  else s.setRow r { w with wakeAt := some (s.time.now + wakeTicks w.power + extra) }

/-- The physical tiles of a row. -/
def rowTiles (r : Nat) : List Nat := (List.range 12).map (fun c => r / 13 * 156 + r % 13 * 12 + c)

/-- A row with no active step and no pending start (R381). -/
def State.rowIdle (s : State) (r : Nat) : Bool :=
  (rowTiles r).all (fun p => !(s.tile p).st.active && !(s.tile p).st.startPending)

/-- The power manager holds a row as a power action: gated under R381, idle, on a die whose run fraction is 0 (R47). A `WAKE` in the watch-clock cycle of the
gating comes before it (R45). -/
def State.rowHeld (s : State) (r : Nat) : Bool :=
  let w := s.row r
  s.pw.run.getD (r / 13) 16 == 0 && s.rowIdle r && (w.power == 2 || (w.power == 1 && watchCycle s.time.now != watchCycle w.idleSince))

/-- A `WAKE` of a row (R45): of an ACTIVE one it only keeps the row from being lowered in the same watch-clock cycle; of one held as a power action it waits
(R47). -/
def State.wakeRow (s : State) (r extra : Nat) : State :=
  let w := s.row r
  if w.power = 0 then s.setRow r { w with wakeCyc := some (watchCycle s.time.now) }
  else if w.wakeAt = none ∧ r % 13 ≠ (s.die (r / 13)).skipRow ∧ s.rowHeld r then s.setRow r { w with deferred := true }
  else s.wakeNow r extra

/-- At a control-period boundary: a `WAKE` that a power action held back takes effect once the die's run fraction is above 0 (R47). -/
def State.wakeDeferred (s : State) (r extra : Nat) : State :=
  let w := s.row r
  if w.deferred && decide (0 < s.pw.run.getD (r / 13) 16) then (s.setRow r { w with deferred := false }).wakeNow r extra else s

end Sys2Proof.Machine
end

