-- ==== Sys2Proof/Machine/NetOps.lean ====
section
/-!
DEFINITION. The operations over packets that the meanings share: local addresses (R118, R179), the lake mapping (R192), endpoints and routes on a die network (R172 to R175),
bridges (R182), the header of a packet (R177), the answers (R178, R412), and the shared arbiters (R166 to R168).
-/
namespace Sys2Proof.Machine

/-! ### Local addresses -/

/-- The size of lake memory, 384 GiB: its local addresses end below 0x060_0000_0000. -/
def lakeEnd : Nat := 0x6000000000

/-- What a 41-bit local address names: lake, a byte of a tile's glaze slice or local store, or nothing (R119, R179). -/
inductive Region where
  | lake
  | glaze (tid off : Nat)
  | localStore (tid off : Nat)
  | none_
  deriving DecidableEq, Repr

def regionOf (a : Nat) : Region :=
  if a < lakeEnd then .lake
  else if 0x10000000000 ≤ a ∧ a < 0x10000000000 + 576 * 0x800000 then
    (if (a - 0x10000000000) % 0x800000 < 0x500000 then .glaze ((a - 0x10000000000) / 0x800000) ((a - 0x10000000000) % 0x800000) else .none_)
  else if 0x18000000000 ≤ a ∧ a < 0x18000000000 + 576 * 0x100000 then
    .localStore ((a - 0x18000000000) / 0x100000) ((a - 0x18000000000) % 0x100000)
  else .none_

/-- The region of a whole range, none where it leaves the region of its first byte. -/
def regionRange (a len : Nat) : Region :=
  match regionOf a with
  | .lake => if a + len ≤ lakeEnd then .lake else .none_
  | .glaze t o => if o + len ≤ 0x500000 then .glaze t o else .none_
  | .localStore t o => if o + len ≤ 0x100000 then .localStore t o else .none_
  | .none_ => .none_

/-! ### The lake mapping (R192) -/

/-- The interleave unit of modes 0 and 1. -/
def lakeUnit (mode : Nat) : Nat := if mode = 0 then 4096 else 65536

def lakeStack (mode a : Nat) : Nat := if mode = 2 then a / 0xC00000000 else a / lakeUnit mode % 8

/-- The offset within the stack. -/
def lakeSo (mode a : Nat) : Nat :=
  if mode = 2 then a % 0xC00000000 else a / (8 * lakeUnit mode) * lakeUnit mode + a % lakeUnit mode

/-- The local address of an offset in a stack. -/
def lakeUn (mode stack so : Nat) : Nat :=
  if mode = 2 then stack * 0xC00000000 + so else (so / lakeUnit mode * 8 + stack) * lakeUnit mode + so % lakeUnit mode

def soCh (so : Nat) : Nat := so / 256 % 32
def soCa (so : Nat) : Nat := so / 8192 * 256 + so % 256
def soBank (so : Nat) : Nat := soCa so / 2048 % 64
def soRow (so : Nat) : Nat := soCa so / 131072
def soCol (so : Nat) : Nat := soCa so % 2048

/-- The offset in a stack of a byte of a channel. -/
def chSo (ch ca : Nat) : Nat := ca / 256 * 8192 + ch * 256 + ca % 256

/-- The number of a row in its stack: (channel × 64 + bank) × 12,288 + row. -/
def rowKey (so : Nat) : Nat := (soCh so * 64 + soBank so) * 12288 + soRow so

/-- The stack a lake piece goes to: by R192, or beyond lake by R199. -/
def stackOf (mode a : Nat) : Nat := if a < lakeEnd then lakeStack mode a else a / 4096 % 8

/-! ### Endpoints and routes -/

def epLakeN : Nat := 0xC0
def epLakeS : Nat := 0xC1
def epB0 : Nat := 0xD0

/-- The first and the last router row that work: while a context is accepted the skipped row is powered off (R174). -/
def State.topRow (s : State) (d : Nat) : Nat := if s.ctx.accepted ∧ (s.die d).skipRow = 0 then 1 else 0
def State.bottomRow (s : State) (d : Nat) : Nat := if s.ctx.accepted ∧ (s.die d).skipRow = 12 then 11 else 12

/-- The exit column or row of an edge endpoint's packet: address bits [13:8] mod 12, a logical number (R175). -/
def edgePick (addr : Nat) : Nat := fld addr 13 8 % 12

/-- The router at which a packet of die `d` leaves the mesh, by its endpoint, its source router (for a tile source) or its address. -/
def State.exitOf (s : State) (d ep addr : Nat) (src : Option (Nat × Nat)) : Nat × Nat :=
  let f := (s.die d).skipRow
  let col := match src with
    | some rc => rc.2
    | none => edgePick addr
  let row := match src with
    | some rc => rc.1
    | none => physRow f (edgePick addr)
  if ep < 156 then (ep / 12, ep % 12)
  else if ep = epLakeN then (s.topRow d, col)
  else if ep = epLakeS then (s.bottomRow d, col)
  else if ep = epB0 then (row, 0)
  else (row, 11)

/-- The router at which an edge endpoint `src` injects a packet for endpoint `ep` (R175 rule 3). -/
def State.entryOf (s : State) (d src ep addr : Nat) : Nat × Nat :=
  let f := (s.die d).skipRow
  let toTile := decide (ep < 156)
  if src < 156 then (src / 12, src % 12)
  else if src = epLakeN then (s.topRow d, if toTile then ep % 12 else edgePick addr)
  else if src = epLakeS then (s.bottomRow d, if toTile then ep % 12 else edgePick addr)
  else if src = epB0 then (if toTile then ep / 12 else physRow f (edgePick addr), 0)
  else (if toTile then ep / 12 else physRow f (edgePick addr), 11)

/-- The planes a sender may use (R175 rule 4, R180). -/
def planesFor (src dst : Nat) (bcast : Bool) : List Nat :=
  let ns := fun e => e == epLakeN || e == epLakeS
  let we := fun e => e == 0xD0 || e == 0xD1
  if bcast || (we src && ns dst) then [0, 1]
  else if ns src && we dst then [2, 3]
  else [0, 1, 2, 3]

/-- The side of the mesh at which an endpoint's port lies, as the input of its router that a packet comes in by: 0 north, 1 east, 2 south, 3 west, 4 the tile itself. -/
def sideOf (ep : Nat) : Nat :=
  if ep < 156 then 4 else if ep = epLakeN then 0 else if ep = epLakeS then 2 else if ep = epB0 then 3 else 1

/-- The input of its router that holds a packet: a network input, local injection (4), or the edge port of a side (5 and up). -/
def Pkt.inPort (p : Pkt) : Nat := if p.inp < 4 then p.inp else if p.srcEp < 156 then 4 else 5 + sideOf p.srcEp

/-- The packets that one input of a router holds on a plane, each with its credit (R172); the copies of one branching (R180) count as one. With `least` 0 those that their sender has put on the plane and that
have not entered yet (no router input passed) count too. -/
def State.inputLoad (s : State) (d plane row col port least : Nat) : Nat :=
  ((s.net.pkts.filter (fun p => !p.inHub && !p.arrived && p.die == d && p.plane == plane && p.row == row && p.col == col && p.inPort == port && decide (least ≤ p.hops))).map
    (fun p => if p.kind = 0x05 then p.copyOf.getD p.id else p.id)).eraseDups.length

/-- A packet may enter an input of a router: a credit of the hop is free (R172). -/
def State.creditFree (s : State) (d plane row col port : Nat) : Bool := decide (s.inputLoad d plane row col port 1 ≤ Config.hopCredits)

/-- Of the planes a sender may use, the one with the most free credits of its injection, the lower-numbered on a tie (R175 rule 4). A packet that its sender has put on a plane counts from then on. -/
def State.pickPlane (s : State) (d row col src : Nat) (ps : List Nat) : Nat :=
  let port := if src < 156 then 4 else 5 + sideOf src
  let best := ps.foldl (fun m p =>
    match m with
    | none => some (p, s.inputLoad d p row col port 0)
    | some (q, n) => if s.inputLoad d p row col port 0 < n then some (p, s.inputLoad d p row col port 0) else some (q, n)) none
  match best with
  | some (p, _) => p
  | none => 0

/-! ### Sending and answering -/

/-- Whether a kind is a response (R176). -/
def isRsp (k : Nat) : Bool := k == 0x02 || k == 0x04 || k == 0x06 || k == 0x11 || k == 0x20 || k == 0x21

/-- The data beats of a packet (R178). -/
def beatsOf (p : Pkt) : Nat := (p.data.length + 15) / 16

def State.addPkt (s : State) (p : Pkt) : State :=
  { s with net := { s.net with pkts := s.net.pkts ++ [{ p with id := s.net.seq }], seq := s.net.seq + 1 } }

def State.pkt (s : State) (id : Nat) : Option Pkt := s.net.pkts.find? (fun p => p.id == id)

def State.setPkt (s : State) (p : Pkt) : State :=
  { s with net := { s.net with pkts := s.net.pkts.map (fun q => if q.id = p.id then p else q) } }

def State.delPkt (s : State) (id : Nat) : State :=
  { s with net := { s.net with pkts := s.net.pkts.filter (fun q => decide (q.id ≠ id)) } }

/-- Put a packet on the network of die `d` from endpoint `src` for endpoint `dst`. -/
def State.inject (s : State) (p : Pkt) (d src dst : Nat) : State :=
  let e := s.entryOf d src dst p.addr
  let srcTile := if src < 156 then some (src / 12, src % 12) else none
  let x := s.exitOf d dst p.addr srcTile
  let pl := s.pickPlane d e.1 e.2 src (planesFor src dst (p.kind == 0x05))
  s.addPkt { p with srcEp := src, dstEp := dst, inHub := false, die := d, plane := pl, row := e.1, col := e.2, trow := x.1, tcol := x.2,
                    hops := 0, arrived := false, inp := 4, copyOf := none, targets := [], made := 0 }

/-- The endpoint on its die that a destination names, and the die; none for an endpoint on an H-die. -/
def Dest.ep : Dest → Option (Nat × Nat)
  | .tile pti => some (pti / 156, pti % 156)
  | .lake st => some (st / 2, if st % 2 = 0 then epLakeN else epLakeS)
  | .hub _ => none

/-- The bridge endpoint of die `d` towards a destination on another die or H-die (R182): 0xD0 for H-die 0, 0xD1 for H-die 1. -/
def bridgeFor (dest : Dest) (addr : Nat) : Nat :=
  match dest with
  | .hub h => epB0 + h % 2
  | _ => if bitAt addr 8 then epB0 + 1 else epB0

/-- Send a packet from endpoint `src` of die `d` to its destination: over the die network to it, or to the bridge that carries it on. -/
def State.sendFrom (s : State) (p : Pkt) (d src : Nat) : State :=
  match p.dest.ep with
  | some (d', ep) => if d' = d then s.inject p d src ep else s.inject p d src (bridgeFor p.dest p.addr)
  | none => s.inject p d src (bridgeFor p.dest p.addr)

/-- The number of a bridge: die × 2 + H-die. -/
def bridgeNo (d ep : Nat) : Nat := d * 2 + (ep - epB0)

def State.bridge (s : State) (b : Nat) : List BrEnt := Tab.get [] s.net.bridges b

/-- The least entry number of a bridge that no request holds; a bridge gives the tag 512 × bridge + entry. -/
def freeSlot (b : Nat) (es : List BrEnt) : Nat → Nat → Nat
  | 0, k => k
  | n + 1, k => if es.any (fun e => e.tag == b * 512 + k) then freeSlot b es n (k + 1) else k

def State.setBridge (s : State) (b : Nat) (es : List BrEnt) : State := { s with net := { s.net with bridges := Tab.put [] s.net.bridges b es } }

/-- A request crosses a bridge inward: the bridge keeps its `SRC_EP` and `TAG` and puts its own tag in their place (R182). -/
def State.bridgeTake (s : State) (b : Nat) (p : Pkt) : State × Pkt :=
  let es := s.bridge b
  let k := freeSlot b es 512 0
  (s.setBridge b (es ++ [⟨b * 512 + k, p.srcEp, p.tag, p.asker, p.via⟩]), { p with tag := b * 512 + k, srcEp := epB0 + b % 2, via := b :: p.via })

/-- A response crosses the bridge that holds its request's entry: `SRC_EP` and `TAG` of the request are restored. -/
def State.bridgeGive (s : State) (b : Nat) (p : Pkt) : State × Pkt × Nat :=
  let es := s.bridge b
  match es.find? (fun e => e.tag == p.tag) with
  | some e => (s.setBridge b (es.filter (fun x => decide (x.tag ≠ p.tag))), { p with tag := e.origTag, asker := e.asker, via := e.via }, e.srcEp)
  | none => (s, { p with via := p.via.drop 1 }, 0)

/-- An answer to a request, without its place. The answer carries the request's tag and generation. -/
def Pkt.answer (q : Pkt) (kind : Nat) (ext : List Nat) (data : List Word) : Pkt :=
  { q with kind := kind, ext := ext, data := data, hops := 0, arrived := false, poisoned := false, dstEp := q.srcEp }

/-- Where an answer goes on: the bridge it has to cross next, or the asker. The answer leaves endpoint `src` of die `d`. -/
def State.reply (s : State) (q : Pkt) (d src kind : Nat) (ext : List Nat) (data : List Word) : State :=
  let a := q.answer kind ext data
  match q.via with
  | b :: _ =>
    if b / 2 = d then s.inject { a with dest := .hub (b % 2) } d src (epB0 + b % 2)
    else s.sendFrom { a with dest := .hub (b % 2) } d src
  | [] =>
    match q.asker with
    | .tile pti _ => s.sendFrom { a with dest := .tile pti } d src
    | _ => s.sendFrom { a with dest := .hub 0 } d src

/-- `GEN_NACK` word 4: `WHERE` and `RX_GEN`, 0xFFFF without an accepted context (R412). -/
def State.nackWord (s : State) (where_ : Nat) : Nat := (if s.ctx.genLive then s.ctx.gen else 0xFFFF) + where_ * 2 ^ 16

/-- The four header words 4 to 7, with word 4 given. -/
def ext4 (w : Nat) : List Nat := [w, 0, 0, 0]

/-! ### The header of a packet (R177) -/

def Pkt.extWord (p : Pkt) (i : Nat) : Nat := p.ext.getD i 0

/-- The 128-bit value of words 0 to 3. -/
def Pkt.header (p : Pkt) : Nat :=
  place p.addr 41 87 + place p.tag 16 65 + place p.srcEp 8 57 + place p.dstEp 8 49 + place p.words 7 42 + place p.gen 16 16
    + place (beatsOf p) 3 8 + place p.kind 8 0

/-- Word i of the packet: the header beat first, then the data beats. -/
def Pkt.word (p : Pkt) (i : Nat) : Nat :=
  if i < 4 then fld p.header (32 * i + 31) (32 * i)
  else if i < 8 then p.extWord (i - 4)
  else if i < 16 then 0
  else (p.data.getD (i - 16) 0#32).toNat

/-- The packet whose words 0 to 3 have become `h`. -/
def Pkt.setHeader (p : Pkt) (h : Nat) : Pkt :=
  { p with addr := fld h 127 87, tag := fld h 80 65, srcEp := fld h 64 57, dstEp := fld h 56 49, words := fld h 48 42, gen := fld h 31 16,
           kind := fld h 7 0 }

/-- Put a word that came out of a check other than it was sent in its place. -/
def Pkt.setWord (p : Pkt) (i v : Nat) : Pkt :=
  if i < 4 then p.setHeader (p.header - fld p.header (32 * i + 31) (32 * i) * 2 ^ (32 * i) + place v 32 (32 * i))
  else if i < 8 then { p with ext := p.ext.set (i - 4) (v % 2 ^ 32) }
  else if i < 16 then p
  else { p with data := p.data.set (i - 16) (BitVec.ofNat 32 v) }

/-- The outcome of a check of every word of a packet: the words corrected, whether a header word and whether a data word has a double-bit error, and
the packet with the words that came out: one with a double-bit error as received. -/
structure HopChk where
  fixedN : Nat
  badHdr : Bool
  badData : Bool
  p : Pkt
  deriving DecidableEq, Repr

/-- Check the words of a packet; `errs` names words with the bits flipped on this hop (39 bits, data lowest). Words not named arrive as sent. -/
def checkHop (p : Pkt) (errs : List (Nat × Nat)) : HopChk :=
  errs.foldl (fun h e =>
    if e.1 < 16 + 16 * beatsOf p then
      match eccCheck (h.p.word e.1) e.2 with
      | .ok v => { h with p := h.p.setWord e.1 v }
      | .fixed v => { h with fixedN := h.fixedN + 1, p := h.p.setWord e.1 v }
      | .dbe v => if e.1 < 16 then { h with badHdr := true, p := h.p.setWord e.1 v } else { h with badData := true, p := h.p.setWord e.1 v }
    else h) ⟨0, false, false, p⟩

/-- `DN_DBE_INFO` as a number. -/
def dnInfo (r : DieReg) : Nat :=
  b2n r.dbeValid + r.dbePlane * 2 + r.dbeLoc * 8 + b2n r.dbeHdr * 2 ^ 11 + r.dbeInput * 2 ^ 12 + r.dbeGen * 2 ^ 16

/-- Count and record what a check found at an input of a router or bridge (R184): single-bit errors in `DN_SBE_COUNT`, the first double-bit error in
`DN_DBE_INFO`, and the package fault `NET_DBE`. -/
def State.hopFound (s : State) (d plane loc input : Nat) (h : HopChk) : State :=
  let r := s.die d
  let r1 := { r with dnSbe := min 0xFFFF (r.dnSbe + h.fixedN) }
  let s1 := { s.setDie d r1 with faults := { s.faults with sbeTotal := s.faults.sbeTotal + h.fixedN } }
  if h.badHdr || h.badData then
    let r2 := if r1.dbeValid then r1
      else { r1 with dbeValid := true, dbePlane := plane, dbeLoc := loc, dbeHdr := h.badHdr, dbeInput := input, dbeGen := h.p.gen }
    (s1.setDie d r2).recordFault 1 true 0xFFFF (loc + d * 256) (dnInfo r2)
  else s1

/-! ### Arbiters (R166 to R168) -/

/-- The highest-ranked of the waiting requesters; rank 0 is the highest. -/
def bestRank : List (Nat × Nat × Nat) → Option (Nat × Nat × Nat)
  | [] => none
  | x :: r =>
    match bestRank r with
    | none => some x
    | some y => if y.1 < x.1 then some y else some x

/-- The longest-waiting of the waiting requesters, the higher-ranked on a tie. -/
def longestWait : List (Nat × Nat × Nat) → Option (Nat × Nat × Nat)
  | [] => none
  | x :: r =>
    match longestWait r with
    | none => some x
    | some y => if y.2.1 < x.2.1 ∨ (y.2.1 = x.2.1 ∧ y.1 < x.1) then some y else some x

/-- Whether grant k of an arbiter is a reserved grant. -/
def reservedGrant (n k : Nat) : Bool := k % n == n - 1

/-- The winner of an arbiter's next grant. -/
def Arb.winner (a : Arb) (n : Nat) : Option (Nat × Nat × Nat) :=
  if reservedGrant n a.grants then longestWait a.waiting else bestRank a.waiting

/-- Register a request; a requester has at most one. -/
def Arb.register (a : Arb) (rank cycle beats : Nat) : Arb :=
  if a.waiting.any (fun w => w.1 == rank) then a else { a with waiting := a.waiting ++ [(rank, cycle, beats)] }

/-- Decide the next grant: in the cycle of the last beat of the transfer in use, or when idle (R166). -/
def Arb.decide (a : Arb) (n : Nat) : Arb :=
  match a.winner n with
  | none => { a with inUse := none, beats := 0 }
  | some w =>
    { grants := a.grants + 1, waiting := a.waiting.filter (fun x => x.1 ≠ w.1), inUse := some w.1, beats := w.2.2 }

/-- The key of an arbiter: kind (0 router output port, 1 glaze bank, 2 lake channel, 3 link egress) and index. -/
def arbKey (kind idx : Nat) : Nat := kind * 2 ^ 32 + idx

/-- N of an arbiter kind (R170). -/
def arbN (kind : Nat) : Nat := if kind = 3 then 16 else 8

def State.arb (s : State) (kind idx : Nat) : Arb := Tab.get Arb.zero s.net.arbs (arbKey kind idx)

def State.setArb (s : State) (kind idx : Nat) (a : Arb) : State :=
  { s with net := { s.net with arbs := Tab.put Arb.zero s.net.arbs (arbKey kind idx) a } }

/-- A requester may use an arbiter's resource: its transfer is in use, or the arbiter is idle and decides for it (R166). -/
def State.mayUse (s : State) (kind idx rank : Nat) : Bool :=
  let a := s.arb kind idx
  match a.inUse with
  | none => ((a.register rank s.time.now 1).winner (arbN kind)).any (fun w => w.1 == rank)
  | some r => r == rank

/-- The transfer of a requester begins: the grant it holds, or the one that an idle arbiter decides as its request arrives (R166). -/
def Arb.start (a : Arb) (n rank cycle : Nat) : Arb := if a.inUse = some rank then a else (a.register rank cycle 1).decide n

/-- A requester's transfer begins on an arbiter. -/
def State.startGrant (s : State) (kind idx rank : Nat) : State := s.setArb kind idx ((s.arb kind idx).start (arbN kind) rank s.time.now)

/-- The last beat of the transfer in use: the arbiter decides its next grant (R166). -/
def State.endGrant (s : State) (kind idx : Nat) : State := s.setArb kind idx ((s.arb kind idx).decide (arbN kind))

/-- A whole transfer in one command (log entry 107). -/
def State.useGrant (s : State) (kind idx rank : Nat) : State := (s.startGrant kind idx rank).endGrant kind idx

/-- A requester that finds another's transfer in use registers its request, and waits (R166, R167). -/
def State.askGrant (s : State) (kind idx rank : Nat) : State := s.setArb kind idx ((s.arb kind idx).register rank s.time.now 1)

/-- The number of a router's output port: die, plane, router, and the output: by the input of the next router or the side of the edge port it leads to, 4 ejection. -/
def portIdx (d plane row col out : Nat) : Nat := (((d * 4 + plane) * 13 + row) * 12 + col) * 5 + out

/-- The rank of a router input for an output (R170): 0 the input continuing straight, then north, east, south, west, local injection. An edge port is the input of its side. -/
def Pkt.rankFor (p : Pkt) (out : Nat) : Nat :=
  let i := if p.inPort < 5 then p.inPort else p.inPort - 5
  if i < 4 ∧ i = out then 0 else 1 + i

/-- The output by which a packet leaves the mesh at its exit: ejection, or the edge port towards its endpoint's side. -/
def exitOut (ep : Nat) : Nat :=
  match sideOf ep with
  | 0 => 2
  | 1 => 3
  | 2 => 0
  | 3 => 1
  | _ => 4

/-- The ranks at a glaze bank (R170): die-network ejection, the owning tile's SU3, patrol scrub. -/
def rankEject : Nat := 0
def rankSu3 : Nat := 1
def rankScrub : Nat := 2

/-- Nothing more of this period's bundle can issue. -/
def Tile.settled (t : Tile) : Bool :=
  t.iss.issued == 255 || !t.st.active || (t.iss.issued == 0 && (t.iss.stopped || t.iss.held || decide (0 < t.iss.bubble)))

/-- The accesses that SU1's fill, SU2 and the drain make at the end of this period (R105, R112, R113): unit, space, address and length. -/
def Tile.ownAcc (t : Tile) : List (Nat × Nat × Int × Nat) :=
  (match t.mx.fill with
    | some f => if t.fillPaused then [] else [(1, f.space, (f.addr : Int), min 256 f.left)]
    | none => [])
  ++ (match t.mx.drain with
    | some d =>
      let r := t.iss.cyc - d.start
      (3, d.descA.space, alignDown (d.descA.addrAt ((d.descA.pos + r) % d.descA.total)) 64, if d.fmt = 0 then 512 else 16 * fmtWidth d.fmt)
        :: (if isMx d.fmt then [(3, d.descM.space, alignDown (d.descM.addrAt ((d.descM.pos + r) % d.descM.total)) 4, 4)] else [])
    | none => [])
  ++ (match t.mx.feed.newFeed with
    | some (d, pre) => [(2, d.space, alignDown d.addr 64 - (if pre then 64 else 0), 128)]
    | none =>
      let f := t.mx.feed
      if f.on && (decide (f.made < f.lat) || (f.stepNow && decide (f.start + f.lat ≤ t.iss.cyc))) then
        [(2, f.desc.space, alignDown f.desc.addr 64 - (if f.pre then 64 else 0), 128)]
      else [])

/-- The owning tile uses the glaze bank of byte `a` in this period. -/
def Tile.usesBank (t : Tile) (a : Nat) : Bool :=
  t.iss.acc.any (fun x => x.2.1 == 1 && (banks 1 x.2.2.1 x.2.2.2).contains (bankOf 1 a))
    || t.ownAcc.any (fun x => x.2.1 == 1 && inSpace 1 x.2.2.1 x.2.2.2 && (banks 1 x.2.2.1.toNat x.2.2.2).contains (bankOf 1 a))

/-- The cycle of a bank is free for the arbiter path (R163, R189): no zeroing has the bank to itself, and where the tile's clock runs its bundle has issued and none of SU0, SU1, SU2
and the drain uses the bank in the period. A debug grant freezes the tile. -/
def State.bankOpen (s : State) (pti a : Nat) : Bool :=
  let t := s.tile pti
  !(s.die (pti / 156)).zeroing && (!s.runs pti || (t.iss.dbgFreeze && t.iss.issued == 0) || (t.settled && !t.usesBank a))

/-- The arbiter index of the glaze bank of byte `a`. -/
def bankIdx (pti a : Nat) : Nat := pti * 40 + bankOf 1 a

/-- The beats of one access to a glaze slice, 64 bytes each at most: those that this command makes, in order, from the first whose bank cycle is free and whose bank is not granted to another
requester (R163, R164, R166). `n` bounds the beats; the answer holds the bytes moved so far. -/
def State.glazeBeats (s : State) (pti rank off len : Nat) : Nat → Nat → State × Nat
  | 0, done => (s, done)
  | n + 1, done =>
    if len ≤ done then (s, done)
    else
      let a := off + done
      if !s.bankOpen pti a then (s, done)
      else if !s.mayUse 1 (bankIdx pti a) rank then (s.askGrant 1 (bankIdx pti a) rank, done)
      else
        let m := min (len - done) (64 - a % 64)
        let s1 := s.startGrant 1 (bankIdx pti a) rank
        let s2 := if done + m = len ∨ (a + m) % 128 = 0 then s1.endGrant 1 (bankIdx pti a) else s1
        s2.glazeBeats pti rank off len n (done + m)

/-- The beats of an access, from `done` bytes on. -/
def State.glazeMove (s : State) (pti rank off len done : Nat) : State × Nat := s.glazeBeats pti rank off len (len / 64 + 2) done

/-- Every bank of a range is open to a requester now. -/
def State.bankFree (s : State) (pti a len rank : Nat) : Bool :=
  (List.range (len / 64 + 2)).all (fun k =>
    let b := (a / 64 + k) * 64
    decide (a + len ≤ b) || (s.bankOpen pti b && s.mayUse 1 (bankIdx pti b) rank))

/-- Bytes [lo, hi) of the list go to a space from `addr` on, through port X or the arbiter path. -/
def State.putBytes (s : State) (pti space addr : Nat) (bs : List Byte) (lo hi : Nat) : State :=
  s.onTile pti (fun t => t.writeX space (addr + lo) ((bs.take hi).drop lo))

/-- The debug port may access a glaze: at most once in 32 tile clock periods, 18.8 ns (R171). -/
def State.dbgMay (s : State) : Bool :=
  match s.net.dbgLast with
  | none => true
  | some a => decide (a + 76 ≤ s.time.now)

/-! ### Perturbation registers in effect (R458, R459) -/

/-- A perturbation register as in effect: the actions of 0x01 to 0x09 hold only in the on window while `PT_TIMER` is enabled. -/
def State.ptReg (s : State) (n : Nat) : Nat :=
  if n ≤ 9 ∧ bitAt (Tab.get 0 s.pert.eff 12) 3 ∧ !s.pert.on then 0 else Tab.get 0 s.pert.eff n

/-- The extra start time that `PT_CLK_START` adds for a class: 0 tile rows, 1 lake channels, 2 link octets. -/
def State.ptStart (s : State) (cls : Nat) : Nat :=
  let v := s.ptReg 9
  if fld v 1 0 = cls then fld v 11 2 * us else 0

/-! ### On-demand wakes (R46) -/

/-- A transfer arrives at a tile: whether its row is ACTIVE; where it is not, the tile wakes on demand and its late-wake counter increments once. -/
def State.tileReady (s : State) (pti : Nat) : State × Bool :=
  if (s.row (rowOf pti)).power = 0 then (s, true)
  else
    let t := s.tile pti
    let s1 := if t.st.wakeWait then s
      else { s with tiles := Tab.set s.tiles pti { t with st := { t.st with wakeWait := true }, blk := { t.blk with lateWake := satInc 16 t.blk.lateWake } } }
    (s1.wakeNow (rowOf pti) (s.ptStart 0), false)

end Sys2Proof.Machine
end

