-- ==== Sys2Proof/Machine/TileXfer.lean ====
section
/-!
DEFINITION. The transfer slot on one tile (R118 to R120): the fields of an `XF` syllable, the checks of R119, the requests an operation is cut into (R194, R197, R200, R204),
and the outstanding operations. The source bytes of an outgoing operation are read in its issue cycle; newer words may take their place (R122, log entry 25).
-/
namespace Sys2Proof.Machine

def xfF (w : Nat) : Nat := fld w 55 50
def xfA (w : Nat) : Nat := fld w 49 46
def xfSA (w : Nat) : Nat := fld w 45 41
def xfSB (w : Nat) : Nat := fld w 40 36
def xfFMT (w : Nat) : Nat := fld w 35 32
def xfROP (w : Nat) : Nat := fld w 31 30
def xfES (w : Nat) : Nat := fld w 29 26
/-- A `LEN` of 0 stands for 2^20. -/
def xfLEN (w : Nat) : Nat := if fld w 25 6 = 0 then 2 ^ 20 else fld w 25 6

def xfKind (w : Nat) : XfKind :=
  match opOf w with
  | 0x01 => .rd
  | 0x02 => .wr
  | 0x03 => .wrb
  | 0x08 => .red
  | 0x09 => .gath
  | 0x0A => .scat
  | 0x0B => .pdec
  | _ => .zero

/-- The opcode of an operation, for the fault log (R422). -/
def XfKind.opcode : XfKind → Nat
  | .rd => 0x01
  | .wr => 0x02
  | .wrb => 0x03
  | .red => 0x08
  | .gath => 0x09
  | .scat => 0x0A
  | .pdec => 0x0B
  | .zero => 0x0C

/-- The 56-bit global address in the scalar register pair from `n` on (R118). -/
def Tile.pairAddr (t : Tile) (n : Nat) : Nat := (t.sreg n).toNat + 2 ^ 32 * fld (t.sreg (n + 1)).toNat 23 0

/-- The LPN and the local part of a global address. -/
def lpnOf (g : Nat) : Nat := fld g 55 41
def localOf (g : Nat) : Nat := fld g 40 0

/-- The local bytes an operation covers. -/
def xfLocalBytes (w : Nat) : Nat :=
  match xfKind w with
  | .gath => xfLEN w * 2 ^ xfES w
  | .scat => xfLEN w * 2 ^ xfES w
  | .pdec => xfLEN w * (if xfFMT w = 3 then 64 else 128)
  | .zero => 0
  | _ => xfLEN w * 4

/-- The block position at or below an address of the lake P4 layout, as a block number 124 × unit + position (R200). -/
def p4Block (a : Nat) : Nat := 124 * (a / 4096) + min (a % 4096 / 33) 123

/-- The first byte of a block. -/
def p4Addr (b : Nat) : Nat := b / 124 * 4096 + b % 124 * 33

/-- The global range of an operation: its first local address and its length in bytes (R119). The range begins at the address itself; that of one element at the element (R197). -/
def Tile.xfExtent (t : Tile) (w : Nat) : Nat × Nat :=
  let a := localOf (t.pairAddr (xfSA w))
  match xfKind w with
  | .gath => (a / 2 ^ xfES w * 2 ^ xfES w, 2 ^ xfES w)
  | .scat => (a / 2 ^ xfES w * 2 ^ xfES w, 2 ^ xfES w)
  | .pdec => (p4Addr (p4Block a), p4Addr (p4Block a + xfLEN w - 1) + 33 - p4Addr (p4Block a))
  | _ => (a, 4 * xfLEN w)

/-- The space and offset of the index list (R118). -/
def Tile.xfIndex (t : Tile) (w : Nat) : Nat × Nat :=
  let b := (t.sreg (xfSB w)).toNat
  (fld b 24 24, fld b 22 0 / 4 * 4)

/-- The local address of the operation's first byte. -/
def Tile.xfLocal (t : Tile) (w : Nat) : Int := alignDown (t.desc (xfA w)).addr 4

/-- The checks of R119. -/
def Tile.xfInRange (t : Tile) (w : Nat) : Bool :=
  let k := xfKind w
  let loc := decide (k = .zero) || inSpace (t.desc (xfA w)).space (t.xfLocal w) (xfLocalBytes w)
  let idx := !(decide (k = .gath) || decide (k = .scat)) || inSpace (t.xfIndex w).1 ((t.xfIndex w).2 : Int) (4 * xfLEN w)
  let glob := match k with
    | .wrb => inSpace (fld (t.sreg (xfSB w)).toNat 24 24) (fld (t.sreg (xfSA w)).toNat 22 0 : Int) (4 * xfLEN w)
    | _ =>
      let e := t.xfExtent w
      let r := regionRange e.1 e.2
      if 8 ≤ opOf w then decide (r = .lake) else decide (r ≠ .none_)
  loc && idx && glob

/-- One request of an operation: its kind, local address, words, header words 4 to 7, the local bytes it carries (`src`), and the local bytes its answer writes (`dst`). -/
structure XfReq where
  kind : Nat
  addr : Nat
  words : Nat
  ext : List Nat
  src : Option (Nat × Nat × Nat)
  dst : Option (Nat × Nat × Nat)
  deriving DecidableEq, Repr

/-- Cut a range of words into requests of at most 64 words; where `al` holds, at 256 B boundaries of the address as well. The third argument bounds the number. -/
def cutWords (al : Bool) : Nat → Nat → Nat → Nat → List (Nat × Nat × Nat)
  | 0, _, _, _ => []
  | n + 1, a, off, left =>
    if left = 0 then []
    else
      let m := min left (if al then 64 - a % 256 / 4 else 64)
      (a, off, m) :: cutWords al n (a + 4 * m) (off + 4 * m) (left - m)

/-- Cut a zeroing range at 4 KiB boundaries (R204). -/
def cutZero : Nat → Nat → Nat → List (Nat × Nat)
  | 0, _, _ => []
  | n + 1, a, left =>
    if left = 0 then []
    else
      let m := min left (1024 - a % 4096 / 4)
      (a, m) :: cutZero n (a + 4 * m) (left - m)

/-- Cut a run of P4 blocks into pieces of consecutive blocks within one unit, at most `mx` (R200). -/
def cutBlocks (mx : Nat) : Nat → Nat → Nat → Nat → List (Nat × Nat × Nat)
  | 0, _, _, _ => []
  | n + 1, b, k, left =>
    if left = 0 then []
    else
      let m := min (min left mx) (124 - b % 124)
      (b, k, m) :: cutBlocks mx n (b + m) (k + m) (left - m)

/-- `LAKE_OP` word 4. -/
def lakeOp (lop fmt rop nblk idx : Nat) : Nat := lop + fmt * 2 ^ 8 + rop * 2 ^ 12 + nblk * 2 ^ 13 + idx * 2 ^ 16

/-- The requests of an operation, given the indices of `XGATH` and `XSCAT`; bits [1:0] of a global address and of the offset of `XWRB` are dropped (log entry 26). -/
def Tile.xfReqs (t : Tile) (w : Nat) (ix : List Nat) : List XfReq :=
  let sp := (t.desc (xfA w)).space
  let l := (t.xfLocal w).toNat
  let n := xfLEN w
  let e0 := (t.xfExtent w).1
  let e := e0 / 4 * 4
  let lake := decide (regionOf e = .lake)
  match xfKind w with
  | .rd => (cutWords lake (n + 1) e 0 n).map (fun c => ⟨0x01, c.1, c.2.2, [0, 0, 0, 0], none, some (sp, l + c.2.1, 4 * c.2.2)⟩)
  | .wr => (cutWords lake (n + 1) e 0 n).map (fun c => ⟨0x03, c.1, c.2.2, [0, 0, 0, 0], some (sp, l + c.2.1, 4 * c.2.2), none⟩)
  | .wrb =>
    let o := fld (t.sreg (xfSA w)).toNat 22 0 / 4 * 4
    let b := fld (t.sreg (xfSB w)).toNat 24 0
    (cutWords false (n + 1) o 0 n).map (fun c => ⟨0x05, c.1, c.2.2, ext4 b, some (sp, l + c.2.1, 4 * c.2.2), none⟩)
  | .red => (cutWords true (n + 1) e 0 n).map (fun c =>
      ⟨0x10, c.1, c.2.2, ext4 (lakeOp 0x01 (xfFMT w) (xfROP w % 2) 0 0), some (sp, l + c.2.1, 4 * c.2.2), none⟩)
  | .gath => (ix.zip (List.range n)).flatMap (fun jx =>
      let a := (e + jx.1 * 2 ^ xfES w) % 2 ^ 41
      (cutWords true (2 ^ xfES w) a 0 (2 ^ xfES w / 4)).map (fun c =>
        ⟨0x10, c.1, c.2.2, ext4 (lakeOp 0x03 0 0 0 1), none, some (sp, l + jx.2 * 2 ^ xfES w + c.2.1, 4 * c.2.2)⟩))
  | .scat => (ix.zip (List.range n)).flatMap (fun jx =>
      let a := (e + jx.1 * 2 ^ xfES w) % 2 ^ 41
      (cutWords true (2 ^ xfES w) a 0 (2 ^ xfES w / 4)).map (fun c =>
        ⟨0x10, c.1, c.2.2, ext4 (lakeOp 0x02 (xfFMT w) 0 0 1), some (sp, l + jx.2 * 2 ^ xfES w + c.2.1, 4 * c.2.2), none⟩))
  | .pdec =>
    let bb := if xfFMT w = 3 then 64 else 128
    let tab := localOf (t.pairAddr (xfSB w))
    (cutBlocks (256 / bb) (n + 1) (p4Block e0) 0 n).map (fun c =>
      ⟨0x10, p4Addr c.1, c.2.2 * bb / 4, [lakeOp 0x04 (xfFMT w) 0 c.2.2 0, 0, tab % 2 ^ 32, tab / 2 ^ 32], none,
        some (sp, l + c.2.1 * bb, c.2.2 * bb)⟩)
  | .zero => (cutZero (n + 1) e n).map (fun c => ⟨0x10, c.1, 0, [lakeOp 0x05 0 0 0 0, c.2 % 1024, 0, 0], none, none⟩)

/-- The words that an operation moves, by which R386 counts it. -/
def Tile.xfWords (t : Tile) (w : Nat) : Nat :=
  match xfKind w with
  | .gath => (xfLEN w * 2 ^ xfES w + 3) / 4
  | .scat => (xfLEN w * 2 ^ xfES w + 3) / 4
  | _ => ((t.xfExtent w).2 + 3) / 4

/-- The operation issues on its tile: the checks of R119, the descriptor's step, and the record of the operation. -/
def effXf (w : Nat) (t : Tile) : Tile :=
  let t1 := if xfKind w = .zero then t else t.advance (xfA w) 1
  if t.xfInRange w then
    let o : XfOp := ⟨t.iss.xfSeq, xfKind w, xfF w, t.blk.gen, 0, true⟩
    ({ t1 with iss := { t1.iss with xf := t1.iss.xf ++ [o], xfSeq := t1.iss.xfSeq + 1 } }).count 259 (t.xfWords w)
  else t1.raise .streamRange slotXF t1.pcNow true

/-- Change an outstanding operation. -/
def Tile.setOp (t : Tile) (id : Nat) (f : XfOp → XfOp) : Tile :=
  { t with iss := { t.iss with xf := t.iss.xf.map (fun o => if o.id = id then f o else o) } }

end Sys2Proof.Machine
end

