-- ==== Sys2Proof/Machine/Transfer.lean ====
section
/-!
DEFINITION. The meanings of the transfer slot (R118 to R124) and of the release of an `XF` operation held at the limit (R120).
-/
namespace Sys2Proof.Machine

/-! ### Reads through port X and the glaze arbiter path -/

/-- The first word of a checked range with a double-bit error. -/
def firstDbe : List Ecc → Nat → Option Nat
  | [], _ => none
  | w :: r, k => if w.isDbe then some k else firstDbe r (k + 1)

/-- A detail of `GLAZE_DBE_ADDR`. -/
def glazeInfo (r : DieReg) : Nat := b2n r.gdbeValid + b2n r.gdbeScrub * 2 + r.gdbeSlice * 4 + r.gdbeWord * 2 ^ 10

/-- A double-bit error found on the arbiter path of a glaze bank: recorded, and `GLAZE_DBE` raised (R185, R186). A scrub's finding raises it only while a context is accepted. -/
def State.glazeDbe (s : State) (pti word : Nat) (scrub : Bool) : State :=
  let d := pti / 156
  let r := s.die d
  let r1 := if r.gdbeValid then r else { r with gdbeValid := true, gdbeScrub := scrub, gdbeSlice := pti % 156, gdbeWord := word }
  let s1 := s.setDie d r1
  if scrub && !s.ctx.accepted then s1
  else (s1.recordFault 2 true 0xFFFF (pti % 156 + d * 256) (glazeInfo r1)).markDefect 1 (rowLocation d (pti % 156 / 12)) 0

/-- A read of n words from a tile's local store through port X (space 0) or its glaze slice through the arbiter path (space 1): the bytes, or none where a double-bit
error stops it (R185, R488). -/
def State.portRead (s : State) (pti space addr n : Nat) : State × Option (List Byte) :=
  let t := s.tile pti
  let ws := eccWords (t.memOf space) (t.flipsOf space) addr n
  let fixedN := (ws.filter Ecc.isFixed).length
  if space = 0 then
    let s1 := if fixedN = 0 then s else s.onTile pti (fun u => { u with blk := { u.blk with sbe := u.blk.sbe + fixedN } })
    if ws.any Ecc.isDbe then (s1.onTile pti (fun u => u.raise .dbeLocal slotCT u.pcNow false), none)
    else (s1, some (eccBytes ws))
  else
    let r := s.die (pti / 156)
    let s1 := if fixedN = 0 then s
      else { s.setDie (pti / 156) { r with glzSbe := min 0xFFFF (r.glzSbe + fixedN) } with
             faults := { s.faults with sbeTotal := s.faults.sbeTotal + fixedN } }
    match firstDbe ws 0 with
    | some k => (s1.glazeDbe pti (addr / 4 + k) false, none)
    | none => (s1, some (eccBytes ws))

/-- The words of a byte list. -/
def wordsOf (bs : List Byte) : List Word := (List.range (bs.length / 4)).map (fun j => wordAt bs j)

/-- Bytes of a list of words, little-endian. -/
def bytesOfWords (ws : List Word) : List Byte := ws.flatMap (fun w => leBytes 4 w.toNat)

/-! ### Requests -/

/-- The route table entry of an LPN (R272). -/
def State.route (s : State) (lpn : Nat) : Nat := Tab.get 0 s.st.routes lpn

def routeUns (e : Nat) : Nat := fld e 11 0
def routeOctet (e : Nat) : Nat := fld e 15 12
def routeSlots (e : Nat) : Nat := fld e 22 16
def routeValid (e : Nat) : Bool := bitAt e 23

/-- The H-die through which a tile's request for another LPN leaves: the one that holds its SCH octet (R265, R182). -/
def State.schHub (s : State) (lpn : Nat) : Nat :=
  let e := s.route lpn
  if routeValid e ∧ routeOctet e < 12 then routeOctet e / 6 else 0

/-- The destination of a request of kind `kind` for local address `a` of `lpn`. A window of this package is a physical tile by R39; a lake operation goes to a stack
whatever its address (R199). -/
def State.destOf (s : State) (kind lpn a : Nat) : Dest :=
  if lpn ≠ s.lpn then .hub (s.schHub lpn)
  else if kind = 0x10 then .lake (stackOf s.lake.mode a)
  else
    match regionOf a with
    | .glaze tid _ => .tile (s.ptiOf tid)
    | .localStore tid _ => .tile (s.ptiOf tid)
    | _ => .lake (stackOf s.lake.mode a)

/-- Send one request of a tile's operation. The `DST_EP` of a broadcast, which has no single destination, is 0 (DESIGN CHOICE, log entry 123). -/
def State.sendReq (s : State) (pti op lpn : Nat) (q : XfReq) (data : List Word) : State :=
  let t := s.tile pti
  let seq := t.iss.tagSeq
  let dst := q.dst.getD (0, 0, 0)
  let src := q.src.getD (0, 0, 0)
  let pc : XfPiece := ⟨seq, op, dst.1, dst.2.1, dst.2.2, src.1, src.2.1⟩
  let t1 := { t with iss := { t.iss with tagSeq := seq + 1, pieces := t.iss.pieces ++ [pc] } }
  let s1 := { s with tiles := Tab.set s.tiles pti t1 }
  let p : Pkt :=
    { id := 0, kind := q.kind, addr := q.addr, lpn := lpn, tag := seq % 2 ^ 16, srcEp := pti % 156, dstEp := 0, words := q.words, gen := t.blk.gen,
      genChk := true, ext := q.ext, data := data, asker := .tile pti seq, dest := s.destOf q.kind lpn q.addr, inHub := false, hub := 0, die := pti / 156,
      plane := 0, row := 0, col := 0, trow := 0, tcol := 0, hops := 0, arrived := false, poisoned := false, via := [], since := 0, inp := 4, copyOf := none }
  if q.kind = 0x05 then
    s1.addPkt { p with dest := .tile pti, row := pti % 156 / 12, col := pti % 12, trow := pti % 156 / 12, tcol := pti % 12,
                       plane := s1.pickPlane (pti / 156) (pti % 156 / 12) (pti % 12) (pti % 156) [0, 1] }
  else s1.sendFrom p (pti / 156) (pti % 156)

/-- Send the requests of an operation in turn. A source read that meets a double-bit error ends the operation without completing it (R488). -/
def State.sendReqs (s : State) (pti op lpn : Nat) : List XfReq → State
  | [] => s
  | q :: r =>
    match q.src with
    | none => (s.sendReq pti op lpn q []).sendReqs pti op lpn r
    | some (sp, a, n) =>
      match s.portRead pti sp a (n / 4) with
      | (s1, some bs) => (s1.sendReq pti op lpn q (wordsOf bs)).sendReqs pti op lpn r
      | (s1, none) => s1.onTile pti (fun t => t.setOp op (fun o => { o with failed := true }))

/-- The tile `pti` has issued the operation of syllable `w` in the state before, `t`: its requests go out. The index list of `XGATH` and `XSCAT` is read whole in
this cycle, which R122 leaves open (DESIGN CHOICE, log entry 25). -/
def State.sendXf (s : State) (pti : Nat) (t : Tile) (w : Nat) : State :=
  let op := t.iss.xfSeq
  let lpn := if xfKind w = .wrb then s.lpn else lpnOf (t.pairAddr (xfSA w))
  let go := fun (u : State) (ix : List Nat) =>
    let rs := t.xfReqs w ix
    (u.onTile pti (fun x => x.setOp op (fun o => { o with answers := rs.length, failed := false }))).sendReqs pti op lpn rs
  if xfKind w = .gath ∨ xfKind w = .scat then
    match s.portRead pti (t.xfIndex w).1 (t.xfIndex w).2 (xfLEN w) with
    | (s1, some bs) => go s1 ((wordsOf bs).map BitVec.toNat)
    | (s1, none) => s1
  else go s []

/-- Issue an `XF` syllable: on the tile, and its requests where it passed the checks of R119. -/
def State.issueXf (s : State) (tid w : Nat) : State :=
  let t := s.ltile tid
  let s1 := s.issueHold tid slotXF w (effXf w)
  if issuedBetween s s1 tid slotXF && t.xfInRange w then s1.sendXf (s.ptiOf tid) t w else s1

def execXrd (tid f a sa len : Nat) (s : State) : Out1 := ok (s.issueXf tid (encXF 0x01 f a sa 0 0 0 0 len))

def execXwr (tid f a sa len : Nat) (s : State) : Out1 := ok (s.issueXf tid (encXF 0x02 f a sa 0 0 0 0 len))

def execXwrb (tid f a sa sb len : Nat) (s : State) : Out1 := ok (s.issueXf tid (encXF 0x03 f a sa sb 0 0 0 len))

def execXred (tid f a sa fmt rop len : Nat) (s : State) : Out1 := ok (s.issueXf tid (encXF 0x08 f a sa 0 fmt rop 0 len))

def execXgath (tid f a sa sb es len : Nat) (s : State) : Out1 := ok (s.issueXf tid (encXF 0x09 f a sa sb 0 0 es len))

def execXscat (tid f a sa sb fmt es len : Nat) (s : State) : Out1 := ok (s.issueXf tid (encXF 0x0A f a sa sb fmt 0 es len))

def execXpdec (tid f a sa sb fmt len : Nat) (s : State) : Out1 := ok (s.issueXf tid (encXF 0x0B f a sa sb fmt 0 0 len))

def execXzero (tid f sa len : Nat) (s : State) : Out1 := ok (s.issueXf tid (encXF 0x0C f 0 sa 0 0 0 0 len))

/-- An operation held at the limit of 64 issues when one has completed (R120). -/
def execXfLimitRelease (tid : Nat) (s : State) : Out1 :=
  let t := s.ltile tid
  let w := t.syl slotXF
  let s1 := s.release tid slotXF (fun x => decide (x ≠ 0)) effXf
  ok (if issuedBetween s s1 tid slotXF && t.xfInRange w then s1.sendXf (s.ptiOf tid) t w else s1)

/-! ### The debug port at a tile's windows (R466) -/

/-- A debug access ends with a status and, for a read, data. -/
def State.dapEnd (s : State) (status : Nat) (data : Option Nat) : State := { s with jtag := { s.jtag with status := status, data := data.getD s.jtag.data } }

/-- The glaze's emergency requester takes its cycle: the owning tile freezes (R29, R171). -/
def State.dbgTake (s : State) (pti : Nat) : State :=
  let u := s.tile pti
  { s with tiles := Tab.set s.tiles pti { u with iss := { u.iss with dbgFreeze := true } }, net := { s.net with dbgLast := some s.time.now } }

/-- The window access under way is made where its row is `ACTIVE` (R46) and, at a glaze bank, the emergency requester may come: at most once in 32 tile clock periods (R171). Until then it waits. -/
def State.dapServe (s : State) : State :=
  match s.jtag.access with
  | none => s
  | some x =>
    match s.tileReady x.pti with
    | (s1, false) => s1
    | (s1, true) =>
      if x.space = 1 ∧ !s1.dbgMay then s1
      else
        let s2 := if x.space = 1 then s1.dbgTake x.pti else s1
        let s3 := { s2 with jtag := { s2.jtag with access := none } }
        match x.data with
        | some v => (s3.onTile x.pti (fun t => t.writeX x.space x.off (leBytes 4 v))).dapEnd 0 none
        | none =>
          match s3.portRead x.pti x.space x.off 1 with
          | (s4, some bs) => s4.dapEnd 0 (some (leNat bs))
          | (s4, none) => s4.dapEnd 4 none

end Sys2Proof.Machine
end

