-- ==== Sys2Proof/Machine/LinkOps.lean ====
section
/-!
DEFINITION. The operations over the Stoith links that the meanings share: slots and frames as bits (R250 to R258), the choice of a link (R265 to R268, R273, R274), the queues and
credits of an egress (R262), slot failover and handoff (R267 to R270), and training (R282 to R285).
-/
namespace Sys2Proof.Machine

def State.link (s : State) (l : Nat) : Link := Tab.get Link.reset s.st.links l

def State.setLink (s : State) (l : Nat) (v : Link) : State := { s with st := { s.st with links := Tab.set s.st.links l v } }

def State.octet (s : State) (o : Nat) : Octet := Tab.get Octet.reset s.st.octets o

def State.setOctet (s : State) (o : Nat) (v : Octet) : State := { s with st := { s.st with octets := Tab.set s.st.octets o v } }

/-- The link index that is the octet's spare position (R266). -/
def Octet.spareIdx (o : Octet) : Nat := if o.spare = 0xFE then 7 else o.spare

/-- The state codes of R281. -/
def lsDown : Nat := 0
def lsTrain : Nat := 1
def lsIdent : Nat := 2
def lsUp : Nat := 3
def lsMiswired : Nat := 4
def lsDegraded : Nat := 5
def lsSpareHeld : Nat := 6

/-- The link carries frames. -/
def Link.frames (k : Link) : Bool := k.state == 2 || k.state == 3 || k.state == 4 || k.state == 5 || k.state == 6

/-- The link carries UNS and MGT (R274, R276). -/
def Link.usable (k : Link) : Bool := k.state == 3 || k.state == 5 || k.state == 6

/-- The link carries an SCH slot: in `UP`, or in a fast retrain out of it (R281, R285). -/
def Link.carries_ (k : Link) : Bool := k.sch.isSome && (k.state == 3 || (k.state == 1 && k.fast && k.prev == 3))

/-- Links carry `PKT` slots (R280, R351): an image is accepted, and the package is not in a state from `BOOT` to `AWAIT_CONFIG`, in `NOT_READY` or in `FAILED`. -/
def State.carriesPkt (s : State) : Bool :=
  s.cfg.image.isSome && (s.pkg.under == psConf || s.pkg.under == psRun || s.pkg.under == psTear || s.pkg.under == psWatch)

/-- Take a word out of a list of numbers. -/
def nth (l : List Nat) (i : Nat) : Nat := l.getD i 0

/-! ### Slots as bits -/

/-- The kinds whose packets carry data beats (R178, R194). -/
def carriesData (kind ext4w : Nat) : Bool :=
  kind == 0x02 || kind == 0x03 || (kind == 0x10 && (fld ext4w 7 0 == 1 || fld ext4w 7 0 == 2)) || (kind == 0x11)

/-- The number of data flits of a packet. -/
def LPkt.flits (p : LPkt) : Nat := (p.data.length + 15) / 16

def paramOf (ext : List Nat) : Nat := nth ext 0 + nth ext 1 * 2 ^ 32 + nth ext 2 * 2 ^ 64 + (nth ext 3 % 2 ^ 31) * 2 ^ 96

def extOfParam (v : Nat) : List Nat := [fld v 31 0, fld v 63 32, fld v 95 64, fld v 126 96]

/-- The 256 bits of a slot (R253 to R258). -/
def Slot.bits : Slot → Nat
  | .pkt p =>
    place 1 4 252 + place p.tc 2 250 + place (b2n p.mir) 1 249 + place p.hops 4 245 + place p.dlpn 15 230 + place p.slpn 15 215 + place p.gen 16 199
      + place p.tag 16 183 + place p.words 7 176 + place p.addr 41 135 + place p.kind 8 127 + paramOf p.ext % 2 ^ 127
  | .mgt m =>
    place 3 4 252 + place m.mkind 8 244 + place (b2n m.bcast) 1 243 + place m.hops 4 239 + place m.dlpn 15 224 + place m.slpn 15 209
      + place m.gen 16 193 + m.arg % 2 ^ 192
  | .tim t =>
    place 4 4 252 + place t.tkind 2 250 + place t.tstate 3 247 + place t.hops 5 242 + place t.mlpn 15 227 + place t.seq 8 219 + place t.ta 64 128
      + place t.tb 64 64 + t.tai % 2 ^ 64
  | .ack q nak cr =>
    place 2 4 252 + place 0 4 248 + place q 12 236 + place (b2n nak) 1 235 + place (nth cr 0) 16 0 + place (nth cr 1) 16 16 + place (nth cr 2) 16 32
      + place (nth cr 3) 16 48 + place (nth cr 4) 16 64 + place (nth cr 5) 16 80
  | .ident b => place 2 4 252 + place 1 4 248 + b % 2 ^ 192
  | .handoffReq l => place 2 4 252 + place 2 4 248 + place l 7 240
  | .handoffRsp l e => place 2 4 252 + place 3 4 248 + place l 7 240 + place e 12 224
  | .retrain => place 2 4 252 + place 4 4 248

/-- What a slot's bits say: a slot, an empty slot or a link control of no listed kind, or a bad one, which is dropped and counted. -/
inductive SlotRx where
  | some_ (s : Slot)
  | empty
  | bad
  deriving DecidableEq, Repr

def pktKindOk (k : Nat) : Bool := k == 1 || k == 2 || k == 3 || k == 4 || k == 0x10 || k == 0x11 || k == 0x20 || k == 0x21

def mgtKindOk (k : Nat) : Bool := k == 1 || k == 2 || k == 0x10 || k == 0x11 || k == 0x12 || k == 0x20

def slotOf (v : Nat) : SlotRx :=
  match fld v 255 252 with
  | 0 => .empty
  | 1 =>
    if fld v 251 250 < 2 ∧ pktKindOk (fld v 134 127) then
      .some_ (.pkt { tc := fld v 251 250, mir := bitAt v 249, hops := fld v 248 245, dlpn := fld v 244 230, slpn := fld v 229 215, gen := fld v 214 199,
                     tag := fld v 198 183, words := fld v 182 176, addr := fld v 175 135, kind := fld v 134 127, ext := extOfParam (fld v 126 0), data := [] })
    else .bad
  | 2 =>
    match fld v 251 248 with
    | 0 => .some_ (.ack (fld v 247 236) (bitAt v 235) [fld v 15 0, fld v 31 16, fld v 47 32, fld v 63 48, fld v 79 64, fld v 95 80])
    | 1 => .some_ (.ident (fld v 191 0))
    | 2 => .some_ (.handoffReq (fld v 246 240))
    | 3 => .some_ (.handoffRsp (fld v 246 240) (fld v 235 224))
    | 4 => .some_ .retrain
    | _ => .empty
  | 3 =>
    if mgtKindOk (fld v 251 244) then
      .some_ (.mgt ⟨fld v 251 244, bitAt v 243, fld v 242 239, fld v 238 224, fld v 223 209, fld v 208 193, fld v 191 0⟩)
    else .bad
  | 4 =>
    if fld v 251 250 < 3 then
      .some_ (.tim ⟨fld v 251 250, fld v 249 247, fld v 246 242, fld v 241 227, fld v 226 219, fld v 191 128, fld v 127 64, fld v 63 0, none⟩)
    else .bad
  | _ => .bad

/-- Whether a slot is link control. -/
def Slot.isCtl : Slot → Bool
  | .pkt _ => false
  | .mgt _ => false
  | .tim _ => false
  | _ => true

/-- The credit pool of a slot (R262); 6 stands for none. -/
def Slot.pool : Slot → Nat
  | .pkt p => (if p.tc = 0 then 0 else 2) + (if isRsp p.kind then 1 else 0)
  | .mgt m => if m.mkind = 1 ∨ m.mkind = 2 then 6 else 4
  | .tim _ => 5
  | _ => 6

/-- The flits of a slot: its header flit and its data flits. -/
def Slot.flits : Slot → Nat
  | .pkt p => 1 + p.flits
  | _ => 1

/-- The rank of a slot at an egress arbiter (R265). -/
def Slot.rank : Slot → Nat
  | .tim _ => 0
  | .pkt p => if isRsp p.kind then (if p.tc = 0 then 2 else 3) else (if p.tc = 0 then 4 else 5)
  | _ => 1

/-! ### CRC-15 of a frame (R250) -/

/-- One bit into the CRC register. -/
def crcBit (c : Nat) (b : Bool) : Nat :=
  let top := bitAt c 14 ^^ b
  let c1 := (c * 2) % 2 ^ 15
  if top then c1 ^^^ 0x4599 else c1

/-- The bits hi−1 down to hi−n of a number into the register. -/
def crcBits (v : Nat) : Nat → Nat → Nat → Nat
  | 0, _, c => c
  | n + 1, hi, c => crcBits v n (hi - 1) (crcBit c (bitAt v (hi - 1)))

/-- The CRC over bits [5139:5135] and then [5119:0], most significant bit first. -/
def frameCrc (v : Nat) : Nat := crcBits v 5120 5120 (crcBits v 5 5140 0)

/-- The 5,140 bits of a frame (R250). -/
def Frame.bits (f : Frame) : Nat :=
  let body := f.flits.foldr (fun x n => x % 2 ^ 512 + 2 ^ 512 * n) 0 % 2 ^ 5120 + place f.ins 4 5135 + place (b2n f.rstart) 1 5139
  body + place (frameCrc body) 15 5120

/-- Sixteen words as a data flit, word 0 lowest (R254). -/
def flitOf (ws : List Word) : Nat := (ws.take 16).foldr (fun w n => w.toNat + 2 ^ 32 * n) 0

/-- The data flits of a packet. -/
def dataFlits : Nat → List Word → List Nat
  | 0, _ => []
  | n + 1, ws => flitOf ws :: dataFlits n (ws.drop 16)

/-- A slot that may ride in slot 1 of another packet's header flit (R254): a read request or an acknowledgement. -/
def Slot.rides : Slot → Bool
  | .pkt p => p.kind == 0x01 || p.kind == 0x04
  | _ => false

/-- A slot is a packet's. -/
def Slot.isPkt : Slot → Bool
  | .pkt _ => true
  | _ => false

/-- The flits of a slot that takes a header flit of its own: it is in slot 0, slot 1 is empty, and its data flits follow (R253). -/
def Slot.flitList (x : Slot) : List Nat :=
  x.bits :: (match x with
    | .pkt p => dataFlits p.flits p.data
    | _ => [])

/-- A filler frame that holds a link control slot (R251, R258). -/
def Frame.filler (x : Slot) : Frame := ⟨false, 15, x.bits :: List.replicate 9 0⟩

/-! ### Queues and credits -/

/-- Flits queued at a link's egress, emergency flits among them. -/
def Link.queued_ (k : Link) : Nat := k.tx.q.foldl (fun n e => n + e.slot.flits) k.tx.emq.length

/-- The time before which `PT_LINK_DELAY` holds a `PKT` or `MGT` slot at a link's egress. -/
def State.ptDelay (s : State) (l : Nat) : Nat :=
  let v := s.ptReg 1
  if fld v 6 0 = l ∨ fld v 6 0 = 127 then s.time.now + fld v 16 7 * 400 else 0

/-- Queue a slot at a link's egress; `arrival` is the link that the request of a response came on. One submitted while the output gate is closed is discarded (R430). -/
def State.queueFrom (s : State) (l : Nat) (slot : Slot) (sch arrival : Option Nat) : State :=
  let k := s.link l
  let nb := match slot with
    | .tim _ => 0
    | _ => s.ptDelay l
  if s.gate then s else s.setLink l { k with tx := { k.tx with q := k.tx.q ++ [⟨slot, slot.rank, s.time.now, sch, nb, arrival⟩] } }

def State.queueSlot (s : State) (l : Nat) (slot : Slot) (sch : Option Nat) : State := s.queueFrom l slot sch none

/-- Queue an emergency slot, `HEARTBEAT` or `ABORT` (R265). -/
def State.queueEm (s : State) (l : Nat) (m : Mgt) : State :=
  let k := s.link l
  if s.gate then s else s.setLink l { k with tx := { k.tx with emq := k.tx.emq ++ [m] } }

/-- The lane that frame `n` of a link travels on: n mod 2, or the surviving lane in `DEGRADED` (R252). -/
def Link.lane (k : Link) (n : Nat) : Nat := if k.state = 5 then k.solo.getD (n % 2) else n % 2

/-- Send a link control slot: outside the arbiter, in a filler frame (R260, R265). A link that carries no frames sends none (R281). -/
def State.sendCtl (s : State) (l : Nat) (slot : Slot) : State :=
  if !(s.link l).frames then s
  else { s with out := s.out ++ [.slot l slot, .frame l ((s.link l).lane (s.link l).tx.frames) (Frame.filler slot)] }

/-! ### Frames in the making, and replay (R250 to R253, R259, R260) -/

/-- What one frame takes on a link: 12.8 ns, twice that on one lane (R252), in whole ticks. -/
def Link.frameTicks (k : Link) (n : Nat) : Nat := (256 * (if k.state = 5 then 2 else 1) * n + 4) / 5

/-- The frame under construction is complete, with empty flits to the tenth, and enters the replay buffer. -/
def LinkTx.close (x : LinkTx) : LinkTx × Frame :=
  let f : Frame := ⟨x.rstart, x.curIns, x.cur ++ List.replicate (10 - x.cur.length) 0⟩
  ({ x with frames := x.frames + 1, rstart := false, cur := [], curIns := 0, hdr := none, buf := x.buf ++ [(f, 0)] }, f)

/-- The frame under construction leaves. -/
def State.closeFrame (s : State) (l : Nat) : State :=
  let k := s.link l
  let r := k.tx.close
  let s1 := s.setLink l { k with tx := r.1 }
  { s1 with out := s1.out ++ [.frame l (k.lane k.tx.frames) r.2] }

/-- A frame under construction leaves when its time on the link has come; the closed output gate holds it (R286). -/
def State.flushTx (s : State) (l : Nat) : State :=
  let k := s.link l
  if !s.gate ∧ !k.tx.cur.isEmpty ∧ k.tx.curAt + k.frameTicks 1 ≤ s.time.now then s.closeFrame l else s

/-- A flit takes the next place of the frame under construction; the tenth completes it. -/
def State.placeFlit (s : State) (l f : Nat) : State :=
  let k := s.link l
  let x := k.tx
  let s0 := { s with st := { s.st with flits := s.st.flits + 1 } }
  let s1 := s0.setLink l { k with tx := { x with cur := x.cur ++ [f], curAt := if x.cur.isEmpty then s.time.now else x.curAt, curFt := if x.cur.isEmpty then s.time.ft else x.curFt } }
  if 10 ≤ x.cur.length + 1 then s1.closeFrame l else s1

/-- The frames that are outstanding (R260), the one under construction among them. -/
def LinkTx.outstanding (x : LinkTx) : Nat := x.buf.length + b2n (!x.cur.isEmpty)

/-- A packet or slot lies in one frame: where its flits do not all fit in the frame under construction, that one leaves first, filled up with empty flits. So every frame begins
with a header flit, the first one of a replay as well (R253; DESIGN CHOICE, log entry 32). -/
def State.alignFrame (s : State) (l n : Nat) : State := if !(s.link l).tx.cur.isEmpty ∧ 10 < (s.link l).tx.cur.length + n then s.closeFrame l else s

/-- A slot takes slot 1 of the header flit at place `h` of the frame under construction (R254). -/
def State.rideSlot (s : State) (l h : Nat) (x : Slot) : State :=
  let k := s.link l
  s.setLink l { k with tx := { k.tx with cur := k.tx.cur.modify h (fun f => f + 2 ^ 256 * x.bits), hdr := none } }

/-- A slot takes the next flits of the frame under construction; slot 1 of a packet's header flit stays free while the frame does not leave. -/
def State.placeSlot (s : State) (l : Nat) (x : Slot) : State :=
  let s1 := s.alignFrame l x.flits
  let h := (s1.link l).tx.cur.length
  let s2 := x.flitList.foldl (fun (u : State) f => u.placeFlit l f) s1
  let k := s2.link l
  if x.isPkt ∧ !k.tx.cur.isEmpty then s2.setLink l { k with tx := { k.tx with hdr := some h } } else s2

/-- The place that a slot finds in slot 1 of another packet's header flit. -/
def LinkTx.ride (x : LinkTx) (slot : Slot) : Option Nat := if slot.rides then x.hdr else none

/-- Room for `n` flits: in the frame under construction, or in another one while fewer than 256 are outstanding (R260). -/
def LinkTx.roomFor (x : LinkTx) (n : Nat) : Bool := (!x.cur.isEmpty && decide (x.cur.length + n ≤ 10)) || decide (x.outstanding < 256)

/-- The number of the frame that took the last flit. -/
def LinkTx.lastFrame (x : LinkTx) : Nat := if x.cur.isEmpty then x.frames - 1 else x.frames

/-! ### What a link knows of fabric time (R147) -/

def State.timLink (s : State) (l : Nat) : TimLink := Tab.get TimLink.zero s.time.links l

def State.setTim (s : State) (l : Nat) (v : TimLink) : State := { s with time := { s.time with links := Tab.set s.time.links l v } }

/-- The time stamp of a slot in a frame whose first symbol crosses the lands at FT `ft` (R257): t1 of a `SYNC`, t3 of a `DREQ`. -/
def State.timStamp (s : State) (l : Nat) (x : Slot) (ft : Nat) : State :=
  match x with
  | .tim v =>
    if v.tkind = 0 then s.setTim l { s.timLink l with t1 := ft, t1Seq := v.seq }
    else if v.tkind = 1 then s.setTim l { s.timLink l with t3 := ft }
    else s
  | _ => s

/-- The stamps of the slots in the frames `a` to `a` + `n` − 1, which cross the lands one after another from now on. -/
def State.restamp (s : State) (l a n : Nat) : State :=
  let k := s.link l
  (k.tx.sent.filter (fun e => decide (a ≤ e.last) && decide (e.last < a + n))).foldl (fun (u : State) e => u.timStamp l e.ent.slot (s.ftIn (k.frameTicks (e.last - a)))) s

/-- The output gate opens: a frame under construction that it held begins to leave, and the time without an `ACK` counts from here, as no frame could be resent (R261, R286; log entry 110). -/
def State.linkResume (s : State) (l : Nat) : State :=
  let k := s.link l
  let s1 := s.setLink l { k with tx := { k.tx with ackAt := s.time.now, curAt := s.time.now, curFt := s.time.ft } }
  if k.tx.cur.isEmpty then s1 else s1.restamp l k.tx.frames 1

/-- Every frame of the replay buffer is sent again in order, as it was stored but for `RSTART` in the first (R259, R265). The time stamps of the slots in them are taken again (R257). -/
def State.replay (s : State) (l : Nat) : State :=
  let k := s.link l
  let x := k.tx
  if s.gate ∨ x.buf.isEmpty then s
  else
    let again := (List.range x.buf.length).map (fun i =>
      match x.buf[i]? with
      | some (f, _) => Out.frame l (k.lane (x.acked + i)) { f with rstart := i == 0 }
      | none => Out.frame l 0 ⟨false, 15, []⟩)
    let s1 := s.setLink l { k with
      replays := satInc 16 k.replays, tx := { x with buf := x.buf.map (fun e => (e.1, e.2 + 1)), replayTo := s.time.now + k.frameTicks x.buf.length } }
    ({ s1 with out := s1.out ++ again }).restamp l x.acked x.buf.length

/-- The links of the package. -/
def allLinks : List Nat := List.range 96

/-- Send a broadcast `MGT` slot on every usable link but one (R276, R277). -/
def State.broadcast (s : State) (m : Mgt) (but : Option Nat) : State :=
  (allLinks.filter (fun l => (s.link l).usable && but != some l)).foldl
    (fun u l => if m.mkind = 1 ∨ m.mkind = 2 then u.queueEm l m else u.queueSlot l (.mgt m) none) s

/-! ### Choosing a link (R266 to R268, R273, R274) -/

/-- The link that carries traffic of slot `sl` of octet `o`: the slot's own link while it is `UP` or in a fast retrain, else by R268 the link of the next slot that
has one in `UP`. -/
def State.schCarrier (s : State) (o sl : Nat) : Option Nat :=
  let oc := s.octet o
  let at_ := fun j => 8 * o + nth oc.slots ((sl + j) % 7)
  let own := s.link (at_ 0)
  if own.state = 3 ∨ (own.state = 1 ∧ own.fast ∧ own.prev = 3) then some (at_ 0)
  else ((List.range 6).map (fun j => at_ (j + 1))).find? (fun l => (s.link l).state == 3)

/-- The slots of an entry as a list (R273). -/
def routeSlotList (e : Nat) : List Nat := bitsOf 7 (routeSlots e)

/-- A link for UNS traffic or a unicast `MGT` slot: of the eligible links of the octets in `mask`, the one with the fewest flits queued, the lowest number on a tie (R274). -/
def State.unsLink (s : State) (mask : Nat) (mir : Bool) : Option Nat :=
  let ls := allLinks.filter (fun l => bitAt mask (l / 8) && (s.link l).usable && (mir || (s.link l).claim ≠ 2))
  ls.foldl (fun m l =>
    match m with
    | none => some l
    | some b => if (s.link l).queued_ < (s.link b).queued_ then some l else some b) none

/-- Count an unreachable packet at the H-die that R274 names. -/
def State.countUnreach (s : State) (lpn : Nat) (sch : Bool) : State :=
  let e := s.route lpn
  let o := if sch then routeOctet e else (bitsOf 12 (routeUns e)).headD 0
  let h := if routeValid e then (if o < 6 then 0 else 1) else 0
  { s with st := { s.st with unreach := Tab.set s.st.unreach h (satInc 16 (Tab.get 0 s.st.unreach h)) } }

/-- The link a packet for `dlpn` takes, and its slot for SCH; `pick` is what selects the slot (R273). -/
def State.linkFor (s : State) (dlpn : Nat) (sch mir : Bool) (pick : Nat) : Option (Nat × Option Nat) :=
  let e := s.route dlpn
  if !routeValid e then none
  else if sch then
    let ls := routeSlotList e
    if ls.isEmpty ∨ 12 ≤ routeOctet e then none
    else
      let sl := nth ls (pick % ls.length)
      match s.schCarrier (routeOctet e) sl with
      | some l => some (l, some sl)
      | none => none
  else
    match s.unsLink (routeUns e) mir with
    | some l => some (l, none)
    | none => none

/-- Send a request packet; none where no link reaches its `DLPN` (R274). -/
def State.sendRemote (s : State) (p : LPkt) (tid : Nat) : Option State :=
  match s.linkFor p.dlpn (p.tc == 0) p.mir (tid + fld p.addr 16 8) with
  | some (l, sl) => some (s.queueSlot l (.pkt p) sl)
  | none => none

/-- Send a response packet: by the entry for the request's `SLPN`, else on the link the request arrived on where that may carry it, else it is dropped and
counted (R273). -/
def State.sendRsp (s : State) (p : LPkt) (arrival : Nat) : State :=
  match s.linkFor p.dlpn (p.tc == 0) p.mir p.tag with
  | some (l, sl) => s.queueFrom l (.pkt p) sl (some arrival)
  | none =>
    let k := s.link arrival
    if k.state = 3 ∨ (p.tc = 1 ∧ (k.state = 5 ∨ k.state = 6)) then s.queueFrom arrival (.pkt p) none (some arrival)
    else s.countUnreach p.dlpn (p.tc == 0)

/-- Send a unicast `MGT` slot; one that no link reaches is dropped and counted (R274). -/
def State.sendMgt (s : State) (m : Mgt) : State :=
  match s.linkFor m.dlpn false false 0 with
  | some (l, _) => if m.mkind = 1 then s.queueEm l m else s.queueSlot l (.mgt m) none
  | none => s.countUnreach m.dlpn false

/-! ### Requests and answers in the H-die fabric -/

/-- The `PKT` form of a die-network packet. A `LAKE_DONE` that returns no data (R194) has no data words, so no data flits follow it (log entry 109). -/
def State.toLink (s : State) (p : Pkt) (tc : Nat) (mir : Bool) (dlpn tag : Nat) : LPkt :=
  { tc := tc, mir := mir, hops := 0, dlpn := dlpn, slpn := s.lpn, gen := p.gen, tag := tag,
    words := if p.kind = 0x11 then p.data.length else p.words, addr := p.addr, kind := p.kind, ext := p.ext, data := p.data }

/-- An answer has reached the H-dies: a link's request is answered on Stoith, but for a poisoned one, which no slot can mark and which is dropped (R184, log entry 108); other askers find it here; one that belongs to a tile goes on through its bridge. -/
def State.hubAnswer (s : State) (a : Pkt) : State :=
  match a.via, a.asker with
  | [], .link l tag slpn tc mir => if a.poisoned then s else s.sendRsp (s.toLink { a with tag := tag } tc mir slpn tag) l
  | [], _ => s.addPkt { a with inHub := true, arrived := true }
  | _ :: _, _ => s.addPkt { a with inHub := true, arrived := false }

/-- An error answer made in the H-dies. -/
def State.hubError (s : State) (q : Pkt) (code : Nat) : State := s.hubAnswer (q.answer 0x21 (ext4 code) [])

/-- A request of a tile or a DMA channel for another package leaves, or is answered `UNREACHABLE` (R272, R274). A tile's traffic is SCH, other traffic UNS (R265). A poisoned
one is dropped: none of its words may be written (R184, log entry 108). -/
def State.hubOut (s : State) (q : Pkt) (mir : Bool) : State :=
  if q.poisoned then s else
  let tc := match q.asker with
    | .tile _ _ => 0
    | _ => 1
  let tid := match q.asker with
    | .tile pti _ => (s.tidOf pti).getD 0
    | _ => 0
  match s.sendRemote (s.toLink q tc mir q.lpn q.tag) tid with
  | some s1 => s1
  | none => (s.countUnreach q.lpn (tc == 0)).hubError q 0x0004

/-- The bytes of lake, glaze or local store that a request names. -/
def Pkt.extent (p : Pkt) : Nat :=
  let w4 := p.extWord 0
  if p.kind = 0x10 ∧ fld w4 7 0 = 4 then 33 * fld w4 15 13
  else if p.kind = 0x10 ∧ fld w4 7 0 = 5 then 4 * (if fld (p.extWord 1) 10 0 = 0 then 1024 else fld (p.extWord 1) 10 0)
  else 4 * p.words

/-- The first address of the loader window and its length (R363). -/
def loaderBase : Nat := 0x1F090000000
def loaderLen : Nat := 0x40100

/-- A request of this package's H-dies or of another package is translated (R179, R195, R199): on to its stack or tile, or answered. -/
def State.hubIn (s : State) (q : Pkt) : State :=
  let toLake := s.addPkt { q with inHub := true, arrived := false, dest := .lake (stackOf s.lake.mode q.addr) }
  let w4 := q.extWord 0
  if q.kind = 0x10 ∧ (fld w4 7 0 = 2 ∨ fld w4 7 0 = 3) ∧ lakeEnd ≤ q.addr then toLake
  else if loaderBase ≤ q.addr ∧ q.addr + q.extent ≤ loaderBase + loaderLen ∧ q.kind = 0x03 then
    s.addPkt { q with inHub := true, arrived := true, dest := .hub 0 }
  else
    match regionRange q.addr q.extent with
    | .lake => toLake
    | .glaze tid _ =>
      if q.kind = 0x10 then s.hubError q 0x0001
      else if !s.ctx.accepted then (if q.genChk then s.hubAnswer (q.answer 0x20 (ext4 (s.nackWord 1)) []) else s.hubError q 0x0001)
      else s.addPkt { q with inHub := true, arrived := false, dest := .tile (s.ptiOf tid) }
    | .localStore tid _ =>
      if q.kind = 0x10 then s.hubError q 0x0001
      else if !s.ctx.accepted then (if q.genChk then s.hubAnswer (q.answer 0x20 (ext4 (s.nackWord 1)) []) else s.hubError q 0x0001)
      else s.addPkt { q with inHub := true, arrived := false, dest := .tile (s.ptiOf tid) }
    | .none_ => s.hubError q 0x0001

/-- A unit is in the defect union: fuses, flash list, BIST of this boot, and what waits to be written (R345). -/
def State.defective (s : State) (kind location : Nat) : Bool :=
  (s.logs.fuses ++ s.logs.defects ++ s.logs.bist ++ s.logs.pendingDefects).any (fun d => d.kind == kind && d.location == location)

/-! ### Failover and handoff (R267 to R270) -/

/-- An event log entry (R421); source 5 is the package itself. -/
def State.event (s : State) (code source data : Nat) : State :=
  { s with logs := { s.logs with events := s.logs.events ++ [⟨s.time.ft, code, source, data⟩] } }

/-- A near miss of a timer that has no counter (R417). -/
def State.nearMissEvent (s : State) (timer : Nat) : State := s.event 0x0010 5 timer

/-- A packet carries the generation `g`. -/
def Slot.hasGen (g : Nat) : Slot → Bool
  | .pkt p => p.gen == g
  | _ => false

/-- A request that has left for Stoith is answered `UNREACHABLE` in the H-dies (R274): the answer goes to whoever its tag names. -/
def State.answerUnreach (s : State) (p : LPkt) : State :=
  let q : Pkt :=
    { id := 0, kind := 0x21, addr := p.addr, lpn := s.lpn, tag := p.tag, srcEp := 0, dstEp := 0, words := p.words, gen := p.gen, genChk := true,
      ext := ext4 0x0004, data := [], asker := .loader, dest := .hub 0, inHub := true, hub := 0,
      die := 0, plane := 0, row := 0, col := 0, trow := 0, tcol := 0, hops := 0, arrived := true, poisoned := false, via := [], since := 0, inp := 4, copyOf := none }
  if p.tag < 0x1000 then
    match (s.bridge (p.tag / 512)).find? (fun e => e.tag == p.tag) with
    | some e => s.addPkt { q with asker := e.asker, via := [p.tag / 512], arrived := false }
    | none => s
  else if p.tag < 0x5000 then s.addPkt { q with asker := .dma ((p.tag - 0x1000) / 1024) }
  else s.addPkt q

/-- Requeue a UNS packet or unicast `MGT` slot that no longer has a link (R270). A request that no link reaches is answered here (R274), a response is tried on the link its request
arrived on (R273); a broadcast slot is discarded. -/
def State.relink (s : State) (e : QEnt) : State :=
  match e.slot with
  | .pkt p =>
    if isRsp p.kind then
      (match e.arrival with
       | some a => s.sendRsp p a
       | none =>
         match s.linkFor p.dlpn false p.mir p.tag with
         | some (l, _) => s.queueSlot l e.slot none
         | none => s.countUnreach p.dlpn false)
    else
      (match s.sendRemote p 0 with
       | some s1 => s1
       | none => (s.countUnreach p.dlpn false).answerUnreach p)
  | .mgt m => if m.bcast then s else s.sendMgt m
  | _ => s

/-- A failed link's transmit side after its handoff: no frame is outstanding, the next one is number `n` and carries `RSTART`, and only `TIM` waits, which goes on this link alone
(R265; log entry 110). -/
def LinkTx.handedOff (x : LinkTx) (n : Nat) : LinkTx :=
  { x with frames := n, acked := n, rstart := true, cur := [], curIns := 0, hdr := none, buf := [], sent := [], q := x.q.filter (fun e => e.rank == 0), emq := [],
           credit := [0, 0, 0, 0, 0, 0], used := [0, 0, 0, 0, 0, 0] }

/-- Nothing of a failed link's traffic can move: what was in frames and its SCH packets are discarded, its UNS and `MGT` traffic is given a link again, and `LINK_LOST` is
raised where a discarded one carried the current generation (R270). -/
def State.handoffFail (s : State) (l : Nat) : State :=
  let k := s.link l
  let gone := k.tx.sent.map (fun x => x.ent) ++ k.tx.q.filter (fun e => e.rank == 2 || e.rank == 4)
  let again := k.tx.q.filter (fun e => e.rank == 1 || e.rank == 3 || e.rank == 5)
  let s1 := s.setLink l { k with handoff := none, tx := k.tx.handedOff k.tx.acked }
  let s2 := again.foldl (fun u e => u.relink e) s1
  if s.ctx.genLive && gone.any (fun e => e.slot.hasGen s.ctx.gen) then s2.recordFault 4 true 0xFFFF l 0 else s2

/-- Start the handoff of a failed link's traffic on another link of its octet, or end it at once where there is none (R269, R270). -/
def State.handoffStart (s : State) (l : Nat) (tgt : Option Nat) : State :=
  match tgt with
  | some g =>
    let k := s.link l
    let s1 := s.setLink l { k with handoff := some (g, s.time.now), handoffs := satInc 8 k.handoffs }
    ({ s1 with st := { s1.st with handoffs := (s1.st.handoffs + 1) % 2 ^ 32 } }).sendCtl g (.handoffReq l)
  | none => s.handoffFail l

/-- SCH slot `sl` of octet `o` moves to the octet's spare, which enters `UP`; link `l` is the spare position from then on (R267). -/
def State.moveSlot (s : State) (o sl l : Nat) : State :=
  let oc := s.octet o
  let sp := 8 * o + oc.spareIdx
  let s1 := s.setOctet o { oc with spare := l % 8, slots := oc.slots.set sl oc.spare }
  let s2 := s1.setLink l { s1.link l with sch := none }
  s2.setLink sp { s2.link sp with state := 3, sch := some sl }

/-- The octet has a healthy spare for its SCH slots. -/
def State.spareReady (s : State) (o : Nat) : Bool :=
  let oc := s.octet o
  let k := s.link (8 * o + oc.spareIdx)
  oc.spare != 0xFE && k.state == 6 && k.claim != 2

/-- A link has failed (R267, R268): its SCH slot goes to a healthy octet spare, or to the octet's other slot links, and a handoff of its traffic starts. -/
def State.linkFailed (s : State) (l : Nat) : State :=
  let o := l / 8
  let oc := s.octet o
  let k := s.link l
  match k.sch with
  | some sl =>
    if s.spareReady o then (s.moveSlot o sl l).handoffStart l (some (8 * o + oc.spareIdx))
    else
      let s1 := s.setOctet o { oc with short := true }
      s1.handoffStart l (s1.schCarrier o sl)
  | none =>
    match k.wasSch with
    | some sl => (s.setLink l { k with wasSch := none }).handoffStart l (s.schCarrier o sl)
    | none => s.handoffStart l (((List.range 8).map (fun i => 8 * o + i)).find? (fun x => x ≠ l && ((s.link x).state == 3 || (s.link x).state == 6)))

/-- Whether going `DOWN` is a failure that R267 to R270 handle: of a link that carried traffic, or of one that still holds an SCH slot. -/
def Link.failsDown (k : Link) : Bool :=
  let st := if k.state == 1 && k.fast then k.prev else k.state
  st == 3 || st == 5 || st == 6 || (st == 4 && k.sch.isSome)

/-! ### The parent of fabric time (R148, R149) -/

/-- Ticks of 250 µs and of 62.5 µs. -/
def timTimeout : Nat := 250 * us
def timPeriod : Nat := 250000

/-- The configured time master LPN. -/
def State.master (s : State) : Option Nat :=
  match s.cfg.image with
  | some im => if im.timeMaster < 32768 then some im.timeMaster else none
  | none => none

/-- The far end of a link is a usable parent by what its last TIM told (R148). -/
def State.timUsable (s : State) (l : Nat) : Bool :=
  let v := s.timLink l
  v.known && (v.tstate == 2 || v.tstate == 3 || v.tstate == 5) && some v.mlpn == s.master && decide (v.hops ≤ 30)

/-- The parent has sent a TIM within 250 µs, counted from its choice where that is later (R148). -/
def State.timHeardLately (s : State) (l : Nat) : Bool := decide (watchCycle s.time.now ≤ watchCycle (max (s.timLink l).lastAt s.time.parentAt + timTimeout))

/-- The usable far end with the lowest hop count on a link that is `UP` (R147), the lowest link number on a tie (R148). -/
def State.bestParent (s : State) : Option Nat :=
  (allLinks.filter (fun l => (s.link l).state == 3 && s.timUsable l)).foldl (fun m l =>
    match m with
    | none => some l
    | some b => if (s.timLink l).hops < (s.timLink b).hops then some l else some b) none

/-- The parent becomes link `l`: a package without a context acquires, one in holdover with a context passes to `TIME_SLEW`, unless a conflict keeps it in holdover
(R146, R149). FT is to be set once for an acquisition: a change of parent within `TIME_ACQUIRE` sets it no second time (DESIGN CHOICE, log entry 130). -/
def State.takeParent (s : State) (l : Nat) : State :=
  let x := s.time
  let st := if !s.ctx.accepted then (if x.tstate = 2 then 2 else 1) else if x.tstate = 4 ∧ !x.holdConflict then 3 else x.tstate
  { s with time := { x with
    parent := l, parentAt := x.now, hops := (s.timLink l).hops + 1, tstate := st, good := if st = x.tstate then x.good else 0, bad := 0,
    setDue := x.setDue || (st == 1 && x.tstate != 1), holdConflict := if s.ctx.accepted then x.holdConflict else false, noParent := none } }

/-- Lose the parent: the best usable far end takes its place at once (R148); with none the package has had no usable parent since `since`. -/
def State.reparent (s : State) (since : Nat) : State :=
  match s.bestParent with
  | some l => s.takeParent l
  | none => { s with time := { s.time with parent := 0x7F, noParent := some since, good := 0, bad := 0 } }

/-- A link has gone `DOWN`: what its far end told is known no longer, and a parent on it is lost (R148, R154). -/
def State.timDown (s : State) (l : Nat) : State :=
  let s1 := { s with time := { s.time with links := s.time.links.map (fun e => if e.1 = l then (e.1, { e.2 with known := false, conflict := false, measAt := none }) else e) } }
  if s1.time.parent = l ∧ s1.time.tstate ≠ 5 then s1.reparent s1.time.now else s1

/-- A link leaves service for full training (R284, R285): `DOWN`, its lanes without lock, and a training to start. -/
def State.linkDown (s : State) (l retry : Nat) : State :=
  let k := s.link l
  let s1 := s.setLink l { k with state := 0, prev := k.state, lane0 := false, lane1 := false, fast := false, phase := 0, retryAt := some retry, planMismatch := false }
  let s2 := s1.timDown l
  if k.failsDown then s2.linkFailed l else s2

/-- The pool sizes of a link's tier (R262, R263). -/
def defaultPools : List Nat := [1280, 1280, 640, 640, 128, 128]

def State.pools (s : State) (l : Nat) : List Nat :=
  let tier := if l < 64 then 0 else if l < 88 then 1 else 2
  match s.cfg.image with
  | none => defaultPools
  | some im => im.pools.getD tier defaultPools

/-- A fast retrain starts (R285): not within 1 s of a completed one, which leads to full training. Codeword lock is to be gained again; the frame under construction is kept for the
replay. -/
def State.fastStart (s : State) (l : Nat) : State :=
  let k := s.link l
  if !(k.usable || k.state == 2 || k.state == 4) then s
  else
    let again := match k.lastFast with
      | some t => decide (s.time.now < t + 1000 * ms)
      | none => false
    if again then s.linkDown l s.time.now
    else s.setLink l { k with
      state := 1, prev := k.state, lane0 := false, lane1 := false, tx := if k.tx.cur.isEmpty then k.tx else k.tx.close.1, fast := true, fastAt := s.time.now + s.ptStart 2, fastRetrains := satInc 8 k.fastRetrains }

/-- The link layer starts afresh, or a fast retrain ends: credits are initialised with the full pools (R282, R285). -/
def Link.creditInit (k : Link) (pools : List Nat) : Link :=
  { k with
    tx := { k.tx with credit := [0, 0, 0, 0, 0, 0], used := [0, 0, 0, 0, 0, 0] }
    rx := { k.rx with freed := pools, held := [0, 0, 0, 0, 0, 0] } }

/-- Free n credits of a pool at the receiver, of which `PT_CREDIT_HOLD` withholds some (R262, R459). -/
def State.freeCredit (s : State) (l p n : Nat) : State :=
  if 5 < p then s
  else
    let k := s.link l
    let v := s.ptReg 2
    let want := if (fld v 6 0 = l ∨ fld v 6 0 = 127) ∧ fld v 9 7 = p then fld v 22 10 else 0
    let h := nth k.rx.held p
    let h' := if want ≤ h then want else min want (h + n)
    s.setLink l { k with rx := { k.rx with freed := k.rx.freed.set p ((nth k.rx.freed p + n + h - h') % 65536), held := k.rx.held.set p h' } }

/-- Take the first received slot that `f` accepts, an emergency slot first, and free its credits. -/
def State.takeRx (s : State) (l : Nat) (f : Slot → Bool) : Option (Slot × State) :=
  let k := s.link l
  match k.rx.em.find? (fun m => f (.mgt m)), k.rx.q.find? f with
  | some m, _ => some (.mgt m, s.setLink l { k with rx := { k.rx with em := k.rx.em.erase m } })
  | none, none => none
  | none, some x =>
    let s1 := s.setLink l { k with rx := { k.rx with q := k.rx.q.erase x } }
    some (x, s1.freeCredit l x.pool x.flits)

end Sys2Proof.Machine
end

