-- ==== Sys2Proof/Machine/Network.lean ====
section
/-!
DEFINITION. The meanings of the die network, the bridges, the tile endpoints and the package edge (R177 to R185, R272, R275, R280, R412), the shared arbiters (R166 to R168), the
glaze scrub (R186), the tile scrub (R51) and writes to a bundle store (R36). `id` names a packet in flight.
-/
namespace Sys2Proof.Machine

/-! ### Hops and bridges -/

/-- One step of a packet along its plane's route (R175): the next router and the input at which it arrives there. The skipped row is passed by its bypass link (R174). -/
def State.nextHop (s : State) (p : Pkt) : Nat × Nat × Nat :=
  let f := (s.die p.die).skipRow
  let colMove := if p.tcol < p.col then (p.row, p.col - 1, 1) else (p.row, p.col + 1, 3)
  let down := if s.ctx.accepted ∧ p.row + 1 = f then p.row + 2 else p.row + 1
  let up := if s.ctx.accepted ∧ p.row = f + 1 then p.row - 2 else p.row - 1
  let rowMove := if p.trow < p.row then (up, p.col, 2) else (down, p.col, 0)
  if p.plane < 2 then (if p.col ≠ p.tcol then colMove else rowMove) else (if p.row ≠ p.trow then rowMove else colMove)

/-- A request that carries bytes of its tile: until it has left the network each word is the one read at issue or a newer one of its local source, which of them is
a free value (R122, log entry 25). -/
def State.freshSrc (s : State) (p : Pkt) : Pkt :=
  match p.asker with
  | .tile pti seq =>
    if isRsp p.kind then p
    else
      match (s.tile pti).iss.pieces.find? (fun c => c.tag == seq) with
      | none => p
      | some c =>
        { p with data := p.data.zipIdx.map (fun x =>
            if Config.srcNew pti seq p.hops x.2 then BitVec.ofNat 32 (Mem.le ((s.tile pti).memOf c.srcSpace) (c.srcAddr + 4 * x.2) 4) else x.1) }
  | _ => p

/-! ### Broadcast (R180, R181) -/

/-- A write into the bundle store of a tile: refused while a step is active on it (R36). -/
def Tile.writeBundles (t : Tile) (a : Nat) (bs : List Byte) : Option Tile :=
  if t.st.active then none
  else some { t with
    mem := { t.mem with bundles := Mem.store t.mem.bundles a bs, bundleFlips := clearFlips t.mem.bundleFlips a bs.length }
    iss := { t.iss with bundleValid := true } }

/-- The physical tiles that a broadcast on die `d` names. -/
def State.bcastTiles (s : State) (d w : Nat) : List Nat :=
  (bitsOf 12 (fld w 11 0)).flatMap (fun r => (bitsOf 12 (fld w 23 12)).map (fun c => d * 156 + physRow (s.die d).skipRow r * 12 + c))

/-- The one answer that a branching router makes of the answers of its branches (R180): the lowest `ERR_RESP` code first, then `GEN_NACK`, then the `BCAST_ACK` with the number that
refused. -/
def combine (as : List (Nat × Nat)) : Nat × Nat :=
  match as.filter (fun a => a.1 == 0x21) with
  | e :: r => (0x21, r.foldl (fun m a => min m a.2) e.2)
  | [] =>
    match as.find? (fun a => a.1 == 0x20) with
    | some a => a
    | none => (0x06, (as.map Prod.snd).sum)

/-- A branch of a broadcast at the router of `p`: the copy that goes on to the tiles `ts`, next to the router `row`, `col`, where it branches again. -/
def State.branchTo (s : State) (p : Pkt) (x : List Nat × Nat × Nat) : State := s.addPkt { p with copyOf := some p.id, targets := x.1, trow := x.2.1, tcol := x.2.2, arrived := false }

/-- The branches at a router of a broadcast's way (R180): west and east along the row of the source, up and down a column of the mask, each with the nearest router at which it turns or
delivers. -/
def branches (p : Pkt) (ts : List Nat) : List (List Nat × Nat × Nat) :=
  let row := fun (t : Nat) => t % 156 / 12
  let west := ts.filter (fun t => decide (t % 12 < p.col))
  let east := ts.filter (fun t => decide (p.col < t % 12))
  let up := ts.filter (fun t => t % 12 == p.col && decide (row t < p.row))
  let down := ts.filter (fun t => t % 12 == p.col && decide (p.row < row t))
  [(west, p.row, (west.map (· % 12)).foldl max 0), (east, p.row, (east.map (· % 12)).foldl min 11), (up, (up.map row).foldl max 0, p.col), (down, (down.map row).foldl min 12, p.col)].filter
    (fun x => !x.1.isEmpty)

/-- The broadcast branches at its router: the copies go on, and one is delivered where the tile of the router is named. -/
def State.bcastBranch (s : State) (p : Pkt) : State :=
  let here := p.targets.filter (fun t => t % 156 == p.row * 12 + p.col)
  let bs := branches p p.targets
  let s1 := s.delPkt p.id
  let s2 := { s1 with net := { s1.net with bcasts := s1.net.bcasts ++ [⟨p, bs.length + here.length, []⟩] } }
  here.foldl (fun u t => u.addPkt { p with copyOf := some p.id, targets := [], dest := .tile t, trow := p.row, tcol := p.col, arrived := false }) (bs.foldl (fun u x => u.branchTo p x) s2)

/-- An answer leaves the router of `p`: for the branching it came from, or for the source of the broadcast. -/
def State.bcastBack (s : State) (p : Pkt) (a : Nat × Nat) : State :=
  match p.copyOf with
  | none => s.reply p p.die p.srcEp a.1 (ext4 a.2) []
  | some g =>
    match s.net.bcasts.find? (fun b => b.pkt.id == g) with
    | none => s
    | some b =>
      s.addPkt { p.answer a.1 (ext4 a.2) [] with targets := [], copyOf := some g, srcEp := p.row * 12 + p.col, trow := b.pkt.row, tcol := b.pkt.col, inp := 4 }

/-- A branch of branching `g` answers `a`; the last answer makes the one that goes back. The third argument bounds the branchings at one router. -/
def State.bcastGot (s : State) (g : Nat) (a : Nat × Nat) : Nat → State
  | 0 => s
  | n + 1 =>
    match s.net.bcasts.find? (fun b => b.pkt.id == g) with
    | none => s
    | some b =>
      let b1 : Bcast := { b with left := b.left - 1, answers := b.answers ++ [a] }
      if b1.left = 0 then
        let s1 := { s with net := { s.net with bcasts := s.net.bcasts.filter (fun x => decide (x.pkt.id ≠ g)) } }
        match b.pkt.copyOf with
        | none => s1.bcastBack b.pkt (combine b1.answers)
        | some h =>
          if s1.net.bcasts.any (fun x => x.pkt.id == h && x.pkt.row == b.pkt.row && x.pkt.col == b.pkt.col) then s1.bcastGot h (combine b1.answers) n
          else s1.bcastBack b.pkt (combine b1.answers)
      else { s with net := { s.net with bcasts := s.net.bcasts.map (fun x => if x.pkt.id = g then b1 else x) } }

/-- What a packet of a broadcast does at the router it has come to: a copy branches where its way turns or delivers, and an answer combines at its branching. Other packets go on. -/
def State.bcastTurn (s : State) (p : Pkt) : State :=
  match p.copyOf with
  | none => s
  | some g =>
    if p.row ≠ p.trow ∨ p.col ≠ p.tcol then s
    else if isRsp p.kind then (s.delPkt p.id).bcastGot g (p.kind, p.extWord 0) 4
    else if p.targets.isEmpty then s
    else s.bcastBranch p

/-! ### A hop -/

/-- A packet is at the router where it leaves the mesh. -/
def Pkt.atExit (p : Pkt) : Bool := p.hops != 0 && p.row == p.trow && p.col == p.tcol

/-- The router and input that a packet comes to next: the router of its source first. -/
def State.hopTo (s : State) (p : Pkt) : Nat × Nat × Nat := if p.hops = 0 then (p.row, p.col, 4) else s.nextHop p

/-- The output port that a packet takes at its router. -/
def State.outOf (s : State) (p : Pkt) : Nat := if p.atExit then (if p.copyOf.isSome then 4 else exitOut p.dstEp) else (s.nextHop p).2.2

/-- The arbiter of the output port that a packet takes (R170). -/
def State.portOf (s : State) (p : Pkt) : Nat := portIdx p.die p.plane p.row p.col (s.outOf p)

/-- The source bytes of a request that lie in its tile's glaze slice are read by SU3 as it leaves the tile, in a free cycle of their banks (R122, R163). -/
def State.srcOpen (s : State) (p : Pkt) : Bool :=
  match p.asker with
  | .tile pti seq =>
    isRsp p.kind || p.hops != 0 || p.data.isEmpty || (match (s.tile pti).iss.pieces.find? (fun c => c.tag == seq) with
      | some c => c.srcSpace != 1 || s.bankFree pti c.srcAddr (4 * p.data.length) rankSu3
      | none => true)
  | _ => true

/-- A packet may move on but for its output port: the input it goes to has a credit (R172), and its source can be read. -/
def State.hopOpen (s : State) (p : Pkt) : Bool :=
  (p.atExit || s.creditFree p.die p.plane (s.hopTo p).1 (s.hopTo p).2.1 (if p.hops = 0 then p.inPort else (s.hopTo p).2.2)) && s.srcOpen p

/-- The output port that a packet takes next is not in use for another input (R166, R170). A packet that enters the mesh asks for none. -/
def State.hopGranted (s : State) (p : Pkt) : Bool := p.hops == 0 || s.mayUse 0 (s.portOf p) (p.rankFor (s.outOf p))

/-- The grant that a hop uses: one packet is one transfer of the output port it takes. -/
def State.hopGrant (s : State) (p : Pkt) : State := if p.hops = 0 then s else s.useGrant 0 (s.portOf p) (p.rankFor (s.outOf p))

/-- A packet moves on by one router input, or leaves the mesh at its exit. It waits for a credit of the next input, and where the output it takes is granted to another input it registers its
request and waits. `errs` names the words with bits flipped on this hop. A copy of a broadcast that comes to a router of its way branches there, and an answer combines (R180). -/
def execPacketHop (id : Nat) (errs : List (Nat × Nat)) (s : State) : Out1 :=
  match s.pkt id with
  | none => ok s
  | some p =>
    if p.inHub ∨ p.arrived ∨ !s.hopOpen p then ok s
    else if !s.hopGranted p then ok (s.askGrant 0 (s.portOf p) (p.rankFor (s.outOf p)))
    else
      let s0 := s.hopGrant p
      if p.atExit then ok (s0.setPkt { p with arrived := true, since := s.time.now })
      else
        let nx := s.hopTo p
        let h := checkHop (s.freshSrc p) errs
        let s1 := s0.hopFound p.die p.plane (nx.1 * 12 + nx.2.1) nx.2.2 h
        if h.badHdr then ok (s1.delPkt id)
        else
          let q := { h.p with row := nx.1, col := nx.2.1, inp := nx.2.2, hops := p.hops + 1, poisoned := p.poisoned || h.badData }
          ok ((({ s1 with net := { s1.net with flits := s1.net.flits + 1 + beatsOf p } }).setPkt q).bcastTurn q)

/-- A packet crosses a bridge (R182): from its die into the H-die, or from the H-die into the die of its destination. An error found at the input from the H-die is recorded with plane 0 and
input 4: the packet is on no plane there (DESIGN CHOICE, log entry 124). A request takes an entry of the bridge, and waits where the
bridge holds 512; a response gives its request's entry back. A broadcast stays on its die. -/
def execBridgeCrossing (id : Nat) (errs : List (Nat × Nat)) (s : State) : Out1 :=
  match s.pkt id with
  | none => ok s
  | some p =>
    if !p.inHub then
      -- at the bridge of its die
      if !p.arrived ∨ p.dstEp < epB0 ∨ p.kind = 0x05 then ok s
      else
        let b := bridgeNo p.die p.dstEp
        let h := checkHop p errs
        let s1 := s.hopFound p.die p.plane p.dstEp 4 h
        if h.badHdr then ok (s1.delPkt id)
        else
          let q := { h.p with poisoned := p.poisoned || h.badData }
          if isRsp q.kind then
            let r := (s1.delPkt id).bridgeGive b q
            ok (r.1.hubAnswer { r.2.1 with inHub := true, hub := b % 2, hops := 0 })
          else if 512 ≤ (s1.bridge b).length then ok s
          else
            let r := (s1.delPkt id).bridgeTake b { q with hops := 0 }
            let q2 := { r.2 with inHub := true, hub := b % 2, arrived := false }
            (match q2.dest with
             | .hub _ => if q2.lpn ≠ s.lpn then ok (r.1.hubOut q2 false) else ok (r.1.addPkt { q2 with arrived := true })
             | _ => ok (r.1.addPkt q2))
    else if p.arrived then ok s
    else
      -- in an H-die, on its way into a die
      match (if isRsp p.kind then p.via.head? else p.dest.ep.map (fun de => de.1 * 2 + p.hub % 2)) with
      | none => ok s
      | some b =>
        let d := b / 2
        let src := epB0 + b % 2
        let h := checkHop p errs
        let s1 := s.hopFound d 0 src 4 h
        if h.badHdr then ok (s1.delPkt id)
        else
          let q := { h.p with poisoned := p.poisoned || h.badData }
          if isRsp q.kind then
            let r := (s1.delPkt id).bridgeGive b q
            (match q.asker with
             | .tile pti _ => ok (r.1.inject { r.2.1 with dest := .tile pti } d src r.2.2)
             | _ => ok (r.1.inject r.2.1 d src r.2.2))
          else if 512 ≤ (s1.bridge b).length then ok s
          else
            let r := (s1.delPkt id).bridgeTake b q
            (match p.dest.ep with
             | some (_, ep) => ok (r.1.inject r.2 d src ep)
             | none => ok s)

/-! ### Requests at a tile endpoint -/

/-- A packet that has reached its tile. -/
def Pkt.atTile (p : Pkt) : Option Nat :=
  match p.dest with
  | .tile pti => if p.arrived && !p.inHub then some pti else none
  | _ => none

/-- The generation check of a tile endpoint (R35, R412). -/
def State.tileGenBad (s : State) (pti : Nat) (p : Pkt) : Bool := p.genChk && (!s.ctx.accepted || p.gen ≠ (s.tile pti).blk.gen)

def State.countTileDrop (s : State) : State := { s with faults := { s.faults with tileDrop := satInc 16 s.faults.tileDrop } }

/-- Nothing is applied, and the request is answered with `GEN_NACK` (R412). -/
def State.tileNack (s : State) (pti : Nat) (p : Pkt) : State :=
  (s.countTileDrop.delPkt p.id).reply p (pti / 156) (pti % 156) 0x20 (ext4 (s.nackWord 1)) []

/-- Serve a request at its tile: wait for the row (R46), check the generation, and then `f`. -/
def State.serveTile (s : State) (id kind : Nat) (f : State → Nat → Pkt → State) : State :=
  match s.pkt id with
  | none => s
  | some p =>
    match p.atTile with
    | none => s
    | some pti =>
      if p.kind ≠ kind then s
      else
        match s.tileReady pti with
        | (s1, false) => s1
        | (s1, true) => if s1.tileGenBad pti p then s1.tileNack pti p else f s1 pti p

/-- A read request at a tile (R178): local store is read through port X, a glaze address asks the bank's arbiter. -/
def execRdReq (id : Nat) (s : State) : Out1 :=
  ok (s.serveTile id 0x01 (fun u pti p =>
    match regionOf p.addr with
    | .localStore _ off =>
      (match u.portRead pti 0 off p.words with
       | (u1, some bs) => (u1.delPkt id).reply p (pti / 156) (pti % 156) 0x02 [0, 0, 0, 0] (wordsOf bs)
       | (u1, none) => (u1.delPkt id).reply p (pti / 156) (pti % 156) 0x21 (ext4 0x0002) [])
    | .glaze _ off =>
      let u1 := u.delPkt id
      { u1 with net := { u1.net with glazeQ := u1.net.glazeQ ++ [⟨p, pti, off, []⟩] } }
    | _ => (u.delPkt id).reply p (pti / 156) (pti % 156) 0x21 (ext4 0x0001) []))

/-- Bits flipped by upsets in a memory's words: exclusive-or into the stored code words. -/
def strike (flips : Tab Nat) (ups : List (Nat × Nat)) : Tab Nat :=
  ups.foldl (fun f e => Tab.put 0 f e.1 (Tab.get 0 f e.1 ^^^ (e.2 % 2 ^ 39))) flips

/-- The beats of a waiting glaze read that can be made are made (R163, R164, R185); after the last it is answered, and at a double-bit error it ends. -/
def State.glazeServe (s : State) (g : GlazeReq) : State :=
  let m := s.glazeMove g.pti rankEject g.off (4 * g.pkt.words) g.got.length
  let s1 := m.1
  let rest := s1.net.glazeQ.filter (fun x => decide (x.pkt.id ≠ g.pkt.id))
  match s1.portRead g.pti 1 (g.off + g.got.length) ((m.2 - g.got.length) / 4) with
  | (s2, none) => ({ s2 with net := { s2.net with glazeQ := rest } }).reply g.pkt (g.pti / 156) (g.pti % 156) 0x21 (ext4 0x0002) []
  | (s2, some bs) =>
    let got := g.got ++ bs
    if got.length < 4 * g.pkt.words then
      { s2 with net := { s2.net with glazeQ := s2.net.glazeQ.map (fun x => if x.pkt.id = g.pkt.id then { x with got := got } else x) } }
    else ({ s2 with net := { s2.net with glazeQ := rest } }).reply g.pkt (g.pti / 156) (g.pti % 156) 0x02 [0, 0, 0, 0] (wordsOf got)

/-- A read through the glaze arbiter path goes on (R185); each beat waits for a free cycle of its bank (R163). `ups` are upsets (word, flipped bits) that have struck the slice before it. -/
def execGlazeArbiterRead (id : Nat) (ups : List (Nat × Nat)) (s : State) : Out1 :=
  match s.net.glazeQ.find? (fun g => g.pkt.id == id) with
  | none => ok s
  | some g =>
    let t := s.tile g.pti
    ok (({ s with tiles := Tab.set s.tiles g.pti { t with mem := { t.mem with glazeFlips := strike t.mem.glazeFlips ups } } }).glazeServe g)

/-- The bytes of a packet go into a glaze slice by the beats that can be made now (R163, R164): the state, and whether all have gone. The packet keeps what is left. -/
def State.glazePut (s : State) (p : Pkt) (pti rank off : Nat) (bs : List Byte) : State × Bool :=
  let m := s.glazeMove pti rank off bs.length p.made
  let s1 := m.1.putBytes pti 1 off bs p.made m.2
  if bs.length ≤ m.2 then (s1, true) else (s1.setPkt { p with made := m.2 }, false)

/-- A write at a tile (R178): nothing of a poisoned packet is written or acknowledged (R184); each beat of a glaze write waits for a free cycle of its bank (R163). -/
def execWr (id : Nat) (s : State) : Out1 :=
  ok (s.serveTile id 0x03 (fun u pti p =>
    if p.poisoned then u.delPkt id
    else
      let bs := bytesOfWords (p.data.take p.words)
      match regionOf p.addr with
      | .localStore _ off => ((u.onTile pti (fun t => t.writeX 0 off bs)).delPkt id).reply p (pti / 156) (pti % 156) 0x04 [0, 0, 0, 0] []
      | .glaze _ off =>
        (match u.glazePut p pti rankEject off bs with
         | (u1, true) => (u1.delPkt id).reply p (pti / 156) (pti % 156) 0x04 [0, 0, 0, 0] []
         | (u1, false) => u1)
      | _ => (u.delPkt id).reply p (pti / 156) (pti % 156) 0x21 (ext4 0x0001) []))

/-! ### Broadcast at its source and its destinations (R180, R181) -/

/-- What a destination of a broadcast makes of it: the state, and its answer, none where bytes of it still wait for their bank cycle: written, or refused by R36 (the answer counts one), a
`GEN_NACK`, or an `ERR_RESP`: no word stands at an offset past the end of its memory. -/
def State.bcastOne (s : State) (p : Pkt) (pti : Nat) : State × Option (Nat × Nat) :=
  let w := p.extWord 0
  let bs := bytesOfWords (p.data.take p.words)
  if s.tileGenBad pti p then (s.countTileDrop, some (0x20, s.nackWord 1))
  else if (if bitAt w 25 then 0x40000 else spaceSize (fld w 24 24)) < p.addr + bs.length then (s, some (0x21, 0x0001))
  else
    if bitAt w 25 then
      match (s.tile pti).writeBundles p.addr bs with
      | some t => (s.putTile pti t, some (0x06, 0))
      | none => (s, some (0x06, 1))
    else if bitAt w 24 then
      (match s.glazePut p pti rankEject p.addr bs with
       | (s1, true) => (s1, some (0x06, 0))
       | (s1, false) => (s1, none))
    else (s.onTile pti (fun t => t.writeX 0 p.addr bs), some (0x06, 0))

/-- A broadcast at its source: one copy enters the router of the source for all the tiles of the mask; its answer goes back to the source. -/
def State.bcastFork (s : State) (p : Pkt) : State :=
  let ts := s.bcastTiles p.die (p.extWord 0)
  if ts.isEmpty then (s.delPkt p.id).bcastBack p (0x06, 0)
  else
    let s1 := s.delPkt p.id
    let s2 := { s1 with net := { s1.net with bcasts := s1.net.bcasts ++ [Bcast.mk p 1 []] } }
    s2.branchTo p (ts, p.row, p.col)

/-- A broadcast (R180): at its source it sets out for its tiles; a copy that has reached its tile is written there and answered. A destination whose row is not ACTIVE wakes
first (R46), the beats of one into glaze wait for their bank cycles (R163), and a poisoned copy is neither written nor answered (R184). -/
def execBcastWr (id : Nat) (s : State) : Out1 :=
  match s.pkt id with
  | none => ok s
  | some p =>
    if p.kind ≠ 0x05 ∨ p.inHub then ok s
    else
      match p.copyOf with
      | none => ok (s.bcastFork p)
      | some g =>
        match p.atTile with
        | none => ok s
        | some pti =>
          match s.tileReady pti with
          | (s1, false) => ok s1
          | (s1, true) =>
            if p.poisoned then ok (s1.delPkt id)
            else
              match s1.bcastOne (s1.freshSrc p) pti with
              | (s2, none) => ok s2
              | (s2, some a) => ok ((s2.delPkt id).bcastGot g a 4)

/-! ### Answers at the requester -/

/-- An answer that has reached its tile, with the request it answers. -/
def State.answerAt (s : State) (id kind : Nat) : Option (Pkt × Nat × XfPiece) :=
  match s.pkt id with
  | none => none
  | some p =>
    match p.asker, p.atTile with
    | .tile _ seq, some pti =>
      if p.kind ≠ kind then none
      else match (s.tile pti).iss.pieces.find? (fun c => c.tag == seq) with
        | some c => some (p, pti, c)
        | none => some (p, pti, ⟨seq, 0xFFFFFFFFFFFFFFFF, 0, 0, 0, 0, 0⟩)
    | _, _ => none

/-- The request is answered: it is no longer waited for, and its operation has one answer less to come. -/
def Tile.answered (t : Tile) (c : XfPiece) : Tile :=
  { t with iss := { t.iss with
      pieces := t.iss.pieces.filter (fun x => decide (x.tag ≠ c.tag)),
      xf := t.iss.xf.map (fun o => if o.id = c.op then { o with answers := o.answers - 1 } else o) } }

/-- The request ends without completing its operation (R123). -/
def Tile.unanswered (t : Tile) (c : XfPiece) : Tile :=
  { t with iss := { t.iss with
      pieces := t.iss.pieces.filter (fun x => decide (x.tag ≠ c.tag)),
      xf := t.iss.xf.map (fun o => if o.id = c.op then { o with failed := true } else o) } }

/-- Take an answer at its tile: one of another generation is dropped and counted (R35, R412); data wait for the row (R46), and each beat of data for the tile's slice for a free cycle of its bank (R163); a poisoned one
writes nothing (R184). -/
def State.takeAnswer (s : State) (id kind : Nat) (f : State → Nat → Pkt → XfPiece → State) : State :=
  match s.answerAt id kind with
  | none => s
  | some (p, pti, c) =>
    if s.tileGenBad pti p then s.countTileDrop.delPkt id
    else if p.poisoned then (s.delPkt id).onTile pti (fun t => t.unanswered c)
    else if p.data.isEmpty then f (s.delPkt id) pti p c
    else
      match s.tileReady pti with
      | (s1, false) => s1
      | (s1, true) =>
        if c.space = 1 then
          (match s1.glazePut p pti rankSu3 c.laddr ((bytesOfWords p.data).take c.bytes) with
           | (s2, true) => (s2.delPkt id).onTile pti (fun t => t.answered c)
           | (s2, false) => s2)
        else f (s1.delPkt id) pti p c

/-- Read data for local store are written through port X. -/
def State.writeAnswer (s : State) (pti : Nat) (p : Pkt) (c : XfPiece) : State :=
  s.onTile pti (fun t => (t.writeX c.space c.laddr ((bytesOfWords p.data).take c.bytes)).answered c)

def execRdData (id : Nat) (s : State) : Out1 := ok (s.takeAnswer id 0x02 State.writeAnswer)

def execWrAck (id : Nat) (s : State) : Out1 := ok (s.takeAnswer id 0x04 (fun u pti _ c => u.onTile pti (fun t => t.answered c)))

def execBcastAck (id : Nat) (s : State) : Out1 := ok (s.takeAnswer id 0x06 (fun u pti _ c => u.onTile pti (fun t => t.answered c)))

/-- A lake operation's completion: gathered and decoded data are written; `LSTATUS` 0, 1 and 2 all complete the piece (R194, R199). -/
def execLakeDone (id : Nat) (s : State) : Out1 := ok (s.takeAnswer id 0x11 State.writeAnswer)

/-- A `GEN_NACK` at a tile: the operation does not complete, and no fault is raised (R412). -/
def execGenNack (id : Nat) (s : State) : Out1 :=
  ok (s.takeAnswer id 0x20 (fun u pti _ c =>
    ({ u with faults := { u.faults with nackRx := satInc 16 u.faults.nackRx } }).onTile pti (fun t => t.unanswered c)))

/-- An error answer at a tile (R124, R274): `XF_ERR` for 0x0001, 0x0005 and unassigned codes, `REMOTE_UNREACH` for 0x0004, nothing of its own for 0x0002 and 0x0003. The fault-log
entry of `REMOTE_UNREACH` holds the TID and the code, which R422 leaves open (DESIGN CHOICE, log entry 113). -/
def execErrResp (id : Nat) (s : State) : Out1 :=
  ok (s.takeAnswer id 0x21 (fun u pti p c =>
    let code := fld (p.extWord 0) 15 0
    let op := match (u.tile pti).iss.xf.find? (fun o => o.id == c.op) with
      | some o => o.kind.opcode
      | none => 0
    let tid := (u.tidOf pti).getD 0x3FF
    let step := (u.tile pti).st.stepId
    let u1 := u.onTile pti (fun t => t.unanswered c)
    if code = 2 ∨ code = 3 then u1
    else if code = 4 then u1.recordFault 5 true step tid code
    else u1.recordFault 12 true step tid (code + op * 2 ^ 16)))

/-! ### The package edge -/

/-- The tag of DMA channel `ch`'s request `tok` on the network: above the bridges' own 4,096. -/
def dmaTag (ch tok : Nat) : Nat := 0x1000 + ch * 1024 + tok % 1024

/-- The tag of a fabric load's write to child `c`. -/
def loaderTag (c : Nat) : Nat := 0x5000 + c

/-- A `PKT` arrives at the package edge (R272, R275, R280). -/
def execPkt (l t : Nat) (s : State) : Out1 :=
  let s0 := s.advance t
  let isPkt := fun (x : Slot) => match x with
    | .pkt _ => true
    | _ => false
  match s0.takeRx l isPkt with
  | some (.pkt p, s1) =>
    let k := s1.link l
    let rsp := isRsp p.kind
    let misroute := s1.setLink l { k with misroute := satInc 16 k.misroute }
    let genDrop := s1.setLink l { k with genDrop := satInc 16 k.genDrop }
    let back := fun (u : State) (kind w4 : Nat) =>
      u.sendRsp { p with hops := 0, dlpn := p.slpn, slpn := u.lpn, words := 0, kind := kind, ext := ext4 w4, data := [] } l
    if !s1.carriesPkt then ok misroute
    else if p.dlpn ≠ s1.lpn ∨ s1.spr.displaced then ok (if rsp then misroute else back misroute 0x21 0x0004)
    else
      let live := s1.ctx.genLive && p.gen == s1.ctx.gen
      let q : Pkt :=
        { id := 0, kind := p.kind, addr := p.addr, lpn := s1.lpn, tag := p.tag, srcEp := 0, dstEp := 0, words := p.words, gen := p.gen, genChk := !p.mir,
          ext := p.ext, data := p.data, asker := .link l p.tag p.slpn p.tc p.mir, dest := .hub 0, inHub := true, hub := if l < 48 then 0 else 1,
          die := 0, plane := 0, row := 0, col := 0, trow := 0, tcol := 0, hops := 0, arrived := false, poisoned := false, via := [], since := 0, inp := 4, copyOf := none }
      if rsp then
        if !p.mir ∧ !live then ok genDrop
        else if p.tag < 0x1000 then
          (match (s1.bridge (p.tag / 512)).find? (fun e => e.tag == p.tag) with
           | some e => ok (s1.addPkt { q with asker := e.asker, via := [p.tag / 512], genChk := true })
           | none => ok s1)
        else if p.tag < 0x5000 then ok (s1.addPkt { q with asker := .dma ((p.tag - 0x1000) / 1024), arrived := true })
        else ok (s1.addPkt { q with asker := .loader, arrived := true })
      else if p.mir then ok (s1.addPkt { q with arrived := true })
      else if !live then ok (back genDrop 0x20 (s1.nackWord 3))
      else ok (s1.hubIn q)
  | _ => ok s0

/-! ### Arbiters -/

/-- The emergency requester is granted at the next beat boundary (R168): the debug port at a glaze bank, which freezes the owning tile for the cycle (R29) and comes at most
once in 32 tile clock periods (R171); refresh at a lake channel; `HEARTBEAT` or `ABORT` at a link's egress, sent in an inserted flit of the frame under construction, one to a frame and none in a replay (R265). A router output port has none. -/
def execEmergencyGrant (kind idx t : Nat) (s : State) : Out1 :=
  let s0 := s.advance t
  if kind = 1 then
    let pti := idx / 40
    match s0.jtag.access with
    | some x => if x.pti = pti ∧ x.space = 1 then ok s0.dapServe else ok (if s0.dbgMay then s0.dbgTake pti else s0)
    | none => ok (if s0.dbgMay then s0.dbgTake pti else s0)
  else if kind = 2 then
    let st := Tab.get Stack.reset s0.lake.stackTab (idx / 32)
    let c := Tab.get Chan.zero st.chans (idx % 32)
    let st1 := { st with chans := Tab.set st.chans (idx % 32) { c with refreshed := s0.time.now } }
    ok { s0 with lake := { s0.lake with stackTab := Tab.set s0.lake.stackTab (idx / 32) st1 } }
  else if kind = 3 then
    let s1 := s0.flushTx idx
    let k := s1.link idx
    if s1.gate ∨ !k.usable ∨ k.tx.curIns ≠ 0 ∨ 256 ≤ k.tx.buf.length ∨ s1.time.now < k.tx.replayTo ∨ k.handoff.isSome then ok s1
    else
      match k.tx.emq with
      | [] => ok s1
      | m :: r =>
        let s2 := s1.setLink idx { k with tx := { k.tx with emq := r, curIns := k.tx.cur.length + 1, ackAt := if k.tx.outstanding = 0 then s1.time.now else k.tx.ackAt } }
        ok (({ s2 with out := s2.out ++ [Out.slot idx (.mgt m)] }).placeFlit idx (Slot.mgt m).bits)
  else ok s0

/-! ### Scrubs and the bundle store -/

/-- The slices of a die that patrol scrub and teardown zeroing reach: all but those above the skipped row (R165). -/
def State.slices (s : State) (d : Nat) : List Nat := (List.range 156).filter (fun x => x / 12 != (s.die d).skipRow)

/-- Scrub of one word: a single-bit error is corrected in place. -/
def scrubWord (m : Mem) (flips : Tab Nat) (a : Nat) : Mem × Tab Nat × Ecc :=
  let e := eccCheck (Mem.le m a 4) (Tab.get 0 flips (a / 4))
  match e with
  | .fixed v => (Mem.store m a (leBytes 4 v), Tab.del flips (a / 4), e)
  | _ => (m, flips, e)

/-- Scrub of the sixteen words of a beat. -/
def scrubBeat (m : Mem) (flips : Tab Nat) (a : Nat) : Mem × Tab Nat × List Ecc :=
  (List.range 16).foldl (fun (x : Mem × Tab Nat × List Ecc) i =>
    let r := scrubWord x.1 x.2.1 (a + 4 * i)
    (r.1, r.2.1, x.2.2 ++ [r.2.2])) (m, flips, [])

/-- Glaze patrol scrub visits the next beat of its pass (R186): beat by beat over every bank of every slice. `ups` are upsets (word of the slice, flipped bits) that struck the
visited slice before; `wrote` says that the owning tile wrote the beat between the read and the write-back, which is then cancelled (R187). `GLAZE_SCRUB_EN` takes effect at a
bank row boundary, and a visit waits for a free cycle of its bank (R163). -/
def execGlazeScrubVisit (d : Nat) (ups : List (Nat × Nat)) (wrote : Bool) (s : State) : Out1 :=
  let r0 := s.die d
  let r := { r0 with scrubNow := if r0.scrubAt % 12480 = 0 then r0.scrubEn else r0.scrubNow }
  if !r.scrubNow ∨ r.zeroing then ok (s.setDie d r)
  else
    let beat := r.scrubAt / 6240
    let slice := r.scrubAt % 6240 / 40
    let bank := r.scrubAt % 40
    let wrap := decide (2048 * 6240 ≤ r.scrubAt + 1)
    let r1 := { r with scrubAt := if wrap then 0 else r.scrubAt + 1, scrubPass := if wrap then min 0xFFFFFFFF (r.scrubPass + 1) else r.scrubPass }
    let s1 := s.setDie d r1
    let pti := d * 156 + slice
    let a := beat / 2 * 5120 + bank * 128 + beat % 2 * 64
    if !(s.slices d).contains slice then ok s1
    else if !s.bankOpen pti a then ok s
    else if !s.mayUse 1 (bankIdx pti a) rankScrub then ok (s.askGrant 1 (bankIdx pti a) rankScrub)
    else
      let s1 := s1.useGrant 1 (bankIdx pti a) rankScrub
      let t := s1.tile pti
      let fl := strike t.mem.glazeFlips ups
      let q := scrubBeat t.mem.glaze fl a
      let n := (q.2.2.filter Ecc.isFixed).length
      let t1 := if wrote then { t with mem := { t.mem with glazeFlips := fl } } else { t with mem := { t.mem with glaze := q.1, glazeFlips := q.2.1 } }
      let s2 := { s1 with tiles := Tab.set s1.tiles pti t1, faults := { s1.faults with sbeTotal := s1.faults.sbeTotal + n } }
      let s3 := s2.setDie d { s2.die d with glzSbe := min 0xFFFF ((s2.die d).glzSbe + n) }
      match firstDbe q.2.2 0 with
      | some k => ok (s3.glazeDbe pti (a / 4 + k) true)
      | none => ok s3

/-- Patrol scrub of a tile's local store (`space` 0) or bundle store (1) visits its next word through port X (R51, R488): a corrected word of local store is a port X write, which R28 sets
against port T's accesses of the period. The spec gives no order
of a pass: the model visits 32-bit words in ascending address, in `CLKGATE` and `RETAIN` rows too (DESIGN CHOICE, log entry 111). -/
def execTileScrub (pti space : Nat) (ups : List (Nat × Nat)) (s : State) : Out1 :=
  if !bitAt (s.tile pti).blk.chkEff 2 ∨ (s.row (rowOf pti)).power = 3 then ok s
  else
    ok (s.onTile pti (fun t =>
      if space = 0 then
        let a := 4 * t.blk.scrubLs
        let t0 := { t with mem := { t.mem with lsFlips := strike t.mem.lsFlips ups } }
        let e := eccCheck (Mem.le t0.mem.ls a 4) (Tab.get 0 t0.mem.lsFlips (a / 4))
        let t1 := if e.isFixed then t0.writeX 0 a (leBytes 4 e.val) else t0
        let t2 := { t1 with blk := { t1.blk with scrubLs := (t.blk.scrubLs + 1) % 2 ^ 18, sbe := t.blk.sbe + b2n e.isFixed } }
        if e.isDbe then t2.raise .dbeLocal slotCT t2.pcNow false else t2
      else
        let q := scrubWord t.mem.bundles (strike t.mem.bundleFlips ups) (4 * t.blk.scrubBs)
        let t1 := { t with mem := { t.mem with bundles := q.1, bundleFlips := q.2.1 },
                           blk := { t.blk with scrubBs := (t.blk.scrubBs + 1) % 2 ^ 16, sbe := t.blk.sbe + b2n q.2.2.isFixed } }
        if q.2.2.isDbe then t1.raise .dbeBundle slotCT t1.pcNow false else t1))

/-- A write of one bundle (64 bytes at bundle address `addr`) into the bundle store of a physical tile: accepted, or refused and reported as refused while a step is active (R36). -/
def execBundleStoreWrite (pti addr : Nat) (data : BitVec 512) (s : State) : Out1 :=
  match (s.tile pti).writeBundles (addr % 4096 * 64) (leBytes 64 data.toNat) with
  | some t => ok { (s.putTile pti t) with out := s.out ++ [.value 1 0] }
  | none => ok { s with out := s.out ++ [.value 1 1] }

end Sys2Proof.Machine
end

