-- ==== Sys2Proof/Machine/LakeOps.lean ====
section
/-!
DEFINITION. The operations over the lake stacks that the meanings share: words and their errors (R214, R217, R218), elements (R196), the palette cache and decode (R200 to R203), and
the service of a registered request (R195 to R207).
-/
namespace Sys2Proof.Machine

def State.stack (s : State) (k : Nat) : Stack := Tab.get Stack.reset s.lake.stackTab k

def State.setStack (s : State) (k : Nat) (v : Stack) : State := { s with lake := { s.lake with stackTab := Tab.set s.lake.stackTab k v } }

def Stack.chan (k : Stack) (c : Nat) : Chan := Tab.get Chan.zero k.chans c

def Stack.setChan (k : Stack) (c : Nat) (v : Chan) : Stack := { k with chans := Tab.set k.chans c v }

/-- The endpoint of a stack on its die. -/
def stackEp (k : Nat) : Nat := if k % 2 = 0 then epLakeN else epLakeS

/-! ### Rows and errors -/

/-- The row key of a lake address. -/
def State.rowOfAddr (s : State) (a : Nat) : Nat := rowKey (lakeSo s.lake.mode a)

/-- Spare rows allocated in a bank: the highest spare number in use plus 1. -/
def Stack.bankUsed (k : Stack) (bank : Nat) : Nat :=
  (k.spares.filter (fun p => decide (p.1 / 12288 = bank))).foldl (fun m p => max m (p.2 + 1)) 0
    + (k.copying.filter (fun r => decide (r / 12288 = bank))).length

/-- The location of a lake row in a defect entry (R346, kinds 4 and 5). -/
def lakeLocation (k row : Nat) : Nat := k + (row / 12288 / 64) * 2 ^ 3 + (row / 12288 % 64) * 2 ^ 8 + (row % 12288) * 2 ^ 14

/-- Spare a row (R217), or mark the stack exhausted and the row unspared (R218). -/
def State.spareRow (s : State) (k row : Nat) : State :=
  let st := s.stack k
  if !st.spareEn ∨ st.zeroing ∨ st.copying.contains row then s
  else if st.bankUsed (row / 12288) < 32 then s.setStack k { st with copying := st.copying ++ [row] }
  else (s.setStack k { st with exhausted := true }).markDefect 5 (lakeLocation k row) 0

/-- `LAKE_DBE_INFO` and `LAKE_DBE_INFO2` as a 64-bit detail. -/
def lakeInfo (st : Stack) : Nat :=
  b2n st.dbeValid + b2n st.dbeScrub * 2 + st.dbeCh * 4 + st.dbeBank * 2 ^ 7 + st.dbeRow * 2 ^ 13 + st.dbeOp * 2 ^ 27 + (st.dbeCol + st.dbeGen * 2 ^ 16) * 2 ^ 32

/-- Record the first double-bit error of a stack (R214). -/
def Stack.noteDbe (st : Stack) (so op : Nat) (scrub : Bool) : Stack :=
  if st.dbeValid then st
  else { st with dbeValid := true, dbeScrub := scrub, dbeCh := soCh so, dbeBank := soBank so, dbeRow := soRow so, dbeOp := op, dbeCol := soCol so, dbeGen := st.gen }

/-- A double-bit error at lake address `a`: recorded, `LAKE_DBE` raised while a context is accepted, and its row spared (R214, R216, R217). -/
def State.lakeDbe (s : State) (k a op : Nat) (scrub : Bool) : State :=
  let so := lakeSo s.lake.mode a
  let st := (s.stack k).noteDbe so op scrub
  let s1 := s.setStack k st
  let s2 := if s.ctx.accepted then s1.recordFault 3 true 0xFFFF k (lakeInfo st) else s1
  s2.spareRow k (rowKey so)

/-- Whether a word corrected now makes its row a row to spare: another word of the row corrected in this pass, or this word in the pass before (R217). -/
def State.sparingDue (s : State) (k a : Nat) : Bool :=
  let st := s.stack k
  st.corrPrev.contains a || st.corr.any (fun w => w ≠ a && s.rowOfAddr w == s.rowOfAddr a)

/-- A word of a stack was corrected. -/
def State.lakeFixed (s : State) (k a : Nat) : State :=
  let st := s.stack k
  let due := s.sparingDue k a
  let st1 := { st with sbe := satInc 16 st.sbe, corr := if st.corr.contains a then st.corr else a :: st.corr }
  let s1 := { s.setStack k st1 with faults := { s.faults with sbeTotal := s.faults.sbeTotal + 1 } }
  if due then s1.spareRow k (s.rowOfAddr a) else s1

/-- What a check of words found, in address order: corrections counted, the first double-bit error recorded. -/
def State.lakeFound (s : State) (op : Nat) (scrub : Bool) : Nat → List Ecc → State
  | _, [] => s
  | a, w :: r =>
    let k := lakeStack s.lake.mode a
    let s1 := if w.isFixed then s.lakeFixed k a else if w.isDbe then s.lakeDbe k a op scrub else s
    s1.lakeFound op scrub (a + 4) r

/-- n words of lake through the check. -/
def State.lakeWords (s : State) (a n : Nat) : List Ecc := eccWords s.lake.mem s.lake.flips a n

/-- Whole words are written with new check bits (R195). -/
def State.lakeStore (s : State) (a : Nat) (bs : List Byte) : State :=
  { s with lake := { s.lake with mem := Mem.store s.lake.mem a bs, flips := clearFlips s.lake.flips a bs.length } }

/-- Zero words are written over n bytes (R204). -/
def State.lakeZero (s : State) (a n : Nat) : State :=
  { s with lake := { s.lake with mem := Mem.zero s.lake.mem a n, flips := clearFlips s.lake.flips a n } }

/-- Upsets that have struck lake words (word address ÷ 4, flipped bits). -/
def State.lakeStrike (s : State) (ups : List (Nat × Nat)) : State := { s with lake := { s.lake with flips := strike s.lake.flips ups } }

/-! ### Elements (R196) -/

/-- One element op: `ROP` 0 add, 1 max. -/
def redElem (fmt rop x y : Nat) : Nat :=
  if fmt = 6 then
    (if rop = 0 then (x + y) % 2 ^ 32 else if sext 32 x < sext 32 y then y else x)
  else
    let f := if fmt = 0 then fFP32 else fBF16
    if rop = 0 then f.addB 0 x y else f.maxB x y

/-- One word: one element, or two BF16 elements. -/
def redWord (fmt rop x y : Nat) : Nat :=
  if fmt = 1 then redElem 1 rop (x % 2 ^ 16) (y % 2 ^ 16) + 2 ^ 16 * redElem 1 rop (x / 2 ^ 16 % 2 ^ 16) (y / 2 ^ 16 % 2 ^ 16)
  else redElem fmt rop x y

/-- Whether the burst of word address `a` has a double-bit error among the words of the piece. -/
def burstBad (base : Nat) (ws : List Ecc) (a : Nat) : Bool :=
  (ws.zip (List.range ws.length)).any (fun p => p.1.isDbe && (base + 4 * p.2) / 64 == a / 64)

/-- The words of a piece combined with its operands; a burst with a double-bit error keeps its words (R214). -/
def State.reduceInto (s : State) (fmt rop base : Nat) (ws : List Ecc) (data : List Word) : State :=
  ((ws.zip data).zip (List.range ws.length)).foldl (fun u x =>
    let a := base + 4 * x.2
    if burstBad base ws a then u else u.lakeStore a (leBytes 4 (redWord fmt rop x.1.1.val x.1.2.toNat))) s

/-! ### Palette decode (R201 to R203) -/

/-- A weight of palette `p` of a table, converted to `FMT`. -/
def palWeight (tab : List Byte) (p ix fmt : Nat) : Nat :=
  let e := (tab.getD (32 * p + 2 * ix) 0#8).toNat + 256 * (tab.getD (32 * p + 2 * ix + 1) 0#8).toNat
  let bf := bitAt ((tab.getD (8192 + p / 8) 0#8).toNat) (p % 8)
  if fmt = 3 then
    (if bf then elemEnc 3 .rne true (fBF16.dec e) else e % 256)
  else
    (if bf then e else fBF16.rne (fE4M3.dec (e % 256)))

/-- A decoded block: 64 weights. -/
def palBlock (tab blk : List Byte) (fmt : Nat) : List Byte :=
  let p := (blk.getD 32 0#8).toNat
  (List.range 64).flatMap (fun j =>
    let ix := (blk.getD (j / 2) 0#8).toNat / (if j % 2 = 0 then 1 else 16) % 16
    leBytes (if fmt = 3 then 1 else 2) (palWeight tab p ix fmt))

/-- What the read of a palette table brings: the table, a double-bit error in lake, or a loss at the pins. -/
inductive TabRead where
  | table (bytes : List Byte)
  | bad
  | lost
  deriving DecidableEq, Repr

/-- Of the words flipped at the pins, those of a palette table: they are numbered from 0x10000 on. -/
def tableErrs (rsp : List (Nat × Nat)) : List (Nat × Nat) := rsp.filterMap (fun e => if 0x10000 ≤ e.1 then some (e.1 - 0x10000, e.2) else none)

/-- The words of a palette table as they come over the pins (R215): the words corrected, whether a word has a double-bit error, and the words. -/
def pinTable (ws : List Nat) (errs : List (Nat × Nat)) : Nat × Bool × List Nat :=
  errs.foldl (fun (h : Nat × Bool × List Nat) e =>
    match h.2.2[e.1]? with
    | none => h
    | some w =>
      match eccCheck w e.2 with
      | .ok v => (h.1, h.2.1, h.2.2.set e.1 v)
      | .fixed v => (h.1 + 1, h.2.1, h.2.2.set e.1 v)
      | .dbe v => (h.1, true, h.2.2.set e.1 v)) (0, false, ws)

/-- Pin errors are counted, and a double-bit error at lake address `a` is recorded with `OP` 6 and raises `LAKE_DBE` (R215). -/
def State.pinNote (s : State) (k a n : Nat) (bad : Bool) : State :=
  let st := s.stack k
  let st1 := { st with sbe := min 0xFFFF (st.sbe + n) }
  let s1 := { s.setStack k st1 with faults := { s.faults with sbeTotal := s.faults.sbeTotal + n } }
  if bad then
    let st2 := st1.noteDbe (lakeSo s.lake.mode a) 6 false
    (s1.setStack k st2).recordFault 3 true 0xFFFF k (lakeInfo st2)
  else s1

/-- The palette table at `a` through the stack's cache of two (R202). A cached entry that lake no longer holds may decode as the old or the new one: which is a free value. `errs` names words
flipped at the pins on a read of the table. -/
def State.palTable (s : State) (k a : Nat) (errs : List (Nat × Nat)) : State × TabRead :=
  let st := s.stack k
  match st.palCache.find? (fun t => t.addr == a) with
  | some t => (s.setStack k { st with palCache := t :: st.palCache.filter (fun x => x.addr ≠ a) },
      .table (t.bytes.zipIdx.map (fun x => if Config.palNew k s.net.seq (x.2 / 2) then Mem.read s.lake.mem (a + x.2) else x.1)))
  | none =>
    let ws := s.lakeWords a 2056
    let s1 := s.lakeFound 0 false a ws
    if ws.any Ecc.isDbe then (s1, .bad)
    else
      let h := pinTable (ws.map Ecc.val) errs
      let s2 := s1.pinNote k a h.1 h.2.1
      if h.2.1 then (s2, .lost)
      else
        let bs := h.2.2.flatMap (fun w => leBytes 4 w)
        let st1 := s2.stack k
        (s2.setStack k { st1 with palCache := ⟨a, bs⟩ :: st1.palCache.take 1 }, .table bs)

/-! ### Requests -/

/-- The packet has reached its lake controller: the packet and the stack. -/
def State.atLake (s : State) (id : Nat) : Option (Pkt × Nat) :=
  match s.pkt id with
  | none => none
  | some p =>
    match p.dest with
    | .lake k => if p.arrived && !p.inHub then some (p, k) else none
    | _ => none

/-- The check of a packet's words at the pins (R215): the words corrected, and whether a word has a double-bit error. -/
def pinCheck (p : Pkt) (errs : List (Nat × Nat)) : HopChk := checkHop p errs

/-- Pin errors are counted, and a double-bit error is recorded with `OP` 6 and raises `LAKE_DBE` (R215). -/
def State.pinFound (s : State) (k : Nat) (p : Pkt) (h : HopChk) : State := s.pinNote k p.addr h.fixedN (h.badHdr || h.badData)

/-- An uncorrectable CXL.mem data error in the RAS capability: bit 7 of its status (R289, R296; log entry 60). -/
def State.rasError (s : State) : State := { s with h := { s.h with ras := s.h.ras + 1, rasStat := s.h.rasStat ||| 0x80 } }

/-- A read through the HDM window ends without its data: poisoned, and logged (R214). -/
def State.hdmPoison (s : State) (tag : Nat) : State := { s.rasError with out := s.out ++ [Out.value 3 tag] }

/-- The answer of a stack, through the pins (R215): over the network, or to the host for a request through the HDM window. `rsp` names words with bits flipped at the pins; an
answer with a double-bit error reaches no destination, and a host read then completes with poisoned data. -/
def State.lakeReply (s : State) (rsp : List (Nat × Nat)) (k : Nat) (p : Pkt) (kind : Nat) (ext : List Nat) (data : List Word) : State :=
  let h := pinCheck (p.answer kind ext data) rsp
  let s1 := s.pinFound k p h
  let bad := h.badHdr || h.badData
  match p.asker with
  | .host tag =>
    if p.kind = 0x01 then
      (if kind = 0x21 ∨ bad = true then s1.hdmPoison tag else { s1 with out := s1.out ++ [Out.value 2 tag, Out.bytes 2 (bytesOfWords h.p.data)] })
    else if bad then s1
    else { s1 with out := s1.out ++ (if kind = 0x21 then [Out.value 3 tag] else [Out.value 2 tag, Out.bytes 2 (bytesOfWords h.p.data)]) }
  | .probe =>
    if bad then s1
    else { s1 with jtag := { s1.jtag with status := if kind = 0x21 then 4 else 0, data := if kind = 0x02 then ((h.p.data.headD 0#32).toNat) else s1.jtag.data } }
  | _ => if bad then s1 else s1.reply p (k / 2) (stackEp k) h.p.kind h.p.ext h.p.data

def lakeStatus (n : Nat) : List Nat := ext4 n

/-- The lake operation of a packet: 0 read, 1 write, else 2 + `LOP`. -/
def Pkt.lakeKind (p : Pkt) : Nat := if p.kind = 0x01 then 0 else if p.kind = 0x03 then 1 else 2 + fld (p.extWord 0) 7 0

/-- The local address of the palette table of a decode piece (R194, R201). -/
def Pkt.palAddr (p : Pkt) : Nat := (p.extWord 2 + 2 ^ 32 * fld (p.extWord 3) 8 0) / 32 * 32

/-- The effect of a registered request on the lake, and its answer. Words that fail their check are handled by R214. A decode whose table a double-bit error at the pins keeps back is not answered
(R215: the data reaches no destination). -/
def State.lakeApply (s : State) (k : Nat) (p : Pkt) (rsp : List (Nat × Nat)) : State :=
  let w4 := p.extWord 0
  let fmt := fld w4 11 8
  let rop := fld w4 12 12
  let a := p.addr / 4 * 4
  let s0 := s.delPkt p.id
  match p.lakeKind with
  | 0 =>
    let ws := s0.lakeWords a p.words
    let s1 := s0.lakeFound 0 false a ws
    if ws.any Ecc.isDbe then s1.lakeReply rsp k p 0x21 (ext4 0x0003) [] else s1.lakeReply rsp k p 0x02 [0, 0, 0, 0] (wordsOf (eccBytes ws))
  | 1 => (s0.lakeStore a (bytesOfWords (p.data.take p.words))).lakeReply rsp k p 0x04 [0, 0, 0, 0] []
  | 3 =>
    let ws := s0.lakeWords a p.words
    let s1 := (s0.reduceInto fmt rop a ws p.data).lakeFound 1 false a ws
    if ws.any Ecc.isDbe then s1.lakeReply rsp k p 0x21 (ext4 0x0003) [] else s1.lakeReply rsp k p 0x11 (lakeStatus 0) []
  | 4 =>
    let ws := s0.lakeWords a p.words
    let s1 := (s0.reduceInto fmt 0 a ws p.data).lakeFound 1 false a ws
    if ws.any Ecc.isDbe then s1.lakeReply rsp k p 0x21 (ext4 0x0003) [] else s1.lakeReply rsp k p 0x11 (lakeStatus 0) []
  | 5 =>
    let ws := s0.lakeWords a p.words
    let s1 := s0.lakeFound 2 false a ws
    if ws.any Ecc.isDbe then s1.lakeReply rsp k p 0x21 (ext4 0x0003) [] else s1.lakeReply rsp k p 0x11 (lakeStatus 0) (wordsOf (eccBytes ws))
  | 6 =>
    let n := fld w4 15 13
    let ta := p.palAddr
    let lo := p.addr / 4 * 4
    let ws := s0.lakeWords lo ((p.addr + 33 * n - lo + 3) / 4)
    let bs := (eccBytes ws).drop (p.addr - lo)
    let s1 := s0.lakeFound 3 false lo ws
    if ws.any Ecc.isDbe then s1.lakeReply rsp k p 0x21 (ext4 0x0003) []
    else if lakeEnd < ta + 8224 then
      let st := s1.stack k
      (s1.setStack k { st with palRange := satInc 16 st.palRange }).lakeReply rsp k p 0x11 (lakeStatus 2) (List.replicate p.words 0#32)
    else
      match s1.palTable k ta (tableErrs rsp) with
      | (s2, .bad) => s2.lakeReply rsp k p 0x21 (ext4 0x0003) []
      | (s2, .lost) => s2
      | (s2, .table tab) =>
        let out := (List.range n).flatMap (fun i => palBlock tab ((bs.drop (33 * i)).take 33) fmt)
        s2.lakeReply rsp k p 0x11 (lakeStatus 0) (wordsOf out)
  | 7 => (s0.lakeZero a p.extent).lakeReply rsp k p 0x11 (lakeStatus 0) []
  | _ => s0.lakeReply rsp k p 0x21 (ext4 0x0005) []

/-- The 256 B blocks of lake that a range touches: each lies in one channel and one row. -/
def lakeBlocks (a len : Nat) : List Nat :=
  (List.range (len / 256 + 2)).filterMap (fun i => let b := (a / 256 + i) * 256; if b < a + len then some b else none)

/-- The blocks that a request reads or writes: its own, and for a decode piece whose table is not in the stack's cache those of the table (R202). -/
def State.lakeNeeds (s : State) (k : Nat) (p : Pkt) : List Nat :=
  lakeBlocks p.addr p.extent ++
    (if p.lakeKind = 6 ∧ p.palAddr + 8224 ≤ lakeEnd ∧ !(s.stack k).palCache.any (fun t => t.addr == p.palAddr) then lakeBlocks p.palAddr 8224 else [])

/-- The stack and channel of a lake address. -/
def State.chanOf (s : State) (a : Nat) : Nat × Nat := (lakeStack s.lake.mode a, soCh (lakeSo s.lake.mode a))

/-- Two ranges of bytes (address, length) touch one burst of 64 bytes (R205). -/
def burstsMeet (x y : Nat × Nat) : Bool := decide (x.1 / 64 ≤ (y.1 + y.2 - 1) / 64) && decide (y.1 / 64 ≤ (x.1 + x.2 - 1) / 64)

/-- The ranges that a request of stack `k` touches: its own, and that of a palette table it has to read. -/
def State.lakeRanges (s : State) (k : Nat) (p : Pkt) : List (Nat × Nat) :=
  (p.addr, p.extent) :: (if p.lakeKind = 6 ∧ p.palAddr + 8224 ≤ lakeEnd ∧ !(s.stack k).palCache.any (fun t => t.addr == p.palAddr) then [(p.palAddr, 8224)] else [])

/-- A registered request of a list at stack `k`, not packet `id` itself, touches a burst of some ranges. -/
def State.anyMeets (s : State) (k id : Nat) (ids : List Nat) (rs : List (Nat × Nat)) : Bool :=
  ids.any (fun i => match s.pkt i with
    | some q => decide (i ≠ id) && (s.lakeRanges k q).any (fun x => rs.any (burstsMeet x))
    | none => false)

/-- A request that waits, at any stack, touches a burst of `p`. -/
def State.waitsBefore (s : State) (k : Nat) (p : Pkt) : Bool :=
  (List.range 8).any (fun j => s.anyMeets j p.id (s.stack j).waitQ (s.lakeRanges k p))

/-- A request of the lake asks channel `c` of stack `k` to leave its power state (R210). -/
def State.askWake (s : State) (x : Nat × Nat) : State :=
  let st := s.stack x.1
  let v := st.chan x.2
  s.setStack x.1 (st.setChan x.2 { v with wakeReq := match v.wakeReq with
    | some w => some w
    | none => some (s.time.now + s.ptStart 1) })

/-- A registered request joins those that wait. -/
def State.lakeWait (s : State) (k id : Nat) : State :=
  let st := s.stack k
  s.setStack k { st with waitQ := st.waitQ ++ [id] }

/-- Of the channels of some blocks, the ones not in `L_ACTIVE`. -/
def State.lakeAsleep (s : State) (need : List Nat) : List (Nat × Nat) :=
  (need.map s.chanOf).eraseDups.filter (fun x => ((s.stack x.1).chan x.2).power ≠ 0)

/-- A sparing copy of a row of some blocks runs. -/
def State.lakeCopies (s : State) (need : List Nat) : Bool := need.any (fun a => (s.stack (s.chanOf a).1).copying.contains (s.rowOfAddr a))

/-- The channels of some blocks are used now. -/
def State.lakeUse (s : State) (need : List Nat) : State :=
  (need.map s.chanOf).eraseDups.foldl (fun (u : State) x =>
    let st := u.stack x.1
    u.setStack x.1 (st.setChan x.2 { st.chan x.2 with lastUse := s.time.now })) s

/-- The bursts that some ranges touch are counted (R386). -/
def State.lakeCount (s : State) (rs : List (Nat × Nat)) : State :=
  { s with lake := { s.lake with bursts := s.lake.bursts + (rs.map (fun r => (r.1 + r.2 - 1) / 64 + 1 - r.1 / 64)).sum } }

/-- The queue of a channel that a request joins (R208): 0 reads, gathers and decodes, 1 the others. It is also its rank. -/
def Pkt.lakeQueue (p : Pkt) : Nat := if p.lakeKind = 0 ∨ p.lakeKind = 5 ∨ p.lakeKind = 6 then 0 else 1

/-- The arbiters of the channels of some blocks. -/
def State.chanArbs (s : State) (need : List Nat) : List Nat := (need.map s.chanOf).eraseDups.map (fun x => x.1 * 32 + x.2)

/-- The arbiters on which another requester's transfer is in use (R166). -/
def State.chanBusy (s : State) (need : List Nat) (rank : Nat) : List Nat := (s.chanArbs need).filter (fun i => !s.mayUse 2 i rank)

/-- A transfer on every channel of some blocks (R208). -/
def State.chanUse (s : State) (need : List Nat) (rank : Nat) : State := (s.chanArbs need).foldl (fun u i => u.useGrant 2 i rank) s

/-- A request on the channels that another requester uses. -/
def State.chanAsk (s : State) (need : List Nat) (rank : Nat) : State := (s.chanBusy need rank).foldl (fun u i => u.askGrant 2 i rank) s

/-- A registered request is applied, or waits: for a channel to wake (R210), for a sparing copy of its row (R217), for an earlier request to a burst of it (R205), or for the grant of a channel
(R208). -/
def State.lakeRun (s : State) (k : Nat) (p : Pkt) (rsp : List (Nat × Nat)) : State :=
  let need := s.lakeNeeds k p
  let asleep := s.lakeAsleep need
  if !asleep.isEmpty then (asleep.foldl State.askWake s).lakeWait k p.id
  else if s.lakeCopies need || s.waitsBefore k p then s.lakeWait k p.id
  else if !(s.chanBusy need p.lakeQueue).isEmpty then (s.chanAsk need p.lakeQueue).lakeWait k p.id
  else (((s.lakeUse need).chanUse need p.lakeQueue).lakeCount (s.lakeRanges k p)).lakeApply k p rsp

/-- Tile clock cycles in ticks of 0.25 ns, rounded up. -/
def cyclesToTicks (n : Nat) : Nat := (n * 40 + 16) / 17

/-- The time before which `PT_LAKE_LAT` holds a request in the lake controller. -/
def State.ptLake (s : State) (k : Nat) : Nat :=
  let v := s.ptReg 3
  if fld v 2 0 = k ∨ bitAt v 3 then cyclesToTicks (fld v 17 4) else 0

/-- A request may be registered (R208): its queue holds fewer than 64 registered requests on each of its channels. -/
def State.lakeRoom (s : State) (k : Nat) (p : Pkt) : Bool :=
  ((lakeBlocks p.addr p.extent).map s.chanOf).all (fun x =>
    decide (((s.stack k).waitQ.filter (fun id => match s.pkt id with
      | some q => q.lakeQueue == p.lakeQueue && ((lakeBlocks q.addr q.extent).map s.chanOf).contains x
      | none => false)).length < 64))

/-- `PT_LAKE_LAT` keeps the order in which requests came to a lake controller (R459): one that came before `p` is still held there. -/
def State.ptHeldBefore (s : State) (k : Nat) (p : Pkt) : Bool :=
  decide (0 < s.ptLake k) && s.net.pkts.any (fun q => match q.dest with
    | .lake j => j == k && q.arrived && !q.inHub && decide (q.since < p.since ∨ (q.since = p.since ∧ q.id < p.id)) && !(s.stack k).waitQ.contains q.id && !(s.stack k).heldQ.contains q.id
    | _ => false)

/-- A request reaches registration (R205): the pins, the generation (R211, R213), a piece beyond lake (R199), and then its effect. `want` says which operation the row is
for; an unlisted `LOP` is answered by any of them (R194). A request beyond the 64 of its queue waits in the lake controller (R208). `req` and `rsp` name words with bits flipped at the pins. -/
def State.lakeServe (s : State) (id : Nat) (want : Pkt → Bool) (req rsp : List (Nat × Nat)) : State :=
  match s.atLake id with
  | none => s
  | some (p0, k) =>
    let st := s.stack k
    if !(want p0 || (p0.kind == 0x10 && decide (7 < p0.lakeKind ∨ p0.lakeKind = 2))) then s
    else if st.waitQ.contains id ∨ st.heldQ.contains id ∨ !s.lakeRoom k p0 ∨ s.ptHeldBefore k p0 then s
    else if s.time.now < p0.since + s.ptLake k ∧ !(s.ctx.genAt ≠ 0 ∧ p0.since ≤ s.ctx.genAt) then s
    else
      let h := pinCheck p0 req
      let s1 := s.pinFound k p0 h
      if h.badHdr || h.badData then s1.delPkt id
      else if p0.poisoned then s1.delPkt id
      else
        let p := h.p
        let st1 := s1.stack k
        if p.genChk ∧ (!s.ctx.genLive ∨ p.gen ≠ st1.gen) then
          ((s1.setStack k { st1 with genDrop := satInc 16 st1.genDrop }).delPkt id).lakeReply rsp k p 0x20 (ext4 (s1.nackWord 2)) []
        else if st1.zeroing then s1.setStack k { st1 with heldQ := st1.heldQ ++ [id] }
        else if p.kind = 0x10 ∧ lakeEnd ≤ p.addr ∧ (p.lakeKind = 4 ∨ p.lakeKind = 5) then
          let data := if p.lakeKind = 5 then List.replicate p.words 0#32 else []
          ((s1.setStack k { st1 with idxSkip := satInc 16 st1.idxSkip }).delPkt id).lakeReply rsp k p 0x11 (lakeStatus 1) data
        else (s1.setPkt p).lakeRun k p rsp

/-- What flipped at the pins on the answer of packet `id`. -/
def rspOf (rsp : List (Nat × List (Nat × Nat))) (id : Nat) : List (Nat × Nat) := Tab.get [] rsp id

/-- Serve waiting requests in the order in which they were registered. -/
def State.lakeResume (s : State) (k : Nat) (rsp : List (Nat × List (Nat × Nat))) : List Nat → State
  | [] => s
  | id :: r =>
    match s.atLake id with
    | some (p, _) => (s.lakeRun k p (rspOf rsp id)).lakeResume k rsp r
    | none => s.lakeResume k rsp r

/-- Every request that waits at a stack is tried again, in registration order. -/
def State.lakeRetry (s : State) (rsp : List (Nat × List (Nat × Nat))) : State :=
  (List.range 8).foldl (fun (u : State) k =>
    let st := u.stack k
    if st.waitQ.isEmpty then u else (u.setStack k { st with waitQ := [] }).lakeResume k rsp st.waitQ) s

end Sys2Proof.Machine
end

