-- ==== Sys2Proof/Machine/LakeCmds.lean ====
section
/-!
DEFINITION. The meanings of the lake stacks (R195 to R218) and of their channels' power states (R209, R210, R384). `req` and `rsp` name words with bits flipped at the pins on the
request and on the answer (R215); `ups` are upsets that struck lake words before; `t` is the time in ticks.
-/
namespace Sys2Proof.Machine

def execLakeRead (id : Nat) (req rsp ups : List (Nat × Nat)) (t : Nat) (s : State) : Out1 :=
  ok (((s.advance t).lakeStrike ups).lakeServe id (fun p => p.kind == 0x01) req rsp)

def execLakeWrite (id : Nat) (req rsp : List (Nat × Nat)) (t : Nat) (s : State) : Out1 :=
  ok ((s.advance t).lakeServe id (fun p => p.kind == 0x03) req rsp)

def execLakeReduce (id : Nat) (req rsp ups : List (Nat × Nat)) (t : Nat) (s : State) : Out1 :=
  ok (((s.advance t).lakeStrike ups).lakeServe id (fun p => p.lakeKind == 3) req rsp)

def execLakeScatterAdd (id : Nat) (req rsp ups : List (Nat × Nat)) (t : Nat) (s : State) : Out1 :=
  ok (((s.advance t).lakeStrike ups).lakeServe id (fun p => p.lakeKind == 4) req rsp)

def execLakeGather (id : Nat) (req rsp ups : List (Nat × Nat)) (t : Nat) (s : State) : Out1 :=
  ok (((s.advance t).lakeStrike ups).lakeServe id (fun p => p.lakeKind == 5) req rsp)

def execLakePaletteDecode (id : Nat) (req rsp ups : List (Nat × Nat)) (t : Nat) (s : State) : Out1 :=
  ok (((s.advance t).lakeStrike ups).lakeServe id (fun p => p.lakeKind == 6) req rsp)

def execLakeRangeZero (id : Nat) (req rsp : List (Nat × Nat)) (t : Nat) (s : State) : Out1 :=
  ok ((s.advance t).lakeServe id (fun p => p.lakeKind == 7) req rsp)

/-- Refresh takes its emergency grant on a channel; it reads and writes no data value (R205, R209). -/
def execLakeRefresh (k c t : Nat) (s : State) : Out1 :=
  let s0 := s.advance t
  let st := s0.stack k
  ok (s0.setStack k (st.setChan c { st.chan c with refreshed := s0.time.now }))

/-- A registered request that waits touches the burst at `a`. -/
def State.burstWaits (s : State) (a : Nat) : Bool :=
  (List.range 8).any (fun j => (s.stack j).waitQ.any (fun i => match s.pkt i with
    | some q => (s.lakeRanges j q).any (burstsMeet (a, 64))
    | none => false))

/-- The words corrected on channel `c`, with its pass over. -/
def State.passOver (s : State) (k c : Nat) : State :=
  let st := s.stack k
  let mine := fun (a : Nat) => decide (soCh (lakeSo s.lake.mode a) = c)
  s.setStack k { st with corr := st.corr.filter (fun a => !mine a), corrPrev := st.corrPrev.filter (fun a => !mine a) ++ st.corr.filter mine }

/-- Patrol scrub visits the next burst of a channel (R216): not in `L_SREF`, not during zeroing, not before a request that was registered on the burst earlier (R205), and not while another
requester's transfer is in use (R208). In `L_PDN` it asks for the wake of the channel and waits (R210, R459). A burst with a double-bit error is left as it is. -/
def execLakeScrubVisit (k c : Nat) (ups : List (Nat × Nat)) (t : Nat) (s : State) : Out1 :=
  let sa := (s.advance t).lakeStrike ups
  let sta := sa.stack k
  let ch := sta.chan c
  let a := lakeUn sa.lake.mode k (chSo c (64 * ch.scrubAt))
  if !sta.scrubEn ∨ sta.zeroing ∨ ch.power = 2 then ok sa
  else if ch.power ≠ 0 then ok (sa.askWake (k, c))
  else if sa.lakeCopies [a] ∨ sa.burstWaits a then ok sa
  else if !sa.mayUse 2 (k * 32 + c) 2 then ok (sa.askGrant 2 (k * 32 + c) 2)
  else
    let s0 := sa.useGrant 2 (k * 32 + c) 2
    let ws := s0.lakeWords a 16
    let q := if ws.any Ecc.isDbe then (s0.lake.mem, s0.lake.flips, []) else scrubBeat s0.lake.mem s0.lake.flips a
    let s1 := { s0 with lake := { s0.lake with mem := q.1, flips := q.2.1, bursts := s0.lake.bursts + 1 } }
    let s2 := s1.lakeFound 4 true a ws
    let wrap := decide (25165824 ≤ ch.scrubAt + 1)
    let st2 := s2.stack k
    let c2 := st2.chan c
    let s3 := s2.setStack k (st2.setChan c { c2 with scrubAt := if wrap then 0 else ch.scrubAt + 1,
                                                     passes := if wrap then min 0xFFFFFFFF (c2.passes + 1) else c2.passes })
    ok (if wrap then s3.passOver k c else s3)

/-- The copy of a word to the spare row: corrected, or left so that it stays detected (R217). -/
def copyWord (x : Mem × Tab Nat) (w : Nat) : Mem × Tab Nat :=
  match eccCheck (Mem.le x.1 (4 * w) 4) (Tab.get 0 x.2 w) with
  | .ok v => (Mem.store x.1 (4 * w) (leBytes 4 v), Tab.del x.2 w)
  | .fixed v => (Mem.store x.1 (4 * w) (leBytes 4 v), Tab.del x.2 w)
  | .dbe _ => x

/-- The oldest sparing copy of a stack finishes; requests that waited for it are applied to the spare row in registration order (R217).
Sparing pauses during zeroing (R212), and the copy waits where another requester's transfer is in use on its channel (R208). `rsp` names, by packet, words with bits flipped at the pins on
the answers. -/
def execLakeSpareCopyDone (k : Nat) (rsp : List (Nat × List (Nat × Nat))) (s : State) : Out1 :=
  let st := s.stack k
  match (if st.zeroing then [] else st.copying) with
  | [] => ok s
  | row :: rest =>
    let arb := k * 32 + row / 12288 / 64
    if !s.mayUse 2 arb 2 then ok (s.askGrant 2 arb 2)
    else
    let s := s.useGrant 2 arb 2
    let words := (s.lake.flips.map Prod.fst).filter (fun w => lakeStack s.lake.mode (4 * w) == k && s.rowOfAddr (4 * w) == row)
    let m := words.foldl copyWord (s.lake.mem, s.lake.flips)
    let bad := words.filter (fun w => Tab.has m.2 w)
    let n := st.bankUsed (row / 12288) - (st.copying.filter (fun r => decide (r / 12288 = row / 12288))).length
    let st1 := { st with copying := rest, spares := Tab.set st.spares row n }
    let st2 := match bad with
      | w :: _ => st1.noteDbe (lakeSo s.lake.mode (4 * w)) 5 false
      | [] => st1
    let s1 := { s with lake := { s.lake with mem := m.1, flips := m.2 } }
    let s2 := s1.setStack k st2
    let s3 := if !bad.isEmpty && s.ctx.accepted then s2.recordFault 3 true 0xFFFF k (lakeInfo st2) else s2
    ok ((s3.markDefect 4 (lakeLocation k row) n).lakeRetry rsp)

/-- Requests of one queue wait on channel `c` of stack `k`, and none of them may take part in a decision: each has an earlier registered request on a burst, a sparing copy of its row, or a
channel that sleeps before it (R208). -/
def State.queueBlocked (s : State) (k c rank : Nat) : Bool :=
  let q := (s.stack k).waitQ
  let mine := q.filterMap (fun i => match s.pkt i with
    | some p => if p.lakeQueue = rank ∧ ((s.lakeNeeds k p).map s.chanOf).contains (k, c) then some p else none
    | none => none)
  !mine.isEmpty && mine.all (fun p =>
    s.anyMeets k p.id (q.takeWhile (· ≠ p.id)) (s.lakeRanges k p) || s.lakeCopies (s.lakeNeeds k p) || !(s.lakeAsleep (s.lakeNeeds k p)).isEmpty)

/-- One beat of an arbiter: new requests register, and at the last beat of the transfer in use, or when idle, the next grant is decided (R166, R167). `reqs` gives rank,
time of registration and beats of requests that come in this beat beside those that wait already; on a lake channel a queue whose requests are all blocked does not take part (R208), and what
waited for the grant is served. `rsp` names, by packet, words with bits flipped at the pins on the answers. -/
def execArbiterGrant (kind idx : Nat) (reqs : List (Nat × Nat × Nat)) (rsp : List (Nat × List (Nat × Nat))) (s : State) : Out1 :=
  let a := s.arb kind idx
  let in_ := if kind = 2 then reqs.filter (fun r => !s.queueBlocked (idx / 32) (idx % 32) r.1) else reqs
  let a1 := in_.foldl (fun u r => u.register r.1 r.2.1 r.2.2) a
  let s1 := s.setArb kind idx (if a.beats ≤ 1 then a1.decide (arbN kind) else { a1 with beats := a.beats - 1 })
  ok (if kind = 2 then s1.lakeRetry rsp else s1)

/-- Whether a request that waits needs channel `c` of stack `k`. -/
def State.chanWaits (s : State) (k c : Nat) : Bool :=
  (List.range 8).any (fun j => (s.stack j).waitQ.any (fun id => match s.pkt id with
    | some p => ((s.lakeNeeds j p).map s.chanOf).contains (k, c)
    | none => false))

/-- A channel idle for 1 µs enters `L_PDN` (R384). -/
def execLakeChannelPdn (k c t : Nat) (s : State) : Out1 :=
  let s0 := s.advance t
  let st := s0.stack k
  let v := st.chan c
  if v.power = 0 ∧ v.wakeReq = none ∧ v.lastUse + us ≤ s0.time.now ∧ !st.zeroing ∧ !s0.chanWaits k c then ok (s0.setStack k (st.setChan c { v with power := 1 })) else ok s0

/-- A channel idle for 10 ms enters `L_SREF` while no context is accepted (R384). -/
def execLakeChannelSref (k c t : Nat) (s : State) : Out1 :=
  let s0 := s.advance t
  let st := s0.stack k
  let v := st.chan c
  if v.power ≠ 2 ∧ v.wakeReq = none ∧ v.lastUse + 10 * ms ≤ s0.time.now ∧ !s0.ctx.accepted ∧ !st.zeroing ∧ !s0.chanWaits k c then ok (s0.setStack k (st.setChan c { v with power := 2 }))
  else ok s0

/-- A request has woken a channel: it returns to `L_ACTIVE`, and the requests that waited are served in order (R210). `rsp` names, by packet, words with bits flipped at the pins on
the answers. -/
def execLakeChannelWake (k c : Nat) (rsp : List (Nat × List (Nat × Nat))) (t : Nat) (s : State) : Out1 :=
  let s0 := s.advance t
  let st := s0.stack k
  let v := st.chan c
  match v.wakeReq with
  | none => ok s0
  | some w =>
    if s0.time.now < w then ok s0
    else
      ok ((s0.setStack k (st.setChan c { v with power := 0, wakeReq := none, lastUse := s0.time.now })).lakeRetry rsp)

end Sys2Proof.Machine
end

