-- ==== Sys2Proof/Machine/Crypto.lean ====
section
/-!
DEFINITION. SHAKE256 and KMAC256, which the spec names and does not define (R316, R352, R442, R444, R464). They follow FIPS 202 and SP 800-185 (PRESUMED, log entry 14).
-/
namespace Sys2Proof

/-- A lane of the Keccak state, x and y modulo 5. -/
def kLane (a : List Dword) (x y : Nat) : Dword := a.getD (x % 5 + 5 * (y % 5)) 0#64

/-- A state by its lanes. -/
def kMake (f : Nat → Nat → Dword) : List Dword := (List.range 25).map (fun i => f (i % 5) (i / 5))

/-- The parity of column `x`. -/
def kParity (a : List Dword) (x : Nat) : Dword := (List.range 5).foldl (fun p y => p ^^^ kLane a x y) 0#64

/-- Each lane takes the parities of the columns beside its own. -/
def kTheta (a : List Dword) : List Dword :=
  let ps := (List.range 5).map (kParity a)
  kMake (fun x y => kLane a x y ^^^ ps.getD ((x + 4) % 5) 0#64 ^^^ (ps.getD ((x + 1) % 5) 0#64).rotateLeft 1)

/-- The walk of rho: the lane reached at step `t` from lane (1, 0) on turns by the triangular number of `t + 1`; lane (0, 0) does not turn. `v` collects the turns by x + 5y. -/
def kTurnWalk : Nat → Nat → Nat → Nat → List Nat → List Nat
  | 0, _, _, _, v => v
  | n + 1, t, x, y, v => kTurnWalk n (t + 1) y ((2 * x + 3 * y) % 5) (v.set (x + 5 * y) ((t + 1) * (t + 2) / 2 % 64))

def kTurns : List Nat := kTurnWalk 24 0 1 0 (List.replicate 25 0)

/-- Rho and pi: lane (x, y) goes turned to (y, 2x + 3y). -/
def kRhoPi (a : List Dword) : List Dword :=
  kMake (fun x y =>
    let src := (x + 3 * y) % 5
    (kLane a src x).rotateLeft (kTurns.getD (src + 5 * x) 0))

def kChi (a : List Dword) : List Dword := kMake (fun x y => kLane a x y ^^^ (~~~(kLane a (x + 1) y) &&& kLane a (x + 2) y))

/-- The shift register of the round constants after one step: x⁸ + x⁶ + x⁵ + x⁴ + 1. -/
def kShift (r : Nat) : Nat := if r < 128 then 2 * r else (2 * r) ^^^ 0x171

/-- The constant of the round whose register starts at `r`: its step `j` gives bit 2^j - 1, j from 0 to 6. Also the register after the seven steps. -/
def kConst : Nat → Nat → Nat → Nat × Nat
  | 0, _, r => (0, r)
  | n + 1, j, r =>
    let next := kConst n (j + 1) (kShift r)
    (r % 2 * 2 ^ (2 ^ j - 1) + next.1, next.2)

/-- Rounds from register `r` on. -/
def kRounds : Nat → Nat → List Dword → List Dword
  | 0, _, a => a
  | n + 1, r, a =>
    let k := kConst 7 0 r
    let b := kChi (kRhoPi (kTheta a))
    kRounds n k.2 (b.set 0 (b.getD 0 0#64 ^^^ BitVec.ofNat 64 k.1))

/-- Keccak-f[1600]. -/
def keccakF (a : List Dword) : List Dword := kRounds 24 1 a

/-- The bytes of a state. -/
def kBytes (a : List Dword) : List Byte := a.flatMap (fun v => leBytes 8 v.toNat)

/-- A block of 136 bytes taken into the state. -/
def kAbsorb (a : List Dword) (blk : List Byte) : List Dword :=
  keccakF ((List.range 25).map (fun i => a.getD i 0#64 ^^^ BitVec.ofNat 64 (leNat ((blk.drop (8 * i)).take 8))))

def kAbsorbAll : Nat → List Dword → List Byte → List Dword
  | 0, a, _ => a
  | n + 1, a, m => kAbsorbAll n (kAbsorb a (m.take 136)) (m.drop 136)

def kSqueeze : Nat → List Dword → List Byte
  | 0, _ => []
  | n + 1, a => (kBytes a).take 136 ++ kSqueeze n (keccakF a)

/-- The sponge with rate 136 bytes and a domain suffix. -/
def sponge (suffix : Nat) (m : List Byte) (out : Nat) : List Byte :=
  let n := m.length / 136 + 1
  let gap := n * 136 - m.length
  let pad := if gap = 1 then [BitVec.ofNat 8 (suffix ||| 0x80)] else BitVec.ofNat 8 suffix :: (List.replicate (gap - 2) 0#8 ++ [0x80#8])
  (kSqueeze (out / 136 + 1) (kAbsorbAll n (List.replicate 25 0#64) (m ++ pad))).take out

/-- SHAKE256 with an output of `out` bytes. -/
def shake256 (m : List Byte) (out : Nat) : List Byte := sponge 0x1F m out

/-- The bytes of a number, the highest first, at least one. -/
def beBytes (v : Nat) : List Byte :=
  let n := if v < 256 then 1 else if v < 65536 then 2 else if v < 16777216 then 3 else if v < 4294967296 then 4 else 8
  (leBytes n v).reverse

def leftEncode (v : Nat) : List Byte := BitVec.ofNat 8 (beBytes v).length :: beBytes v
def rightEncode (v : Nat) : List Byte := beBytes v ++ [BitVec.ofNat 8 (beBytes v).length]
def encodeString (b : List Byte) : List Byte := leftEncode (8 * b.length) ++ b

/-- `bytepad` to 136 bytes. -/
def bytepad (b : List Byte) : List Byte :=
  let x := leftEncode 136 ++ b
  x ++ List.replicate ((136 - x.length % 136) % 136) 0#8

/-- The ASCII bytes of a text. -/
def ascii (t : String) : List Byte := t.toList.map (fun c => BitVec.ofNat 8 c.toNat)

/-- KMAC256 with a customisation string and an output of `out` bytes. -/
def kmac256 (key : List Byte) (custom : String) (m : List Byte) (out : Nat) : List Byte :=
  sponge 0x04 (bytepad (encodeString (ascii "KMAC") ++ encodeString (ascii custom)) ++ bytepad (encodeString key) ++ m ++ rightEncode (8 * out)) out

end Sys2Proof
end

