-- ==== Sys2Proof/Machine/PkgOps.lean ====
section
/-!
DEFINITION. The operations over the package state that the meanings share: the state shown (R342), holds and the order-conflict log (R314), freezes (R13, R29), step headers and the completion of a
step (R125, R134), the start of a kill (R407) and the registers of fabric time (R161).
-/
namespace Sys2Proof.Machine

/-- Any holder holds (R328). -/
def State.held (s : State) : Bool := !s.m.holders.isEmpty

/-- `PKG_STATE` (R342). -/
def State.shown (s : State) : Nat :=
  if s.pkg.fenced then psFenced
  else if s.pkg.under = psTear then psTear
  else if s.held ∧ (s.pkg.under = psConf ∨ s.pkg.under = psRun ∨ s.pkg.under = psWatch) then psHold
  else s.pkg.under

def State.setUnder (s : State) (u : Nat) : State := { s with pkg := { s.pkg with under := u } }

/-- The package is in one of the states `BOOT` to `FAILED` (R340). -/
def State.booted (s : State) : Bool := decide (psBoot ≤ s.pkg.under)

/-- `NOT_READY_REASON` (R307): 0 outside `NOT_READY`. -/
def State.reasonShown (s : State) : Nat := if s.shown = psNotReady then s.pkg.reason else 0

/-! ### The order-conflict log (R314) -/

/-- An entry of the order-conflict log as a 32-byte number. -/
def orderEntry (ft opcode party other seq value otherValue : Nat) : Nat :=
  place ft 64 0 + place opcode 16 64 + place party 8 80 + place other 8 88 + place seq 32 96 + place value 64 128 + place otherValue 64 192

def State.addOrder (s : State) (opcode party other seq value otherValue : Nat) : State :=
  { s with logs := { s.logs with orders := s.logs.orders ++ [orderEntry s.time.ft opcode party other seq value otherValue] } }

/-- The earliest holder that still holds, in the code of `PARTY`: bit 0 the manager (2), bit 1 `HOLD_N` (4), bit 2 I3C (3). -/
def holderParty (b : Nat) : Nat := if b = 0 then 2 else if b = 1 then 4 else 3

/-- Hold owner of `POWER_FLAGS`: 1 manager, 2 `HOLD_N`, 3 I3C. -/
def State.holdOwner (s : State) : Nat :=
  match s.m.holders with
  | [] => 0
  | b :: _ => b + 1

/-- *Holders* of R327 as a mask. -/
def State.holdersMask (s : State) : Nat := maskOf s.m.holders

/-! ### Freezes -/

/-- Freeze or unfreeze a die; the freeze notices of a freeze that ends are over (R143). -/
def State.setFrozen (s : State) (d : Nat) (b : Bool) : State :=
  if s.frozenDie d = b then s
  else if b then { s with dieFrozen := Tab.set s.dieFrozen d true, pw := { s.pw with frozenAt := Tab.set s.pw.frozenAt d s.time.now } }
  else
    { s with
      dieFrozen := Tab.put false s.dieFrozen d false
      pw := { s.pw with frozenAt := Tab.del s.pw.frozenAt d }
      seq := { s.seq with noteSent := s.seq.noteSent.filter (fun e => decide (e.1 / 256 ≠ d)) } }

/-- Freeze dies in hardware until the next control-period boundary (R391). -/
def State.hwFreeze (s : State) (ds : List Nat) : State :=
  let s1 := { s with pw := { s.pw with hwFreeze := s.pw.hwFreeze ++ ds.filter (fun d => !s.pw.hwFreeze.contains d) } }
  ds.foldl (fun u d => u.setFrozen d true) s1

def allDies : List Nat := [0, 1, 2, 3]

/-! ### Step headers (R125) -/

def hdrField (h : List Byte) (off n : Nat) : Nat := leNat ((h.drop off).take n)
def hdrStepId (h : List Byte) : Nat := fld (hdrField h 0 4) 15 0
def hdrEntry (h : List Byte) : Nat := fld (hdrField h 0 4) 27 16
def hdrVersion (h : List Byte) : Nat := fld (hdrField h 0 4) 31 28
def hdrBudget (h : List Byte) : Nat := fld (hdrField h 4 4) 23 0
def hdrLead (h : List Byte) : Nat := fld (hdrField h 8 4) 15 0
def hdrGroup (h : List Byte) : Nat := fld (hdrField h 8 4) 23 16
def hdrTimed (h : List Byte) : Bool := bitAt (hdrField h 8 4) 24
def hdrSeed (h : List Byte) : Nat := hdrField h 12 8
def hdrStart (h : List Byte) : Nat := hdrField h 20 8
def hdrMask (h : List Byte) : Nat := hdrField h 40 72
/-- The participating TIDs, rising. -/
def hdrTids (h : List Byte) : List Nat := bitsOf 576 (hdrMask h)

/-- The wake lead in ticks: 20 ns is 80 ticks. -/
def hdrLeadTicks (h : List Byte) : Nat := 80 * hdrLead h

/-! ### Completion of a step (R134) -/

/-- A started step all of whose tiles have issued `STEP_END` (R134); a tile that has started a later step has ended this one. -/
def State.stepDone (s : State) (x : LStep) : Bool :=
  x.phase == .started && (hdrTids x.hdr).all (fun tid =>
    let t := s.ltile tid
    decide (x.serial < t.st.serial) || (t.st.serial == x.serial && t.st.ended && !t.st.active))

/-- The tile's part of a step still to be recorded ended with a near miss (R136). -/
def State.endedNear (s : State) (tid : Nat) : Bool :=
  let v := s.ltile tid
  v.st.ended && v.st.used == v.budgetLimit && s.seq.steps.any (fun x => x.serial == v.st.serial)

/-- The completion of a step is recorded: run index, `STEP_ID` and the late start; a tile that ended it at its budget is a near miss of the run (R134, R136). -/
def State.recordStep (s : State) (x : LStep) : State :=
  let near := (hdrTids x.hdr).any (fun tid => (s.ltile tid).st.serial == x.serial && s.endedNear tid)
  let q := s.seq
  { s with seq := { q with
    steps := q.steps.filter (fun (y : LStep) => decide (y.runIdx ≠ x.runIdx)), done := q.done ++ [StepDone.mk x.runIdx (hdrStepId x.hdr) x.late s.time.ft],
    runNear := q.runNear || near, lastStep := hdrStepId x.hdr, lastFt := s.time.ft } }

/-- The run ends when its last entry has completed, or when no launched entry of a stopped run is left (R134, R324). -/
def State.runEnd (s : State) : State :=
  let q := s.seq
  if q.runActive ∧ q.steps.isEmpty ∧ (q.run.length ≤ q.nextEntry ∨ q.stopReq) then
    { s with seq := { q with runActive := false, runState := 2, runsEnded := (q.runsEnded + 1) % 2 ^ 32 } }
  else s

/-! ### The start of a kill (R407) -/

/-- Every tile stops issuing; its step is abandoned. -/
def Tile.stopLine (t : Tile) : Tile :=
  { t with st := { t.st with active := false, startPending := false, startWait := false, wakeWait := false, ended := false, barFlags := [] }, iss := { t.iss with stopped := true, held := false } }

def mapTiles (f : Tile → Tile) (ts : Tab Tile) : Tab Tile := ts.map (fun e => (e.1, f e.2))

/-- A kill begins, or a teardown without `ABORT` (`cause` 0): the first row of R407. Steps already complete are recorded (R134), open ones are abandoned. A kill under way stands
(R409). -/
def State.beginKill (s : State) (cause origin abortId : Nat) (sendAbort : Bool) : State :=
  if !s.ctx.accepted ∨ s.ctx.killing then s
  else
    let s0 := ((s.seq.steps.filter s.stepDone).foldl State.recordStep s).runEnd
    let s1 := { s0 with
      tiles := mapTiles Tile.stopLine s.tiles
      seq := { s0.seq with runActive := false, runState := 3, steps := [], nextEntry := s.seq.run.length, stopReq := false }
      ctx := { s.ctx with killing := true, killDue := 0, phase := 1, killCause := cause, oldGen := s.ctx.gen, abortOrigin := origin, abortCtxId := abortId,
                          abortSent := !sendAbort, tdStart := s.time.now, glazeZeroed := false, tileZeroed := false } }
    let s2 := if cause = 0 then s1
      else s1.event 0x0009 5 (place cause 16 0 + place origin 16 16 + place s.ctx.id 32 32 + place s.ctx.gen 16 64)
    s2.setUnder psTear

/-! ### Fabric time registers -/

/-- `MASTER_CONFLICT` (R149, R154). -/
def State.masterConflict (s : State) : Bool := s.time.holdConflict || s.time.links.any (fun e => e.2.conflict)

/-- `FT_STATE` (R161). -/
def State.ftState (s : State) : Nat :=
  s.time.tstate + place (b2n s.time.ppsLocked) 1 3 + place (b2n s.masterConflict) 1 4 + place s.time.hops 5 5 + place s.time.parent 7 10
    + place (s.master.getD 0) 15 17

/-- A signed number as `w` bits. -/
def toBits (w : Nat) (v : Int) : Nat := (v % (2 ^ w : Nat)).toNat

/-- A signed number saturated to `w` bits. -/
def satBits (w : Nat) (v : Int) : Nat :=
  let m : Int := (2 ^ (w - 1) : Nat)
  toBits w (if v < -m then -m else if m - 1 < v then m - 1 else v)

/-- `FT_HOLDOVER`. -/
def State.holdoverMs (s : State) : Nat := if s.time.tstate = 4 then min 0xFFFFFFFF ((s.time.now - s.time.holdSince) / ms) else 0

/-- A register of the fabric time block at offset 0x2000 of BAR0 (R161), but for the latch. -/
def State.timeReg (s : State) (off : Nat) : Nat :=
  if off = 0x2000 then s.time.ft % 2 ^ 32
  else if off = 0x2004 then s.time.latchHi
  else if off = 0x2008 then s.ftState
  else if off = 0x200C then satBits 32 s.time.offset
  else if off = 0x2010 then s.time.delay % 2 ^ 24
  else if off = 0x2014 then toBits 32 s.time.rate
  else if off = 0x2018 then toBits 64 s.time.tai % 2 ^ 32
  else if off = 0x201C then toBits 64 s.time.tai / 2 ^ 32
  else if off = 0x2020 then s.holdoverMs
  else 0

/-- A value goes out to the party that reads `channel`. -/
def State.emit (s : State) (channel v : Nat) : State := { s with out := s.out ++ [.value channel v] }

/-! ### Error reporting of the CXL port (R289; bits and registers by PCI Express, log entry 60) -/

def aerPoisoned : Nat := 12
def aerTimeout : Nat := 14
def aerUnexpected : Nat := 16
def aerUr : Nat := 20
def aerInternal : Nat := 22
def aerAdvisory : Nat := 113
def aerCorrected : Nat := 114

/-- The Uncorrectable Error Severity register: Data Link Protocol, Flow Control Protocol, Receiver Overflow, Malformed TLP and Uncorrectable Internal errors are fatal by default. -/
def State.aerSeverity (s : State) : Nat := (Tab.find s.h.space 0x10C).getD 0x462010

/-- The error message of an AER error: `ERR_COR` 0x30, `ERR_NONFATAL` 0x31 or `ERR_FATAL` 0x33, where Device Control enables it and the mask register does not hold it back. -/
def State.aerMsg (s : State) (bit : Nat) : Option Nat :=
  let dc := Tab.get 0 s.h.space 0x48
  if 100 ≤ bit then (if bitAt dc 0 ∧ !bitAt (Tab.get 0 s.h.space 0x114) (bit - 100) then some 0x30 else none)
  else if bitAt (Tab.get 0 s.h.space 0x108) bit then none
  else if bitAt s.aerSeverity bit then (if bitAt dc 2 then some 0x33 else none)
  else if bitAt dc 1 then some 0x31
  else none

/-- An AER error is logged and reported: uncorrectable errors by their bit in the Uncorrectable Error Status register, correctable ones by 100 + bit. Channel 12 carries the messages. -/
def State.aer (s : State) (bit : Nat) : State :=
  { s with
    h := { s.h with aer := Tab.upd 0 s.h.aer bit (· + 1) }
    out := s.out ++ (match s.aerMsg bit with
      | some m => [Out.value 12 m]
      | none => []) }

def State.emitBytes (s : State) (channel : Nat) (b : List Byte) : State := { s with out := s.out ++ [.bytes channel b] }

end Sys2Proof.Machine
end

