-- ==== Sys2Proof/Machine/DmaOps.lean ====
section
/-!
DEFINITION. The DMA channels on the whole state: descriptor fields and checks (R225 to R227), the transforms (R230 to R232), requests (R228, R241), and the completion of a descriptor
(R238, R239, R242).
-/
namespace Sys2Proof.Machine

def State.ch (s : State) (c : Nat) : DmaCh := Tab.get DmaCh.reset s.dma c
def State.setCh (s : State) (c : Nat) (v : DmaCh) : State := { s with dma := Tab.set s.dma c v }

/-- In `HOLD` and in `FENCED` every channel is paused (R244). -/
def State.dmaPaused (s : State) : Bool := s.shown == psHold || s.pkg.fenced || s.gate

/-- The package states in which a channel may begin a descriptor (R244). -/
def State.dmaMay (s : State) : Bool :=
  !s.dmaPaused && (s.pkg.under == psConf || s.pkg.under == psRun || s.pkg.under == psWatch)

/-- `DMA_STATUS.STATE`. -/
def State.dmaShown (s : State) (c : Nat) : Nat := if s.dmaPaused then 4 else (s.ch c).state

/-! ### The descriptor (R225) -/

def DmaDesc.w (d : DmaDesc) (i : Nat) : Nat := d.words.getD i 0
def DmaDesc.w64 (d : DmaDesc) (i : Nat) : Nat := d.w i + d.w (i + 1) * 2 ^ 32
def DmaDesc.last (d : DmaDesc) : Bool := bitAt (d.w 0) 30
def DmaDesc.flagEn (d : DmaDesc) : Bool := bitAt (d.w 0) 28
def DmaDesc.mirror (d : DmaDesc) : Bool := bitAt (d.w 0) 26
def DmaDesc.xform (d : DmaDesc) : Nat := fld (d.w 0) 18 16
def DmaDesc.len (d : DmaDesc) : Nat := d.w 1
def DmaDesc.srcA (d : DmaDesc) : Nat := d.w64 2
def DmaDesc.dstA (d : DmaDesc) : Nat := d.w64 4
def DmaDesc.nextA (d : DmaDesc) : Nat := d.w64 6
def DmaDesc.auxA (d : DmaDesc) : Nat := d.w64 12
def DmaDesc.xp (d : DmaDesc) : Nat := d.w 8
def DmaDesc.join (d : DmaDesc) : Bool := bitAt (d.w 8) 31

def isHostA (a : Nat) : Bool := !bitAt a 63
def dmaLpn (a : Nat) : Nat := fld a 55 41
def dmaLocal (a : Nat) : Nat := fld a 40 0

/-- A stream of `n` bytes from an address that keeps the rules of R227. -/
def streamOk (a n : Nat) : Bool :=
  if isHostA a then true
  else fld a 62 56 == 0 && a % 4 == 0 && n % 4 == 0 && (match regionRange (dmaLocal a) n with
    | .none_ => false
    | _ => true)

/-- A descriptor address that keeps the rules of R227. -/
def State.nextOk (s : State) (a : Nat) : Bool :=
  a % 64 == 0 && (isHostA a || (fld a 62 56 == 0 && dmaLpn a == s.lpn && decide (dmaLocal a + 64 ≤ lakeEnd)))

/-! ### Transforms (R230 to R232) -/

/-- Element size, groups and elements of `ILV`. -/
def ilvE (xp : Nat) : Nat := 2 ^ fld xp 1 0
def ilvG (xp : Nat) : Nat := fld xp 13 2 + 1

/-- Bits of a `BPL` element. -/
def bplW (xp : Nat) : Nat := if bitAt xp 0 then 6 else 4

/-- Element bytes of an MX block. -/
def mxsB (xp : Nat) : Nat :=
  let f := fld xp 3 0
  if f = 7 ∨ f = 8 ∨ f = 0xC then 32 else if f = 9 ∨ f = 0xA then 24 else 16

/-- `XPARAM` and `LEN` keep the rules of the transform. -/
def DmaDesc.xformOk (d : DmaDesc) : Bool :=
  match d.xform with
  | 0 => d.xp == 0
  | 1 => fld d.xp 1 0 != 3 && fld d.xp 30 14 == 0 && d.len % (ilvG d.xp * ilvE d.xp) == 0
  | 2 => fld d.xp 30 1 == 0 && d.len % bplW d.xp == 0
  | 3 => decide (7 ≤ fld d.xp 3 0) && decide (fld d.xp 3 0 ≤ 0xC) && fld d.xp 30 4 == 0 && d.len % mxsB d.xp == 0
  | _ => false

/-- Blocks of an `MXS`, and the lengths of the streams at `SRC`, `DST` and `AUX`. -/
def DmaDesc.nb (d : DmaDesc) : Nat := d.len / mxsB d.xp
def DmaDesc.joined (d : DmaDesc) : Nat := d.nb * (mxsB d.xp + 1)
def DmaDesc.srcLen (d : DmaDesc) : Nat := if d.xform = 3 ∧ !d.join then d.joined else d.len
def DmaDesc.dstLen (d : DmaDesc) : Nat := if d.xform = 3 ∧ d.join then d.joined else d.len
def DmaDesc.auxSrcLen (d : DmaDesc) : Nat := if d.xform = 3 ∧ d.join then d.nb else 0
def DmaDesc.auxDstLen (d : DmaDesc) : Nat := if d.xform = 3 ∧ !d.join then d.nb else 0

/-- Bit `b` of element `k` in the packed stream of W-bit elements, lowest bits first (R59): its byte and its place. -/
def packedBit (w k b : Nat) : Nat × Nat := ((k * w + b) / 8, (k * w + b) % 8)

/-- Eight bits as a byte, where all are known. -/
def gatherBits (f : Nat → Option Bool) : Option Byte :=
  (List.range 8).foldl (fun (m : Option Byte) i =>
    match m, f i with
    | some v, some b => some (v + BitVec.ofNat 8 (b2n b * 2 ^ i))
    | _, _ => none) (some 0#8)

def DmaDesc.srcBit (d : DmaDesc) (byte bit : Nat) : Option Bool := (Tab.find d.src byte).map (fun v => bitAt v.toNat bit)

/-- Byte `o` of the stream at `DST`, where its source bytes have been read. -/
def DmaDesc.dstByte (d : DmaDesc) (o : Nat) : Option Byte :=
  match d.xform with
  | 0 => Tab.find d.src o
  | 1 =>
    let e := ilvE d.xp
    let g := ilvG d.xp
    let n := d.len / (g * e)
    if d.join then Tab.find d.src ((o % (g * e) / e * n + o / (g * e)) * e + o % e)
    else Tab.find d.src ((o % (n * e) / e * g + o / (n * e)) * e + o % e)
  | 2 =>
    let w := bplW d.xp
    let pl := d.len / w
    if d.join then
      -- packed byte o: each bit is bit b of element k, at bit k mod 8 of byte k ÷ 8 of plane b
      gatherBits (fun i => let q := o * 8 + i; let k := q / w; d.srcBit (q % w * pl + k / 8) (k % 8))
    else
      gatherBits (fun i => let k := o % pl * 8 + i; let p := packedBit w k (o / pl); d.srcBit p.1 p.2)
  | _ =>
    let b := mxsB d.xp
    if d.join then
      (if o % (b + 1) = 0 then Tab.find d.auxSrc (o / (b + 1)) else Tab.find d.src (o / (b + 1) * b + o % (b + 1) - 1))
    else Tab.find d.src (o / b * (b + 1) + 1 + o % b)

/-- Byte `o` of the scale stream of an `MXS` split. -/
def DmaDesc.auxByte (d : DmaDesc) (o : Nat) : Option Byte := Tab.find d.src (o * (mxsB d.xp + 1))

/-- The bytes `off` to `off + n − 1` of a stream, where all are known. -/
def bytesFrom (f : Nat → Option Byte) (off n : Nat) : Option (List Byte) :=
  (List.range n).foldr (fun i m =>
    match f (off + i), m with
    | some b, some r => some (b :: r)
    | _, _ => none) (some [])

/-- Whether a descriptor is invalid (R226). -/
def State.descBad (s : State) (c : Nat) (d : DmaDesc) : Bool :=
  fld (d.w 0) 25 19 != 0 || d.w 9 != 0 || fld (d.w 10) 31 16 != 0 || fld (d.w 11) 31 16 != 0 || decide (3 < d.xform) || d.len == 0 || !d.xformOk
    || !streamOk d.srcA d.srcLen || !streamOk d.dstA d.dstLen
    || (if d.xform = 3 then !streamOk d.auxA d.nb else d.auxA != 0)
    || (d.mirror && (s.ch c).claim != 2)
    || (d.flagEn && (decide (575 < fld (d.w 10) 9 0) || !s.ctx.accepted))

/-! ### Requests -/

/-- The length of the next request of a stream: at most 256 bytes, and not over a 256-byte boundary of its address (R228). -/
def reqLen (a left : Nat) : Nat := min left (256 - a % 256)

/-- Requests outstanding on all channels. -/
def State.dmaTotal (s : State) : Nat := ((List.range 16).map (fun c => (s.ch c).reqs.length)).foldl (· + ·) 0

/-- A channel at either limit waits (R228). -/
def State.dmaRoom (s : State) (c : Nat) : Bool := decide ((s.ch c).reqs.length < 1024) && decide (s.dmaTotal < 4096)

/-- The end of a request's timer. -/
def State.dmaExpiry (s : State) (c : Nat) : Nat := s.time.now + max 1 (s.ch c).timeoutUs * us

/-- The token of a channel's next request: none of an outstanding request, and, where one is left, none whose late answer may still come. -/
def DmaCh.token (v : DmaCh) : Nat :=
  let cand := (List.range 1024).map (fun i => (v.tokSeq + i) % 1024)
  let free := cand.filter (fun k => !v.reqs.any (fun r => r.tok == k))
  match free.find? (fun k => !v.late.any (fun e => e.1 == k)) with
  | some k => k
  | none => free.headD 0

/-- Register a request of a channel under a token. -/
def State.dmaNote (s : State) (c what off len : Nat) (host : Bool) : State × Nat :=
  let v := s.ch c
  let tok := v.token
  (s.setCh c { v with tokSeq := (tok + 1) % 1024, reqs := v.reqs ++ [⟨tok, what, off, len, host, s.dmaExpiry c⟩] }, tok)

/-- A package-side request of a channel: into the die networks, or to another package (R227). `mir` marks the mirror class, whose words 4 and 5 are the point and the units (R432). -/
def State.dmaPkg (s : State) (c tok a kind words : Nat) (data : List Word) (mir : Bool) : State :=
  let q : Pkt :=
    { id := 0, kind := kind, addr := dmaLocal a, lpn := dmaLpn a, tag := 0x1000 + c * 1024 + tok, srcEp := 0, dstEp := 0, words := words, gen := (s.ch c).tagGen, genChk := !mir,
      ext := if mir then [s.spr.txPoint, s.spr.txUnits, 0, 0] else [0, 0, 0, 0], data := data, asker := .dma c, dest := .hub 0, inHub := true, hub := 0, die := 0, plane := 0,
      row := 0, col := 0, trow := 0, tcol := 0, hops := 0, arrived := false, poisoned := false, via := [], since := 0, inp := 4, copyOf := none }
  if dmaLpn a = s.lpn then s.hubIn q else s.hubOut q mir

/-- A read request, of either side. -/
def State.dmaRead (s : State) (c what a off len : Nat) (mir : Bool) : State :=
  let r := s.dmaNote c what off len (isHostA a)
  if isHostA a then r.1 else r.1.dmaPkg c r.2 a 0x01 (len / 4) [] mir

/-- A range of the destination stream is written. -/
def DmaDesc.wrote (d : DmaDesc) (off len : Nat) : DmaDesc := { d with written := d.written ++ [(off, len)] }

/-- A write: a posted write to host memory is written when issued; a package-side one waits for its answer. -/
def State.dmaWrite (s : State) (c what a off : Nat) (bs : List Byte) (mir : Bool) : State :=
  if isHostA a then
    let s1 := { s with h := { s.h with mem := if s.h.linkUp then Mem.store s.h.mem a bs else s.h.mem } }
    let v := s1.ch c
    match v.cur with
    | some d => if what = 5 then s1.setCh c { v with cur := some (d.wrote off bs.length) } else s1
    | none => s1
  else
    let r := s.dmaNote c what off bs.length false
    r.1.dmaPkg c r.2 a 0x03 (bs.length / 4) (wordsOf bs) mir

/-! ### Beginning and completing (R233, R237 to R243) -/

/-- The largest c such that the first c bytes of the destination stream are written. -/
def prefixOf (rs : List (Nat × Nat)) : Nat → Nat → Nat
  | 0, c => c
  | n + 1, c =>
    match rs.find? (fun r => decide (r.1 ≤ c) && decide (c < r.1 + r.2)) with
    | some r => prefixOf rs n (r.1 + r.2)
    | none => c

/-- `BYTES_DONE` (R239). -/
def DmaDesc.bytesDone (d : DmaDesc) : Nat := prefixOf d.written (d.written.length + 1) 0

/-- The channel enters `HALTED` (R242): `FAULTS` bit 7, which kills nothing. -/
def State.dmaHalt (s : State) (c : Nat) : State :=
  (s.setCh c { s.ch c with state := 3 }).recordFault 7 false 0xFFFF c 0

/-- A descriptor read fails (R233). -/
def State.dmaFetchFail (s : State) (c code : Nat) : State :=
  (s.setCh c { s.ch c with fetchErr := true, fetching := false, lastStatus := code, cur := none }).dmaHalt c

/-- The address that the descriptors of the mirror chain are given: the firmware keeps the chain in its own memory, whose place the spec does not state (log entry 90). No `DMA_NEXT` names it. -/
def chainAddr : Nat := 2 ^ 64

/-- A descriptor of the chain that `MIRROR_POINT` starts. -/
def DmaDesc.chain (d : DmaDesc) : Bool := d.addr == chainAddr

/-- The longest piece of a region that one descriptor of the chain copies. -/
def chainMax : Nat := 2 ^ 31

/-- What the chain copies from mirror offset `o` on: the local address and the length of the next descriptor (R432). -/
def chainAt : List (Nat × Nat) → Nat → Option (Nat × Nat)
  | [], _ => none
  | (a, n) :: r, o => if o < n then some (a + o, min chainMax (n - o)) else chainAt r (o - n)

/-- The words of a descriptor of the chain: `OWN`, `MIRROR`, the region's local address and, at the spare, the mirror offset (R432). -/
def State.chainWords (s : State) (a n : Nat) : List Nat :=
  let own := 2 ^ 63 + s.lpn % 2 ^ 15 * 2 ^ 41 + a % 2 ^ 41
  let dst := 2 ^ 63 + (match s.spr.members with
    | m :: _ => m.lpn
    | [] => 0) % 2 ^ 15 * 2 ^ 41 + s.spr.txDone % 2 ^ 41
  [2 ^ 31 + 2 ^ 26, n, own % 2 ^ 32, own / 2 ^ 32, dst % 2 ^ 32, dst / 2 ^ 32, 0, 0, 0, 0, 0, 0, 0, 0, 0, 0]

/-- The chain goes on with its next descriptor; at its end the point is complete (R432). -/
def State.chainNext (s : State) (c : Nat) : State :=
  match chainAt s.spr.regions s.spr.txDone with
  | none => { s.setCh c { s.ch c with state := 0, cur := none, fetching := false } with spr := { s.spr with copying := false, txLast := s.spr.txPoint } }
  | some (a, n) =>
    s.setCh c { s.ch c with
      state := 1, fetching := false, stopReq := false, tagGen := s.ctx.gen, cur := some (DmaDesc.start (s.chainWords a n) chainAddr s.ctx.gen) }

/-- A cycle of the 2.0 GHz DMA clock (R228, R237, R241, R242). -/
def dmaCyc (t : Nat) : Nat := t / 2

/-- The channel comes to read the descriptor at `DMA_NEXT` (R233). -/
def State.dmaFetch (s : State) (c : Nat) : State := s.setCh c { s.ch c with state := 1, fetching := true, stopReq := false }

/-- A descriptor read that waits is issued once the package state and the request limits allow it (R228, R244); while a point is being copied, `DMA15` runs the chain instead. -/
def State.dmaIssue (s : State) (c : Nat) : State :=
  let v := s.ch c
  if !v.fetching ∨ v.reqs.any (fun r => r.what == 1) ∨ !s.dmaMay then s
  else if c = 15 ∧ s.spr.copying then s.chainNext c
  else if !s.nextOk v.next then s.dmaFetchFail c 0x02
  else if !s.dmaRoom c then s
  else (s.setCh c { v with tagGen := s.ctx.gen }).dmaRead c 1 v.next 0 64 false

/-- A failure is registered: the first stands, the lower code of one cycle (R242). After a stop the descriptor ends with `DMA_S_STOP` (R237). -/
def State.dmaFail (s : State) (c code : Nat) : State :=
  let v := s.ch c
  match v.cur with
  | none => s
  | some d =>
    if d.stage ≠ 0 ∨ v.stopReq then s
    else
      match d.fail with
      | none => s.setCh c { v with cur := some { d with fail := some code, failAt := s.time.now } }
      | some k => s.setCh c { v with cur := some { d with fail := some (if dmaCyc d.failAt = dmaCyc s.time.now then min k code else k) } }

/-- A fetched or shadowed descriptor runs with the generation `g` at which it began as its `TAG_GEN`: that of its read, or that of its predecessor's completion. It fails with `DMA_S_GEN` where the
generation has changed since or is not the one it names, or with `DMA_S_DESC`, or it runs (R226, R233, R240). -/
def State.dmaBegin (s : State) (c : Nat) (ws : List Nat) (a g : Nat) : State :=
  let d := DmaDesc.start ws a g
  let s1 := s.setCh c { s.ch c with state := 1, fetching := false, tagGen := g, cur := some d }
  if g ≠ s.ctx.gen then s1.dmaFail c 6
  else if s.descBad c d then s1.dmaFail c 1
  else if bitAt (d.w 0) 27 ∧ fld (d.w 11) 15 0 ≠ s.ctx.gen then s1.dmaFail c 6
  else s1

/-- The copy of a point ends incomplete with `DMA_S_GEN`: the generation has changed between two descriptors of the chain (R240, R434). -/
def State.chainStop (s : State) (c : Nat) : State :=
  ({ s.setCh c { s.ch c with cur := none, fetching := false, lastStatus := 6 } with spr := { s.spr with copying := false } }).dmaHalt c

/-- A descriptor of the mirror chain has ended: the point is complete, the next one follows, or the copy ends incomplete (R432, R434). -/
def State.chainEnd (s : State) (c : Nat) (d : DmaDesc) (code : Nat) : State :=
  let v := s.ch c
  let s1 := s.setCh c { v with cur := none, lastStatus := code, done := (v.done + 1) % 2 ^ 32, stopReq := false }
  if code = 0 then
    let s2 := { s1 with spr := { s1.spr with txDone := s1.spr.txDone + d.len } }
    if (chainAt s2.spr.regions s2.spr.txDone).isNone then s2.chainNext c
    else if d.gen ≠ s2.ctx.gen then s2.chainStop c
    else s2.dmaFetch c
  else
    let s2 := { s1 with spr := { s1.spr with copying := false } }
    if code = 8 then s2.setCh c { s2.ch c with state := 0, pend := false } else s2.dmaHalt c

/-- All data of the descriptor has moved. -/
def DmaDesc.allIssued (d : DmaDesc) : Bool :=
  decide (d.srcLen ≤ d.readAt) && decide (d.auxSrcLen ≤ d.auxReadAt) && decide (d.dstLen ≤ d.writeAt) && decide (d.auxDstLen ≤ d.auxWriteAt)

/-- The data requests of a channel. -/
def DmaReq.isData (r : DmaReq) : Bool := r.what == 0 || r.what == 5 || r.what == 6 || r.what == 7

/-- The status a descriptor has come to: after a failure or a stop once nothing is outstanding (R242, R237); 0 once its last data request is answered (R238, step 1), after a stop only
where that answer was registered in the stop's own cycle (R237). -/
def State.dmaDue (s : State) (c : Nat) (d : DmaDesc) : Option Nat :=
  let v := s.ch c
  match d.fail with
  | some code => if v.reqs.isEmpty then some code else none
  | none =>
    if d.allIssued ∧ !v.reqs.any DmaReq.isData ∧ (!v.stopReq ∨ dmaCyc v.stopAt = dmaCyc s.time.now) then some 0
    else if v.stopReq ∧ v.reqs.isEmpty then some 8
    else none

/-- Step 1 of R238. -/
def State.dmaDecide (s : State) (c : Nat) : State :=
  let v := s.ch c
  match v.cur with
  | some d =>
    if d.stage ≠ 0 then s
    else
      match s.dmaDue c d with
      | some code => s.setCh c { v with cur := some { d with stage := 1, fail := some code } }
      | none => s
  | none => s

/-- The tile flag increment of a descriptor (R238, step 2): the tile applies it where the generation is its own (R35). At a tile of a gated row it is queued and wakes no row, and no late wake counts
(DESIGN CHOICE, log entry 117): R46 speaks of a transfer, and the spec does not say whether an increment is one. -/
def State.dmaFlag (s : State) (d : DmaDesc) : State :=
  if d.flagEn ∧ s.ctx.accepted ∧ d.gen = s.ctx.gen then
    s.onTile (s.ptiOf (fld (d.w 10) 9 0)) (fun t => { t with iss := { t.iss with arrive := t.iss.arrive ++ [fld (d.w 10) 15 10] } })
  else s

/-- A write of the channel to a descriptor's place may issue: to host memory at once, to lake where the limits of R228 leave room. -/
def State.dmaPut (s : State) (c a : Nat) : Bool := !s.dmaPaused && (isHostA a || s.dmaRoom c)

/-- Steps 2 and 3 of R238, once word 0 of the chain's last descriptor is written, and after a failure once nothing is outstanding. -/
def State.dmaStatus (s : State) (c : Nat) : State :=
  let v := s.ch c
  match v.cur with
  | some d =>
    let code := d.fail.getD 0
    if d.stage ≠ 1 then s
    else if d.chain then (if s.dmaPaused then s else s.chainEnd c d code)
    else if !s.dmaPut c d.addr ∨ v.reqs.any (fun r => r.what == 4) ∨ (code ≠ 0 ∧ !v.reqs.isEmpty) then s
    else
      let s1 := if code = 0 then s.dmaFlag d else s
      let s2 := s1.setCh c { s1.ch c with cur := some { d with stage := 3 } }
      s2.dmaWrite c 3 (d.addr + 56) 0 (leBytes 4 (code + place d.gen 16 16) ++ leBytes 4 d.bytesDone) false
  | none => s

/-- A read still outstanding whose answer will be discarded. -/
def DmaReq.cancel (w : Nat) (r : DmaReq) : DmaReq := if r.what = w then { r with what := 8 } else r

/-- The status write is answered: word 0 is written with `OWN` = 0 (R238, step 4), and the channel halts, idles, or goes on to the next descriptor, which it takes from the shadow
where that was read with `OWN` = 1 and reads again otherwise (R233, R234, R237). -/
def State.dmaClose (s : State) (c : Nat) : State :=
  match (s.ch c).cur with
  | some d =>
    let code := d.fail.getD 0
    if d.stage ≠ 3 ∨ (s.ch c).reqs.any (fun r => r.what == 3) ∨ !s.dmaPut c d.addr then s
    else
      let s1 := s.dmaWrite c 4 d.addr 0 (leBytes 4 (d.w 0 % 2 ^ 31)) false
      let v := s1.ch c
      let v1 := { v with cur := none, lastStatus := code, done := (v.done + 1) % 2 ^ 32, stopReq := false, shadow := none, reqs := v.reqs.map (DmaReq.cancel 2) }
      if code = 0 then
        let s2 := s1.setCh c { v1 with next := d.nextA, state := 0, okAt := some s.time.now }
        if d.last || v.stopReq then s2
        else
          match v.shadow with
          | some ws => if bitAt (ws.getD 0 0) 31 ∧ s2.dmaMay then s2.dmaBegin c ws d.nextA s2.ctx.gen else s2.dmaFetch c
          | none => s2.dmaFetch c
      else if code = 8 then s1.setCh c { v1 with next := d.addr, state := 0, pend := false }
      else (s1.setCh c { v1 with next := d.addr }).dmaHalt c
  | none => s

/-- What a channel's current descriptor can do of R238's steps. -/
def State.dmaPass (s : State) (c : Nat) : State := ((s.dmaDecide c).dmaStatus c).dmaClose c

/-- The channel goes on as far as it can: the descriptor it runs completes where that is due; one taken from the shadow that fails as it begins completes behind it; a descriptor read
that waits is issued. -/
def State.dmaCheck (s : State) (c : Nat) : State := ((s.dmaPass c).dmaPass c).dmaIssue c

/-- After a request of channel `c` is over: the channel goes on, and so does every channel that waited at the common limit (R228). -/
def State.dmaSettle (s : State) (c : Nat) : State := (List.range 16).foldl State.dmaCheck (s.dmaCheck c)

/-- The doorbell's effect by state (R236). -/
def State.dmaRing (s : State) (c : Nat) : State :=
  let v := s.ch c
  if !s.dmaMay ∨ v.state = 1 then s.setCh c { v with pend := true }
  else if v.state = 2 then (s.dmaFetch c).dmaIssue c
  else ((s.setCh c { v with fetchErr := false, lastStatus := 0 }).dmaFetch c).dmaIssue c

/-- The package's generation has changed: every running descriptor ends with `DMA_S_GEN` (R240), and so does the copy of a point between two descriptors of its chain (R434). -/
def State.dmaGenChange (s : State) : State :=
  let s1 := if s.spr.copying ∧ (s.ch 15).cur.isNone then s.chainStop 15 else s
  (List.range 16).foldl (fun u c => if (u.ch c).cur.isSome then (u.dmaFail c 6).dmaCheck c else u) s1

/-- The pause or the states without descriptors end (R244): pending doorbells are acted on, and what waited goes on. -/
def State.dmaResume (s : State) : State :=
  (List.range 16).foldl (fun u c =>
    let u1 := u.dmaCheck c
    let v := u1.ch c
    if v.pend ∧ u1.dmaMay ∧ v.state ≠ 1 then (u1.setCh c { v with pend := false }).dmaRing c else u1) s

/-- A change of configuration leaves every channel `IDLE` with `DMA_NEXT` 0; the claims follow `claim`. A doorbell rung while no channel may begin stays pending for the entry into
`CONFIGURED` (R244). -/
def State.dmaConfigure (s : State) (claim : Nat → Nat) : State :=
  { s with spr := { s.spr with copying := false }, dma := (List.range 16).map (fun c => (c, { s.ch c with
      state := 0, next := 0, pend := (s.ch c).pend && !s.dmaMay, cur := none, fetching := false, shadow := none, stopReq := false, reqs := [],
      late := (s.ch c).late ++ (s.ch c).reqs.map (fun r => (r.tok, r.host)), claim := claim c })) }

end Sys2Proof.Machine
end

