-- ==== Sys2Proof/Machine/Dma.lean ====
section
/-!
DEFINITION. The meanings of the DMA channels (R222 to R244). `byHost` says that the host writes the register: it reaches `HOST` channels only (R224). For a host request, `code` is 0 for data and 1 for a
completion with an error or poisoned data, and `data` holds the bytes, first byte lowest; a package-side answer is the packet that has arrived. `t` is the time of the event.
-/
namespace Sys2Proof.Machine

/-- A register write of the host to a channel that is not claimed by `HOST` is ignored (R224). -/
def State.dmaReach (s : State) (c : Nat) (byHost : Bool) : Bool := decide (c < 16) && (!byHost || (s.ch c).claim == 1)

def execDmaDoorbell (c : Nat) (byHost : Bool) (t : Nat) (s : State) : Out1 :=
  let s0 := s.advance t
  ok (if s0.dmaReach c byHost then s0.dmaRing c else s0)

/-- A stop (R237): no new request is issued and the shadow is discarded, its read with it; with a doorbell in the same write the stop wins. A descriptor that only just followed one
completed in the stop's own cycle has issued nothing: the channel is idle in front of it. -/
def State.dmaStop (s : State) (c : Nat) : State :=
  let v := s.ch c
  let fresh := match v.cur, v.okAt with
    | some d, some a => decide (dmaCyc a = dmaCyc s.time.now) && d.stage == 0 && d.readAt == 0 && d.auxReadAt == 0 && d.fail.isNone && !d.chain
    | _, _ => false
  let cur := if fresh then none else v.cur
  let s1 := s.setCh c { v with
    cur := cur, stopReq := cur.isSome, stopAt := s.time.now, shadow := none, pend := false, fetching := false, state := if cur.isSome then v.state else 0,
    reqs := (v.reqs.map (DmaReq.cancel 1)).map (DmaReq.cancel 2) }
  s1.dmaCheck c

def execDmaStop (c : Nat) (byHost : Bool) (t : Nat) (s : State) : Out1 :=
  let s0 := s.advance t
  ok (if s0.dmaReach c byHost then s0.dmaStop c else s0)

/-- A write of a half of `DMA_NEXT` (R236). -/
def execDmaNextWrite (c : Nat) (byHost hi : Bool) (v : Nat) (s : State) : Out1 :=
  let x := s.ch c
  if s.dmaReach c byHost ∧ !s.dmaPaused ∧ (x.state = 0 ∨ x.state = 3) then
    let n := if hi then x.next % 2 ^ 32 + place v 32 32 else x.next / 2 ^ 32 * 2 ^ 32 + v % 2 ^ 32
    ok (s.setCh c { x with next := n })
  else ok s

/-! ### Answers -/

/-- The status a package-side answer stands for (R243); 0 for data and acknowledgements. -/
def pktStatus (p : Pkt) : Nat :=
  if p.poisoned then 5
  else if p.kind = 0x20 then 6
  else if p.kind = 0x21 then
    (let e := fld (p.extWord 0) 15 0
     if e = 2 ∨ e = 3 then 5 else if e = 4 then 7 else 2)
  else 0

/-- The packet that answers request `tok` of channel `c`. -/
def Pkt.answers (c tok : Nat) (p : Pkt) : Bool := p.arrived && p.inHub && p.asker == .dma c && p.tag == 0x1000 + c * 1024 + tok && isRsp p.kind

/-- The answer to request `tok` of channel `c`: its status and data, and the state without it. -/
def State.dmaAnswer (s : State) (c : Nat) (r : DmaReq) (code : Nat) (data : BitVec 2048) : Option (Nat × List Byte × State) :=
  if r.host then some (if code = 0 then (0, leBytes r.len data.toNat, s) else (3, [], s))
  else
    match s.net.pkts.find? (Pkt.answers c r.tok) with
    | none => none
    | some p =>
      let s1 := s.delPkt p.id
      let s2 := if p.kind = 0x20 then { s1 with faults := { s1.faults with nackRx := satInc 16 s1.faults.nackRx } } else s1
      some (pktStatus p, bytesOfWords p.data, s2)

/-- A request is answered in time: its timer ends, and an answer at the expiry edge is a near miss (R241). -/
def State.dmaTake (s : State) (c : Nat) (r : DmaReq) : State :=
  let v := s.ch c
  s.setCh c { v with reqs := v.reqs.erase r, nearMiss := if dmaCyc r.expires = dmaCyc s.time.now then satInc 16 v.nearMiss else v.nearMiss }

/-- An answer that comes now is in time (R241). -/
def State.dmaInTime (s : State) (r : DmaReq) : Bool := decide (dmaCyc s.time.now ≤ dmaCyc r.expires)

/-- An answer to a request given up before is discarded; a host completion is then an Unexpected Completion (R289). A package-side answer still on its way keeps its mark, so that its token is not
free before. -/
def State.dmaLate (s : State) (c tok : Nat) : State :=
  let v := s.ch c
  let unexpected := v.late.any (fun e => e.1 == tok && e.2)
  let s0 := s.setCh c { v with late := v.late.filter (fun e => decide (e.1 ≠ tok) || (!e.2 && !s.net.pkts.any (Pkt.answers c tok))) }
  let s1 := if unexpected then s0.aer aerUnexpected else s0
  match s1.net.pkts.find? (Pkt.answers c tok) with
  | some p => s1.delPkt p.id
  | none => s1

/-- A status write has failed: where the descriptor would have completed with `DMA_S_OK`, its status becomes that of the failure and step 3 is taken again; a status recorded first
stands, and step 4 follows. -/
def State.dmaStatusFail (s : State) (c code : Nat) : State :=
  let v := s.ch c
  match v.cur with
  | some d => if d.stage = 3 ∧ d.fail = some 0 then s.setCh c { v with cur := some { d with stage := 1, fail := some code, failAt := s.time.now } } else s
  | none => s

/-- A request's timer has expired (R241): its descriptor ends with `DMA_S_TIMEOUT`, a descriptor read fails, and a shadow read is not reported. -/
def State.dmaExpire (s : State) (c : Nat) (r : DmaReq) : State :=
  let v := s.ch c
  let s0 := s.setCh c { v with reqs := v.reqs.erase r, late := v.late ++ [(r.tok, r.host)] }
  let s1 := if r.host then s0.aer aerTimeout else s0
  let s2 := if r.what = 1 then s1.dmaFetchFail c 4
    else if r.what = 3 then s1.dmaStatusFail c 4
    else if r.isData then s1.dmaFail c 4
    else s1
  s2.dmaSettle c

/-- The first request of a channel for a purpose. -/
def DmaCh.req (v : DmaCh) (f : DmaReq → Bool) : Option DmaReq := v.reqs.find? f

/-- The sixteen words of a descriptor. -/
def descWords (bs : List Byte) : List Nat := (List.range 16).map (fun i => leNat ((bs.drop (4 * i)).take 4))

/-- The copy of a descriptor that the channel has read (R233): it parks, or reads again for a pending doorbell (R236), or runs the descriptor. In a state in which no channel begins one (R244) the
copy is dropped, and the read is repeated once the state allows it; a generation that has changed since the read was issued ends the descriptor (R240). -/
def State.dmaCopyRead (s : State) (c : Nat) (ws : List Nat) : State :=
  let v := s.ch c
  if bitAt (ws.getD 0 0) 31 then (if v.tagGen = s.ctx.gen ∧ !s.dmaMay ∧ !s.dmaPaused then s.dmaFetch c else s.dmaBegin c ws v.next v.tagGen)
  else if v.pend then (s.setCh c { v with pend := false }).dmaFetch c
  else s.setCh c { v with fetching := false, state := 2 }

/-- A descriptor read completes (R233): the channel halts, parks, or runs the descriptor. -/
def execDmaDescFetch (c code : Nat) (data : BitVec 2048) (t : Nat) (s : State) : Out1 :=
  let s0 := s.advance t
  match (s0.ch c).req (fun r => r.what == 1) with
  | none => ok s0
  | some r =>
    match s0.dmaAnswer c r code data with
    | none => ok s0
    | some (st, bs, s1) =>
      if !s0.dmaInTime r then ok ((s1.dmaExpire c r).dmaLate c r.tok)
      else
        let s2 := s1.dmaTake c r
        ok ((if st ≠ 0 then s2.dmaFetchFail c st else s2.dmaCopyRead c (descWords bs)).dmaSettle c)

/-- The shadow read of the next descriptor is issued once while a descriptor without `LAST` runs (R234). -/
def execDmaShadowRead (c t : Nat) (s : State) : Out1 :=
  let s0 := s.advance t
  let v := s0.ch c
  match v.cur with
  | none => ok s0
  | some d =>
    if d.last ∨ d.chain ∨ d.peeked ∨ v.shadow.isSome ∨ v.reqs.any (fun r => r.what == 2) ∨ v.stopReq ∨ s0.dmaPaused ∨ !s0.dmaRoom c ∨ !s0.nextOk d.nextA ∨ d.fail.isSome then ok s0
    else ok ((s0.setCh c { v with cur := some { d with peeked := true } }).dmaRead c 2 d.nextA 0 64 false)

/-- What an answer in time does (R234, R238 to R242): the shadow takes a copy of the next descriptor, a status write proceeds, data bytes are kept at their stream offset and a
written range is counted; an error ends the descriptor. -/
def State.dmaAnswered (s : State) (c : Nat) (r : DmaReq) (st : Nat) (bs : List Byte) : State :=
  let v := s.ch c
  match v.cur with
  | none => s
  | some d =>
    let put := fun (m : Tab Byte) => (bs.foldl (fun (a : Tab Byte × Nat) b => (Tab.set a.1 a.2 b, a.2 + 1)) (m, r.off)).1
    if r.what = 2 then (if st = 0 ∧ !v.stopReq then s.setCh c { v with shadow := some (descWords bs) } else s)
    else if r.what = 3 then (if st = 0 then s else s.dmaStatusFail c st)
    else if !r.isData then s
    else if st ≠ 0 then s.dmaFail c st
    else if r.what = 0 then s.setCh c { v with cur := some { d with src := put d.src } }
    else if r.what = 6 then s.setCh c { v with cur := some { d with auxSrc := put d.auxSrc } }
    else if r.what = 5 then s.setCh c { v with cur := some (d.wrote r.off r.len) }
    else s

/-- An answer to a data, shadow or status request (R238 to R242); one that comes after the expiry is discarded (R241), and so is one to a request given up. -/
def execDmaRequestAnswer (c tok code : Nat) (data : BitVec 2048) (t : Nat) (s : State) : Out1 :=
  let s0 := s.advance t
  match (s0.ch c).req (fun r => r.tok == tok && r.what ≠ 1) with
  | none => ok (if (s0.ch c).reqs.any (fun r => r.tok == tok) then s0 else s0.dmaLate c tok)
  | some r =>
    match s0.dmaAnswer c r code data with
    | none => ok s0
    | some (st, bs, s1) =>
      if !s0.dmaInTime r then ok ((s1.dmaExpire c r).dmaLate c r.tok) else ok (((s1.dmaTake c r).dmaAnswered c r st bs).dmaSettle c)

/-- A request's timer has expired (R241): an answer registered in the DMA clock of the expiry edge is still in time, so the timeout counts from the next one. -/
def execDmaRequestTimeout (c tok t : Nat) (s : State) : Out1 :=
  let s0 := s.advance t
  match (s0.ch c).req (fun r => r.tok == tok) with
  | none => ok s0
  | some r =>
    if s0.dmaInTime r then ok s0 else ok (s0.dmaExpire c r)

/-! ### Moving data -/

/-- Issue the next request of the current descriptor: the next read of its source (`wr` false) or the next write of its destination whose bytes have been read (R228, R229). -/
def State.dmaMove (s : State) (c xf : Nat) (wr : Bool) : State :=
  let v := s.ch c
  match v.cur with
  | none => s
  | some d =>
    if d.xform ≠ xf ∨ d.fail.isSome ∨ d.stage ≠ 0 ∨ v.stopReq ∨ s.dmaPaused ∨ !s.dmaRoom c then s
    else if !wr then
      if d.readAt < d.srcLen then
        let n := reqLen (d.srcA + d.readAt) (d.srcLen - d.readAt)
        (s.setCh c { v with cur := some { d with readAt := d.readAt + n } }).dmaRead c 0 (d.srcA + d.readAt) d.readAt n d.mirror
      else if d.auxReadAt < d.auxSrcLen then
        let n := reqLen (d.auxA + d.auxReadAt) (d.auxSrcLen - d.auxReadAt)
        (s.setCh c { v with cur := some { d with auxReadAt := d.auxReadAt + n } }).dmaRead c 6 (d.auxA + d.auxReadAt) d.auxReadAt n d.mirror
      else s
    else if d.writeAt < d.dstLen then
      let n := reqLen (d.dstA + d.writeAt) (d.dstLen - d.writeAt)
      match bytesFrom d.dstByte d.writeAt n with
      | none => s
      | some bs =>
        ((s.setCh c { v with cur := some { d with writeAt := d.writeAt + n } }).dmaWrite c 5 (d.dstA + d.writeAt) d.writeAt bs d.mirror).dmaCheck c
    else if d.auxWriteAt < d.auxDstLen then
      let n := reqLen (d.auxA + d.auxWriteAt) (d.auxDstLen - d.auxWriteAt)
      match bytesFrom d.auxByte d.auxWriteAt n with
      | none => s
      | some bs =>
        ((s.setCh c { v with cur := some { d with auxWriteAt := d.auxWriteAt + n } }).dmaWrite c 7 (d.auxA + d.auxWriteAt) d.auxWriteAt bs d.mirror).dmaCheck c
    else s.dmaCheck c

def execDmaCopy (c : Nat) (wr : Bool) (t : Nat) (s : State) : Out1 := ok ((s.advance t).dmaMove c 0 wr)

def execDmaIlv (c : Nat) (wr : Bool) (t : Nat) (s : State) : Out1 := ok ((s.advance t).dmaMove c 1 wr)

def execDmaBpl (c : Nat) (wr : Bool) (t : Nat) (s : State) : Out1 := ok ((s.advance t).dmaMove c 2 wr)

def execDmaMxs (c : Nat) (wr : Bool) (t : Nat) (s : State) : Out1 := ok ((s.advance t).dmaMove c 3 wr)

end Sys2Proof.Machine
end

