-- ==== Sys2Proof/Machine/Power.lean ====
section
/-!
DEFINITION. The meanings of the power manager (R365 to R398), of the row gating (R381), and of the pins `SHED_N`, `LEAK_N`, `FLOW_PULSE` and `HOLD_N`. Power is in W, temperature in
0.25 °C, flow in 0.01 L/min; `t` is the time of the event in ticks.
-/
namespace Sys2Proof.Machine

/-! ### Values and flags -/

/-- Sprint residency over the rolling 24 h in ms (R398). -/
def Power.sprintMs (p : Power) : Nat := (p.bins.foldl (· + ·) 0 + p.curBin) / ms

/-- The watch core passes to the code that waits for it, at a control-period boundary (R447, R452). -/
def State.passCode (s : State) : State :=
  match s.fw.watchNext with
  | some b => { s with fw := { s.fw with watch := b, watchNext := none } }
  | none => s

/-- `CAP_EFFECTIVE` (R369). In a control period in which a response was registered, a cap set counts from the next boundary (R394). -/
def State.capEff (s : State) : Nat :=
  if s.pw.respNew then min s.pw.capHostWas (min s.pw.capMgrWas s.pw.capHw) else min s.m.capHost (min s.m.capMgr s.pw.capHw)

/-- A forced shed stands (R459). -/
def State.forced (s : State) : Bool := s.pert.shedEnd.isSome

def State.shedStands (s : State) : Bool := s.pw.shedLow || s.forced

def State.anyFrozen (s : State) : Bool := allDies.any s.frozenDie

/-- `POWER_FLAGS` (R307). -/
def State.powerFlags (s : State) : Nat :=
  let p := s.pw
  b2n s.shedStands + 2 * b2n p.flowResp.isSome + 4 * b2n p.leakResp + 8 * b2n s.held + 16 * b2n s.m.orphan + 32 * b2n p.divergence + 64 * b2n p.suspect
    + 128 * b2n p.sprintAt.isSome + 256 * b2n p.throttle + 512 * b2n s.anyFrozen + 1024 * b2n p.cstop.isSome + 2048 * s.holdOwner

/-- A response of R391 stands. -/
def State.response (s : State) : Bool :=
  let p := s.pw
  s.shedStands || p.leakResp || p.flowResp.isSome || p.hdieHot || decide (160 < p.inlet) || p.throttle || !p.dieHot.isEmpty || p.stackHot || p.safeCap
    || Tab.has p.hwTerm 5 || !p.hwFreeze.isEmpty

/-- The residency of a standing episode is counted up to now (R398). -/
def State.sprintTick (s : State) : State :=
  if s.pw.sprintAt.isSome then { s with pw := { s.pw with curBin := s.pw.curBin + (s.time.now - s.pw.sprintMark), sprintMark := s.time.now } } else s

/-- A sprint episode ends (R394, R396). -/
def State.endSprint (s : State) : State :=
  if s.pw.sprintAt.isSome then { s.sprintTick with pw := { s.sprintTick.pw with sprintAt := none, sprintEnd := some s.time.now, sprintLow := none } } else s

/-- A response of R391 is registered: it ends a sprint episode, and a cap set in this control period counts from the next (R394). -/
def State.respond (s : State) : State := { s.endSprint with pw := { s.endSprint.pw with respNew := true } }

/-- The perturbation scope is enabled (R338). -/
def State.pertOn (s : State) : Bool := s.pert.pertEnd.isSome
def State.debugOn (s : State) : Bool := s.pert.debugEnd.isSome

/-- The image's flow settings. -/
def State.minFlow (s : State) : Nat := match s.cfg.image with
  | some im => im.minFlow
  | none => 350
def State.flowK (s : State) : Nat := match s.cfg.image with
  | some im => im.flowK
  | none => 500

/-- A reading with a percentage added. -/
def pctOf (v : Nat) (p : Int) : Nat := ((v : Int) * (100 + p) / 100).toNat

/-- Flow over the last 16 intervals in 0.01 L/min (R390), with `PT_FLOW_OFS`; none before 17 edges. `edges` holds the newest edge first. -/
def State.flowQ (s : State) : Option Nat :=
  match s.pw.edges.head?, s.pw.edges[16]? with
  | some a, some b =>
    if a ≤ b then none
    else some (pctOf (6000000 * 16 * ms / (s.flowK * (a - b))) (sext 8 (fld (s.ptReg 7) 7 0)))
  | _, _ => none

/-! ### `CAP_HW` (R373, R391, R392) -/

/-- The lowest standing term. -/
def Power.termMin (p : Power) : Nat := p.hwTerm.foldl (fun m e => min m e.2) 2800

/-- A condition stands whose release starts a ramp (R392); a controlled stop is one: its rows of R391 are released at its end (R393). -/
def State.rampHeld (s : State) : Bool :=
  s.shedStands || s.pw.leakResp || s.pw.flowResp.isSome || s.pw.cstop.isSome || Tab.has s.pw.hwTerm 5 || Tab.has s.pw.hwTerm 6

/-- Set or clear a term. -/
def Power.setTerm (p : Power) (n : Nat) (v : Option Nat) : Power :=
  { p with hwTerm := match v with
      | some x => Tab.set p.hwTerm n x
      | none => Tab.del p.hwTerm n }

/-- A rise of the ramp: 20 % of the lower cap, up to the lowest term. -/
def State.rise (s : State) : Nat := min s.pw.termMin (s.pw.capHw + min s.m.capHost s.m.capMgr / 5)

/-- The number of the lowest standing term, 0 where none gives the value. -/
def Power.termNo (p : Power) (v : Nat) : Nat := ((p.hwTerm.find? (fun e => e.2 == v)).map Prod.fst).getD 0

/-- `CAP_HW` takes a value; a change goes to the event log with the code of its term, which the spec does not number (R376, R421). -/
def State.setCapHw (s : State) (v : Nat) : State :=
  if v = s.pw.capHw then s
  else { s.event 0x0006 5 (place v 16 0 + place (Config.termCode (s.pw.termNo v)) 8 16) with pw := { s.pw with capHw := v } }

/-- `CAP_HW` at a control-period boundary (R392): a lowering during a ramp applies at once, and the ramp starts again from there once it is released. -/
def State.capBoundary (s : State) : State :=
  if s.rampHeld then { s.setCapHw s.pw.termMin with pw := { (s.setCapHw s.pw.termMin).pw with rampAt := some 0, rampLow := false } }
  else
    match s.pw.rampAt with
    | none => s.setCapHw s.pw.termMin
    | some r =>
      if s.pw.termMin < s.pw.capHw ∨ (s.pw.rampLow = true ∧ s.pw.termMin = s.pw.capHw) then
        { s.setCapHw s.pw.termMin with pw := { (s.setCapHw s.pw.termMin).pw with rampLow := true } }
      else if r = 0 ∨ s.pw.rampLow = true then
        let v := s.rise
        let s1 := s.setCapHw v
        { s1 with pw := { s1.pw with rampAt := if v < s.pw.termMin then some (s.time.now + 10 * ms) else none, rampLow := false } }
      else s

/-- The next rise of a ramp, 10 ms after the last (R392), by the watch core. -/
def execCapHwRamp (t : Nat) (s : State) : Out1 :=
  let s0 := s.advance t
  match s0.pw.rampAt with
  | some r =>
    if r ≠ 0 ∧ r ≤ s0.time.now ∧ !s0.pkg.watchStall ∧ !s0.rampHeld ∧ !s0.pw.rampLow then
      let v := s0.rise
      let s1 := s0.setCapHw v
      ok { s1 with pw := { s1.pw with rampAt := if v < s0.pw.termMin then some (s0.time.now + 10 * ms) else none } }
    else ok s0
  | none => ok s0

/-! ### The control period -/

/-- A sense-channel reading as the watch core reads it (R459). -/
def State.measRead (s : State) (chan v : Nat) : Nat :=
  let r := s.ptReg 5
  if bitAt (fld r 1 0) chan then pctOf v (sext 8 (fld r 15 8)) else v

/-- A sensor pair as the watch core reads it, with `PT_TEMP_OFS`. -/
def State.pairRead (s : State) (target : Nat) (p : Nat × Nat) : Nat × Nat :=
  let r := s.ptReg 6
  let o := sext 16 (fld r 31 16)
  let one := fun (i v : Nat) => if fld r 2 0 = target ∧ bitAt (fld r 4 3) i then ((v : Int) + o).toNat else v
  (one 0 p.1, one 1 p.2)

/-- The reading of a pair: the higher of the two (R389). -/
def State.tempRead (s : State) (target : Nat) (p : Nat × Nat) : Nat := max (s.pairRead target p).1 (s.pairRead target p).2

/-- The thermal locations of R389 by number: of C-die d the thirteen tile rows at 17 d and the four glaze points after them, of H-die h four points from 68 + 4 h, and the stacks from 76. -/
def dieLocs (d : Nat) : List Nat := if d < 4 then (List.range 17).map (17 * d + ·) else (List.range 4).map (68 + 4 * (d - 4) + ·)

/-- The target of `PT_TEMP_OFS` that a location belongs to. -/
def locTarget (i : Nat) : Nat := if i < 68 then i / 17 else if i < 76 then 4 else 5

/-- The sensors are read: the hottest reading of each die, and since when each pair has differed by more than 5 °C (R389). -/
def State.sense (s : State) (ts : List (Nat × Nat)) : State :=
  let at_ := fun (i : Nat) => s.pairRead (locTarget i) (ts.getD i (0, 0))
  let hottest := fun (d : Nat) => (dieLocs d).foldl (fun m i => max m (max (at_ i).1 (at_ i).2)) 0
  let differs := fun (i : Nat) => decide (20 < max (at_ i).1 (at_ i).2 - min (at_ i).1 (at_ i).2)
  { s with pw := { s.pw with
    dieTemp := (List.range 6).map hottest
    sensorSince := ((List.range 84).filter differs).map (fun i => (i, (Tab.find s.pw.sensorSince i).getD s.time.now)) } }

/-! ### The estimate (R386) -/

/-- The energy of the activity counted since the last reading, in pJ. -/
def State.energy (s : State) : Nat :=
  (s.tiles.map (fun (e : Nat × Tile) => (e.2.act.map (fun a => Config.energyCoef a.1 * a.2)).sum)).sum
    + Config.energyCoef 260 * s.net.flits + Config.energyCoef 261 * s.lake.bursts + Config.energyCoef 262 * s.st.flits

/-- The static term: of each die by its temperature and its voltage. -/
def State.staticTerm (s : State) : Nat := ((List.range 6).map (fun d => Config.staticPower d (s.pw.dieTemp.getD d 0) (s.pw.coreV.getD d 0))).sum

/-- E of the period in W: the static term plus k × the dynamic sum, which is the counted energy over the time since the last reading (1 W is 250 pJ in a tick). -/
def State.estimate (s : State) : Nat := s.staticTerm + s.pw.k * (s.energy / (250 * max 1 (s.time.now - s.pw.actAt))) / 4096

/-- The counters start again from zero. -/
def State.clearCounts (s : State) : State :=
  { s with
    tiles := s.tiles.map (fun (e : Nat × Tile) => (e.1, { e.2 with act := [] }))
    net := { s.net with flits := 0 }
    lake := { s.lake with bursts := 0 }
    st := { s.st with flits := 0 }
    pw := { s.pw with actAt := s.time.now } }

/-- A reading is implausible (R388). Voltages are in 0.1 V. -/
def implausible (a b va vb : Nat) : Bool := decide (4000 < a) || decide (4000 < b) || va < 400 || 620 < va || vb < 400 || 620 < vb

/-- The measurement becomes suspect (R388). -/
def State.setSuspect (s : State) (alsoSensor : Bool) : State :=
  let s0 := { s with pw := { s.pw with winBad := true, clearN := 0 } }
  if s0.pw.suspect then (if alsoSensor && !bitAt s0.faults.sticky 9 then s0.recordFault 9 false 0xFFFF 0 0 else s0)
  else
    let s1 := { s0 with pw := { s0.pw with suspect := true } }
    let s2 := s1.recordFault 10 false 0xFFFF 0 0
    if alsoSensor then s2.recordFault 9 false 0xFFFF 0 0 else s2

/-- M, E and P of the period (R369, R385, R386), in which a reading of this period may have made the measurement suspect; and the current limit of the stage-1 chiplets, 300 W at the mean
of the two measured voltages (R370). -/
def State.measure (s : State) (a0 b0 va vb : Nat) : State :=
  let a := s.measRead 0 a0
  let b := s.measRead 1 b0
  let agree := (max a b - min a b) * 20 ≤ max a b
  let m := if agree then (a + b) / 2 else max a b
  let e := s.estimate
  let since := if agree then none else some (s.pw.abSince.getD s.time.now)
  let s1 := { s with pw := { s.pw with
    measA := a, measB := b, meas := m, est := e, abSince := since, winM := s.pw.winM + m, winE := s.pw.winE + e, chipLimit := 300000 * 20 / (va + vb) } }
  let s2 := if implausible a b va vb then s1.setSuspect false else s1
  let s3 := match since with
    | some x => if x + 100 * ms ≤ s2.time.now then s2.setSuspect true else s2
    | none => s2
  { s3 with pw := { s3.pw with p := if s3.pw.suspect then e * 5 / 4 else max m e } }

/-- The thermal run fraction of a die after a period (R391). -/
def thermalStep (n at_ now die stack : Nat) : Nat × Nat :=
  if 380 ≤ die ∨ 400 ≤ stack then (n - 1, now)
  else if die ≤ 368 ∧ stack ≤ 388 ∧ n < 16 ∧ at_ + 10 * ms ≤ now then (n + 1, now)
  else (n, at_)

/-- `STACK_TEMP`: the higher reading of the stack's two sensors, kept in units of 0.25 °C (R209). -/
def State.setStackTemp (s : State) (k v : Nat) : State :=
  { s with lake := { s.lake with stackTab := Tab.set s.lake.stackTab k { Tab.get Stack.reset s.lake.stackTab k with temp := v } } }

/-- Thermal responses (R391), by the readings of each die's hottest location. `ts` holds the sensor pairs by location. -/
def State.thermal (s : State) (ts : List (Nat × Nat)) : State :=
  let pr := fun i => ts.getD i (0, 0)
  let die := fun d => s.pw.dieTemp.getD d 0
  let stk := fun k => s.tempRead 5 (pr (76 + k))
  let stOf := fun d => max (stk (2 * d)) (stk (2 * d + 1))
  let hd := max (die 4) (die 5)
  let p := s.pw
  let steps := allDies.map (fun d => thermalStep (p.thermal.getD d 16) (p.thermalAt.getD d 0) s.time.now (die d) (stOf d))
  let hot := allDies.filter (fun d => 420 ≤ die d || (p.dieHot.contains d && 400 < die d))
  let hottestStack := allDies.foldl (fun m d => max m (stOf d)) 0
  let stackHot := decide (420 ≤ hottestStack) || (p.stackHot && decide (400 < hottestStack))
  let hdHot := decide (420 ≤ hd) || (p.hdieHot && decide (400 < hd))
  let old := Tab.find p.hwTerm 5
  let term := if 380 ≤ hd then
      (if p.hdieAt + 10 * ms ≤ s.time.now ∨ old.isNone then some (max 1200 (old.getD 2800 - 100)) else old)
    else if hd ≤ 368 then none
    else old
  let p1 := { p with
    thermal := steps.map Prod.fst, thermalAt := steps.map Prod.snd, dieHot := hot, stackHot := stackHot, hdieHot := hdHot, throttle := steps.any (fun x => decide (x.1 < 16)),
    hdieAt := if term ≠ old then s.time.now else p.hdieAt, hottest := allDies.foldl (fun m d => max m (die d)) hd,
    hotAll := allDies.all (fun d => decide (die d < 380)) && decide (hd < 380) }
  let s1 := (List.range 8).foldl (fun (u : State) k => u.setStackTemp k (max (pr (76 + k)).1 (pr (76 + k)).2)) s
  { s1 with pw := (p1.setTerm 5 term).setTerm 6 (if hdHot then some 1200 else none) }

/-- The terms that the pins, the flow and the inlet give (R391). Those of a leak and of the flow stand until a controlled stop that they caused has ended, so that `CAP_HW` ramps from
there (R393; log entry 49). -/
def State.terms (s : State) : State :=
  let inlet := if s.pw.coldAbsent then 160 else s.pw.inlet
  let p1 := s.pw.setTerm 1 (if s.shedStands then some 1200 else none)
  let p2 := p1.setTerm 2 (if s.pw.leakResp ∨ s.pw.cstop.any (fun c => bitAt c.cause 0) then some 1200 else none)
  let p3 := p2.setTerm 3 (if s.pw.flowResp.isSome ∨ s.pw.cstop.any (fun c => bitAt c.cause 1) then some 600 else none)
  { s with pw := p3.setTerm 4 (if 160 < inlet then some (max 1200 (2800 - 50 * ((inlet - 160 + 3) / 4))) else none) }

/-- The start conditions of a sprint but for the demand (R395, R462). -/
def State.sprintOk (s : State) : Bool :=
  let p := s.pw
  s.m.sprintHost && s.m.sprintMgr && s.m.capHost == 2800 && s.m.capMgr == 2800 && p.capHw == 2800 && decide (p.inlet ≤ 128) && !p.coldAbsent && p.hotAll
    && !s.response && p.cstop.isNone && !p.suspect && decide (p.sprintMs < 4320000) && !s.pertOn

/-- Sprint episodes start and end (R395, R396). `want` says that P would exceed 2,800 W. -/
def State.sprint (s : State) (want : Bool) : State :=
  let p := s.pw
  match p.sprintAt with
  | none =>
    let gap := match p.sprintEnd with
      | none => true
      | some e => decide (e + 8000 * ms ≤ s.time.now)
    if s.sprintOk && want && gap then { s with pw := { p with sprintAt := some s.time.now, sprintMark := s.time.now, sprintLow := none, sprints := satInc 8 p.sprints } } else s
  | some a =>
    let low := if p.p ≤ 2800 then some (p.sprintLow.getD s.time.now) else none
    let idle : Bool := match low with
      | some x => decide (x + 100 * ms ≤ s.time.now)
      | none => false
    let s1 := { s.sprintTick with pw := { s.sprintTick.pw with sprintLow := low } }
    if a + 2000 * ms ≤ s.time.now ∨ !s1.sprintOk ∨ idle = true then s1.endSprint else s1

/-- Figure `i` of what the watch core knows of the loads: 0 chain efficiency in 1/1,000; 1 fixed loads; 2 links; 3 lake; 4 compute at full run fractions; 5 to 8 the
current of the tiles on C-die regulators 0 to 3 then, in A; 9 and 10 that of H-die regulators 4 and 5; 11 to 14 the current of die network and bridges on regulators 0 to 3, which run on
through a freeze (R366, R382). -/
def demand (dem : List Nat) (i : Nat) : Nat := dem.getD i 0

/-- The run fraction that the allotment gives every die (R378), with the limit of the core current, of which the parts of the H-dies, the die networks and the bridges are fixed (R368). -/
def allot (limit : Nat) (dem : List Nat) : Nat :=
  let used := demand dem 1 + demand dem 2 + max 48 (demand dem 3)
  let budget := limit * demand dem 0 / 1000
  let n := if budget < used then 0 else if demand dem 4 = 0 then 16 else min 16 (16 * (budget - used) / demand dem 4)
  let core := demand dem 5 + demand dem 6 + demand dem 7 + demand dem 8
  let fixed := demand dem 9 + demand dem 10 + demand dem 11 + demand dem 12 + demand dem 13 + demand dem 14
  if core = 0 then n else min n (16 * (3200 - fixed) / core)

/-- The rated output of a regulator in A: 20 A for each working phase less the redundant ones (R366). -/
def Power.rated (p : Power) (r : Nat) : Nat := (if r < 4 then 720 else 320) - 20 * (p.phases.getD r 0 - 2)

/-- The run fraction at which a C-die's regulator stays within its rated output (R366, R368). -/
def Power.phaseLimit (p : Power) (dem : List Nat) (d : Nat) : Nat := if demand dem (5 + d) = 0 then 16 else 16 * (p.rated d - demand dem (11 + d)) / demand dem (5 + d)

/-- The run fraction in force at a die. -/
def Power.fraction (p : Power) (dem : List Nat) (alloc d : Nat) : Nat :=
  if p.safeCap then 4
  else if p.stackHot || p.dieHot.contains d || p.flowResp.isSome then 0
  else if (match p.cstop with
    | some c => c.held.contains d
    | none => false) then 0
  else min (min alloc (p.thermal.getD d 16)) (p.phaseLimit dem d)

/-- Whether freeze duty freezes a die at a time (R382): it runs for n × 625 ns of every 10 µs, the patterns of the dies offset by 2.5 µs. -/
def dutyFrozen (n d now : Nat) : Bool := decide (n * 2500 ≤ (now + 40000 - (d % 4) * 10000) % 40000)

/-- Freezes follow the duty and the hardware. -/
def State.applyDuty (s : State) (d : Nat) : State :=
  s.setFrozen d (s.pw.hwFreeze.contains d || dutyFrozen (s.pw.run.getD d 16) d s.time.now)

/-- Row gating at a boundary (R381): an idle ACTIVE row goes to `CLKGATE`, unless a `WAKE` of it came in this watch-clock cycle (R45). -/
def State.gateRow (s : State) (r : Nat) : State :=
  let w := s.row r
  if w.power = 0 ∧ s.rowIdle r ∧ w.wakeCyc ≠ some (watchCycle s.time.now) then s.setRow r { w with power := 1, idleSince := s.time.now } else s

/-- The wakes of all rows that a power action held back (R47). -/
def State.wakeRows (s : State) : State := (s.rows.map Prod.fst).foldl (fun u r => u.wakeDeferred r (u.ptStart 0)) s

/-- The power that the allotment may use in a period (R370): L, less what P has been above L so far in the calibration window, so that the window's mean of P does not exceed that of L; and
nothing once P has been above L for 10 ms less one period. R370 leaves open how this is kept (log entry 49). -/
def State.holdTo (s : State) (limit : Nat) (since : Option Nat) : Nat :=
  let late : Bool := match since with
    | some a => decide (a + 9900 * us ≤ s.time.now)
    | none => false
  if late then 0 else limit - (s.pw.winP + s.pw.p - (s.pw.winL + limit))

/-- A period's readings have given a response of R391 that did not stand before. -/
def newResponse (o n : Power) : Bool :=
  (!o.throttle && n.throttle) || n.dieHot.any (fun d => !o.dieHot.contains d) || (!o.stackHot && n.stackHot) || (!o.hdieHot && n.hdieHot)
    || [4, 5].any (fun i => !Tab.has o.hwTerm i && Tab.has n.hwTerm i)

/-- What begins at a control-period boundary: hardware freezes end, and the caps stand as they are found (R391, R394). -/
def State.periodBegin (s : State) : State :=
  { s with pw := { s.pw with periodAt := s.time.now, hwFreeze := [], respNew := false, capHostWas := s.m.capHost, capMgrWas := s.m.capMgr } }

/-- The limit in force of a period (R369, R395). -/
def State.periodLimit (s : State) : Nat := if s.pw.sprintAt.isSome then 3400 else s.capEff

/-- Since when P has been above the limit in force (R370). -/
def State.overSince (s : State) : Option Nat := if s.periodLimit < s.pw.p then some (s.pw.overAt.getD s.time.now) else none

/-- The limit, the run fractions and the window's sums of a period (R369, R370, R378); `old` is the power manager's state before the period. -/
def State.periodSet (s : State) (old : Power) (dem : List Nat) : State :=
  let al := allot (s.holdTo s.periodLimit s.overSince) dem
  { s with pw := { s.pw with
    limit := s.periodLimit, run := allDies.map (fun d => s.pw.fraction dem al d), overAt := s.overSince, respNew := newResponse old s.pw,
    winP := s.pw.winP + s.pw.p, winL := s.pw.winL + s.periodLimit } }

/-- The control period (R369, R370, R378): measurement, responses, `CAP_HW`, sprint, the limit, run fractions, gating and freezes. `a`, `b` are the channels' power, `va`, `vb` their
voltages in 0.1 V; `ts` the sensor pairs by location; `dem` the loads. Nothing happens while the watch core stalls,
but a hardware freeze ends at the boundary. -/
def execControlPeriod (a b va vb : Nat) (ts : List (Nat × Nat)) (dem : List Nat) (t : Nat) (s : State) : Out1 :=
  let s0 := s.advance t
  if s0.time.now < s0.pw.periodAt + 100 * us then ok s0
  else
    let s1 := s0.periodBegin
    if s0.pkg.watchStall then ok (allDies.foldl State.applyDuty s1.wakeRows)
    else
      let s2 := ((((((s1.passCode).sense ts).measure a b va vb).clearCounts).thermal ts).terms).capBoundary
      let full := demand dem 1 + demand dem 2 + demand dem 3 + demand dem 4
      let s3 := s2.sprint (decide (2800 * demand dem 0 < full * 1000))
      let s4 := s3.periodSet s0.pw dem
      let s5 := ((s4.rows.map Prod.fst).foldl State.gateRow s4).wakeRows
      ok (allDies.foldl State.applyDuty s5)

/-- Freeze duty at a point of its pattern (R382). -/
def execDieFreeze (d t : Nat) (s : State) : Out1 := ok ((s.advance t).applyDuty (d % 4))

/-- The end of a 100 ms calibration window (R387, R388). -/
def execCalibrationWindow (t : Nat) (s : State) : Out1 :=
  let s0 := s.advance t
  let p := s0.pw
  if s0.pkg.watchStall ∨ s0.time.now < p.winAt + 100 * ms then ok s0
  else
    let mx := max p.winM p.winE
    let d := if mx = 0 then 0 else (mx - min p.winM p.winE) * 100 / mx
    let exceeds := decide (mx * 15 < (mx - min p.winM p.winE) * 100)
    let bad := mx * 40 < (mx - min p.winM p.winE) * 100
    let k := if p.suspect ∨ bad ∨ p.winE = 0 then (p.k : Int) else (p.k : Int) + (p.k : Int) * ((p.winM : Int) - p.winE) / (8 * (p.winE : Int))
    let k1 := if k < 3072 then 3072 else if 5447 < k then 5447 else k.toNat
    let divN := if exceeds then p.divN + 1 else 0
    let okN := if exceeds then 0 else p.okN + 1
    let clearN := if exceeds ∨ p.winBad then 0 else p.clearN + 1
    let s1 := { s0 with pw := { p with
      k := k1, diverge := d, divN := divN, okN := okN, divergence := if 11 ≤ divN then true else if 10 ≤ okN then false else p.divergence,
      clearN := clearN, suspect := if 100 ≤ clearN then false else p.suspect, winM := 0, winE := 0, winP := 0, winL := 0, winAt := s0.time.now, winBad := false } }
    if bad then
      let s2 := s1.setSuspect false
      ok { s2 with pw := { s2.pw with winBad := false } }
    else ok s1

/-- A sprint bin closes: the last 1,439 closed bins are kept, and all are written to flash (R398). -/
def execSprintBinRoll (t : Nat) (s : State) : Out1 :=
  let s0 := (s.advance t).sprintTick
  let p := s0.pw
  if s0.pkg.watchStall ∨ s0.time.now < p.binAt + 60000 * ms then ok s0
  else
    let bins := (p.curBin :: p.bins).take 1439
    ok { s0 with pw := { p with bins := bins, curBin := 0, binAt := s0.time.now, flashBins := 0 :: bins } }

/-! ### Pins -/

/-- `SHED_N` is asserted (R391). Where a forced shed stands the two act as one freeze (R461). -/
def execShedNAssert (t : Nat) (s : State) : Out1 :=
  let s0 := s.advance t
  if s0.pw.shedLow then ok s0
  else
    let s1 := { s0 with pw := { s0.pw with shedLow := true, sheds := satInc 8 s0.pw.sheds } }
    ok (if s0.forced then s1 else s1.hwFreeze allDies).respond

def execShedNDeassert (t : Nat) (s : State) : Out1 :=
  let s0 := s.advance t
  ok { s0 with pw := { s0.pw with shedLow := false } }

/-- A controlled stop starts (R393), or a further cause joins the one that stands. -/
def State.startStop (s : State) (cause : Nat) : State :=
  match s.pw.cstop with
  | some c => { s with pw := { s.pw with cstop := some { c with cause := c.cause ||| cause } } }
  | none => { s with pw := { s.pw with cstop := some ⟨s.time.now, cause, []⟩, stopFree := none } }

def execLeakNAssert (t : Nat) (s : State) : Out1 :=
  let s0 := s.advance t
  if s0.pw.leakLow then ok s0
  else
    let s1 := { s0 with pw := { s0.pw with leakLow := true, leakResp := true, leakHighAt := none, leaks := satInc 8 s0.pw.leaks } }
    ok (((s1.hwFreeze allDies).startStop 1).respond)

def execLeakNDeassert (t : Nat) (s : State) : Out1 :=
  let s0 := s.advance t
  if s0.pw.leakLow then ok { s0 with pw := { s0.pw with leakLow := false, leakHighAt := some s0.time.now } } else ok s0

/-- `LEAK_N` has been high for 10 s (R391). -/
def Power.leakFree (p : Power) (now : Nat) : Bool :=
  !p.leakLow && (match p.leakHighAt with
    | some a => decide (a + 10000 * ms ≤ now)
    | none => false)

def execLeakRelease (t : Nat) (s : State) : Out1 :=
  let s0 := s.advance t
  if s0.pw.leakResp ∧ s0.pw.leakFree s0.time.now then ok { s0 with pw := { s0.pw with leakResp := false } } else ok s0

/-- No edge has come for 20 ms (R391), counted in watch-clock cycles: one in the cycle of the expiry edge is in time (R417). -/
def State.edgeLate (s : State) : Bool := decide (watchCycle (s.pw.edges.headD 0 + 20 * ms) < watchCycle s.time.now)

/-- No edge for 20 ms, or less flow than `MIN_FLOW` (R391). -/
def State.flowBad (s : State) : Bool :=
  s.edgeLate || (match s.flowQ with
    | some q => decide (q < s.minFlow)
    | none => false)

/-- The flow response (R391). -/
def State.flowStart (s : State) : State :=
  if s.pkg.watchStall ∨ s.pw.flowResp.isSome ∨ !s.booted then s
  else
    let p := s.pw
    let s1 := { s with pw := { p with flowResp := some s.time.now, flowGood := none, flows := satInc 8 p.flows, run := [0, 0, 0, 0] } }
    (allDies.foldl State.applyDuty s1).respond

/-- A `FLOW_PULSE` edge (R390); `PT_FLOW_OFS` may have edges ignored. An edge in the cycle in which 20 ms are over is a near miss, a later one comes after the timer's expiry (R417). -/
def execFlowPulseEdge (t : Nat) (s : State) : Out1 :=
  let s0 := s.advance t
  if bitAt (s0.ptReg 7) 8 then ok s0
  else
    let s1 := match s0.pw.edges with
      | e :: _ => if watchCycle (e + 20 * ms) = watchCycle s0.time.now then s0.nearMissEvent 8 else if s0.edgeLate then s0.flowStart else s0
      | [] => if s0.edgeLate then s0.flowStart else s0
    let s2 := { s1 with pw := { s1.pw with edges := (s1.time.now :: s1.pw.edges).take 17 } }
    let good := match s2.flowQ with
      | some q => decide (s2.minFlow ≤ q)
      | none => false
    ok { s2 with pw := { s2.pw with flowGood := if good then some (s2.pw.flowGood.getD s2.time.now) else none } }

def execFlowTimeout (t : Nat) (s : State) : Out1 :=
  let s0 := s.advance t
  ok (if s0.flowBad then s0.flowStart else s0)

/-- The flow has been good for 1 s (R391), as the watch core finds. -/
def execFlowRelease (t : Nat) (s : State) : Out1 :=
  let s0 := s.advance t
  match s0.pw.flowGood with
  | some a =>
    if s0.pw.flowResp.isSome ∧ a + 1000 * ms ≤ s0.time.now ∧ !s0.flowBad ∧ !s0.pkg.watchStall then
      ok { s0 with pw := { s0.pw with flowResp := none, stopFree := some s0.time.now } }
    else ok s0
  | none => ok s0

/-- Flow has not been released 5 s after the response (R391). -/
def execFlowStopTimeout (t : Nat) (s : State) : Out1 :=
  let s0 := s.advance t
  match s0.pw.flowResp with
  | some a => if a + 5000 * ms ≤ s0.time.now ∧ !s0.pkg.watchStall ∧ !s0.pw.cstop.any (fun c => bitAt c.cause 1) then ok (s0.startStop 2).respond else ok s0
  | none => ok s0

/-- The dies with an active step. -/
def State.busyDies (s : State) : List Nat :=
  allDies.filter (fun d => (s.tiles.filter (fun e => decide (e.1 / 156 = d))).any (fun e => e.2.st.active))

/-- 100 ms after the start of a controlled stop, or earlier once no step is active, dies with an active step are held at n = 0 (R393). -/
def execControlledStopFreeze (t : Nat) (s : State) : Out1 :=
  let s0 := s.advance t
  match s0.pw.cstop with
  | none => ok s0
  | some c =>
    let busy := s0.busyDies
    if c.start + 100 * ms ≤ s0.time.now ∨ busy.isEmpty then
      let s1 := { s0 with pw := { s0.pw with
        cstop := some { c with held := busy }, run := allDies.map (fun d => if busy.contains d then 0 else s0.pw.run.getD d 16) } }
      ok (busy.foldl State.applyDuty s1)
    else ok s0

/-- The causes of a controlled stop have been released for 10 s (R393). -/
def execControlledStopEnd (t : Nat) (s : State) : Out1 :=
  let s0 := s.advance t
  match s0.pw.cstop with
  | none => ok s0
  | some c =>
    let flowFree := s0.pw.flowResp.isNone && (match s0.pw.stopFree with
      | some a => decide (a + 10000 * ms ≤ s0.time.now)
      | none => false)
    let free := (!bitAt c.cause 0 || s0.pw.leakFree s0.time.now) && (!bitAt c.cause 1 || flowFree)
    let leak := s0.pw.leakResp && !s0.pw.leakFree s0.time.now
    let flow := s0.pw.flowResp.isSome
    if free ∧ !leak ∧ !flow then ok { s0 with pw := { s0.pw with cstop := none } } else ok s0

/-- A holder holds: the state shown may become `HOLD`, in which DMA channels pause (R328, R244). -/
def State.addHold (s : State) (b : Nat) : State :=
  if s.m.holders.contains b then s else { s with m := { s.m with holders := s.m.holders ++ [b] } }

/-- A holder releases its own hold; when none is left the channels go on. -/
def State.dropHold (s : State) (b : Nat) : State :=
  let s1 := { s with m := { s.m with holders := s.m.holders.filter (fun x => decide (x ≠ b)) } }
  if s.held && !s1.held then s1.dmaResume else s1

def execHoldNAssert (t : Nat) (s : State) : Out1 := ok ((s.advance t).addHold 1)

def execHoldNDeassert (t : Nat) (s : State) : Out1 := ok ((s.advance t).dropHold 1)

/-! ### Limits, regulators, sensors -/

/-- A stage-1 chiplet reaches its limit (R370). -/
def execStage1CurrentLimit (t : Nat) (s : State) : Out1 := ok (((s.advance t).hwFreeze allDies).respond)

/-- A C-die regulator reaches its rated output (R368). -/
def execRegulatorCurrentLimit (d t : Nat) (s : State) : Out1 :=
  let s0 := s.advance t
  if d < 4 then ok ((s0.hwFreeze [d]).respond) else ok s0

/-- A converter phase fails (R366). -/
def execConverterPhaseFail (reg phase t : Nat) (s : State) : Out1 :=
  let s0 := s.advance t
  if 6 ≤ reg then ok s0
  else
    let s1 := { s0 with pw := { s0.pw with phases := s0.pw.phases.set reg (s0.pw.phases.getD reg 0 + 1) } }
    ok ((s1.recordFault 8 false 0xFFFF (reg + 16 * phase) 0).markDefect 7 (reg + 16 * (phase % 64)) 0)

/-- Stage-2 regulator `reg` leaves regulation (R476): 4 is that of H-die 0, without which the CXL port has no power (R288). -/
def execRegulatorOutOfRegulation (reg : Nat) (s : State) : Out1 := ok { s with pkg := { s.pkg with pgOut := false, hPower := s.pkg.hPower && reg != 4 } }

/-- A sensor pair has differed by more than 5 °C for 100 ms (R389). -/
def execSensorDisagree (location t : Nat) (s : State) : Out1 :=
  let s0 := s.advance t
  ok (if (Tab.find s0.pw.sensorSince location).any (fun a => decide (a + 100 * ms ≤ s0.time.now)) then s0.recordFault 9 false 0xFFFF location 0 else s0)

/-- The cold-plate sensors are read (R389). Without an answer for 100 ms the inlet counts as 40 °C. -/
def execColdPlateRead (answers : Bool) (inlet outlet pressure t : Nat) (s : State) : Out1 :=
  let s0 := s.advance t
  if answers then
    ok { s0 with pw := { s0.pw with
      inlet := s0.tempRead 6 (inlet, inlet), outlet := s0.tempRead 7 (outlet, outlet), pressure := pressure, coldFail := none, coldAbsent := false } }
  else
    let since := s0.pw.coldFail.getD s0.time.now
    let s1 := { s0 with pw := { s0.pw with coldFail := some since } }
    if since + 100 * ms ≤ s1.time.now ∧ !s1.pw.coldAbsent then
      ok (({ s1 with pw := { s1.pw with coldAbsent := true, inlet := 160 } }).recordFault 9 false 0xFFFF 0 0)
    else ok s1

/-! ### The watch core (R414) -/

/-- The hardware watchdog finds the watch core stalled for 50 ms: the hardware safe cap fixes every die at n = 4. -/
def execWatchCoreStall (t : Nat) (s : State) : Out1 :=
  let s0 := s.advance t
  let s1 := { s0 with pkg := { s0.pkg with watchStall := true }, pw := { s0.pw with safeCap := true, run := [4, 4, 4, 4] } }
  ok ((allDies.foldl State.applyDuty s1).respond)

/-- The watch core runs again: it resumes at the next boundary with what it held; the restart goes to both logs. A self-check under way fails by the row `ROLLBACK`. -/
def execWatchCoreRestart (t : Nat) (s : State) : Out1 :=
  let s0 := s.advance t
  if !s0.pkg.watchStall then ok s0
  else
    let s1 := { s0 with
      pkg := { s0.pkg with watchStall := false }
      pw := { s0.pw with safeCap := false }
      fw := { s0.fw with fail := if s0.fw.act = 6 ∧ s0.fw.fail = 0 then 2 else s0.fw.fail }
      faults := { s0.faults with watchRestarts := satInc 8 s0.faults.watchRestarts }
      logs := { s0.logs with faults := s0.logs.faults ++ [FaultEnt.mk s0.time.ft 0xFF false s0.ctx.gen (if s0.ctx.accepted then s0.ctx.id else 0) 0xFFFF 0 0] } }
    ok (s1.event 0x0008 5 0)

end Sys2Proof.Machine
end

