-- ==== Sys2Proof/Machine/ImageOps.lean ====
section
/-!
DEFINITION. Configuration images: format, fields, validation and resource claims (R352 to R361). An image is a byte list; a field is read little-endian.
-/
namespace Sys2Proof.Machine

/-- A little-endian field of `n` bytes of a byte list. -/
def leAt (b : List Byte) (off n : Nat) : Nat := leNat ((b.drop off).take n)

/-- Bytes `off` up to `off + n` are zero. -/
def zeroAt (b : List Byte) (off n : Nat) : Bool := ((b.drop off).take n).all (fun x => x == 0#8)

/-- A reject: its status code and reject record (R322). -/
structure Reject where
  code : Nat
  kind : Nat
  index : Nat
  featA : Nat
  featB : Nat
  off : Nat
  deriving DecidableEq, Repr

/-- A reject that names no resource. -/
def Reject.at_ (code off : Nat) : Reject := ⟨code, 0, 0, 0, 0, off⟩

/-- The reject record, bytes 0 to 15 (R322). -/
def Reject.record (r : Reject) : List Byte :=
  leBytes 2 r.kind ++ leBytes 2 r.index ++ leBytes 2 r.featA ++ leBytes 2 r.featB ++ leBytes 4 r.off ++ List.replicate 4 0#8

/-- A section: its type, the offset of its header, and its body without padding. -/
structure Sec where
  typ : Nat
  off : Nat
  body : List Byte
  deriving DecidableEq, Repr

/-- The fixed body lengths of R353. -/
def secLen (typ : Nat) : Option Nat :=
  match typ with
  | 1 => some 16
  | 2 => some 8
  | 3 => some 52
  | 4 => some 768
  | 8 => some 16
  | 9 => some 8
  | 11 => some 8
  | _ => none

/-- Whether a body length is one that R353 allows the type. -/
def secLenOk (typ len : Nat) : Bool :=
  match secLen typ with
  | some n => len == n
  | none => if typ = 5 then len % 8 == 0 && decide (len ≤ 8 * 32768) else if typ = 10 then len % 8 == 0 && decide (len ≤ 8 * 256) else true

/-- The section walk of step 5: the sections read, and the offset of the one that failed. -/
def secWalk (buf : List Byte) (len : Nat) : Nat → Nat → Nat → List Sec × Option Nat
  | 0, pos, _ => ([], if pos = len then none else some pos)
  | n + 1, pos, last =>
    if pos = len then ([], none)
    else
      let typ := leAt buf pos 2
      let bl := leAt buf (pos + 4) 4
      let pad := (8 - bl % 8) % 8
      let bad := decide (len < pos + 8 + bl + pad) || !zeroAt buf (pos + 2) 2 || decide (typ ≤ last) || decide (11 < typ) || !secLenOk typ bl
        || !zeroAt buf (pos + 8 + bl) pad
      if bad then ([], some pos)
      else
        let r := secWalk buf len n (pos + 8 + bl + pad) typ
        (⟨typ, pos, (buf.drop (pos + 8)).take bl⟩ :: r.1, r.2)

/-- The body of a section; an absent one reads as no bytes, so that its fields read as zero. -/
def secBody (ss : List Sec) (typ : Nat) : List Byte := ((ss.find? (fun x => x.typ == typ)).map Sec.body).getD []
def secOff (ss : List Sec) (typ : Nat) : Nat := ((ss.find? (fun x => x.typ == typ)).map Sec.off).getD 0
def secHas (ss : List Sec) (typ : Nat) : Bool := ss.any (fun x => x.typ == typ)

/-- Entry `i` of a body of 8-byte entries. -/
def entryAt (b : List Byte) (i : Nat) : Nat := leAt b (8 * i) 8

/-! ### Range lists (R358) -/

/-- `n` ranges from offset `p` on, as (first LPN, count). -/
def rangesAt (b : List Byte) (p n : Nat) : List (Nat × Nat) := (List.range n).map (fun i => (leAt b (p + 4 * i) 2, leAt b (p + 4 * i + 2) 2 + 1))

/-- Sorted ranges do not overlap, and each ends at or below LPN 32,767. -/
def rangesFrom : Nat → List (Nat × Nat) → Bool
  | _, [] => true
  | lo, (a, n) :: r => decide (lo ≤ a) && decide (a + n ≤ 32768) && rangesFrom (a + n) r

def rangesOk (l : List (Nat × Nat)) : Bool := rangesFrom 0 (sortRanges l)

/-- The groups of a `BARRIERS` body; none where its structure or a reserved byte is wrong. -/
def groupsAt (b : List Byte) : Nat → Nat → Option (List (Nat × List (Nat × Nat)))
  | 0, p => if p = b.length then some [] else none
  | n + 1, p =>
    if p = b.length then some []
    else
      let g := leAt b p 1
      let k := leAt b (p + 2) 2
      if b.length < p + 4 + 4 * k ∨ g = 0 ∨ leAt b (p + 1) 1 ≠ 0 then none
      else
        match groupsAt b n (p + 4 + 4 * k) with
        | some r => some ((g, rangesAt b (p + 4) k) :: r)
        | none => none

/-- Numbers rise strictly. -/
def rising : List Nat → Bool
  | a :: b :: r => decide (a < b) && rising (b :: r)
  | _ => true

/-! ### Claims (R359, R360) -/

/-- The spare position of an octet by its `SPARE_INDEX` (R266, R354). -/
def sparePos (si : Nat) : Nat := if si = 0xFE ∨ si = 0xFF then 7 else si

/-- A feature may claim a resource (R359): kind 1 DMA channel, 2 spare link, 3 pin, 4 always-on timer. `spare` gives the octets' spare positions. -/
def claimable (spare : Nat → Nat) (kind index feat : Nat) : Bool :=
  match kind with
  | 1 => decide (index < 16) && (feat == 1 || feat == 2 || feat == 3)
  | 2 => decide (index < 96) && (feat == 4 || feat == 5) && (feat != 5 || index % 8 == spare (index / 8))
  | 3 => index == 0 && (feat == 6 || feat == 7)
  | 4 => decide (index < 8) && ((feat == 3 && decide (index ≤ 2)) || feat == 8 || feat == 9 || feat == 10)
  | _ => false

/-- The implied claim on a resource (R359). -/
def Image.implied (im : Image) (kind index : Nat) : Option Nat :=
  match kind with
  | 1 => if 16 ≤ index then none else if index = 15 ∧ bitAt im.spareEn 0 then some 2 else some 1
  | 2 =>
    let o := index / 8
    let si := im.spareIdx.getD o 7
    let used := (List.range 8).any (fun i => (im.wiring.getD (8 * o + i) (0, 0, false)).2.2)
    if used && si != 0xFE && index % 8 == sparePos si then some 4 else none
  | 3 => if index = 0 ∧ bitAt im.timeEn 5 then some 6 else none
  | 4 => if index ≤ 2 then some 3 else if index = 3 ∧ bitAt im.spareEn 1 then some 8 else if index = 5 ∧ bitAt im.timeEn 1 then some 10 else none
  | _ => none

/-- The feature of the explicit claim on a resource. -/
def explicitOf (cs : List (Nat × Nat × Nat)) (kind index : Nat) : Option Nat :=
  (cs.find? (fun c => c.1 == kind && c.2.1 == index)).map (fun c => c.2.2)

/-- The claim that stands on a resource: an explicit one takes the place of an implied one. -/
def Image.claimOf (im : Image) (kind index : Nat) : Option Nat :=
  match explicitOf im.claims kind index with
  | some f => some f
  | none => im.implied kind index

/-- The standing claim that a new claim on a resource would clash with (R360): any but the implied `HOST` that `HOST` or `FIRMWARE` replaces. -/
def Image.clash (im : Image) (kind index feat : Nat) : Option Nat :=
  match explicitOf im.claims kind index with
  | some f => some f
  | none =>
    match im.implied kind index with
    | some f => if kind = 1 ∧ f = 1 ∧ (feat = 1 ∨ feat = 3) then none else some f
    | none => none

/-- The claims of the perturbation registers (R461): kind, index and feature. -/
def State.pertClaims (s : State) : List (Nat × Nat × Nat) :=
  let tr := Tab.get 0 s.pert.regs 0x0B
  let tm := Tab.get 0 s.pert.regs 0x0C
  (if bitAt tr 0 then [(3, 0, 7)] else []) ++ (if bitAt tm 3 then [(4, fld tm 2 0, 9)] else [])

/-- The first clash among explicit claims taken in order. -/
def claimClash (im : Image) (off : Nat) : List (Nat × Nat × Nat) → Option Reject
  | [] => none
  | (k, i, f) :: r =>
    match im.clash k i f with
    | some a => some ⟨0x0207, k, i, a, f, off⟩
    | none => claimClash { im with claims := im.claims ++ [(k, i, f)] } off r

/-! ### The image by its fields -/

/-- The default LPN (R355): none for `SLOT_ID` above 18. -/
def defaultLpn (pid : Nat) : Option Nat :=
  let slot := fld pid 6 2
  if slot ≤ 18 then some (fld pid 18 7 % 431 * 76 + slot * 4 + fld pid 1 0) else none

def orDefault (v d : Nat) : Nat := if v = 0 then d else v

/-- The pool sizes of a tier, defaults filled in. -/
def tierPools (b : List Byte) (tier : Nat) : List Nat :=
  let ps := (List.range 6).map (fun i => leAt b (16 + 12 * tier + 2 * i) 2)
  if ps.all (fun x => x == 0) then defaultPools else ps

/-- The PTP settings, defaults filled in (R159). -/
def ptpSettings (b : List Byte) : List Nat :=
  let v := (List.range 6).map (fun i => leAt b (1 + i) 1)
  if v.all (fun x => x == 0) then [0, 128, 128, 0xFC, 0, 0xFC] else v

/-- The image that a buffer's sections make (R354). `flashIp` stands where the image keeps the address held in flash. -/
def imageOf (s : State) (buf : List Byte) (ss : List Sec) : Image :=
  let b := secBody ss
  let lpnF := leAt (b 1) 4 2
  let lk := b 3
  let claims := (List.range ((b 10).length / 8)).map (fun i => (fld (entryAt (b 10) i) 15 0, fld (entryAt (b 10) i) 31 16, fld (entryAt (b 10) i) 47 32))
  { digest := (buf.drop 64).take 64, len := leAt buf 8 4, serial := leAt buf 16 8, ft := s.time.ft, pid := leAt (b 1) 0 4,
    lpn := if lpnF = 0xFFFF then (defaultLpn s.pid).getD 0 else lpnF, timeMaster := leAt (b 1) 6 2, ip := orDefault (leAt (b 1) 8 4) s.cfg.flashIp,
    udpPort := orDefault (leAt (b 1) 12 2) 47800, mgr := bitAt (leAt (b 1) 14 1) 0, interleave := leAt (b 2) 0 1, checksOff := leAt (b 2) 1 1,
    trainMode := leAt lk 0 1, spareIdx := (List.range 12).map (fun o => let v := leAt lk (4 + o) 1; if v = 0xFF then 7 else v),
    pools := (List.range 3).map (tierPools lk),
    wiring := (List.range 96).map (fun l => (fld (entryAt (b 4) l) 18 0, fld (entryAt (b 4) l) 25 19, bitAt (entryAt (b 4) l) 26)),
    planTag := leNat ((shake256 (b 4) 64).take 8),
    routes := (List.range ((b 5).length / 8)).map (fun i => (fld (entryAt (b 5) i) 15 0, fld (entryAt (b 5) i) 63 32)),
    barriers := ((groupsAt (b 6) 256 0).getD []).map (fun g => (g.1, sortRanges g.2)),
    loadList := sortRanges (rangesAt (b 7) 4 (leAt (b 7) 0 2)),
    timeEn := leAt (b 8) 0 1, ptp := ptpSettings (b 8), phyLatency := leAt (b 8) 8 4, orphanCap := orDefault (leAt (b 9) 0 2) 2200,
    minFlow := orDefault (leAt (b 9) 2 2) 350, flowK := orDefault (leAt (b 9) 4 2) 500, claims := claims, spareEn := leAt (b 11) 0 1 }

/-! ### The checks of R361 -/

/-- Reject where `bad`. -/
def rejectIf (bad : Bool) (code off : Nat) : Option Reject := if bad then some (Reject.at_ code off) else none

/-- Steps 1 to 4: the header. -/
def headerCheck (buf : List Byte) (cmdLen : Nat) : Option Reject :=
  let len := leAt buf 8 4
  (rejectIf (len != buf.length || len != cmdLen || len % 8 != 0 || decide (len < 128)) 0x0203 0).or
    ((rejectIf (leAt buf 0 4 != 0x47464339 || leAt buf 4 2 != 1) 0x0202 0).or
      ((rejectIf (leAt buf 6 2 != 4) 0x0210 0).or
        (rejectIf (shake256 (buf.take 64 ++ buf.drop 128) 64 != (buf.drop 64).take 64) 0x0201 0)))

/-- Step 5: the section walk. -/
def sectionCheck (buf : List Byte) (w : List Sec × Option Nat) : Option Reject :=
  match w.2 with
  | some p => some (Reject.at_ 0x0204 p)
  | none => rejectIf (w.1.length != leAt buf 12 2 || !([1, 2, 3, 4].all (secHas w.1))) 0x0204 0

/-- Step 6, section by section: reserved bits zero, values in range. -/
def fieldCheck (buf : List Byte) (ss : List Sec) : Option Reject :=
  let b := secBody ss
  let bad := fun (t : Nat) (x : Bool) => rejectIf (x && secHas ss t) 0x0205 (secOff ss t)
  let tm := leAt (b 1) 6 2
  let si := (List.range 12).map (fun o => leAt (b 3) (4 + o) 1)
  let ptp := ptpSettings (b 8)
  let small := fun (i : Nat) (lo hi : Int) => decide (lo ≤ sext 8 (ptp.getD i 0)) && decide (sext 8 (ptp.getD i 0) ≤ hi)
  let routeBad := fun (i : Nat) => let e := entryAt (b 5) i; fld e 31 16 != 0 || fld e 63 56 != 0 || !bitAt e 55
  let claimBad := fun (i : Nat) => let e := entryAt (b 10) i; fld e 63 48 != 0 || !claimable (fun o => sparePos (si.getD o 7)) (fld e 15 0) (fld e 31 16) (fld e 47 32)
  let nl := leAt (b 7) 0 2
  [rejectIf (!zeroAt buf 14 2 || !zeroAt buf 24 40) 0x0205 0,
   bad 1 (leAt (b 1) 0 4 / 2 ^ 19 != 0 || (tm != 0xFFFF && decide (32768 ≤ tm)) || decide (1 < leAt (b 1) 14 1) || leAt (b 1) 15 1 != 0),
   bad 2 (decide (2 < leAt (b 2) 0 1) || decide (63 < leAt (b 2) 1 1) || !zeroAt (b 2) 2 6),
   bad 3 (decide (1 < leAt (b 3) 0 1) || !zeroAt (b 3) 1 3 || si.any (fun v => decide (7 < v) && v != 0xFE && v != 0xFF)),
   bad 4 ((List.range 96).any (fun l => entryAt (b 4) l / 2 ^ 27 != 0)),
   bad 5 ((List.range ((b 5).length / 8)).any routeBad),
   bad 6 ((groupsAt (b 6) 256 0).isNone),
   bad 7 ((b 7).length != 4 + 4 * nl || !zeroAt (b 7) 2 2),
   bad 8 (decide (63 < leAt (b 8) 0 1) || leAt (b 8) 7 1 != 0 || !zeroAt (b 8) 12 4 || decide (127 < ptp.getD 0 0) || !small 3 (-7) 0 || !small 4 (-3) 3 || !small 5 (-7) 0),
   bad 9 (!zeroAt (b 9) 6 2),
   bad 10 ((List.range ((b 10).length / 8)).any claimBad),
   bad 11 (decide (3 < leAt (b 11) 0 1) || !zeroAt (b 11) 1 7)].findSome? id

/-- Octet `o` holds a link marked `USED`. -/
def Image.octetUsed (im : Image) (o : Nat) : Bool := (List.range 8).any (fun i => (im.wiring.getD (8 * o + i) (0, 0, false)).2.2)

/-- The `USED` links of an octet name one far `ID` (R356). -/
def Image.octetOne (im : Image) (o : Nat) : Bool :=
  let ids := ((List.range 8).map (fun i => im.wiring.getD (8 * o + i) (0, 0, false))).filter (fun w => w.2.2)
  ids.all (fun w => w.1 == (ids.headD (0, 0, false)).1)

/-- A route entry against the wiring and the own LPN (R357). -/
def Image.routeBad (im : Image) (r : Nat × Nat) : Bool :=
  let uns := routeUns r.2
  r.1 == im.lpn || uns == 0 || (bitsOf 12 uns).any (fun o => !im.octetUsed o) || !bitAt uns (routeOctet r.2) || routeSlots r.2 == 0

/-- Steps 7 to 17. -/
def imageCheck (s : State) (ss : List Sec) (im : Image) : Option Reject :=
  let b := secBody ss
  let lpnF := leAt (b 1) 4 2
  let groups := (groupsAt (b 6) 256 0).getD []
  let load := rangesAt (b 7) 4 (leAt (b 7) 0 2)
  let high := fun (l : List (Nat × Nat)) => l.any (fun r => decide (32768 ≤ r.1))
  let ipF := leAt (b 1) 8 4
  let ip := if ipF = 0 then s.cfg.flashIp else ipF
  let ipBad := ip == 0 || (224 ≤ ip / 2 ^ 24 && ip / 2 ^ 24 ≤ 239) || ip == 0xFFFFFFFF
  let im0 := { im with claims := [] }
  let pertBad := s.pertClaims.findSome? (fun c => (im.claimOf c.1 c.2.1).map (fun a => Reject.mk 0x0207 c.1 c.2.1 a c.2.2 0))
  [rejectIf (im.pid != s.pid) 0x0206 (secOff ss 1),
   rejectIf (if lpnF = 0xFFFF then (defaultLpn s.pid).isNone else 32768 ≤ lpnF) 0x0208 (secOff ss 1),
   rejectIf (s.spr.state == 4 && s.spr.takenLpn != some im.lpn) 0x0208 (secOff ss 1),
   rejectIf (im.routes.any (fun r => 32768 ≤ r.1)) 0x0208 (secOff ss 5),
   rejectIf (groups.any (fun g => high g.2)) 0x0208 (secOff ss 6),
   rejectIf (high load) 0x0208 (secOff ss 7),
   rejectIf ((List.range 12).any (fun o => !im.octetOne o)) 0x020A (secOff ss 4),
   rejectIf (!rising (im.routes.map Prod.fst) || im.routes.any im.routeBad) 0x020B (secOff ss 5),
   rejectIf (!rising (groups.map Prod.fst) || groups.any (fun g => !rangesOk g.2)) 0x020C (secOff ss 6),
   rejectIf (secHas ss 7 && (!rangesOk load || (rangeIndex (sortRanges load) im.lpn).isNone)) 0x0212 (secOff ss 7),
   rejectIf (im.pools.any (fun ps => ps.any (fun x => decide (x < 64)) || ps.foldl (· + ·) 0 != 4096)) 0x020D (secOff ss 3),
   rejectIf (decide (2800 < im.orphanCap) || decide (im.orphanCap < 1200)) 0x020E (secOff ss 9),
   rejectIf ((bitAt im.timeEn 0 && im.timeMaster != im.lpn) || ((bitAt im.timeEn 3 || bitAt im.timeEn 4) && !bitAt im.timeEn 0)) 0x0209 (secOff ss 8),
   rejectIf (ipBad && (ipF != 0 || s.cfg.flashIp == 0)) 0x0211 (secOff ss 1),
   claimClash im0 (secOff ss 10) im.claims,
   pertBad].findSome? id

/-- What `CFG_COMMIT` makes of the buffer (R361): the first failing check, or the image. -/
def State.validate (s : State) (cmdLen : Nat) : Reject ⊕ Image :=
  let buf := s.cfg.buf
  match headerCheck buf cmdLen with
  | some r => .inl r
  | none =>
    let w := secWalk buf buf.length 12 128 0
    match sectionCheck buf w with
    | some r => .inl r
    | none =>
      match fieldCheck buf w.1 with
      | some r => .inl r
      | none =>
        let im := imageOf s buf w.1
        match imageCheck s w.1 im with
        | some r => .inl r
        | none => .inr im

end Sys2Proof.Machine
end

