-- ==== Sys2Proof/Machine/MbxOps.lean ====
section
/-!
DEFINITION. The mailboxes (R297 to R303) and what every command goes through before it runs and when it is answered (R309 to R312, R316). Mailboxes 0 to 3 are `HMB0` to `HMB3`, 4 is
`MMB`, 5 is the I3C port.
-/
namespace Sys2Proof.Machine

/-- Where the ring of `MMB`, its staged requests and responses, and the I3C command stand in the SRAM. -/
def mmbRing : Nat := 0x1000000
def mmbReq : Nat := 0x1100000
def mmbRsp : Nat := 0x1200000
def i3cSlot : Nat := 0x1300000

def State.mbx (s : State) (n : Nat) : Mbx := Tab.get Mbx.reset s.h.mbx n
def State.setMbx (s : State) (n : Nat) (v : Mbx) : State := { s with h := { s.h with mbx := Tab.set s.h.mbx n v } }

/-- The address of the slot of index `idx` (R293, R297). -/
def slotAddr (n idx : Nat) : Nat := if n < 4 then n * 0x4000 + idx % 64 * 256 else if n = 4 then mmbRing + idx % 64 * 256 else i3cSlot

/-- The words of BAR2 that hold a range, through their check bits (R485). -/
def State.ramWords (s : State) (a len : Nat) : List Ecc := eccWords s.h.ram s.h.ramFlips (a / 4 * 4) ((a % 4 + len + 3) / 4)

/-- The bytes of a range of BAR2, each word corrected where one bit has flipped. -/
def State.ramBytes (s : State) (a len : Nat) : List Byte :=
  if s.h.ramFlips.isEmpty then Mem.bytes s.h.ram a len else ((eccBytes (s.ramWords a len)).drop (a % 4)).take len

/-- Bytes are written to the SRAM with new check bits. -/
def State.ramStore (s : State) (a : Nat) (bs : List Byte) : State :=
  { s with h := { s.h with ram := Mem.store s.h.ram a bs, ramFlips := clearFlips s.h.ramFlips a bs.length } }

/-- Bytes of the slot of an index as the package reads them: from the ring, through its check bits, or from the copy it keeps of a slot written too early (R298). -/
def State.slotBytes (s : State) (n idx off len : Nat) : List Byte :=
  match Tab.find s.h.slotOld (slotAddr n idx) with
  | some bs => (bs.drop off).take len
  | none => s.ramBytes (slotAddr n idx + off) len

/-- What the package has read of BAR2: corrected words are counted, in a ring slot reported as a Corrected Internal Error, and a double-bit error is reported as an Uncorrectable Internal Error (R289,
R485). For a double-bit error in staged data the spec names no report: the model reports it so too (DESIGN CHOICE, log entry 132). -/
def State.ramFound (s : State) (ring : Bool) (ws : List Ecc) : State :=
  let k := (ws.filter Ecc.isFixed).length
  let s1 := if k = 0 then s else { (if ring then s.aer aerCorrected else s) with faults := { s.faults with sbeTotal := s.faults.sbeTotal + k } }
  if ws.any Ecc.isDbe then s1.aer aerInternal else s1

/-- The package has read the slot at the `CONS` of a host mailbox. -/
def State.slotErrors (s : State) (n : Nat) : State :=
  if 4 ≤ n ∨ s.h.ramFlips.isEmpty then s else s.ramFound true (s.ramWords (slotAddr n (s.mbx n).cons) 256)

/-- A little-endian field of the slot at a mailbox's `CONS`. -/
def State.slotF (s : State) (n off len : Nat) : Nat := leNat (s.slotBytes n (s.mbx n).cons off len)

/-- The party that a mailbox carries: 1 host, 2 rack manager, 3 tray controller. -/
def mbxParty (n : Nat) : Nat := if n < 4 then 1 else if n = 4 then 2 else 3

/-- `PARTY` of R314. -/
def partyCode (n : Nat) : Nat := if n < 4 then 1 + 16 * n else mbxParty n

/-! ### Responses -/

/-- What a command answers: status, response payload, and data for the response area. -/
structure Resp where
  status : Nat
  payload : List Byte
  data : List Byte
  deriving DecidableEq, Repr

def Resp.ok_ (payload : List Byte) : Resp := ⟨0, payload, []⟩
def Resp.err (status : Nat) : Resp := ⟨status, [], []⟩

/-- The header of a management datagram (R316). -/
def dgramHead (type_ key counter pid index len : Nat) : List Byte :=
  leBytes 4 0x39594C4D ++ leBytes 1 1 ++ leBytes 1 type_ ++ leBytes 2 key ++ leBytes 8 counter ++ leBytes 4 pid ++ leBytes 2 index ++ leBytes 2 len

def State.keySlot (s : State) (i : Nat) : Option KeySlot := Tab.find s.m.keys i

/-- The tag of a datagram. -/
def dgramTag (key body : List Byte) : List Byte := kmac256 key "LY9 MMB" body 16

/-- Send a datagram with the next counter of a key; channel 8 is the management Ethernet. An empty slot sends nothing. The counter of a key that a command has since replaced goes on with the requests
it has authenticated (R317, R336). -/
def State.sendDgram (s : State) (ks : Option KeySlot) (keyId type_ index len : Nat) (slot data : List Byte) : State :=
  match ks with
  | none => s
  | some k =>
    let b := dgramHead type_ keyId (k.tx + 1) s.pid index len ++ slot ++ data
    let s1 := match s.keySlot keyId with
      | some now => if now.key = k.key then { s with m := { s.m with keys := Tab.set s.m.keys keyId { now with tx := k.tx + 1 } } } else s
      | none => s
    let s2 := { s1 with m := { s1.m with reqAuth := s1.m.reqAuth.map (fun (e : Nat × KeySlot) => if e.2.key = k.key then (e.1, { e.2 with tx := k.tx + 1 }) else e) } }
    s2.emitBytes 8 (b ++ dgramTag k.key b)

/-- What is kept of an `MMB` slot beside its bytes: the key slot of its request, the length of the staged request data and of the staged response data. -/
def mmbNote (key reqLen rspLen : Nat) : Nat := key + 4 * reqLen + 16384 * rspLen
def noteKey (v : Nat) : Nat := v % 4
def noteReq (v : Nat) : Nat := v / 4 % 4096
def noteRsp (v : Nat) : Nat := v / 16384

/-- The key that answers the `MMB` request at index `idx`: the one that authenticated it, with the slot's own counter while the slot still holds that key (R336). -/
def State.authKey (s : State) (idx : Nat) : Option KeySlot :=
  match Tab.find s.m.reqAuth (idx % 64), s.keySlot (noteKey (Tab.get 0 s.m.reqKey (idx % 64))) with
  | some k, some now => some (if now.key = k.key then now else k)
  | a, _ => a

/-- Send the response datagram of an index again or for the first time (R318). -/
def State.mmbRespond (s : State) (idx : Nat) (ks : Option KeySlot) : State :=
  let note := Tab.get 0 s.m.reqKey (idx % 64)
  let slot := Mem.bytes s.h.ram (slotAddr 4 idx) 256
  let data := Mem.bytes s.h.ram (mmbRsp + idx % 64 * 1024) (noteRsp note)
  s.sendDgram ks (noteKey note) 2 idx data.length slot data

/-- Write a response into the slot at a mailbox's `CONS`, then `CONS` + 1 (R299, R303); `ks` is the key slot as it was when an `MMB` request was accepted. -/
def State.answerWith (s : State) (n : Nat) (ks : Option KeySlot) (r : Resp) : State :=
  let m := s.mbx n
  let a := slotAddr n m.cons
  let op := s.slotF n 0 2
  let staged := bitAt (s.slotF n 2 2) 1
  let seq := s.slotF n 4 4
  let area := if n < 4 then 0x100000 + n * 0x3C0000 + s.slotF n 24 4 else mmbRsp + m.cons % 64 * 1024
  let pay := if staged && (r.status == 0 || !r.payload.isEmpty) then leBytes 4 r.data.length ++ r.payload else r.payload
  let head := leBytes 2 op ++ leBytes 2 (1 + 2 * b2n staged) ++ leBytes 4 seq ++ leBytes 2 pay.length ++ leBytes 2 r.status ++ leBytes 2 (s.slotF n 12 2) ++ leBytes 2 0
  let m1 := { m with
    cons := (m.cons + 1) % 65536, busy := false, regs := m.regs.filter (fun x => decide (x.1 ≠ m.cons)), lastStatus := r.status, lastSeq := seq, lastOp := op }
  let s0 := (s.ramStore a (head ++ pay)).ramStore area r.data
  let s1 := ({ s0 with h := { s0.h with slotOld := Tab.del s0.h.slotOld a } }).setMbx n m1
  if n = 4 then
    let note := Tab.get 0 s.m.reqKey (m.cons % 64)
    let s2 := { s1 with m := { s1.m with
      mmbDone := (s1.m.mmbDone + 1) % 2 ^ 32, reqKey := Tab.set s1.m.reqKey (m.cons % 64) (mmbNote (noteKey note) (noteReq note) r.data.length) } }
    s2.mmbRespond m.cons ks
  else if n = 5 then { s1 with m := { s1.m with i3cPending := false, i3cReady := true, i3cAt := some s1.time.now } }
  else s1

def State.answer (s : State) (n : Nat) (r : Resp) : State :=
  s.answerWith n (s.authKey (s.mbx n).cons) r

/-! ### Registration (R298, R299) -/

/-- Register the next `count` commands of a mailbox. -/
def State.registerN (s : State) (n : Nat) : Nat → State
  | 0 => s
  | k + 1 =>
    let m := s.mbx n
    (s.setMbx n { m with prod := (m.prod + 1) % 65536, regs := m.regs ++ [(m.prod, s.time.now)] }).registerN n k

/-! ### The checks before a command runs -/

/-- A command of the set: its opcode, whether a payload (after the staged bytes, if it is staged) has the length it takes, the parties it takes, whether it is marked staged, and whether
a payload has its zero fields zero. -/
structure Cmd where
  op : Nat
  lens : Bool → List Byte → Bool
  parties : List Nat
  staged : Bool
  zero : List Byte → Bool

/-- A command of one request length, with the byte ranges that its table shows as zero. -/
def Cmd.fixed (op len : Nat) (parties : List Nat) (staged : Bool) (zeros : List (Nat × Nat)) : Cmd :=
  ⟨op, fun _ p => p.length == len, parties, staged, fun p => zeros.all (fun z => zeroAt p z.1 z.2)⟩

/-- The opcodes of Mordant 4.x (R309). -/
def opcodes : List Nat :=
  [0x0101, 0x0102, 0x0201, 0x0202, 0x0203, 0x0204, 0x0205, 0x0301, 0x0302, 0x0303, 0x0304, 0x0305, 0x0306, 0x0307, 0x0308, 0x0401, 0x0402, 0x0403, 0x0404, 0x0405, 0x0406,
   0x0501, 0x0502, 0x0503, 0x0504, 0x0601, 0x0602, 0x0603, 0x0604, 0x0605, 0x0701, 0x0702, 0x0703, 0x0704, 0x0705, 0x0801, 0x0802, 0x0803, 0x0804, 0x0901, 0x0902,
   0x0A01, 0x0A02, 0x0A03, 0x0A04]

/-- The command of an opcode, for the row that answers an expired one before it runs (R300, R302); an unlisted opcode has that of `ID_GET`. -/
def cmdOf : Nat → Cmd
  | 0x0101 => .fixed 0x0101 0 [1, 2, 3] false []
  | 0x0102 => .fixed 0x0102 0 [1, 2, 3] false []
  | 0x0201 => .fixed 0x0201 8 [1] true []
  | 0x0202 => .fixed 0x0202 4 [1] false []
  | 0x0203 => .fixed 0x0203 0 [1] false []
  | 0x0204 => .fixed 0x0204 0 [1] false []
  | 0x0205 => .fixed 0x0205 8 [1] false [(6, 2)]
  | 0x0301 => .fixed 0x0301 8 [1] false [(6, 2)]
  | 0x0302 => ⟨0x0302, fun _ p => p.length == 80, [1], true, fun p => decide (leAt p 4 4 < 2)⟩
  | 0x0303 => .fixed 0x0303 4 [1] true []
  | 0x0304 => ⟨0x0304, fun st p => if st then p.length == 4 else p.length == 4 + 2 * leAt p 2 2, [1], true, fun _ => true⟩
  | 0x0305 => .fixed 0x0305 4 [1] false [(2, 2)]
  | 0x0306 => .fixed 0x0306 4 [1] false [(2, 2)]
  | 0x0307 => .fixed 0x0307 4 [1] false [(2, 2)]
  | 0x0308 => .fixed 0x0308 4 [1, 2] false [(2, 2)]
  | 0x0401 => .fixed 0x0401 4 [1, 2] false [(2, 2)]
  | 0x0402 => .fixed 0x0402 0 [1, 2, 3] false []
  | 0x0403 => .fixed 0x0403 0 [2, 3] false []
  | 0x0404 => .fixed 0x0404 0 [2, 3] false []
  | 0x0405 => .fixed 0x0405 4 [1, 2] false [(1, 3)]
  | 0x0406 => .fixed 0x0406 0 [1, 2, 3] false []
  | 0x0501 => .fixed 0x0501 0 [1, 2] false []
  | 0x0502 => .fixed 0x0502 8 [1, 2] false []
  | 0x0503 => .fixed 0x0503 4 [1] false [(2, 2)]
  | 0x0504 => .fixed 0x0504 0 [1, 2] false []
  | 0x0601 => ⟨0x0601, fun _ p => p.length == 8 + 8 * leAt p 2 2, [2], false, fun p => (List.range (leAt p 2 2)).all (fun j => zeroAt p (15 + 8 * j) 1) && (leAt p 1 1 != 0 || leAt p 4 4 == 0)⟩
  | 0x0602 => .fixed 0x0602 4 [2] false [(1, 3)]
  | 0x0603 => .fixed 0x0603 0 [1, 2] false []
  | 0x0604 => ⟨0x0604, fun _ p => p.length == 4 + 16 * leAt p 2 2, [1], false, fun _ => true⟩
  | 0x0605 => .fixed 0x0605 4 [1] false [(2, 2)]
  | 0x0701 => .fixed 0x0701 72 [2] true []
  | 0x0702 => .fixed 0x0702 4 [2] true [(3, 1)]
  | 0x0703 => .fixed 0x0703 0 [1, 2] false []
  | 0x0704 => .fixed 0x0704 0 [2] false []
  | 0x0705 => .fixed 0x0705 4 [1] false []
  | 0x0801 => .fixed 0x0801 40 [1, 2] true [(36, 4)]
  | 0x0802 => .fixed 0x0802 4 [1, 2] true []
  | 0x0803 => .fixed 0x0803 36 [1, 2] false [(1, 3)]
  | 0x0804 => .fixed 0x0804 4 [2] false [(1, 3)]
  | 0x0901 => .fixed 0x0901 12 [1, 2] true [(1, 3), (10, 2)]
  | 0x0902 => .fixed 0x0902 12 [1, 2] false [(10, 2)]
  | 0x0A01 => ⟨0x0A01, fun _ p => p.length == 8, [1, 2], false, fun p => leAt p 0 1 / 4 == 0 && zeroAt p 1 3⟩
  | 0x0A02 => ⟨0x0A02, fun _ p => p.length == 4, [1, 2], false, fun p => leAt p 0 1 / 4 == 0 && zeroAt p 1 3⟩
  | 0x0A03 => .fixed 0x0A03 8 [1, 2] false [(2, 2)]
  | 0x0A04 => .fixed 0x0A04 4 [1, 2] false [(2, 2)]
  | _ => .fixed 0x0101 0 [1, 2, 3] false []

/-- A request as a command sees it: the mailbox, its `SEQ`, the payload after the staged bytes, the staged data, and the capacity of the response area. -/
structure Req where
  mb : Nat
  seq : Nat
  payload : List Byte
  staged : Bool
  data : List Byte
  cap : Nat
  deriving DecidableEq, Repr

/-- A field of the request payload. -/
def Req.f (r : Req) (off n : Nat) : Nat := leAt r.payload off n

def Req.party (r : Req) : Nat := mbxParty r.mb

/-- The registration of the command at a mailbox's `CONS`, where none of the mailbox is being executed (R299). -/
def State.headReg (s : State) (n : Nat) : Option (Nat × Nat) :=
  let m := s.mbx n
  if m.busy || m.ghost.isSome then none else m.regs.find? (fun x => x.1 == m.cons)

/-- A command at the head of a ring may be looked at: the Mordant complex runs and no drain before a handover holds it back (R343, R413, R450). -/
def State.mbxRuns (s : State) : Bool := s.booted && s.pkg.mordRuns && s.fw.act != 2

/-- The opcode group of the command a mailbox has registered at an index. -/
def State.groupAt (s : State) (n idx : Nat) : Nat := leNat (s.slotBytes n idx 0 2) / 256

/-- A command at an index has not begun by the expiry edge of its deadline, so it will not be executed (R300). -/
def State.lapsed (s : State) (n idx reg : Nat) : Bool :=
  let d := leNat (s.slotBytes n idx 12 2)
  d != 0 && decide (watchCycle (reg + d * 100 * us) < watchCycle s.time.now)

/-- No other mailbox has a command of the group running, or registered before; of those registered in one watch-clock cycle the lower-numbered mailbox goes first (R299). A command
that has expired does not begin, so none waits for it. -/
def State.groupFree (s : State) (n group reg : Nat) : Bool :=
  (List.range 6).all (fun k =>
    let m := s.mbx k
    let after := fun (r : Nat) => decide (watchCycle reg < watchCycle r) || (watchCycle reg == watchCycle r && decide (n < k))
    (match m.ghost with
      | some op => op / 256 != group
      | none => true) &&
    (k == n || ((!m.busy || s.groupAt k m.cons != group) && m.regs.all (fun x => after x.2 || s.groupAt k x.1 != group || (s.lapsed k x.1 x.2 && (!m.busy || x.1 != m.cons))))))

/-- `PT_MBX_DELAY` lets a command begin (R459). -/
def State.ptMbxFree (s : State) (n reg : Nat) : Bool :=
  let v := s.ptReg 4
  !(decide (n < 5) && bitAt (fld v 4 0) n) || decide (reg + fld v 18 5 * 100 * us ≤ s.time.now)

/-- The expiry edge of a command's deadline (R300). -/
def State.expiry (s : State) (n reg : Nat) : Option Nat :=
  let d := s.slotF n 12 2
  if d = 0 then none else some (reg + d * 100 * us)

def State.expired (s : State) (n reg : Nat) : Bool :=
  match s.expiry n reg with
  | some e => decide (watchCycle e < watchCycle s.time.now)
  | none => false

/-- A staged range outside the mailbox's region (R302, R316). -/
def State.stagingBad (s : State) (n : Nat) : Bool :=
  let off := s.slotF n 16 4
  let len := s.slotF n 20 4
  let ro := s.slotF n 24 4
  let cap := s.slotF n 28 4
  if n < 4 then decide (0x3C0000 < off + len) || decide (0x3C0000 < ro + cap)
  else if n = 4 then off != 0 || ro != 0 || len != noteReq (Tab.get 0 s.m.reqKey ((s.mbx 4).cons % 64)) || decide (1024 < cap)
  else true

/-- The header check of R302 in table order: a status, or 0. -/
def State.headerStatus (s : State) (n reg : Nat) (c : Cmd) (unlisted : Bool) : Nat :=
  let flags := s.slotF n 2 2
  let staged := bitAt flags 1
  let len := s.slotF n 8 2
  let pay := s.slotBytes n (s.mbx n).cons 16 len
  let body := if staged then pay.drop 16 else pay
  let lenOk := if staged then (decide (16 ≤ len) && c.lens true body) || (!c.staged && c.lens false pay) else c.lens false pay
  if unlisted then 1
  else if 240 < len ∨ !lenOk ∨ (n = 5 ∧ 48 < len) then 2
  else if flags % 2 = 1 ∨ 4 ≤ flags ∨ s.slotF n 10 2 ≠ 0 ∨ s.slotF n 14 2 ≠ 0 ∨ !c.zero body then 3
  else if !c.parties.contains (mbxParty n) then 4
  else if (s.mbx n).handover then 5
  else if s.expired n reg then 6
  else if staged ∧ (!c.staged ∨ s.stagingBad n) then 7
  else 0

/-- Where the staged data of the request at a mailbox's head stand, and their length. -/
def State.stagedAt (s : State) (n : Nat) : Nat × Nat :=
  (if n < 4 then 0x100000 + n * 0x3C0000 + s.slotF n 16 4 else mmbReq + (s.mbx n).cons % 64 * 1024, if bitAt (s.slotF n 2 2) 1 then s.slotF n 20 4 else 0)

/-- What the package finds as it reads a request: its slot, and its staged data in BAR2. -/
def State.requestErrors (s : State) (n : Nat) : State :=
  let at_ := s.stagedAt n
  let s1 := s.slotErrors n
  if 4 ≤ n ∨ s.h.ramFlips.isEmpty then s1 else s1.ramFound false (s.ramWords at_.1 at_.2)

/-- The request at a mailbox's head. -/
def State.request (s : State) (n : Nat) : Req :=
  let staged := bitAt (s.slotF n 2 2) 1
  let pay := s.slotBytes n (s.mbx n).cons 16 (s.slotF n 8 2)
  let at_ := s.stagedAt n
  { mb := n, seq := s.slotF n 4 4, payload := if staged then pay.drop 16 else pay, staged := staged,
    data := s.ramBytes at_.1 at_.2, cap := if staged then s.slotF n 28 4 else 0 }

/-- Run the command at the head of mailbox `n` where it is command `c` (an unlisted opcode is answered by `ID_GET`'s row, R309). `body` gives the state and the response; none leaves
the command running, to be answered by a later event. -/
def State.command (s : State) (n t : Nat) (c : Cmd) (body : State → Req → State × Option Resp) : State :=
  let s0 := s.advance t
  match s0.headReg n with
  | none => s0
  | some (_, reg) =>
    let op := s0.slotF n 0 2
    let unlisted := !opcodes.contains op
    if !s0.mbxRuns ∨ 5 < n ∨ !(op == c.op || (unlisted && c.op == 0x0101)) then s0
    else
      let st := s0.headerStatus n reg c unlisted
      if st = 5 ∨ (st ≠ 0 ∧ s0.expired n reg) then (s0.slotErrors n).answer n (Resp.err st)
      else if !s0.groupFree n (op / 256) reg ∨ !s0.ptMbxFree n reg then s0
      else if st ≠ 0 then (s0.slotErrors n).answer n (Resp.err st)
      else
        let r := s0.request n
        let near := match s0.expiry n reg with
          | some e => watchCycle e == watchCycle s0.time.now
          | none => false
        let m := s0.mbx n
        let s1 := (s0.requestErrors n).setMbx n { m with busy := true, nearMiss := if near then satInc 16 m.nearMiss else m.nearMiss }
        let ks := s1.authKey m.cons
        match body s1 r with
        | (s2, none) => s2
        | (s2, some a) => if r.staged ∧ r.cap < a.data.length then s1.answer n (Resp.err 7) else s2.answerWith n ks a

/-- A command whose body always answers. -/
def State.commandNow (s : State) (n t : Nat) (c : Cmd) (body : State → Req → State × Resp) : State :=
  s.command n t c (fun u r => ((body u r).1, some (body u r).2))

/-- A command that a port reset has left without an answer is over (R290). -/
def State.endGhost (s : State) (n op : Nat) : State := if (s.mbx n).ghost = some op then s.setMbx n { s.mbx n with ghost := none } else s

/-- Answer the running command of opcode `op`, wherever one waits; one whose port was reset ends without an answer. -/
def State.answerOp (s : State) (op : Nat) (r : Resp) : State :=
  (List.range 6).foldl (fun (u : State) n => if (u.mbx n).busy ∧ u.slotF n 0 2 = op then u.answer n r else u.endGhost n op) s

end Sys2Proof.Machine
end

