-- ==== Sys2Proof/Machine/Links.lean ====
section
/-!
DEFINITION. The meanings of the link layer: frames and replay (R250 to R262), the egress arbiter (R265), identity (R278, R279), handoff (R269, R270) and training (R282 to R285).
`t` is the time of the event in ticks of 0.25 ns.
-/
namespace Sys2Proof.Machine

/-! ### Receiving -/

/-- A slot that the link's state does not carry is dropped: its flits are free again, and its data flits are passed over (R253, R281). -/
def Link.dropSlot (k : Link) (x : Slot) (d : Nat) : Link :=
  { k with rx := { k.rx with freed := if x.pool ≤ 5 then k.rx.freed.set x.pool ((nth k.rx.freed x.pool + 1 + d) % 65536) else k.rx.freed, skip := d } }

/-- Put a received slot in line, or count a bad one. -/
def Link.accept (k : Link) (slot1 : Bool) : SlotRx → Link
  | .empty => k
  | .bad => { k with badFrames := satInc 16 k.badFrames }
  | .some_ (.pkt p) =>
    let d := if carriesData p.kind (nth p.ext 0) then (p.words + 15) / 16 else 0
    if k.state = 2 ∨ k.state = 4 then k.dropSlot (.pkt p) (if slot1 then k.rx.skip else d)
    else
      if d = 0 then { k with rx := { k.rx with q := k.rx.q ++ [.pkt p] } }
      else if slot1 then { k with badFrames := satInc 16 k.badFrames }
      else { k with rx := { k.rx with part := some (p, d) } }
  | .some_ x => if !x.isCtl && (k.state == 2 || k.state == 4) then k.dropSlot x k.rx.skip else { k with rx := { k.rx with q := k.rx.q ++ [x] } }

/-- The `TIM` slots of a frame that arrives now are stamped with its FT (R257). -/
def Link.stampTim (k : Link) (ft : Nat) : Link :=
  { k with rx := { k.rx with q := k.rx.q.map (fun x =>
    match x with
    | .tim v => .tim { v with rxFt := some (v.rxFt.getD ft) }
    | _ => x) } }

/-- The sixteen words of a data flit. -/
def flitWords (f : Nat) : List Word := (List.range 16).map (fun i => BitVec.ofNat 32 (fld f (32 * i + 31) (32 * i)))

/-- One sequenced flit (R253). -/
def Link.flitIn (k : Link) (f : Nat) : Link :=
  match k.rx.part with
  | some (p, d) =>
    let p1 := { p with data := p.data ++ flitWords f }
    if d ≤ 1 then { k with rx := { k.rx with part := none, q := k.rx.q ++ [.pkt { p1 with data := p1.data.take p1.words }] } }
    else { k with rx := { k.rx with part := some (p1, d - 1) } }
  | none =>
    if k.rx.skip ≠ 0 then { k with rx := { k.rx with skip := k.rx.skip - 1 } }
    else (k.accept false (slotOf (fld f 255 0))).accept true (slotOf (fld f 511 256))

/-- The slots of a filler frame's flit: link control only (R251). -/
def Link.fillerFlit (k : Link) (f : Nat) : Link :=
  let one := fun (u : Link) (v : Nat) =>
    match slotOf v with
    | .some_ x => if x.isCtl then u.accept false (.some_ x) else { u with badFrames := satInc 16 u.badFrames }
    | x => u.accept false x
  one (one k (fld f 255 0)) (fld f 511 256)

def flitAt (v i : Nat) : Nat := fld v (512 * i + 511) (512 * i)

/-- An emergency flit inserted in a frame: a `HEARTBEAT` or `ABORT` in slot 0 (R265). It enters the receiver's emergency queue of 16, which is emptied at the rate it fills (R264). -/
def Link.emFlit (k : Link) (f : Nat) : Link :=
  match slotOf (fld f 255 0) with
  | .some_ (.mgt m) => if m.mkind = 1 ∨ m.mkind = 2 then (if k.state = 2 ∨ k.state = 4 ∨ 16 ≤ k.rx.em.length then k else { k with rx := { k.rx with em := k.rx.em ++ [m] } }) else { k with badFrames := satInc 16 k.badFrames }
  | .empty => k
  | _ => { k with badFrames := satInc 16 k.badFrames }

/-- The flits of an accepted sequenced frame in order, one of them inserted where `INS` is 1 to 10. -/
def Link.frameIn (k : Link) (v ins : Nat) : Link :=
  (List.range 10).foldl (fun u i => if ins = i + 1 then u.emFlit (flitAt v i) else u.flitIn (flitAt v i)) k

/-- The last accepted frame as `ACK_SEQ`. -/
def LinkRx.lastSeq (r : LinkRx) : Nat := (r.accepted + 4095) % 4096

/-- A frame is received (R259). On a link that a handoff has stopped, reception goes on with the first frame that carries `RSTART` (R253, R269; log entry 110). `fecBad` says that the FEC could not correct the codeword, `corrected` counts codewords with corrected symbols. -/
def execFrameRx (l : Nat) (frame : BitVec 5140) (fecBad : Bool) (corrected t : Nat) (s : State) : Out1 :=
  let s0 := s.advance t
  let k0 := s0.link l
  if !k0.frames then ok s0
  else
    let k := { k0 with fecCorr := min 0xFFFFFFFF (k0.fecCorr + corrected) }
    let v := frame.toNat
    let ins := fld v 5138 5135
    let bad := fecBad || frameCrc v ≠ fld v 5134 5120 || (decide (11 ≤ ins) && decide (ins ≤ 14))
    if bad then
      let k1 := { k with badFrames := satInc 16 k.badFrames }
      if ins = 15 ∨ k.rx.stopped then ok (s0.setLink l k1)
      else if k.rx.nak then ok (s0.setLink l k1)
      else
        ok ((s0.setLink l { k1 with rx := { k.rx with nak := true, nakAt := s0.time.now } }).sendCtl l (.ack k.rx.lastSeq true k.rx.freed))
    else if ins = 15 then
      let k1 := (List.range 10).foldl (fun u i => u.fillerFlit (flitAt v i)) k
      ok (s0.setLink l ({ k1 with rx := { k1.rx with sinceAck := k.rx.sinceAck + 1 } }))
    else if (k.rx.stopped || k.rx.nak) ∧ !bitAt v 5139 then ok (s0.setLink l k)
    else
      let r := { k.rx with nak := false, stopped := false, accepted := k.rx.accepted + 1, sinceAck := k.rx.sinceAck + 1,
                           part := if bitAt v 5139 then none else k.rx.part, skip := if bitAt v 5139 then 0 else k.rx.skip }
      ok (s0.setLink l ((({ k with rx := r }).frameIn v ins).stampTim s0.time.ft))

/-- The receiver repeats its `NAK` every 1 µs until `RSTART` arrives (R259). -/
def execNakRepeat (l t : Nat) (s : State) : Out1 :=
  let s0 := s.advance t
  let k := s0.link l
  if k.frames ∧ k.rx.nak ∧ k.rx.nakAt + us ≤ s0.time.now then
    ok ((s0.setLink l { k with rx := { k.rx with nakAt := s0.time.now } }).sendCtl l (.ack k.rx.lastSeq true k.rx.freed))
  else ok s0

/-- The receiver sends an `ACK` (R260). -/
def execAckSend (l t : Nat) (s : State) : Out1 :=
  let s0 := s.advance t
  let k := s0.link l
  if k.frames ∧ !k.rx.nak then
    ok ((s0.setLink l { k with rx := { k.rx with sinceAck := 0, ackAt := s0.time.now } }).sendCtl l (.ack k.rx.lastSeq false k.rx.freed))
  else ok s0

/-- Frames are outstanding and no `ACK` has advanced for 4 µs (R261); the closed output gate stops the count (R286). -/
def State.ackLate (s : State) (l : Nat) : Bool :=
  let k := s.link l
  !s.gate && k.frames && decide (0 < k.tx.outstanding) && decide (k.tx.ackAt + 4 * us < s.time.now)

/-- A received `ACK`, which comes after the expiry of a timer that has run out (R417): frames up to `ACK_SEQ` leave the replay buffer and credits become available; on a `NAK` every frame after it is sent again (R259, R262), where the link carries
frames: a fast retrain resumes the replay at its end (R285). -/
def execAck (l t : Nat) (s : State) : Out1 :=
  let u := (s.advance t).flushTx l
  let s0 := if u.ackLate l then u.fastStart l else u
  let isAck := fun (x : Slot) => match x with
    | .ack _ _ _ => true
    | _ => false
  match s0.takeRx l isAck with
  | some (.ack q nak cr, s1) =>
    let k := s1.link l
    let x := k.tx
    let delta := (q + 1 + 4096 - x.acked % 4096) % 4096
    let adv := decide (0 < delta) && decide (delta ≤ x.buf.length)
    let acked := if adv then x.acked + delta else x.acked
    let near := adv && s1.time.now == x.ackAt + 4 * us
    let x1 := { x with
      acked := acked, buf := x.buf.drop (acked - x.acked), sent := x.sent.filter (fun e => !decide (e.last < acked)), credit := cr,
      ackAt := if adv then s1.time.now else x.ackAt }
    let s2 := s1.setLink l { k with tx := x1, nearMiss := if near then satInc 8 k.nearMiss else k.nearMiss }
    ok (if nak ∧ k.frames then s2.replay l else s2)
  | _ => ok s0

/-- A frame has been resent four times without being covered by an `ACK`. -/
def LinkTx.resentOut (x : LinkTx) : Bool := x.buf.any (fun e => decide (4 ≤ e.2))

/-- Replay exhaustion (R261): one frame has been resent four times, or frames are outstanding and no `ACK` has advanced for 4 µs. While the output gate is closed no frame leaves and the
links stay trained (R286). -/
def execReplayExhaustion (l t : Nat) (s : State) : Out1 :=
  let s0 := (s.advance t).flushTx l
  let k := s0.link l
  if !s0.gate ∧ k.frames ∧ (k.tx.resentOut ∨ s0.ackLate l) then ok (s0.fastStart l) else ok s0

/-! ### Sending (R265) -/

/-- The credits available in a pool. -/
def LinkTx.avail (x : LinkTx) (p : Nat) : Nat := if p ≤ 5 then (nth x.credit p + 65536 - nth x.used p) % 65536 else 65535

/-- The classes a link's state carries (R281), where `image` says that `PKT` slots may leave the package (R280, R351). -/
def Link.carries (k : Link) (image : Bool) (x : Slot) : Bool :=
  match x with
  | .pkt p => image && ((k.state == 3) || ((k.state == 5 || k.state == 6) && p.tc == 1)) && (k.claim ≠ 2 || p.mir)
  | _ => k.usable

/-- The head of the queue for each rank that may be granted now. -/
def State.egressHeads (s : State) (l : Nat) : List (Nat × Nat × Nat) :=
  let k := s.link l
  (List.range 6).filterMap (fun r =>
    match k.tx.q.find? (fun e => e.rank == r) with
    | none => none
    | some e =>
      if e.notBefore ≤ s.time.now ∧ k.carries s.carriesPkt e.slot ∧ e.slot.flits ≤ k.tx.avail e.slot.pool then some (r, e.since, e.slot.flits)
      else none)

/-- The egress arbiter grants a packet or slot to the next flits (R265), in the frame under construction or the next one; a read request or an acknowledgement takes a free slot 1 of
a packet's header flit that has not left (R254). The output gate, a full replay buffer, a replay in progress and a handoff let none go. -/
def execEgressGrant (l t : Nat) (s : State) : Out1 :=
  let s0 := (s.advance t).flushTx l
  let k := s0.link l
  if s0.gate ∨ !k.usable ∨ s0.time.now < k.tx.replayTo ∨ k.handoff.isSome then ok s0
  else
    let a := { k.tx.arb with waiting := s0.egressHeads l }
    match a.winner 16 with
    | none => ok s0
    | some w =>
      match k.tx.q.find? (fun e => e.rank == w.1) with
      | none => ok s0
      | some e =>
        let x := k.tx
        let n := e.slot.flits
        let p := e.slot.pool
        if (x.ride e.slot).isNone ∧ !x.roomFor n then ok s0
        else
        let x1 := { x with
          q := x.q.erase e,
          used := if p ≤ 5 then x.used.set p ((nth x.used p + n) % 65536) else x.used,
          arb := { x.arb with grants := x.arb.grants + 1, inUse := some w.1, beats := n },
          ackAt := if x.outstanding = 0 then s0.time.now else x.ackAt }
        let s1 := s0.setLink l { k with tx := x1 }
        let s2 : State := { s1 with out := s1.out ++ [Out.slot l e.slot] }
        let s3 := match x.ride e.slot with
          | some h => s2.rideSlot l h e.slot
          | none => s2.placeSlot l e.slot
        let k3 := s3.link l
        ok ((s3.setLink l { k3 with tx := { k3.tx with sent := k3.tx.sent ++ [⟨e, k3.tx.lastFrame⟩] } }).timStamp l e.slot k3.tx.curFt)

/-! ### Identity (R278, R279) -/

/-- `ROLE` (R278, R425): 0 for a spare whose takeover has given it the LPN, 1 bound as a spare, 0 bound as a member or holding a taken-over LPN, else by the strap. -/
def roleCode (s : State) : Nat :=
  let took := s.spr.takenLpn.isSome && s.pkg.lpnValid
  if took ∧ (s.spr.state = 3 ∨ s.spr.state = 4) then 0
  else if s.spr.role = 2 then 1
  else if s.spr.role = 1 ∨ took = true then 0
  else if s.pkg.role then 1 else 3

/-- The identity block (R278). -/
def State.identBlock (s : State) (l : Nat) : Nat :=
  place s.pid 19 0 + place s.lpn 15 19 + place (b2n s.pkg.lpnValid) 1 34 + place (roleCode s) 2 35 + place l 7 37 + place 0x09 8 44 + place 4 8 52
    + place 1 1 60 + place 1 1 61 + place (match s.cfg.image with
      | some im => im.planTag
      | none => 0) 64 64

/-- The wiring plan's entry for a link, where an image is accepted. -/
def State.plan (s : State) (l : Nat) : Option (Nat × Nat × Bool) :=
  match s.cfg.image with
  | some im => im.wiring[l]?
  | none => none

/-- The last identity block's `PLAN_TAG` differs from the accepted image's and is not zero (R279). -/
def State.planDiffers (s : State) (k : Link) : Bool :=
  match s.cfg.image with
  | some im => k.identGot && k.farPlan != 0 && k.farPlan != im.planTag
  | none => false

/-- The link layer starts afresh with full training: frame numbers, replay buffer and credits (R262, R282). What waits in its queues waits on. -/
def State.linkAfresh (s : State) (l : Nat) : State :=
  let s1 := if (s.link l).handoff.isSome then s.handoffFail l else s
  let k := s1.link l
  s1.setLink l { k with tx := { LinkTx.zero with q := k.tx.q, ackAt := s.time.now }, rx := { LinkRx.zero with freed := s.pools l, ackAt := s.time.now } }

/-- The identity exchange is done, and credit initialisation begins: the first `ACK` carries the full pool sizes (R282). -/
def State.identDone (s : State) (l : Nat) : State :=
  let k := s.link l
  if k.state = 2 ∧ k.phase = 3 ∧ k.identGot then
    (s.setLink l { k with phase := 4, phaseAt := s.time.now }).sendCtl l (.ack k.rx.lastSeq false k.rx.freed)
  else s

/-- Compare a link's far end with the plan (R279). A link marked unused is held `DOWN`; a mismatch leads to `MISWIRED`, out of `DEGRADED` by full training (R285), and a match out of
it to `IDENT`; in a fast retrain it is the state to return to that changes. -/
def State.compareWiring (s : State) (l : Nat) : State :=
  let k := { s.link l with planMismatch := s.planDiffers (s.link l) }
  let s := s.setLink l k
  match s.plan l with
  | none => s.identDone l
  | some (id, port, used) =>
    if !used then
      (if k.state = 0 then s else s.linkDown l s.time.now)
    else if k.identGot then
      (if k.farId = id ∧ k.farPort = port then
        (if k.state = 4 then (s.setLink l { k with state := 2, phase := 3, phaseAt := s.time.now }).identDone l
         else if k.state = 1 ∧ k.fast ∧ k.prev = 4 then s.setLink l { k with prev := 2, phase := 3, phaseAt := s.time.now }
         else s.identDone l)
       else if k.state = 1 ∧ k.fast then
        (if k.prev = 5 then s.linkDown l s.time.now
         else if k.prev = 3 ∨ k.prev = 6 then
          (let s1 := s.setLink l { k with prev := 4 }
           s1.linkFailed l)
         else if k.prev = 2 then s.setLink l { k with prev := 4, phase := 0 }
         else s)
       else if k.state = 5 then s.linkDown l s.time.now
       else if k.usable then
        (let s1 := s.setLink l { k with state := 4 }
         s1.linkFailed l)
       else if k.state = 2 then s.setLink l { k with state := 4, phase := 0 }
       else s)
    else s

/-- A received identity block. -/
def execIdent (l t : Nat) (s : State) : Out1 :=
  let s0 := s.advance t
  let isId := fun (x : Slot) => match x with
    | .ident _ => true
    | _ => false
  match s0.takeRx l isId with
  | some (.ident b, s1) =>
    let k := s1.link l
    let k1 := { k with
      farId := fld b 18 0, farLpn := fld b 33 19, farLpnValid := bitAt b 34, farRole := fld b 36 35, farPort := fld b 43 37, farDev := fld b 51 44,
      farTim := bitAt b 60, farHandoff := bitAt b 61, farPlan := fld b 127 64, identGot := true }
    ok ((s1.setLink l k1).compareWiring l)
  | _ => ok s0

/-- `IDENT` is sent every 10 µs in `IDENT` until a block is received, and every 1 s in `UP` and `MISWIRED` (R278). -/
def execIdentSend (l t : Nat) (s : State) : Out1 :=
  let s0 := s.advance t
  let k := s0.link l
  let due := (k.state == 2 && !k.identGot && decide (k.identAt + 10 * us ≤ s0.time.now))
    || ((k.state == 3 || k.state == 4) && decide (k.identAt + 1000 * ms ≤ s0.time.now))
  if due then ok ((s0.setLink l { k with identAt := s0.time.now }).sendCtl l (.ident (s0.identBlock l))) else ok s0

/-! ### Handoff (R269, R270) -/

/-- The link of the same octet whose far end is link number `n`. -/
def State.linkOfFar (s : State) (l n : Nat) : Option Nat :=
  ((List.range 8).map (fun i => l / 8 * 8 + i)).find? (fun x => (s.link x).farPort == n)

/-- The credits of a link's receive buffer as at its initialisation: full pools, but for the slots that still wait (R269). -/
def LinkRx.refilled (r : LinkRx) (pools : List Nat) : List Nat :=
  (List.range 6).map (fun p => nth pools p - (r.q.filter (fun x => x.pool == p)).foldl (fun n x => n + x.flits) 0)

/-- The slot map that the far end's handoff tells of (R267): the failed link's slot is on link `l` where that is the octet's spare, and on the octet's other slot links otherwise. -/
def State.learnMove (s : State) (x l : Nat) : State :=
  let o := x / 8
  match (s.link x).sch with
  | none => s
  | some sl =>
    let s1 := if s.spareReady o ∧ l = 8 * o + (s.octet o).spareIdx then s.moveSlot o sl x else s.setOctet o { s.octet o with short := true }
    s1.setLink x { s1.link x with sch := none, wasSch := some sl }

/-- A received `HANDOFF_REQ`, which a link answers when it carries frames: receiving on the failed link stops, its credits are freed, the slot map follows, and `EXP_SEQ` is answered. -/
def execHandoffReq (l t : Nat) (s : State) : Out1 :=
  let s0 := s.advance t
  let isReq := fun (x : Slot) => match x with
    | .handoffReq _ => true
    | _ => false
  if !(s0.link l).frames then ok s0
  else
  match s0.takeRx l isReq with
  | some (.handoffReq n, s1) =>
    match s1.linkOfFar l n with
    | none => ok s1
    | some x =>
      let k := s1.link x
      let s2 := s1.setLink x { k with rx := { k.rx with stopped := true, part := none, skip := 0, nak := false, freed := k.rx.refilled (s1.pools x), held := [0, 0, 0, 0, 0, 0] }, handoffs := satInc 8 k.handoffs }
      let s3 := { s2 with st := { s2.st with handoffs := (s2.st.handoffs + 1) % 2 ^ 32 } }
      ok ((s3.learnMove x l).sendCtl l (.handoffRsp n (k.rx.accepted % 4096)))
  | _ => ok s0

/-- A received `HANDOFF_RSP`: packets not wholly in frames before `EXP_SEQ` are sent again at the head of the new link's queues, and the failed link's queue follows them. -/
def execHandoffRsp (l t : Nat) (s : State) : Out1 :=
  let s0 := s.advance t
  let isRsp := fun (x : Slot) => match x with
    | .handoffRsp _ _ => true
    | _ => false
  match s0.takeRx l isRsp with
  | some (.handoffRsp n e, s1) =>
    let k := s1.link n
    match k.handoff with
    | none => ok s1
    | some (g, at_) =>
      if g ≠ l ∨ at_ + 20 * us < s1.time.now then ok s1
      else
        let x := k.tx
        let exp := x.acked + (e + 4096 - x.acked % 4096) % 4096
        let again := ((x.sent.filter (fun p => decide (exp ≤ p.last))).map (fun p => p.ent) ++ x.q).filter (fun e => e.rank != 0)
        let s2 := s1.setLink n { k with handoff := none, tx := x.handedOff exp }
        let kg := s2.link g
        let s3 := if s2.gate then s2 else s2.setLink g { kg with tx := { kg.tx with q := again ++ kg.tx.q } }
        ok (if s1.time.now = at_ + 20 * us then s3.nearMissEvent 5 else s3)
  | _ => ok s0

def execHandoffTimeout (l t : Nat) (s : State) : Out1 :=
  let s0 := s.advance t
  match (s0.link l).handoff with
  | some (_, at_) => if at_ + 20 * us < s0.time.now then ok (s0.handoffFail l) else ok s0
  | none => ok s0

/-! ### Training (R282 to R285) -/

def execRetrain (l t : Nat) (s : State) : Out1 :=
  let s0 := s.advance t
  match s0.takeRx l (fun x => x == .retrain) with
  | some (_, s1) => ok (s1.fastStart l)
  | none => ok s0

/-- Whether the wiring plan holds a link `DOWN`. -/
def State.linkUnused (s : State) (l : Nat) : Bool :=
  match s.plan l with
  | some (_, _, used) => !used || s.defective 6 l
  | none => s.defective 6 l

/-- A link that needs full training now. -/
def State.trainDue (s : State) (l : Nat) : Bool :=
  let k := s.link l
  k.state == 0 && k.retryAt.any (fun r => decide (r ≤ s.time.now)) && !s.linkUnused l

/-- A link is in the PMD start-up phase (R282). -/
def Link.inPmd (k : Link) (now : Nat) : Bool := k.phase == 1 && !k.pmdEnd.any (fun e => decide (e ≤ now))

/-- The training phase a link is in, and since when: codeword lock begins where PMD start-up ends. -/
def Link.phaseNow (k : Link) (now : Nat) : Nat × Nat :=
  match k.pmdEnd with
  | some e => if k.phase = 1 ∧ e ≤ now ∧ e ≤ k.phaseAt + 200 * ms then (2, e) else (k.phase, k.phaseAt)
  | none => (k.phase, k.phaseAt)

/-- Full training starts: at once, 1 s after a failed one, or in `ROLLING` when no other link is in the PMD start-up phase and no lower-numbered one waits (R282, R283).
Links train from package state `TRAIN` on (R350). `pmd` is the time at which the PHYs end PMD start-up, none where they never do. -/
def execLinkTrainStart (l : Nat) (pmd : Option Nat) (t : Nat) (s : State) : Out1 :=
  let s0 := s.advance t
  let k := s0.link l
  if !s0.trainDue l then ok s0
  else
    let busy := s0.st.trainMode == 1
      && allLinks.any (fun x => x ≠ l && ((s0.link x).inPmd s0.time.now || (decide (x < l) && s0.trainDue x)))
    if busy then ok (s0.setLink l { k with queued := true })
    else
      ok (s0.setLink l { k with
        state := 1, queued := false, fast := false, phase := 1, phaseAt := s0.time.now, pmdEnd := pmd.map (max s0.time.now), retryAt := none, lane0 := false,
        lane1 := false, identGot := false, fullTrains := satInc 8 k.fullTrains })

/-- The bound of a training phase in ticks. -/
def phaseBound (p : Nat) : Nat := if p = 1 then 200 * ms else if p = 4 then 10 * us else ms

/-- A training phase exceeds its bound: `DOWN`, and full training again 1 s later. -/
def execTrainPhaseTimeout (l t : Nat) (s : State) : Out1 :=
  let s0 := s.advance t
  let k := s0.link l
  let p := k.phaseNow s0.time.now
  if k.phase ≠ 0 ∧ !k.fast ∧ p.2 + phaseBound p.1 < s0.time.now then ok (s0.linkDown l (s0.time.now + 1000 * ms)) else ok s0

/-- A lane gains codeword lock. In training, lock on both lanes leads to the identity exchange; in `DEGRADED` it only shows (R285). -/
def execCodewordLock (l lane t : Nat) (s : State) : Out1 :=
  let s0 := s.advance t
  let k := s0.link l
  if k.state = 0 then ok s0
  else
    let k1 := if lane % 2 = 0 then { k with lane0 := true } else { k with lane1 := true }
    if k.state = 1 ∧ !k.fast then
      (if k1.lane0 ∧ k1.lane1 then ok ((s0.setLink l { k1 with state := 2, phase := 3, phaseAt := s0.time.now, identGot := false, identAt := 0 }).linkAfresh l)
       else ok (s0.setLink l { k1 with phase := 2, phaseAt := if k.phase = 1 then min s0.time.now (k.pmdEnd.getD s0.time.now) else k.phaseAt }))
    else ok (s0.setLink l k1)

/-- The state a link enters when its training ends (R266, R279, R280, R282). -/
def State.trainedState (s : State) (l : Nat) : Nat :=
  let k := s.link l
  match s.plan l with
  | none => 3
  | some (id, port, _) =>
    if k.farId ≠ id ∨ k.farPort ≠ port then 4
    else if l % 8 = (s.octet (l / 8)).spareIdx then 6
    else 3

/-- The SCH slot that the octet's map gives a link's index; without an accepted image a link carries no SCH (R280). -/
def State.slotOfLink (s : State) (l : Nat) : Option Nat :=
  let oc := s.octet (l / 8)
  if s.cfg.image.isNone then none else (List.range 7).find? (fun j => nth oc.slots j == l % 8)

/-- Whether every slot of an octet is carried by its own link. -/
def State.octetFull (s : State) (o : Nat) : Bool :=
  (List.range 7).all (fun j => (s.link (8 * o + nth (s.octet o).slots j)).state == 3)

/-- Training ends with credit initialisation (R282), when the pool sizes of the far end's first `ACK` have come. `asym` is the asymmetry the PHYs report. -/
def execLinkTrainComplete (l : Nat) (asym : Int) (t : Nat) (s : State) : Out1 :=
  let s0 := s.advance t
  let k := s0.link l
  if k.state = 2 ∧ k.phase = 4 ∧ k.tx.credit.any (fun c => c != 0) then
    let st := s0.trainedState l
    let k1 := { k with
      state := st, prev := st, phase := 0, solo := none, wasSch := none, asym := asym, sch := if st = 3 then s0.slotOfLink l else none,
      tx := { k.tx with ackAt := s0.time.now } }
    let s2 := s0.setLink l k1
    let oc := s2.octet (l / 8)
    ok (if oc.short ∧ s2.octetFull (l / 8) then s2.setOctet (l / 8) { oc with short := false } else s2)
  else ok s0

/-- Loss of signal on both lanes (R284). A phase of full training runs to its bound without the lanes (R282). -/
def execLossOfSignal (l t : Nat) (s : State) : Out1 :=
  let s0 := s.advance t
  let k := s0.link l
  if k.state = 0 then ok s0
  else if (k.state = 1 ∧ !k.fast) ∨ k.state = 2 then ok (s0.setLink l { k with lane0 := false, lane1 := false })
  else ok (s0.linkDown l s0.time.now)

/-- Loss of codeword lock on one lane starts a fast retrain (R285). -/
def execLaneLockLoss (l lane t : Nat) (s : State) : Out1 :=
  let s0 := s.advance t
  let k := s0.link l
  let k1 := if lane % 2 = 0 then { k with lane0 := false } else { k with lane1 := false }
  if k.state = 0 then ok s0 else ok ((s0.setLink l k1).fastStart l)

/-- The link carries frames again after a fast retrain: its credits are initialised and the replay goes on from the last `ACK_SEQ`, its counts and timer from here (R285). -/
def State.retrained (s : State) (l : Nat) : State :=
  let k := s.link l
  let s1 := s.setLink l { k with tx := { k.tx with buf := k.tx.buf.map (fun e => (e.1, 0)), ackAt := s.time.now } }
  ((s1.sendCtl l (.ack k.rx.lastSeq false (s.pools l))).replay l).identDone l

/-- A fast retrain ends. `ok0` and `ok1` say which lanes locked: both restore the previous state, one leads to `DEGRADED`, none to full training. -/
def execFastRetrainEnd (l : Nat) (ok0 ok1 : Bool) (t : Nat) (s : State) : Out1 :=
  let s0 := s.advance t
  let k := s0.link l
  if k.state = 1 ∧ k.fast ∧ s0.time.now ≤ k.fastAt + 100 * us then
    let k1 := ({ k with fast := false, lane0 := ok0, lane1 := ok1, lastFast := some s0.time.now }).creditInit (s0.pools l)
    if ok0 ∧ ok1 then ok ((s0.setLink l { k1 with state := k.prev }).retrained l)
    else if ok0 ∨ ok1 then
      let s2 := s0.setLink l { k1 with state := 5, prev := 5, solo := some (if ok0 then 0 else 1), degAt := if k.prev = 5 then k.degAt else s0.time.now }
      ok (if k.sch.isSome ∧ k.prev ≠ 5 then s2.linkFailed l else s2.retrained l)
    else ok (s0.linkDown l s0.time.now)
  else ok s0

/-- A fast retrain exceeds 100 µs: full training, and the link's slot moves (R267, R285). -/
def execFastRetrainTimeout (l t : Nat) (s : State) : Out1 :=
  let s0 := s.advance t
  let k := s0.link l
  if k.state = 1 ∧ k.fast ∧ k.fastAt + 100 * us < s0.time.now then ok (s0.linkDown l s0.time.now) else ok s0

/-- A link `DEGRADED` for 1 s enters full training when its octet holds an SCH spare (R285). -/
def execDegradedTimeout (l t : Nat) (s : State) : Out1 :=
  let s0 := s.advance t
  let k := s0.link l
  if k.state = 5 ∧ k.degAt + 1000 * ms ≤ s0.time.now ∧ s0.spareReady (l / 8) then ok (s0.linkDown l s0.time.now) else ok s0

end Sys2Proof.Machine
end

