-- ==== Sys2Proof/Machine/Control.lean ====
section
/-!
DEFINITION. The meanings of the control slot (R89 to R97) but for `BARRIER`, of the end of a tile clock period (R13), and of the flag unit (R32).
-/
namespace Sys2Proof.Machine

def execBr (tid target : Nat) (s : State) : Out1 :=
  ok (s.issue tid slotCT (encCTB 0x01 0 0 0 target) (effBr target))

def execBrz (tid sr target : Nat) (s : State) : Out1 :=
  ok (s.issue tid slotCT (encCTB 0x02 sr 0 0 target) (effBrz sr target))

def execBrnz (tid sr target : Nat) (s : State) : Out1 :=
  ok (s.issue tid slotCT (encCTB 0x03 sr 0 0 target) (effBrnz sr target))

def execCall (tid sr target : Nat) (s : State) : Out1 :=
  ok (s.issue tid slotCT (encCTB 0x04 sr 0 0 target) (effCall sr target))

def execRet (tid sr : Nat) (s : State) : Out1 :=
  ok (s.issue tid slotCT (encCTB 0x05 sr 0 0 0) (effRet sr))

def execLoopi (tid l count target : Nat) (s : State) : Out1 :=
  ok (s.issue tid slotCT (encCTB 0x08 0 l count target) (effLoop l count target))

/-- The count is S[19:0]; bits [31:20] are ignored (R89). -/
def execLoops (tid l sr target : Nat) (s : State) : Out1 :=
  ok (s.issue tid slotCT (encCTB 0x09 sr l 0 target) (fun t => effLoop l (fld (t.sreg sr).toNat 19 0) target t))

def execLexit (tid l : Nat) (s : State) : Out1 :=
  ok (s.issue tid slotCT (encCTB 0x0A 0 l 0 0) (effLexit l))

def execWaitf (tid f count : Nat) (s : State) : Out1 :=
  ok (s.issueHold tid slotCT (encCTW 0x10 0 f count 0 0) (effWait f count))

/-- The count is S[15:0]. -/
def execWaitfs (tid f sr : Nat) (s : State) : Out1 :=
  ok (s.issueHold tid slotCT (encCTW 0x11 sr f 0 0 0) (fun t => effWait f (fld (t.sreg sr).toNat 15 0) t))

/-- The flag and count of a wait syllable. -/
def waitOf (w : Nat) (t : Tile) : Tile :=
  effWait (fld w 50 45) (if opOf w = 0x10 then fld w 44 29 else fld (t.sreg (fld w 55 51)).toNat 15 0) t

/-- A held wait finds its flag at or above the count and issues (R95). -/
def execWaitfPass (tid : Nat) (s : State) : Out1 := ok (s.release tid slotCT isWait waitOf)

/-- `STEP_END` (R97). -/
def execStepEnd (tid : Nat) (s : State) : Out1 :=
  ok (s.issueHold tid slotCT (encCTW 0x1F 0 0 0 0 0) effStepEnd)

def execStepEndRelease (tid : Nat) (s : State) : Out1 :=
  ok (s.release tid slotCT (fun w => opOf w == 0x1F) (fun _ => effStepEnd))

/-- The rows of a die named by a logical row mask (R45). -/
def State.wakeMask (s : State) (die mask extra : Nat) : State :=
  (bitsOf 12 mask).foldl (fun u r => u.wakeRow (die * 13 + physRow (u.die die).skipRow r) extra) s

/-- `WAKE` requests a wake of logical rows of a die (R45 to R47). `extra` is the wake time PT_CLK_START adds. -/
def State.wakeOp (s : State) (tid die rows extra : Nat) : State :=
  let s1 := s.issue tid slotCT (encCTW 0x19 0 0 0 die rows) (fun t => t)
  if issuedBetween s s1 tid slotCT then s1.wakeMask die rows extra else s1

/-- A freeze notice for a barrier group is live (R143). -/
def State.noticeLive (s : State) (group : Nat) : Bool :=
  decide (group ≠ 0) && Tab.has s.seq.notices group && decide (s.time.now < Tab.get 0 s.seq.notices group)

/-- The end of a tile clock period: results due in it are written, and the next bundle, cycle and counts follow (R13, R38). -/
def execFixedLatencyWriteback (tid : Nat) (s : State) : Out1 :=
  ok (s.onTid tid (fun t => t.endPeriod tid (s.runs (s.ptiOf tid)) s.noticeLive))

/-- A variable-latency operation that has completed at the tile registers its flag increment (R32): an `XF` operation all of whose requests are answered, or
an increment that arrived from elsewhere. -/
def Tile.flagDone (t : Tile) (f : Nat) : Tile :=
  match t.iss.xf.find? (fun o => o.flag == f && o.answers == 0 && !o.failed) with
  | some o =>
    let t1 := { t with iss := { t.iss with xf := t.iss.xf.filter (fun q => decide (q.id ≠ o.id)) } }
    if o.gen = t.blk.gen then t1.incFlag f true else t1
  | none =>
    if t.iss.arrive.contains f then
      ({ t with iss := { t.iss with arrive := dropFirst f t.iss.arrive } }).incFlag f false
    else t

def execFlagIncrement (tid f : Nat) (s : State) : Out1 := ok (s.onTid tid (fun t => t.flagDone f))

def execHeldIncrementRegister (tid f : Nat) (s : State) : Out1 := ok (s.onTid tid (fun t => t.regHeld f))

/-- The tile's counted periods have reached `BUDGET` without `STEP_END` (R136); the bundle in issue in that period is recorded (R487). -/
def Tile.watchdog (t : Tile) : Tile :=
  if t.st.active && decide (t.budgetLimit ≤ t.st.used) && !bitAt t.blk.fault 10 then t.raise .watchdog slotCT t.st.endPc false else t

def execWatchdog (tid : Nat) (s : State) : Out1 := ok (s.onTid tid Tile.watchdog)

end Sys2Proof.Machine
end

