-- ==== Sys2Proof/Machine/Steps.lean ====
section
/-!
DEFINITION. The meanings of `BARRIER` and `WAKE` (R96, R45), of the step sequencer (R129 to R137), the barrier unit (R138 to R142), the freeze notices (R143) and the row
controllers (R42 to R47, R381). `t` is the time of the event in ticks of 0.25 ns.
-/
namespace Sys2Proof.Machine

/-! ### Headers and groups (R126, R138) -/

/-- The LPN ranges of a barrier group that the accepted image declares. -/
def State.groupRanges (s : State) (g : Nat) : Option (List (Nat × Nat)) :=
  match s.cfg.image with
  | none => none
  | some im =>
    match Tab.find im.barriers g with
    | some rs => some (sortRanges rs)
    | none => none

/-- Whether a step header is refused (R126, R138). -/
def State.hdrBad (s : State) (h : List Byte) : Bool :=
  h.length != 128 || hdrVersion h != 1 || fld (hdrField h 4 4) 31 24 != 0 || fld (hdrField h 8 4) 31 25 != 0 || hdrField h 28 12 != 0 || hdrField h 112 16 != 0
    || hdrMask h == 0 || (hdrStart h != 0 && !hdrTimed h)
    || (hdrGroup h != 0 && (match s.groupRanges (hdrGroup h) with
        | none => true
        | some rs => (rangeIndex rs s.lpn).isNone))

/-! ### Barrier units (R139 to R141) -/

def State.setBar (s : State) (key : Nat) (u : BarUnit) : State := { s with seq := { s.seq with bars := Tab.set s.seq.bars key u } }

/-- The started and incomplete step that uses barrier unit `key`. -/
def State.barStep (s : State) (key : Nat) : Option LStep := s.seq.steps.find? (fun x => x.key == key && x.phase == .started && !s.stepDone x)

/-- Change the open instance `i` of a unit, opening it where it is not listed. -/
def BarUnit.onInst (u : BarUnit) (i : Nat) (f : BarInst → BarInst) : BarUnit :=
  if u.open_.any (fun x => x.idx == i) then { u with open_ := u.open_.map (fun x => if x.idx = i then f x else x) }
  else { u with open_ := u.open_ ++ [f ⟨i, [], [], false, false⟩] }

def BarUnit.inst (u : BarUnit) (i : Nat) : BarInst := (u.open_.find? (fun x => x.idx == i)).getD ⟨i, [], [], false, false⟩

/-- A barrier slot to a member of a group. -/
def State.sendBar (s : State) (mkind g i lpn : Nat) : State :=
  s.sendMgt ⟨mkind, false, 0, lpn, s.lpn, s.ctx.gen, place g 8 0 + place i 16 8⟩

/-- The LPNs of this member's children in a group's tree, and its own index and parent (R138). -/
def State.treeKids (s : State) (g : Nat) : List Nat :=
  match s.groupRanges g with
  | none => []
  | some rs =>
    match rangeIndex rs s.lpn with
    | none => []
    | some k => (kidsOf (rangeCount rs) k).filterMap (rangeMember rs)

def State.treeIndex (s : State) (g : Nat) : Nat :=
  match s.groupRanges g with
  | none => 0
  | some rs => (rangeIndex rs s.lpn).getD 0

def State.treeParent (s : State) (g : Nat) : Option Nat :=
  match s.groupRanges g with
  | none => none
  | some rs =>
    match rangeIndex rs s.lpn with
    | some k => if k = 0 then none else rangeMember rs ((k - 1) / 8)
    | none => none

/-- `BARRIER_DONE` goes to the children. -/
def State.barDown (s : State) (g i : Nat) : State := (s.treeKids g).foldl (fun v c => v.sendBar 0x11 g i c) s

/-- Instance `i` of a unit completes: the flags of the tiles that arrived increment, and the root tells its children (R139, rules 3 and 5). -/
def State.completeBar (s : State) (key i : Nat) : State :=
  let u := s.bar key
  let inst := u.inst i
  let s1 := s.setBar key { u with base := i + 1, pkgNext := max u.pkgNext (i + 1), open_ := u.open_.filter (fun x => decide (x.idx ≠ i)) }
  let s2 := inst.tiles.foldl (fun v e => v.onTile e.1 (fun t =>
    ({ t with st := { t.st with barFlags := t.st.barFlags.filter (fun b => decide (b ≠ (key, i, e.2))) } }).incFlag e.2 false)) s1
  if key < 256 ∧ key ≠ 0 ∧ (s2.treeParent key).isNone then s2.barDown key i else s2

/-- Whether the package arrives at its next instance (R139, rule 1). -/
def State.barArrived (s : State) (key i : Nat) : Bool :=
  match s.barStep key with
  | none => false
  | some x =>
    let inst := (s.bar key).inst i
    (hdrTids x.hdr).all (fun tid => inst.tiles.any (fun e => e.1 == s.ptiOf tid))
      && (decide (256 ≤ key) || (s.treeKids key).all (fun c => inst.kids.contains c))

/-- Arrive at the instances whose arrivals are all in, in order; `n` bounds the open ones. -/
def State.barProgress (s : State) (key : Nat) : Nat → State
  | 0 => s
  | n + 1 =>
    let u := s.bar key
    let i := u.pkgNext
    if s.barArrived key i then
      let s1 := s.setBar key ({ u with pkgNext := i + 1 }.onInst i (fun x => { x with up := true }))
      let s2 := if 256 ≤ key then s1.completeBar key i
        else match s1.treeParent key with
          | none => s1.completeBar key i
          | some p => s1.sendBar 0x10 key i p
      s2.barProgress key n
    else s

/-- A tile arrives at its next instance with flag `f` (R96, R139). -/
def State.barTile (s : State) (pti f : Nat) : State :=
  let t := s.tile pti
  let key := t.st.key
  let i := t.nextBar
  let s1 := { s with tiles := Tab.set s.tiles pti { t with st := { t.st with arrivals := t.st.arrivals + 1, barFlags := t.st.barFlags ++ [(key, i, f)] } } }
  (s1.setBar key ((s1.bar key).onInst i (fun x => { x with tiles := x.tiles ++ [(pti, f)] }))).barProgress key 4

/-- `BARRIER` (R96); at the instance limit it holds its bundle (R140). -/
def execBarrier (tid f : Nat) (s : State) : Out1 :=
  let s1 := s.issueHold tid slotCT (encCTW 0x18 0 f 0 0 0) (fun t => t)
  ok (if issuedBetween s s1 tid slotCT then s1.barTile (s1.ptiOf tid) f else s1)

/-- A `BARRIER` held at the limit issues once the oldest open instance has completed (R140). -/
def execBarrierLimitRelease (tid : Nat) (s : State) : Out1 :=
  let f := fld ((s.ltile tid).syl 0) 50 45
  let s1 := s.release tid slotCT (fun w => opOf w == 0x18) (fun _ t => t)
  ok (if issuedBetween s s1 tid slotCT then s1.barTile (s1.ptiOf tid) f else s1)

/-- `WAKE` (R45). -/
def execWake (tid die rows : Nat) (s : State) : Out1 := ok (s.wakeOp tid die rows (s.ptStart 0))

/-! ### Barrier slots -/

def isMgt (k : Nat) (x : Slot) : Bool :=
  match x with
  | .mgt m => m.mkind == k
  | _ => false

def State.linkGenDrop (s : State) (l : Nat) : State :=
  let k := s.link l
  s.setLink l { k with genDrop := satInc 16 k.genDrop }

/-- Take a unicast slot of one kind at link `l`: one for another LPN is dropped and counted (R272), and one of another generation (R141). -/
def State.takeMgt (s : State) (l kind : Nat) (f : State → Mgt → State) : State :=
  match s.takeRx l (isMgt kind) with
  | some (.mgt m, s1) =>
    if m.dlpn ≠ s1.lpn ∨ s1.spr.displaced then
      let k := s1.link l
      s1.setLink l { k with misroute := satInc 16 k.misroute }
    else if !s1.ctx.genLive ∨ m.gen ≠ s1.ctx.gen then s1.linkGenDrop l
    else f s1 m
  | _ => s

/-- The instance near `base` that a number modulo 2^16 stands for. -/
def instOf (base x : Nat) : Nat := base + (x + 65536 - base % 65536) % 65536

/-- A child's arrival (R139, R141). One that is dropped counts in `barDrop`, which no register shows: one beyond the four open instances, for which the spec names no counter, one for a completed
instance, and one of a package that is no child (DESIGN CHOICE, log entry 126). -/
def execBarrierUp (l t : Nat) (s : State) : Out1 :=
  ok ((s.advance t).takeMgt l 0x10 (fun u m =>
    let g := fld m.arg 7 0
    let b := u.bar g
    let i := instOf b.base (fld m.arg 23 8)
    if 4 ≤ i - b.base ∨ !(u.treeKids g).contains m.slpn then { u with seq := { u.seq with barDrop := u.seq.barDrop + 1 } }
    else if (b.inst i).kids.contains m.slpn then u
    else (u.setBar g (b.onInst i (fun x => { x with kids := x.kids ++ [m.slpn] }))).barProgress g 4))

/-- Complete the oldest open instances whose completion has been received, in order; `n` bounds the open ones. -/
def State.completeDone (s : State) (key : Nat) : Nat → State
  | 0 => s
  | n + 1 => if ((s.bar key).inst (s.bar key).base).done then (s.completeBar key (s.bar key).base).completeDone key n else s

/-- A completion goes on to the children at once (R139, rule 4), and the instance completes, after every earlier one: instances complete in order (R96). -/
def execBarrierDone (l t : Nat) (s : State) : Out1 :=
  ok ((s.advance t).takeMgt l 0x11 (fun u m =>
    let g := fld m.arg 7 0
    let b := u.bar g
    let i := instOf b.base (fld m.arg 23 8)
    if 4 ≤ i - b.base ∨ !(b.inst i).up ∨ (b.inst i).done then u
    else ((u.barDown g i).setBar g (b.onInst i (fun x => { x with done := true }))).completeDone g 4))

/-! ### The sequencer -/

/-- Tile `pti` has an active step or a pending start. -/
def State.tileBusy (s : State) (tid : Nat) : Bool :=
  let t := s.ltile tid
  t.st.active || t.st.startPending

/-- The header of the next entry of the run. -/
def State.nextHdr (s : State) : Option (Nat × List Byte) :=
  match s.seq.run[s.seq.nextEntry]? with
  | none => none
  | some ix => (Tab.find s.seq.table ix).map (fun h => (ix, h))

/-- The entry's dies are held below full duty while P exceeds L (R383). -/
def State.idleGap (s : State) (h : List Byte) : Bool :=
  !hdrTimed h && decide (s.pw.limit < s.pw.p) && (hdrTids h).any (fun tid => decide (s.pw.run.getD (tid / 144) 16 < 16))

/-- The conditions of R130 for the next entry, with R137, R383 and R393. -/
def State.mayLaunch (s : State) (h : List Byte) : Bool :=
  s.seq.runActive && !s.seq.stopReq && s.shown == psRun && !s.ctx.killing && s.ctx.killDue == 0 && s.pw.cstop.isNone
    && (hdrTids h).all (fun tid => !s.tileBusy tid)
    && (hdrGroup h == 0 || s.seq.steps.all (fun x => hdrGroup x.hdr != hdrGroup h || s.stepDone x)) && !s.idleGap h

/-- The rows of a step. -/
def State.stepRows (s : State) (h : List Byte) : List Nat := ((hdrTids h).map (fun tid => rowOf (s.ptiOf tid))).eraseDups

def State.wakeStep (s : State) (h : List Byte) : State := (s.stepRows h).foldl (fun u r => u.wakeNow r (u.ptStart 0)) s

/-- The next entry launches (R130 to R132): its tiles have a pending start, and its wake requests go out at launch unless its wake moment is still to come. -/
def execStepLaunch (t : Nat) (s : State) : Out1 :=
  let s0 := s.advance t
  match s0.nextHdr with
  | none => ok s0
  | some (ix, h) =>
    if !s0.mayLaunch h then ok s0
    else
      let late := hdrTimed h && decide (hdrStart h ≤ s0.time.ft)
      let wake := !hdrTimed h || decide (hdrStart h ≤ s0.time.ft + hdrLeadTicks h)
      let no := s0.seq.barSeq
      let key := if hdrGroup h = 0 then 256 + no else hdrGroup h
      let x : LStep := ⟨s0.seq.nextEntry, ix, h, s0.time.now, wake, late, .waiting, key, 0, no + 1⟩
      let s1 := (hdrTids h).foldl (fun u tid =>
        let v := u.ltile tid
        { u with tiles := Tab.set u.tiles (u.ptiOf tid) { v with st := { v.st with startPending := true } } }) s0
      let q := s1.seq
      let s2 := { s1 with seq := { q with
        steps := q.steps ++ [x], nextEntry := q.nextEntry + 1, barSeq := no + 1,
        lateStarts := if late then min 0xFFFFFFFF (q.lateStarts + 1) else q.lateStarts, runLate := q.runLate || late,
        runNear := q.runNear || (hdrTids h).any s0.endedNear } }
      ok (if wake then s2.wakeStep h else s2)

/-- The wake moment of a timed step (R132). -/
def execTimedWake (t : Nat) (s : State) : Out1 :=
  let s0 := s.advance t
  match s0.seq.steps.find? (fun x => !x.woken && decide (hdrStart x.hdr ≤ s0.time.ft + hdrLeadTicks x.hdr)) with
  | none => ok s0
  | some x =>
    let s1 := { s0 with seq := { s0.seq with steps := s0.seq.steps.map (fun (y : LStep) => if y.runIdx = x.runIdx then { y with woken := true } else y) } }
    ok (s1.wakeStep x.hdr)

/-- The state a step start sets on a tile, whatever the power state of its row (R127, R94, R110, R113). -/
def Tile.startSet (t : Tile) (h : List Byte) (key base : Nat) : Tile :=
  { t with
    r := { t.r with loops := [], descs := t.r.descs.map (fun e => (e.1, { e.2 with pos := 0 })) }
    mx := { t.mx with feed := FeedSt.zero, blk := none, ctrDrain := 0, ctrVx0 := 0, ctrVx1 := 0 }
    iss := { t.iss with pc := hdrEntry h, bubble := 0, issued := 0, held := false, ct := .seq, acc := [], stopped := false }
    st := { t.st with entryPc := hdrEntry h, stepId := hdrStepId h, seed := BitVec.ofNat 64 (hdrSeed h), budget := hdrBudget h, used := 0, group := hdrGroup h, arrivals := 0,
                      ended := false, lastIssue := 0, key := key, base := base } }

/-- The step starts: the counts of waiting and counted periods begin, `TILE_CHK_CTL` takes effect (R53), and the tile may still wait for its row (R46). -/
def Tile.arm (t : Tile) (x : LStep) (base : Nat) : Tile :=
  let u := t.startSet x.hdr x.key base
  { u with st := { u.st with startWait := true, serial := x.serial }, blk := { u.blk with frozen := 0, stepCount := 0, chkEff := u.blk.chk } }

/-- The tile begins to execute the step. -/
def Tile.start (t : Tile) (h : List Byte) (key base : Nat) : Tile :=
  let u := t.startSet h key base
  let t1 := { u with st := { u.st with active := true, startPending := false, startWait := false, wakeWait := false } }
  if t.iss.bundleValid then t1 else t1.raise .bundleInvalid slotCT (hdrEntry h) false

/-- A launched step begins on a tile. -/
def Tile.begin (t : Tile) (x : LStep) (base : Nat) : Tile :=
  let u := t.start x.hdr x.key base
  { u with st := { u.st with serial := x.serial } }

/-- Start a step on one tile; on a row that is not ACTIVE the work waits for the row (R46). -/
def State.startTile (s : State) (x : LStep) (base tid : Nat) : State :=
  let pti := s.ptiOf tid
  match (s.onTile pti (fun t => t.arm x base)).tileReady pti with
  | (s1, false) => s1
  | (s1, true) => s1.onTile pti (fun t => t.begin x base)

/-- A launched step starts (R127, R131, R132): the oldest one that is due. The first barrier instance of the step is fixed, and later arrivals of an earlier step are discarded (R139). -/
def execStepStart (t : Nat) (s : State) : Out1 :=
  let s0 := s.advance t
  let due := fun (x : LStep) => x.phase == .waiting &&
    (if hdrTimed x.hdr then decide (hdrStart x.hdr ≤ s0.time.ft) else decide (x.launched + hdrLeadTicks x.hdr ≤ s0.time.now))
  if s0.ctx.killing ∨ s0.ctx.killDue ≠ 0 ∨ !s0.ctx.accepted then ok s0
  else
    match s0.seq.steps.find? due with
    | none => ok s0
    | some x =>
      let u := s0.bar x.key
      let base := u.pkgNext
      let s1 := s0.setBar x.key { u with open_ := u.open_.map (fun y => if base ≤ y.idx then { y with tiles := [] } else y) }
      let gone := (u.open_.filter (fun y => decide (base ≤ y.idx))).flatMap (fun y => y.tiles.map (fun e => (e.1, y.idx, e.2)))
      let s1a := gone.foldl (fun v e => v.onTile e.1 (fun t =>
        { t with st := { t.st with barFlags := t.st.barFlags.filter (fun b => decide (b ≠ (x.key, e.2))) } })) s1
      let s2 := { s1a with seq := { s1a.seq with steps := s1a.seq.steps.map (fun (y : LStep) => if y.runIdx = x.runIdx then { y with phase := .started, base := base } else y) } }
      ok ((hdrTids x.hdr).foldl (fun v tid => v.startTile x base tid) s2)

/-- A completion is recorded (R134). -/
def execStepComplete (t : Nat) (s : State) : Out1 :=
  let s0 := s.advance t
  match s0.seq.steps.find? s0.stepDone with
  | none => ok s0
  | some x => ok (s0.recordStep x).runEnd

/-! ### Freeze notices (R143) -/

/-- A `FREEZE_NOTE` slot for group `g` to a member. -/
def State.sendNote (s : State) (g c : Nat) : State := s.sendMgt ⟨0x12, false, 0, c, s.lpn, s.ctx.gen, g⟩

/-- A notice becomes live and goes on down the tree. -/
def State.relayNote (s : State) (g : Nat) : State :=
  let s1 := { s with seq := { s.seq with notices := Tab.set s.seq.notices g (s.time.now + 3 * ms) } }
  (s1.treeKids g).foldl (fun u c => u.sendNote g c) s1

/-- A die frozen for more than 50 µs without a break sends a notice for a group, and again every 1 ms. -/
def execFreezeNoteSend (d g t : Nat) (s : State) : Out1 :=
  let s0 := s.advance t
  let runs := g ≠ 0 ∧ s0.seq.steps.any (fun x => x.phase == .started && hdrGroup x.hdr == g && (hdrTids x.hdr).any (fun tid => tid / 144 == d))
  match Tab.find s0.pw.frozenAt d with
  | none => ok s0
  | some a =>
    let due := match Tab.find s0.seq.noteSent (d * 256 + g) with
      | none => decide (a + 50 * us ≤ s0.time.now)
      | some p => decide (p + ms ≤ s0.time.now)
    if !runs ∨ !due then ok s0
    else
      let s1 := { s0 with seq := { s0.seq with noteSent := Tab.set s0.seq.noteSent (d * 256 + g) s0.time.now } }
      match s1.groupRanges g with
      | none => ok s1
      | some rs =>
        match rangeMember rs 0 with
        | none => ok s1
        | some root => if root = s1.lpn then ok (s1.relayNote g) else ok (s1.sendNote g root)

/-- A received notice. One in the cycle of the expiry edge of the live one is a near miss (R417). -/
def execFreezeNote (l t : Nat) (s : State) : Out1 :=
  ok ((s.advance t).takeMgt l 0x12 (fun u m =>
    let g := fld m.arg 7 0
    let u1 := if (Tab.find u.seq.notices g).any (fun e => watchCycle e == watchCycle u.time.now) then u.nearMissEvent 10 else u
    u1.relayNote g))

/-- A notice lapses after the cycle of its expiry edge, in which another one is in time (R417). -/
def execFreezeNoteLapse (g t : Nat) (s : State) : Out1 :=
  let s0 := s.advance t
  match Tab.find s0.seq.notices g with
  | some e => if watchCycle e < watchCycle s0.time.now then ok { s0 with seq := { s0.seq with notices := Tab.del s0.seq.notices g } } else ok s0
  | none => ok s0

/-! ### Rows -/

/-- What leaving `OFF` leaves of a tile (R42, R43): the glaze slice, on its own die, and the tile register block. -/
def Tile.fromOff (t : Tile) : Tile :=
  { t with r := TileRegs.zero, mx := TileMx.zero, mem := { TileMem.zero with glaze := t.mem.glaze, glazeFlips := t.mem.glazeFlips },
           iss := { TileIssue.zero with xfSeq := t.iss.xfSeq, tagSeq := t.iss.tagSeq } }

/-- The started step a physical tile has a pending start of. No pending step starts once a tile of the context has raised a fault (R137). -/
def State.pendingStep (s : State) (pti : Nat) : Option LStep :=
  match s.tidOf pti with
  | none => none
  | some tid =>
    if (s.tile pti).st.startWait && !s.ctx.killing && s.ctx.killDue == 0 then
      s.seq.steps.find? (fun x => x.phase == .started && x.serial == (s.tile pti).st.serial && (hdrTids x.hdr).contains tid)
    else none

/-- A waking row becomes ACTIVE (R42, R45, R46): what waited for it goes on, a step start that waited takes place, and so does a debug access to a
window of it (R466). -/
def execRowWakeComplete (r t : Nat) (s : State) : Out1 :=
  let s0 := s.advance t
  let w := s0.row r
  match w.wakeAt with
  | none => ok s0
  | some a =>
    if s0.time.now < a then ok s0
    else
      let off := w.power == 3
      let s1 := s0.setRow r { w with power := 0, wakeAt := none, deferred := false, idleSince := s0.time.now }
      ok ((rowTiles r).foldl (fun (u : State) pti =>
        let v := u.tile pti
        let v1 := if off then v.fromOff else v
        let u1 := { u with tiles := Tab.set u.tiles pti { v1 with st := { v1.st with wakeWait := false } } }
        match u1.pendingStep pti with
        | some x => u1.onTile pti (fun y => y.begin x x.base)
        | none => u1) s1).dapServe

/-- A row in `CLKGATE` with no active step and no pending start for 100 µs is put in `RETAIN` (R381); a wake under way discards the request (R45). -/
def execRowRetain (r t : Nat) (s : State) : Out1 :=
  let s0 := s.advance t
  let w := s0.row r
  if w.power = 1 ∧ w.wakeAt = none ∧ w.deferred = false ∧ s0.rowIdle r ∧ w.idleSince + 100 * us ≤ s0.time.now then ok (s0.setRow r { w with power := 2 }) else ok s0

end Sys2Proof.Machine
end

