-- ==== Sys2Proof/Machine/Time.lean ====
section
/-!
DEFINITION. The meanings of fabric time (R144 to R155), of `PPS_IN`, `PPS_OUT` and `SYNC_AUX` (R156 to R158), of PTP (R159, R160) and of the reads of the time block (R161). `t` is the time
of the event in ticks of 0.25 ns.
-/
namespace Sys2Proof.Machine

def State.isMaster (s : State) : Bool := s.time.tstate == 5

/-- Set FT to another value, by a step and not by counting (R149, R153, R157). -/
def State.setFt (s : State) (v : Nat) : State :=
  { s with time := { s.time with ft := v, ppsK := ((v : Int) + s.time.tai) / 4000000000 } }

/-- Take up a TAI offset: another one moves FT + TAI without counting (R157). -/
def State.setTai (s : State) (v : Int) : State :=
  { s with time := { s.time with tai := v, ppsK := if v = s.time.tai then s.time.ppsK else ((s.time.ft : Int) + v) / 4000000000 } }

/-- Holdover after 250 µs without a usable parent (R146); a package that has had no parent yet stays free. -/
def State.holdCheck (s : State) : State :=
  let x := s.time
  match x.noParent with
  | some a =>
    if x.parent = 0x7F ∧ (x.tstate = 1 ∨ x.tstate = 2 ∨ x.tstate = 3) ∧ a + timTimeout ≤ x.now then
      { s with time := { x with tstate := 4, holdSince := x.now } }
    else s
  | none => s

def isTim (k : Nat) (x : Slot) : Bool :=
  match x with
  | .tim v => v.tkind == k
  | _ => false

/-- A parent that has sent no TIM for 250 µs is lost, and so is one that is usable no longer (R148); a silent far end tells nothing until its next TIM. With no usable parent for 250 µs the
package is in holdover (R146). -/
def State.parentCheck (s : State) : State :=
  let p := s.time.parent
  if s.isMaster then s
  else if p = 0x7F then s.holdCheck
  else if !s.timHeardLately p then ((s.setTim p { s.timLink p with known := false }).reparent (max (s.timLink p).lastAt s.time.parentAt)).holdCheck
  else if s.timUsable p then s
  else (s.reparent s.time.now).holdCheck

/-- What every TIM tells of the far end is kept (R148): its time state, master, hops and TAI offset. Another master's LPN sets `MASTER_CONFLICT` (R154). One that comes after the parent's
250 µs is late, whether or not the timeout's own row has run (R417). -/
def State.timHeard (s00 : State) (l : Nat) (x : TimS) : State :=
  let s := s00.parentCheck
  let v := s.timLink l
  let conflict := s.master.isSome && x.tstate ≠ 0 && s.master ≠ some x.mlpn
  let edge := s.time.parent == l && v.known && watchCycle (max v.lastAt s.time.parentAt + timTimeout) == watchCycle s.time.now
  let s1 := s.setTim l { v with
    tstate := x.tstate, mlpn := x.mlpn, hops := x.hops, tai := sext 64 x.tai, lastAt := s.time.now, known := true, conflict := v.conflict || conflict }
  if edge then s1.nearMissEvent 6 else s1

/-- The parent after a TIM on link `l` (R148): without one the best usable far end; a parent that is usable no longer is left at once. -/
def State.timParent (s : State) (l : Nat) : State :=
  if s.isMaster ∨ s.master.isNone then s
  else if s.time.parent = 0x7F then
    (match s.bestParent with
     | some p => s.takeParent p
     | none => s)
  else if s.time.parent = l then
    (if s.timUsable l then { s with time := { s.time with hops := (s.timLink l).hops + 1 } } else s.reparent s.time.now)
  else s

/-- A TIM slot that this package sends; one with no time master configured carries time state 0 (R257). -/
def State.timSlot (s : State) (kind seq ta tb : Nat) : Slot :=
  .tim ⟨kind, if s.master.isSome then s.time.tstate else 0, s.time.hops, s.master.getD 0, seq, ta, tb, toBits 64 s.time.tai, none⟩

/-- A `SYNC` (R147): its receipt is t2, and `DREQ` answers it. -/
def execSync (l t : Nat) (s : State) : Out1 :=
  let s0 := s.advance t
  match s0.takeRx l (isTim 0) with
  | some (.tim x, s1) =>
    let s2 := s1.timHeard l x
    let s3 := s2.setTim l { s2.timLink l with t2 := x.rxFt.getD s2.time.ft, seq := x.seq }
    ok ((s3.queueSlot l (s3.timSlot 1 x.seq 0 0) none).timParent l)
  | _ => ok s0

/-- A `DREQ` is answered with `RESP`, which carries t1 of the `SYNC` it answers, and t4 (R147, R257). A master that listens sends none (R153). -/
def execDreq (l t : Nat) (s : State) : Out1 :=
  let s0 := s.advance t
  match s0.takeRx l (isTim 1) with
  | some (.tim x, s1) =>
    let s2 := s1.timHeard l x
    let v := s2.timLink l
    let s3 := if s2.time.listenEnd.isSome ∨ v.t1Seq ≠ x.seq then s2
      else s2.queueSlot l (s2.timSlot 2 x.seq (v.t1 % 2 ^ 64) (x.rxFt.getD s2.time.ft % 2 ^ 64)) none
    ok (s3.timParent l)
  | _ => ok s0

/-- The rate correction the steering takes: free within the limit (R147, R149; the spec gives no control law, log entry 12). -/
def steerRate (limit : Nat) (offset rate : Int) : Int := (Config.steerPick offset rate % (2 * limit + 1) : Nat) - (limit : Int)

/-- The time state after a parent measurement (R146, R149, R151). While the watch core is stalled, rate steering holds its last correction (R414). -/
def State.measured (s : State) (l : Nat) (delay off : Int) : State :=
  let x := s.time
  if x.setDue ∧ !s.ctx.accepted then
    let s1 := s.setFt ((x.ft : Int) - off).toNat
    let s2 := { s1 with time := { s1.time with setDue := false, offset := off, delay := delay.toNat, good := 0, bad := 0 } }
    if x.tstate = 2 then s2.setTai (s.timLink l).tai else s2
  else if s.ctx.accepted ∧ (x.tstate = 3 ∨ x.tstate = 4) ∧ (4000000 < off.natAbs ∨ x.holdConflict) then
    { s with time := { x with offset := off, delay := delay.toNat, tstate := 4, holdConflict := true,
                              holdSince := if x.tstate = 4 then x.holdSince else x.now } }
  else
    let good := if off.natAbs < 8 then x.good + 1 else 0
    let bad := if 40 < off.natAbs then x.bad + 1 else 0
    let st := if (x.tstate = 1 ∨ x.tstate = 3) ∧ 256 ≤ good then 2
      else if x.tstate = 2 ∧ 16 ≤ bad then (if s.ctx.accepted then 3 else 1)
      else x.tstate
    let limit := if s.ctx.accepted then 100000000 else 200000000
    let s1 := { s with time := { x with offset := off, delay := delay.toNat, good := good, bad := bad, tstate := st,
                                         rate := if s.pkg.watchStall then x.rate else steerRate limit off x.rate } }
    if x.tstate = 2 then s1.setTai (s.timLink l).tai else s1

/-- A `RESP` completes a measurement (R147). -/
def execResp (l t : Nat) (s : State) : Out1 :=
  let s0 := s.advance t
  match s0.takeRx l (isTim 2) with
  | some (.tim x, sr) =>
    let s1 := (sr.timHeard l x).timParent l
    let v := s1.timLink l
    if v.seq ≠ x.seq then ok s1
    else
      let t1 : Int := x.ta
      let t4 : Int := x.tb
      let t2 : Int := v.t2
      let t3 : Int := v.t3
      let asym := (s1.link l).asym
      let delay := ((t4 - t1) - (t3 - t2)) / 2 - asym / 2
      let off := ((t2 - t1) - (t4 - t3)) / 2 - asym / 2
      let s2 := s1.setTim l { v with delay := delay, off := off, measAt := some s1.time.now }
      if s2.time.parent = l ∧ !s2.isMaster then ok (s2.measured l delay off) else ok s2
  | _ => ok s0

/-- A `SYNC` goes out on a link (R147): every 62.5 µs on a parent link and every 1 ms on another. `child` says that the far end has chosen this link as its parent link, which no TIM field
tells (DESIGN CHOICE, log entry 127). A master sends none while it listens (R153). -/
def execTimSyncSend (l : Nat) (child : Bool) (t : Nat) (s : State) : Out1 :=
  let s0 := s.advance t
  let k := s0.link l
  let v := s0.timLink l
  let gap := if child ∨ s0.time.parent = l then timPeriod else ms
  if k.state ≠ 3 ∨ !k.farTim ∨ s0.time.listenEnd.isSome ∨ (v.sentAt ≠ 0 ∧ s0.time.now < v.sentAt + gap) then ok s0
  else
    let q := Tab.get 0 s0.time.lastSync l
    let s1 := { s0 with time := { s0.time with lastSync := Tab.set s0.time.lastSync l ((q + 1) % 256) } }
    let s2 := s1.setTim l { v with sentAt := s1.time.now }
    ok (s2.queueSlot l (s2.timSlot 0 ((q + 1) % 256) 0 0) none)

/-- The parent is judged (R148), and with no usable parent for 250 µs the package is in holdover (R146). -/
def execTimParentTimeout (t : Nat) (s : State) : Out1 := ok (s.advance t).parentCheck

/-- The end of a new master's listen (R153): a far end that was heard and measured in it, in holdover and with the same master LPN, gives its time. Under an accepted context
FT only counts (R145). -/
def execMasterListenEnd (t : Nat) (s : State) : Out1 :=
  let s0 := s.advance t
  match s0.time.listenEnd with
  | none => ok s0
  | some e =>
    if s0.time.now < e then ok s0
    else
      let s1 := { s0 with time := { s0.time with listenEnd := none } }
      let heard := fun (a : Nat) => decide (e ≤ a + 10 * ms)
      match (if s1.ctx.accepted then none else allLinks.find? (fun l =>
          let v := s1.timLink l
          (s1.link l).state == 3 && v.known && v.tstate == 4 && some v.mlpn == s1.master && heard v.lastAt && v.measAt.any heard)) with
      | some l => ok (s1.setFt ((s1.time.ft : Int) - (s1.timLink l).off).toNat)
      | none => ok s1

def State.timeEn (s : State) (b : Nat) : Bool :=
  match s.cfg.image with
  | some im => bitAt im.timeEn b
  | none => false

/-- The lock on `PPS_IN` is over: the time of the loss of one with a traceable source is kept (R156, R159). -/
def State.ppsUnlock (s : State) : State :=
  let x := s.time
  if !x.ppsLocked then s else { s with time := { x with ppsLocked := false, ppsSrc := false, ppsLostAt := if x.ppsSrc then some x.now else x.ppsLostAt } }

/-- The package holds the configured time master LPN (R152). -/
def State.holdsMaster (s : State) : Bool := s.pkg.lpnValid && s.master == some s.lpn

/-- The role of time master follows the LPN (R152). A package that enters `TIME_MASTER` by a configuration listens (R153). A master without `PPS_IN` runs at nominal rate and shows no lock (DEDUCED, log
entry 131). On leaving the role it acquires a usable parent; without one it shows `TIME_ACQUIRE`, or `TIME_SLEW` under a context, until 250 µs have made it `TIME_HOLDOVER` (R146; the spec names
no state for that time, DESIGN CHOICE, log entry 129). -/
def State.timeRole (s : State) (listen : Bool) : State :=
  let x := s.time
  if s.holdsMaster then
    let s1 := if s.timeEn 0 then s else s.ppsUnlock
    { s1 with time := { s1.time with
      tstate := 5, hops := 0, parent := 0x7F, offset := 0, noParent := none, holdConflict := false, rate := if x.tstate = 5 ∧ s.timeEn 0 then x.rate else 0,
      ppsSrc := s1.time.ppsLocked && s.timeEn 3, listenEnd := if x.tstate = 5 then x.listenEnd else if listen then some (x.now + 10 * ms) else none } }
  else if x.tstate = 5 then
    let s1 := s.ppsUnlock
    ({ s1 with time := { s1.time with tstate := if s.ctx.accepted then 3 else 1, setDue := !s.ctx.accepted, listenEnd := none } }).reparent x.now
  else if x.parent ≠ 0x7F ∧ !s.timUsable x.parent then s.reparent x.now
  else s

/-- The configuration has changed: conflicts clear (R154), and the role follows (R152, R153). -/
def State.timeConfigured (s : State) (listen : Bool) : State :=
  { s with time := { s.time with holdConflict := false, links := s.time.links.map (fun (e : Nat × TimLink) => (e.1, { e.2 with conflict := false })) } }.timeRole listen

/-! ### PPS and the timecode -/

def ppsSecond : Nat := 4000000000

/-- Distance of FT + TAI from the nearest whole second. -/
def State.ppsError (s : State) : Int :=
  let r := ((s.time.ft : Int) + s.time.tai) % (ppsSecond : Int)
  if r < 2000000000 then r else r - ppsSecond

/-- An edge is rejected or missing: the third in a row ends the lock (R156). The next edge after that is accepted (log entry 13). -/
def State.ppsReject (s : State) : State :=
  let n := s.time.ppsBad + 1
  if 3 ≤ n then
    let u := s.ppsUnlock
    { u with time := { u.time with ppsBad := n, ppsGoodSince := none, ppsPrev := none } }
  else { s with time := { s.time with ppsBad := n } }

/-- A rising edge of `PPS_IN` (R156). The rate holds while the watch core is stalled (R414). -/
def execPpsInEdge (t : Nat) (s : State) : Out1 :=
  let s0 := s.advance t
  if !s0.isMaster ∨ !s0.timeEn 0 then ok s0
  else
    let x := s0.time
    let inTime := match x.ppsPrev with
      | none => true
      | some p => decide (p + ppsSecond ≤ x.ft + 400000) && decide (x.ft ≤ p + ppsSecond + 400000)
    if !inTime then ok s0.ppsReject
    else
      let e := s0.ppsError
      let recent := x.ppsSteps.filter (fun q => decide (x.ft < q.1 + ppsSecond))
      let done := (recent.map Prod.snd).foldl (· + ·) 0
      let pick : Int := if s0.pkg.watchStall then 0 else steerRate 200000 e x.rate
      let step := if 200000 < done + pick then 200000 - done else if done + pick < -200000 then -200000 - done else pick
      let r := x.rate + step
      let rate := if r < -50000000 then -50000000 else if 50000000 < r then 50000000 else r
      let since := if e.natAbs ≤ 200 then some (x.ppsGoodSince.getD x.ft) else none
      let lock := match since with
        | some a => decide (a + 10 * ppsSecond ≤ x.ft)
        | none => false
      ok { s0 with time := { x with ppsPrev := some x.ft, ppsBad := 0, rate := rate, ppsSteps := (x.ft, rate - x.rate) :: recent, ppsGoodSince := since, ppsLocked := x.ppsLocked || lock,
                                    ppsSrc := (x.ppsLocked || lock) && s0.timeEn 3 } }

/-- An expected edge has not come. -/
def execPpsInMissed (t : Nat) (s : State) : Out1 :=
  let s0 := s.advance t
  match s0.time.ppsPrev with
  | none => ok s0
  | some p =>
    if s0.isMaster ∧ s0.timeEn 0 ∧ p + (s0.time.ppsBad + 1) * ppsSecond + 400000 < s0.time.ft then ok s0.ppsReject else ok s0

/-- The whole second that FT + TAI has reached. -/
def State.ppsNow (s : State) : Int := ((s.time.ft : Int) + s.time.tai) / (ppsSecond : Int)

/-- `PPS_OUT` rises where FT + TAI has crossed a whole second by counting (R157); it is held low while the output gate is closed (R430),
and high-impedance in `OFF` (R473). -/
def execPpsOutRise (t : Nat) (s : State) : Out1 :=
  let s0 := s.advance t
  if s0.time.ppsK < s0.ppsNow ∧ s0.pkg.under ≠ psOff then
    let at_ := (s0.ppsNow * (ppsSecond : Int) - s0.time.tai).toNat
    ok { s0 with time := { s0.time with
      ppsK := s0.ppsNow, ppsOut := !s0.gate, ppsEdge := at_, ppsRose := s0.time.now - (s0.time.ft - at_), ppsFrameDue := !s0.gate } }
  else ok s0

/-- `PPS_OUT` falls 100 µs after its rise, whatever step FT makes in between (R157). -/
def execPpsOutFall (t : Nat) (s : State) : Out1 :=
  let s0 := s.advance t
  if s0.time.ppsOut ∧ s0.time.ppsRose + 100 * us ≤ s0.time.now then ok { s0 with time := { s0.time with ppsOut := false } } else ok s0

/-- The timecode frame (R158): start bit, the FT of the edge, `FT_STATE`[7:0], as a 73-bit number whose bit 0 goes out first. Channel 5 is `SYNC_AUX`. `TIME_EN`[5]
alone starts frames: an explicit claim of `SYNC_AUX` for the timecode without it sends none (DESIGN CHOICE, log entry 128). -/
def execSyncAuxTimecode (t : Nat) (s : State) : Out1 :=
  let s0 := s.advance t
  if s0.time.ppsFrameDue ∧ s0.time.ppsRose + 200 * us ≤ s0.time.now ∧ s0.timeEn 5 then
    let s1 := { s0 with time := { s0.time with ppsFrameDue := false } }
    ok (if s0.gate then s1 else s1.emit 5 (1 + 2 * (s0.time.ppsEdge % 2 ^ 64) + place s0.ftState 8 65))
  else ok s0

/-! ### PTP (R159, R160) -/

/-- The PTP settings in force: domain, priorities and the three signed log intervals. -/
def State.ptpField (s : State) (i : Nat) : Nat :=
  match s.cfg.image with
  | some im => im.ptp.getD i 0
  | none => 0

/-- An interval of 2^n s in ticks, n a signed byte. -/
def logTicks (b : Nat) : Nat :=
  let n := sext 8 b
  if n < 0 then ppsSecond / 2 ^ n.natAbs else ppsSecond * 2 ^ n.natAbs

/-- `clockClass` (R159): 6 under a lock with a traceable source, 7 for 24 h after the loss of such a lock. -/
def State.clockClass (s : State) : Nat :=
  if s.time.ppsLocked ∧ s.timeEn 3 then 6
  else match s.time.ppsLostAt with
    | some a => if s.time.now ≤ a + 86400 * ppsSecond then 7 else 248
    | none => 248

def State.timeSource (s : State) : Nat := if s.time.ppsLocked then (if s.timeEn 4 then 0x20 else 0x90) else 0xA0

/-- The PTP timescale at the Ethernet lane, with the external PHY latency removed. -/
def State.ptpTime (s : State) : Int := (s.time.ft : Int) + s.time.tai

/-- The logMessageInterval of a message type: logAnnounceInterval, logMinDelayReqInterval or logSyncInterval. -/
def State.ptpInterval (s : State) (kind : Nat) : Nat := s.ptpField (if kind = 11 then 4 else if kind = 9 then 5 else 3)

/-- A PTP message goes out on channel 6: its type (0 Sync, 8 Follow_Up, 9 Delay_Resp, 11 Announce) in bits [3:0], versionPTP 2 and minorVersionPTP 1, the transport (0 Annex E,
1 Annex C), domain, interval, and what it carries from bit 32 on. -/
def State.ptpMsg (s : State) (kind v : Nat) : State :=
  s.emit 6 (kind + place 2 4 4 + place 1 4 8 + place (b2n (s.timeEn 2)) 1 12 + place (s.ptpField 0) 8 16 + place (s.ptpInterval kind) 8 24 + 2 ^ 32 * v)

def execPtpSyncSend (t : Nat) (s : State) : Out1 :=
  let s0 := s.advance t
  if s0.timeEn 1 ∧ !s0.gate ∧ s0.time.ptpSyncAt + logTicks (s0.ptpField 3) ≤ s0.time.now then
    let s1 := { s0 with time := { s0.time with ptpSyncAt := s0.time.now, ptpSyncTx := s0.time.ptpSyncTx + 1 } }
    ok ((s1.ptpMsg 0 0).ptpMsg 8 (toBits 80 s1.ptpTime))
  else ok s0

def execPtpAnnounceSend (t : Nat) (s : State) : Out1 :=
  let s0 := s.advance t
  if s0.timeEn 1 ∧ !s0.gate ∧ s0.time.ptpAnnAt + logTicks (s0.ptpField 4) ≤ s0.time.now then
    let s1 := { s0 with time := { s0.time with ptpAnnAt := s0.time.now, ptpAnnounceTx := s0.time.ptpAnnounceTx + 1 } }
    ok (s1.ptpMsg 11 (s1.clockClass + 256 * s1.timeSource + 65536 * s1.ptpField 1 + 16777216 * s1.ptpField 2))
  else ok s0

def State.ptpDropped (s : State) : State := { s with time := { s.time with ptpDrop := satInc 32 s.time.ptpDrop } }

/-- A Delay_Req of the own domain is answered with its receipt time. -/
def execDelayReq (domain t : Nat) (s : State) : Out1 :=
  let s0 := s.advance t
  if !s0.timeEn 1 then ok s0
  else if domain ≠ s0.ptpField 0 then ok s0.ptpDropped
  else if s0.gate then ok s0
  else
    let s1 := { s0 with time := { s0.time with ptpDelayResp := satInc 32 s0.time.ptpDelayResp } }
    ok (s1.ptpMsg 9 (toBits 80 s1.ptpTime))

/-- A message of another clock: Announce (11) and Sync (0) of the own domain are counted, every other is dropped. -/
def execPtpMessageRx (kind domain : Nat) (s : State) : Out1 :=
  if !s.timeEn 1 then ok s
  else if domain ≠ s.ptpField 0 then ok s.ptpDropped
  else if kind = 11 then ok { s with time := { s.time with ptpAnnounceRx := satInc 32 s.time.ptpAnnounceRx } }
  else if kind = 0 then ok { s with time := { s.time with ptpSyncRx := satInc 32 s.time.ptpSyncRx } }
  else ok s.ptpDropped

/-! ### Reads of the time block (R161) -/

/-- An aligned 8-byte read at 0x2000; channel 7 is the host's read data. -/
def execFtSampleRead (t : Nat) (s : State) : Out1 :=
  let s0 := s.advance t
  ok (s0.emit 7 (s0.time.ft % 2 ^ 64))

/-- A 4-byte read of `FT_LO` latches the high half. -/
def State.ftLoRead (s : State) : State :=
  let s1 := { s with time := { s.time with latchHi := s.time.ft / 2 ^ 32 % 2 ^ 32 } }
  s1.emit 7 (s1.time.ft % 2 ^ 32)

def execFtLoRead (t : Nat) (s : State) : Out1 := ok (s.advance t).ftLoRead

end Sys2Proof.Machine
end

