-- ==== Sys2Proof/Machine/PackageOps.lean ====
section
/-!
DEFINITION. The operations of bring-up, teardown and reset that the meanings share: the defect union (R345), the acceptance of an image (R362), the generation change (R407, R411), teardown
zeroing (R189, R212), warm reset (R415, R416), and the paths to `STANDBY` (R477).
-/
namespace Sys2Proof.Machine

/-! ### The defect union (R345 to R347) -/

def State.union (s : State) : List Defect := s.logs.fuses ++ s.logs.defects ++ s.logs.bist ++ s.logs.pendingDefects

/-- The die and physical row of a defect of kinds 1 to 3. -/
def Defect.row (d : Defect) : Option (Nat × Nat) :=
  if 1 ≤ d.kind ∧ d.kind ≤ 3 then some (fld d.location 1 0, fld d.location 5 2) else none

/-- The defective physical rows of a die. -/
def State.badRows (s : State) (die : Nat) : List Nat :=
  (s.union.filterMap (fun d => match d.row with
    | some (a, r) => if a = die then some r else none
    | none => none)).eraseDups

/-- A die needs a second skipped row (R347). -/
def State.secondRow (s : State) : Bool := allDies.any (fun d => decide (1 < (s.badRows d).length))

/-- Rows of a bank that the union has, spare rows of it that they take, and defective phases of a regulator. -/
def State.bankRows (s : State) (bank : Nat) : Nat :=
  ((s.union.filterMap (fun d => if d.kind = 4 ∧ d.location % 2 ^ 14 = bank then some d.location else none)).eraseDups).length
def State.bankNext (s : State) (bank : Nat) : Nat :=
  (s.union.filter (fun d => decide (d.kind = 4 ∧ d.location % 2 ^ 14 = bank))).foldl (fun n d => max n (d.spare + 1)) 0
def State.badPhases (s : State) (reg : Nat) : Nat :=
  ((s.union.filterMap (fun d => if d.kind = 7 ∧ d.location % 16 = reg then some d.location else none)).eraseDups).length

/-- The union fits (R345). -/
def State.fits (s : State) : Bool :=
  !s.secondRow && !s.union.any (fun d => d.kind == 5) && (s.union.all (fun d => d.kind ≠ 4 || decide (s.bankRows (d.location % 2 ^ 14) ≤ 32)))
    && (List.range 6).all (fun r => decide (s.badPhases r ≤ 2))

/-! ### Entering states -/

/-- Enter a package state that allows descriptors: waiting doorbells are acted on (R244). In `AWAIT_CONFIG` every tile row is held `OFF` (R351). -/
def State.enter (s : State) (u : Nat) : State := ({ s with rows := if u = psAwait then [] else s.rows }.setUnder u).dmaResume

/-- Every link without training starts it (R350). -/
def State.trainLinks (s : State) : State :=
  allLinks.foldl (fun (u : State) l =>
    let k := u.link l
    if k.state = 0 ∧ k.retryAt.isNone then u.setLink l { k with retryAt := some u.time.now } else u) s

/-- `NOT_READY` with a reason: the watch core stops the heartbeats (R348, R428), and links work as in `AWAIT_CONFIG`, so where none has trained yet training starts. -/
def State.notReady (s : State) (reason : Nat) : State :=
  let s1 := (s.setUnder psNotReady).trainLinks
  { s1 with pkg := { s1.pkg with reason := reason } }

/-! ### The image (R362) -/

/-- `CHECKS_OFF` in effect: the image's and `PT_CHECKS`' (R354, R459). -/
def State.checksOff (s : State) : Nat := (match s.cfg.image with
  | some im => im.checksOff
  | none => 0) ||| fld (Tab.get 0 s.pert.eff 0x0A) 5 0

/-- The check enables take their places under R53, R190 and R221. -/
def State.applyChecks (s : State) : State :=
  let off := s.checksOff
  let en := 7 - off % 8
  let old := s.tiles.map (fun (e : Nat × Tile) => (e.1, { e.2 with blk := { e.2.blk with chk := en } }))
  let ts := if en = 7 then old else (List.range 624).foldl (fun (m : Tab Tile) p => if Tab.has m p then m else Tab.set m p { Tile.reset with blk := { TileBlk.reset with chk := en } }) old
  let s1 := { s with tiles := ts }
  let s2 := allDies.foldl (fun u d => u.setDie d { u.die d with scrubEn := !bitAt off 3 }) s1
  (List.range 8).foldl (fun u k => u.setStack k { u.stack k with scrubEn := !bitAt off 4, spareEn := !bitAt off 5 }) s2

/-- The claim that stands on a resource: the image's, then a perturbation register's; without an image the DMA channels are the host's. -/
def State.claimOf (s : State) (kind index : Nat) : Option Nat :=
  let p := (s.pertClaims.find? (fun c => c.1 == kind && c.2.1 == index)).map (fun c => c.2.2)
  match s.cfg.image with
  | some im => (im.claimOf kind index).or p
  | none => if kind = 1 then some 1 else p

/-- The claim code of a channel, and of a link (`LINK_STATE.CLAIM`: 1 `SCH_SPARE`, 2 `MIRROR_RESERVE`). -/
def State.dmaClaim (s : State) (c : Nat) : Nat := (s.claimOf 1 c).getD 1
def State.linkClaim (s : State) (l : Nat) : Nat :=
  match s.claimOf 2 l with
  | some 4 => 1
  | some 5 => 2
  | _ => 0

/-- An octet by an image: the spare index and the slot map in ascending order (R266). The slot of a defective link goes to the octet's spare where that can take it (R267), and an octet
with a slot left on a defective link is short (R268, R345). -/
def State.octetOf (s : State) (im : Image) (o : Nat) : Octet :=
  let si := im.spareIdx.getD o 7
  let used := fun (i : Nat) => (im.wiring.getD (8 * o + i) (0, 0, false)).2.2
  let bad := fun (i : Nat) => s.defective 6 (8 * o + i)
  let map := (List.range 8).filter (fun i => decide (i ≠ sparePos si))
  match map.filter (fun i => used i && bad i) with
  | [] => ⟨si, map, false⟩
  | i :: r =>
    if si < 8 ∧ used si ∧ !bad si ∧ im.claimOf 2 (8 * o + si) ≠ some 5 then ⟨i, map.map (fun j => if j = i then si else j), !r.isEmpty⟩
    else ⟨si, map, true⟩

/-- A link under a new image, or under none: its claim, and whether it carries a slot or is the octet's spare position (R266, R271, R280). Without an image a `MISWIRED` link
returns to `IDENT`, as there is no plan to compare with. -/
def State.relinkImage (s : State) (l : Nat) : State :=
  let k := s.link l
  let none_ := s.cfg.image.isNone
  let role := fun (st : Nat) => if st = 3 ∨ st = 6 then (if !none_ ∧ l % 8 = (s.octet (l / 8)).spareIdx then 6 else 3) else st
  let back := none_ && k.state == 4
  let k1 := { k with claim := s.linkClaim l, state := if back then 2 else role k.state, prev := role k.prev,
                     sch := if k.state = 0 ∨ role (if k.state = 1 then k.prev else k.state) = 6 then none else s.slotOfLink l,
                     phase := if back then 3 else k.phase, phaseAt := if back then s.time.now else k.phaseAt,
                     queued := k.queued && !s.linkUnused l, retryAt := if k.state = 0 && k.retryAt.isNone then some s.time.now else k.retryAt }
  s.setLink l k1

/-- Every link under a new image, or under none: each takes its place first, then the wiring is compared, on the octets' spares before the other links, so that a slot whose link is found
miswired goes to a healthy spare (R267, R279). -/
def State.relinkAll (s : State) : State :=
  let s1 := allLinks.foldl State.relinkImage s
  let spare := fun (l : Nat) => l % 8 == (s1.octet (l / 8)).spareIdx
  (allLinks.filter spare ++ allLinks.filter (fun l => !spare l)).foldl State.compareWiring s1

/-- `LAKE_INTERLEAVE` takes another value (R193): contents stay where they are in the stacks, and so move to the local addresses that the new mapping gives their places. -/
def State.remapLake (s : State) (m : Nat) : State :=
  let old := s.lake.mode
  if m = old then s
  else
    let moved := fun (a : Nat) => lakeUn m (lakeStack old a) (lakeSo old a)
    let s1 := { s with lake := { s.lake with
      mode := m
      mem := s.lake.mem.foldl (fun x e => Mem.write x (moved e.1) e.2) []
      flips := s.lake.flips.foldl (fun x e => Tab.put 0 x (moved (4 * e.1) / 4) e.2) [] } }
    (List.range 8).foldl (fun (u : State) k =>
      let st := u.stack k
      u.setStack k { st with corr := st.corr.map moved, corrPrev := st.corrPrev.map moved }) s1

/-- An image replaces the accepted one in one step (R362): the route table and slot maps, the wiring comparison on every link, the LPN, the time state, the check enables, and the
channels left `IDLE` (R244). The rack manager's absence counts from here (R374), or `CAP_MGR` takes `ORPHAN_CAP` where none is attached (R7). `DISPLACED` clears (R437). -/
def State.applyImage (s : State) (im : Image) : State :=
  let s1 := { s.remapLake im.interleave with
    cfg := { s.cfg with image := some im, flashIp := im.ip, flashPort := im.udpPort }
    lpn := im.lpn
    pkg := { s.pkg with lpnValid := true }
    spr := { s.spr with displaced := false, takenLpn := if s.spr.takenLpn = some im.lpn then some im.lpn else none }
    st := { s.st with routes := im.routes, octets := (List.range 12).map (fun o => (o, s.octetOf im o)), trainMode := im.trainMode }
    m := { s.m with mgrFrom := some s.time.now, capMgr := if im.mgr then s.m.capMgr else im.orphanCap, orphan := s.m.orphan || !im.mgr }
    pw := { s.pw with capMgrWas := if im.mgr then s.pw.capMgrWas else im.orphanCap } }
  let s2 := s1.relinkAll
  let s3 := s2.timeConfigured true
  let s4 := (s3.applyChecks).dmaConfigure s3.dmaClaim
  let s5 := s4.event 0x0004 5 im.serial
  if s5.pkg.under = psAwait then s5.enter psConf else s5.dmaResume

/-! ### The generation change (R407, R411) -/

/-- No context is accepted any more: a package that stood in holdover with a conflict acquires its parent again (R149). -/
def State.timeFreed (s : State) : State :=
  let x := s.time
  let again := x.parent ≠ 0x7F
  if x.tstate = 4 ∧ x.holdConflict then { s with time := { x with tstate := if again then 1 else 4, setDue := again, holdConflict := false } } else s

/-- Tiles, lake logic dies, package edge and DMA take a new generation; from here no context counts as accepted (R412). -/
def State.takeGen (s : State) (g : Nat) : State :=
  let s1 := { s with
    tiles := s.tiles.map (fun (e : Nat × Tile) => (e.1, { e.2 with blk := { e.2.blk with gen := g } }))
    ctx := { s.ctx with gen := g, genLive := false, accepted := false, genAt := s.time.now, phase := 3 } }
  let s2 := (List.range 8).foldl (fun u k => u.setStack k { u.stack k with gen := g, draining := true }) s1
  s2.dmaGenChange.timeFreed

/-- The next generation, and whether it is the limit that makes a warm reset (R411). -/
def nextGen (g : Nat) : Nat × Bool := if g + 1 = 0xFFFF then (0, true) else (g + 1, false)

/-! ### Teardown zeroing -/

/-- Every registered request of a stack is applied, in order (R212). `rsp` names, by packet, words with bits flipped at the pins on the answers. -/
def State.drainStack (s : State) (k : Nat) (rsp : List (Nat × List (Nat × Nat))) : State :=
  let st := s.stack k
  let s1 := s.setStack k { st with waitQ := [] }
  st.waitQ.foldl (fun u id =>
    match u.atLake id with
    | some (p, _) => u.lakeApply k p (rspOf rsp id)
    | none => u) s1

/-- Zeroing starts in a stack: every channel is raised to `L_ACTIVE` and the palette cache emptied (R202, R212, R384). Where `PT_CLK_START` delays the exit of a channel from its power state, the
channel is asked to wake (R459). -/
def State.zeroStart (s : State) (k : Nat) : State :=
  let st := s.stack k
  let late := s.ptStart 1
  let chans := (List.range 32).map (fun c =>
    let v := st.chan c
    (c, if v.power ≠ 0 ∧ late ≠ 0 then { v with wakeReq := some (s.time.now + late) } else { v with power := 0, wakeReq := none, lastUse := s.time.now }))
  s.setStack k { st with draining := false, zeroing := true, zeroStart := s.time.now, palCache := [], chans := chans }

/-- Every channel of a stack is in `L_ACTIVE`: its zeroing can end (R384). -/
def Stack.awake (st : Stack) : Bool := (List.range 32).all (fun c => (st.chan c).power == 0)

/-- Zero every word of a stack with correct check bits (R212). -/
def State.zeroStack (s : State) (k : Nat) : State :=
  { s with lake := { s.lake with
    mem := s.lake.mem.filter (fun e => decide (lakeStack s.lake.mode e.1 ≠ k)), flips := s.lake.flips.filter (fun e => decide (lakeStack s.lake.mode (4 * e.1) ≠ k)) } }

/-- Zeroing of a stack ends: held requests are served, the reads first, which so return zero (R213). `rsp` names words flipped at the pins on their answers. -/
def State.zeroEnd (s : State) (k : Nat) (rsp : List (Nat × List (Nat × Nat))) : State :=
  let s1 := s.zeroStack k
  let st := s1.stack k
  let isRead := fun id => match s1.pkt id with
    | some p => p.kind == 0x01
    | none => false
  (s1.setStack k { st with zeroing := false, heldQ := [] }).lakeResume k rsp (st.heldQ.filter isRead ++ st.heldQ.filter (fun id => !isRead id))

/-- A tile with its local store, palettes, registers, flags, accumulators and descriptors zero and its bundle store invalid (R407); glaze and register block stand. -/
def Tile.cleared (t : Tile) : Tile :=
  { t with r := TileRegs.zero, mx := TileMx.zero, st := TileStep.zero,
           mem := { t.mem.newPeriod with ls := [], lsFlips := [] }
           iss := { TileIssue.zero with xfSeq := t.iss.xfSeq, tagSeq := t.iss.tagSeq } }

/-- The glaze of every slice but those above a skipped row is zero (R165, R189). -/
def State.clearGlaze (s : State) : State :=
  { s with tiles := s.tiles.map (fun (e : Nat × Tile) =>
    if e.1 % 156 / 12 = (s.die (e.1 / 156)).skipRow then e else (e.1, { e.2 with mem := { e.2.mem with glaze := [], glazeFlips := [] } })) }

def State.setDieZeroing (s : State) (b : Bool) : State := allDies.foldl (fun u d => u.setDie d { u.die d with zeroing := b }) s

/-- The flash defect list is full and a unit waits for an entry of its own (R348). -/
def State.listFull (s : State) : Bool := decide (4096 ≤ s.logs.defects.length) && s.logs.pendingDefects.any (fun d => !s.logs.defects.any d.same)

/-- The teardown has ended where every part of it has (R340, R407): `CONFIGURED`, or `NOT_READY` where a die needs a second skipped row (R347). -/
def State.tearCheck (s : State) : State :=
  if !s.ctx.killing ∨ s.ctx.phase ≠ 4 ∨ !s.ctx.lakeLeft.isEmpty ∨ !s.ctx.glazeZeroed ∨ !s.ctx.tileZeroed then s
  else
    let s1 := { s with ctx := { s.ctx with phase := 5, killing := false, id := 0 } }
    let s2 := s1.event 0x000A 5 (place ((s.time.now - s.ctx.tdStart) / us) 32 0)
    if s2.pkg.under ≠ psTear then s2
    else if s2.secondRow then ({ s2 with faults := { s2.faults with sticky := s2.faults.sticky ||| 2 ^ 6 }, ctx := { s2.ctx with noSpareRow := true } }).notReady 2
    else if s2.listFull then s2.notReady 5
    else s2.enter (if s2.cfg.image.isSome then psConf else psAwait)

/-! ### Scopes end (R338, R458) -/

/-- An action of 0x01 to 0x09 is in effect; a forced shed only while the shed stands. -/
def State.actionOn (s : State) : Bool := ([1, 2, 3, 4, 5, 6, 7, 9].any (fun n => s.ptReg n != 0)) || s.pert.shedEnd.isSome

/-- `PT_TRIGGER` drives `SYNC_AUX` high (R459). -/
def State.trigHigh (s : State) : Bool := bitAt (Tab.get 0 s.pert.eff 11) 0 && s.actionOn && !s.gate

/-- A trigger that stood high goes low. -/
def State.trigLow (s : State) : State := if s.trigHigh then s.emit 5 0 else s

/-- Every perturbation register returns to its default and its action stops, the trigger's level with them; credits that `PT_CREDIT_HOLD` withheld are freed. -/
def State.pertReset (s00 : State) : State :=
  let s := s00.trigLow
  let s1 := { s with pert := { s.pert with regs := [], eff := [], setBy := [], on := false, shedEnd := none, shedNew := false } }
  let s2 := s1.st.links.foldl (fun (u : State) e => (List.range 6).foldl (fun v p => v.freeCredit e.1 p 0) u) s1
  if fld (Tab.get 0 s.pert.eff 0x0A) 5 0 = 0 then s2 else s2.applyChecks

/-- End scopes (bit 0 perturbation, bit 1 debug) with a cause for the event log (R464): only those that are enabled. -/
def State.endScopes (s : State) (scopes cause : Nat) : State :=
  let en := (if bitAt scopes 0 ∧ s.pert.pertEnd.isSome then 1 else 0) + (if bitAt scopes 1 ∧ s.pert.debugEnd.isSome then 2 else 0)
  let asks := (s.pert.asks.map (fun (a : ScopeAsk) => { a with scopes := a.scopes - (a.scopes &&& scopes) })).filter (fun a => decide (a.scopes ≠ 0))
  let s1 := { s with pert := { s.pert with
    asks := asks, pertEnd := if bitAt scopes 0 then none else s.pert.pertEnd, debugEnd := if bitAt scopes 1 then none else s.pert.debugEnd } }
  let s2 := if bitAt scopes 0 then s1.pertReset else s1
  if en = 0 then s2 else s2.event 0x0031 5 (en + 256 * cause)

/-! ### Firmware requests that a reset cancels (R449, R454) -/

def State.cancelActivation (s : State) (cause : Nat) : State :=
  if s.fw.act = 1 then { s.event 0x0024 5 cause with fw := { s.fw with act := 0, leaseEnd := none, leaseUsed := false, prepared := false } } else s

/-- The straps are sampled (R475): the PID and `ROLE_SPARE`. -/
def State.sampleStraps (s : State) : State := { s with pid := s.pkg.straps % 2 ^ 19, pkg := { s.pkg with role := bitAt s.pkg.straps 19 } }

/-! ### Warm reset (R340, R415, R416) -/

/-- Entry to `BOOT` by a warm reset; `cause` is 1 command, 2 generation limit, 3 end of `FENCED`. Rows are held `OFF` (R351), channels are `IDLE` with `DMA_NEXT` 0, and perturbation
registers, parts of incomplete chunks and a requested activation end. The output gate opens, unless `FENCE_IN_N` still keeps the package fenced (R342, R430). The straps are sampled (R475), and the
entry to `BOOT` counts (R456). -/
def State.warmBoot (s : State) (cause : Nat) : State :=
  let s0 := (s.cancelActivation 2).endScopes 1 4
  let fenced := s0.pkg.fenced && (decide (cause ≠ 3) || s0.pkg.fenceLow)
  let s1 := { s0 with
    rows := []
    dma := s0.dma.map (fun (e : Nat × DmaCh) => (e.1, { e.2 with late := e.2.late ++ e.2.reqs.map (fun (r : DmaReq) => (r.tok, r.host)), state := 0, next := 0, pend := false, cur := none, fetching := false, shadow := none, stopReq := false, reqs := [] }))
    gate := fenced
    spr := { s0.spr with copying := false, fenceOut := if fenced then s0.spr.fenceOut else s0.spr.fenceOut - (s0.spr.fenceOut &&& s0.spr.fenceDrop), fenceDrop := if fenced then s0.spr.fenceDrop else 0 }
    faults := { s0.faults with lastReset := cause + 1 }
    fw := { s0.fw with parts := [], boots := (s0.fw.boots + 1) % 2 ^ 32 }
    pkg := { s0.pkg with warm := true, lakeTries := 0, bootOk := false, bistOk := false, mordRuns := false, mordBack := none, fenced := fenced, reason := 0 }
    ctx := { s0.ctx with warm := 0 } }
  let u := if s0.gate ∧ !fenced then (s1.st.links.map Prod.fst).foldl State.linkResume s1 else s1
  let s2 := ((u.sampleStraps).setUnder psBoot).event 0x0002 5 cause
  s2.event 0x0001 5 (1 + place s2.ctx.gen 16 8)

/-- A warm reset: with a context accepted it kills it first, to the generation change (R416); else it changes the generation and enters `BOOT`. -/
def State.warmReset (s : State) (cause : Nat) : State :=
  if s.ctx.killing ∧ s.ctx.phase = 1 then { s with ctx := { s.ctx with warm := cause } }
  else if s.ctx.accepted then { s with ctx := { s.ctx with warm := cause } }.beginKill 4 s.lpn s.ctx.id true
  else
    let g := (nextGen s.ctx.gen).1
    let s1 := { s with
      tiles := s.tiles.map (fun (e : Nat × Tile) => (e.1, { e.2 with blk := { e.2.blk with gen := g } }))
      ctx := { s.ctx with gen := g, genAt := s.time.now } }
    let s2 := (List.range 8).foldl (fun u k => u.setStack k { u.stack k with gen := g }) s1
    s2.warmBoot cause

/-! ### The output gate and the paths to STANDBY (R430, R477) -/

/-- The output gate closes: `PKT`, `MGT` and `TIM` slots queued at egress are discarded, `PPS_OUT` and `SYNC_AUX` fall, heartbeats stop, and an accepted context is killed without `ABORT`. -/
def State.closeGate (s00 : State) : State :=
  let s := s00.trigLow
  let s1 := { s with
    gate := true
    st := { s.st with links := s.st.links.map (fun (e : Nat × Link) => (e.1, { e.2 with tx := { e.2.tx with q := [], emq := [] } })) }
    time := { s.time with ppsOut := false, ppsFrameDue := false } }
  s1.beginKill 5 s1.lpn s1.ctx.id false

/-- The stacks in deep sleep: every channel in `L_SREF` (R210). -/
def asleepStacks : Tab Stack :=
  (List.range 8).map (fun k => (k, { Stack.reset with chans := (List.range 32).map (fun c => (c, { Chan.zero with power := 2 })) }))

/-- The links are lost at `STANDBY`, and with them what TIM told and a parent; the time state and a lock on `PPS_IN` stay (R415). -/
def State.timeLost (s : State) : State :=
  let x := s.time
  let gone := x.tstate ≠ 5 ∧ x.parent ≠ 0x7F
  { s.timeFreed with time := { s.timeFreed.time with links := [], parent := if gone then 0x7F else x.parent, noParent := if gone then some x.now else x.noParent } }

/-- Stage 1 stops on a path to `STANDBY`: the gate closes, `PG_OUT` falls, and what does not survive `STANDBY` is lost (R415). A flash write under way goes on (R477); the watch core runs its ROM code
(R447). `KILL_CAUSE` is zero but where `FENCE_IN_N` is low, with the cause 5 of its kill (R480). In `STANDBY` the gate alone closes. A debug access that waits for a tile ends with an error response
(log entry 125). -/
def State.toStandby (s : State) : State :=
  if s.pkg.under = psOff then s
  else if s.pkg.under = psStandby then s.closeGate
  else
    let s0 := (((s.closeGate).cancelActivation 3).endScopes 1 4).timeLost
    let s1 := { s0 with
      tiles := []
      rows := []
      dieFrozen := []
      net := Net.reset
      lake := { Lake.reset with stackTab := asleepStacks }
      dma := []
      st := { Stoith.reset with unreach := [] }
      cfg := { s0.cfg with image := none, buf := [], bufLen := 0 }
      seq := Seq.reset
      ctx := { Ctx.reset with gen := s0.ctx.gen, phase := s0.ctx.phase, oldGen := s0.ctx.oldGen, killCause := if s0.pkg.fenceLow ∧ s0.ctx.killCause = 5 then 5 else 0 }
      faults := { Faults.reset with lastReset := 1, mordRestarts := s0.faults.mordRestarts, watchRestarts := s0.faults.watchRestarts,
                                    tileDrop := s0.faults.tileDrop, nackRx := s0.faults.nackRx }
      h := { HostSt.reset with mem := s0.h.mem, perst := s0.h.perst, cfgReady := s0.h.cfgReady, refclk := s0.h.refclk }
      spr := Spr.reset
      pw := { s0.pw with coreV := [0, 0, 0, 0, 0, 0] }
      m := { s0.m with i3cAddr := none, i3cPending := false, i3cReady := false, i3cAt := none, reqKey := [], reqAuth := [], mmbDone := 0, mgrFrom := none }
      ld := Loader.reset
      fw := { s0.fw with parts := [], act := 0, prepared := false, record := none, leaseEnd := none, fail := 0, reports := [], region := [], standby := [], watch := [], watchBank := [], watchNext := none }
      lpn := 0
      jtag := { s0.jtag with access := none, status := if s0.jtag.access.isSome then 4 else s0.jtag.status }
      pkg := { s0.pkg with pgOut := false, hPower := false, stage1 := false, mordRuns := false, mordBack := none, bootOk := false, bistOk := false, lakeTrained := false,
                           lpnValid := false, fenced := false, reason := 0 } }
    (s1.setUnder psStandby).sampleStraps

/-- `PWR_EN` counts as high (R478). -/
def State.pwrOk (s : State) : Bool := s.pkg.pwrEn && !s.pkg.cycleNeeded

/-- The core voltage of a die in mV by its fused operating point (R367), within the range of the core rails (R365). -/
def coreVolts (d : Nat) : Nat := 550 + Config.corePoint d % 301

/-- `STANDBY` to `BOOT` where `PWR_EN` is high, `PRSNT_N` low and `THERMTRIP_N` high (R340, R476). The row that begins a path to `STANDBY` also completes it, so pins that return
before 10 ms are over find the package in `STANDBY` and enter `BOOT` (R480). The dies' core voltages are set (R367). -/
def State.tryBoot (s : State) : State :=
  if s.pkg.under = psStandby ∧ s.pwrOk ∧ s.pkg.mated ∧ !s.pkg.therm ∧ !s.pkg.thermExt then
    let s1 := s.sampleStraps
    let s2 := { s1 with
      gate := false
      ctx := { Ctx.reset with phase := s1.ctx.phase, oldGen := s1.ctx.oldGen }
      faults := { Faults.reset with lastReset := if s1.pkg.unclean then 5 else s1.faults.lastReset,
                                    mordRestarts := s1.faults.mordRestarts, watchRestarts := s1.faults.watchRestarts,
                                    tileDrop := s1.faults.tileDrop, nackRx := s1.faults.nackRx }
      pkg := { s1.pkg with warm := false, stage1 := true, bootOk := false, bistOk := false, mordRuns := false, unclean := false, lakeTries := 0 }
      pw := { s1.pw with coreV := (List.range 6).map coreVolts }
      fw := { s1.fw with boots := s1.fw.boots + 1 } }
    let s3 := (s2.setUnder psBoot).event 0x0001 5 0
    if s3.pkg.fenceLow then { s3 with gate := true, pkg := { s3.pkg with fenced := true } } else s3
  else s

end Sys2Proof.Machine
end

