-- ==== Sys2Proof/Machine/FwOps.lean ====
section
/-!
DEFINITION. Firmware images and what the package shows of its firmware (R442 to R444, R453, and the firmware register block).
-/
namespace Sys2Proof.Machine

def fwMax : Nat := 16777216
def fwSigLen : Nat := 29792

/-- The version of an image: major, minor, patch (R442). -/
def fwVersion (b : List Byte) : Nat := leAt b 8 4
def fwSvn (b : List Byte) : Nat := leAt b 12 1

/-- Component entry `i`: kind, offset and length, and whether its other bytes are zero. -/
def fwComp (b : List Byte) (i : Nat) : Nat × Nat × Nat × Bool :=
  let p := 88 + 16 * i
  (leAt b p 1, leAt b (p + 4) 4, leAt b (p + 8) 4, zeroAt b (p + 1) 3 && zeroAt b (p + 12) 4)

/-- The components of R443. -/
def fwCompsOk (b : List Byte) : Bool :=
  let cs := (List.range 6).map (fwComp b)
  (cs.filter (fun c => c.1 == 1)).length == 1 && (cs.filter (fun c => c.1 == 2)).length == 1
    && cs.all (fun c => c.2.2.2 && (c.1 == 0 || (decide (256 ≤ c.2.1) && decide (c.2.1 + c.2.2.1 + fwSigLen ≤ b.length))) && (c.1 != 2 || decide (c.2.2.1 ≤ 262144)))

/-- An image is valid but for its `SVN` (R443). -/
def State.fwGood (s : State) (b : List Byte) : Bool :=
  let len := leAt b 16 4
  let slot := leAt b 14 1
  let key := (b.drop 24).take 64
  let revoke := leAt b 13 1
  len == b.length && decide (30048 ≤ len) && decide (len ≤ fwMax) && leAt b 0 4 == 0x46573959 && leAt b 4 2 == 1 && leAt b 6 2 == 4 && leAt b 15 1 == 9 && leAt b 20 4 == 1
    && decide (revoke < 16) && zeroAt b 184 72 && fwCompsOk b && decide (slot < 4) && shake256 key 64 == s.fw.keyDigests.getD slot [] && !bitAt s.fw.revoked slot
    && Config.sigOk key (ascii "LY9 FW") (b.take (len - fwSigLen)) (b.drop (len - fwSigLen)) && !bitAt revoke slot

/-- An image is valid (R443). -/
def State.fwValid (s : State) (b : List Byte) : Bool := s.fwGood b && decide (s.fw.arb ≤ fwSvn b)

/-- The bytes of the component of a kind (1 Mordant code, 2 watch-core code) of an image (R442). -/
def fwPart (b : List Byte) (kind : Nat) : List Byte :=
  match ((List.range 6).map (fwComp b)).find? (fun c => c.1 == kind) with
  | some c => (b.drop c.2.1).take c.2.2.1
  | none => []

/-- The digest of a copy of the boot record (R441); the spec does not give the bytes of a copy, the model takes slot and sequence number (log entry 133). -/
def bootDigest (slot seq : Nat) : List Byte := shake256 (leBytes 1 slot ++ leBytes 4 seq) 64

def BootRec.good (r : BootRec) : Bool := !r.digest.isEmpty && r.digest == bootDigest r.slot r.seq

/-- What the reader takes: the copy with the higher sequence number among those whose digest holds (R441); with none, slot A (DESIGN CHOICE, log entry 133). -/
def Fw.bootRec (f : Fw) : BootRec := (f.recs.filter BootRec.good).foldl (fun m r => if m.digest.isEmpty ∨ m.seq < r.seq then r else m) ⟨0, 0, []⟩

/-- `ACTIVE_SLOT` of the boot record, and its sequence number. -/
def Fw.active (f : Fw) : Nat := f.bootRec.slot
def Fw.bootSeq (f : Fw) : Nat := f.bootRec.seq

/-- The place of the older copy: one whose digest does not hold, else the one with the lower sequence number. -/
def Fw.olderRec (f : Fw) : Nat :=
  let a := f.recs.getD 0 ⟨0, 0, []⟩
  let b := f.recs.getD 1 ⟨0, 0, []⟩
  if !a.good then 0 else if !b.good then 1 else if b.seq < a.seq then 1 else 0

/-- A write of the boot record replaces the older copy, with the sequence number raised by one; one that power loss cuts short leaves that copy without a digest that holds (R441). -/
def Fw.writeBoot (f : Fw) (slot : Nat) (cut : Bool) : Fw :=
  let q := (f.bootSeq + 1) % 2 ^ 32
  { f with recs := f.recs.set f.olderRec ⟨slot, q, if cut then [] else bootDigest slot q⟩ }

/-- A boundary of the control period. -/
def State.atBoundary (s : State) : Bool := s.pw.periodAt == s.time.now

/-- `HEARTBEAT` has not advanced for 50 ms of the self-check (R452); an advance at the edge is in time (R417). -/
def State.beatStood (s : State) : Bool := s.fw.act == 6 && decide (watchCycle (max s.h.beatAt s.fw.selfAt + 50 * ms) < watchCycle s.time.now)

/-- The chunks of an image (R444). -/
def fwChunks (len : Nat) : Nat := (len + 65535) / 65536

/-- The staged image is whole. -/
def Fw.whole (f : Fw) : Bool := f.staging && !f.erasing && decide (f.chunks.length = fwChunks f.stageLen)

/-- The bytes of the staged image. -/
def Fw.staged (f : Fw) : List Byte := (List.range (fwChunks f.stageLen)).flatMap (fun c => Tab.get [] f.chunks c)

/-- The bitmap of the chunks held (R333). -/
def Fw.bitmap (f : Fw) : List Byte := leBytes 32 (maskOf (f.chunks.map Prod.fst))

/-- `FW_FLAGS` (R307). -/
def Fw.flags (f : Fw) : Nat :=
  b2n (f.run == 1) + 2 * b2n f.whole + 4 * b2n (f.act != 0 && f.act != 7) + 8 * b2n f.leaseEnd.isSome + 16 * b2n f.rolled

/-- `LEASE_S`: the seconds left of a lease. -/
def State.leaseS (s : State) : Nat :=
  match s.fw.leaseEnd with
  | some e => (e - s.time.now + 1000 * ms - 1) / (1000 * ms)
  | none => 0

/-- `FW_BOOT.PHASE`. -/
def Fw.phase (f : Fw) : Nat :=
  if f.act = 1 then (if f.leaseEnd.isSome then 2 else 1) else if f.act = 2 then 3 else if f.act = 3 ∨ f.act = 4 ∨ f.act = 5 then 4 else if f.act = 6 then 5 else if f.act = 7 then 6 else 0

/-- The signing-key slots that hold a digest. -/
def Fw.keysPresent (f : Fw) : Nat := maskOf ((List.range 4).filter (fun i => !(f.keyDigests.getD i []).isEmpty))

/-- A register of the firmware block. -/
def State.fwReg (s : State) (off : Nat) : Nat :=
  if off = 0 then s.fw.run + 2 * b2n s.fw.prepared + 4 * s.fw.phase + 256 * fwSvn s.fw.runImage
  else if off = 4 then s.fw.arb + 256 * s.fw.keysPresent + 4096 * (s.fw.revoked % 16)
  else 0

end Sys2Proof.Machine
end

