-- ==== Sys2Proof/Machine/RegMap.lean ====
section
/-!
DEFINITION. The register blocks of the package map: what each register reads, which fields a read clears, and what a write does, by the access codes of R10. A register takes a 4-byte aligned
local address; what no block lists reads zero.
-/
namespace Sys2Proof.Machine

/-! ### Heartbeats (R428) -/

/-- A bound package runs its heartbeats (R428, R437). -/
def State.hbRuns (s : State) : Bool :=
  s.spr.role != 0 && !s.spr.displaced && !s.gate && s.booted && s.pkg.under != psNotReady && s.pkg.under != psFailed

/-! ### Tile blocks (spec/01_tile.md) -/

def tileBase : Nat := 0x1F040000000

def State.tileReg (s : State) (pti off : Nat) : Nat :=
  let t := s.tile pti
  let b := t.blk
  let r := s.row (rowOf pti)
  if off = 0x00 then
    r.power + 4 * b2n t.st.active + 8 * b2n (s.frozenDie (pti / 156)) + 16 * b2n (r.wakeAt.isSome || r.deferred) + 32 * b2n (b.fault != 0) + 64 * b2n t.iss.bundleValid + place s.ctx.gen 16 16
  else if off = 0x04 then b.fault
  else if off = 0x08 then b.faultPc + place b.faultSlot 3 12 + place (b2n b.precise) 1 15 + place b.faultGen 16 16
  else if off = 0x0C then b.chk
  else if off = 0x10 then min 0xFFFF b.sbe
  else if off = 0x14 then min 0xFFFF b.lateWake
  else if off = 0x18 then min 0xFFFFFFFF b.frozen
  else if off = 0x1C then (s.tidOf pti).getD 0x3FF + place (pti % 156 / 12) 4 10 + place (pti % 12) 4 14 + place (pti / 156) 2 18
  else if off = 0x20 then b.stepCount % 2 ^ 24
  else if off = 0x24 then min 0xFFFF b.nearMiss
  else 0

def State.setBlk (s : State) (pti : Nat) (f : TileBlk → TileBlk) : State :=
  let t := s.tile pti
  { s with tiles := Tab.set s.tiles pti { t with blk := f t.blk } }

/-- `TILE_FAULT` bits cleared by W1C; `TILE_FAULT_INFO` clears with the last of them (R52). -/
def TileBlk.clearFaults (b : TileBlk) (v : Nat) : TileBlk :=
  let f := b.fault - (b.fault &&& (v % 2 ^ 13))
  if f = 0 then { b with fault := 0, faultPc := 0, faultSlot := 0, precise := false, faultGen := 0 } else { b with fault := f }

/-! ### Die network and glaze blocks (spec/05_glaze_and_die_network.md) -/

def State.dieReg (s : State) (d off : Nat) : Nat :=
  let r := s.die d
  if off = 0x00 then r.skipRow % 16 + 16 * b2n r.scrubEn
  else if off = 0x04 then min 0xFFFF r.dnSbe
  else if off = 0x08 then b2n r.dbeValid + place r.dbePlane 2 1 + place r.dbeLoc 8 3 + place (b2n r.dbeHdr) 1 11 + place r.dbeInput 3 12 + place r.dbeGen 16 16
  else if off = 0x0C then min 0xFFFF r.glzSbe
  else if off = 0x10 then b2n r.gdbeValid + 2 * b2n r.gdbeScrub + place r.gdbeSlice 8 2 + place r.gdbeWord 21 10
  else if off = 0x14 then min 0xFFFFFFFF r.scrubPass
  else 0

/-! ### Lake blocks (spec/06_lake_stacks.md) -/

def State.lakeReg (s : State) (k off : Nat) : Nat :=
  let st := s.stack k
  let banks := (st.spares.map (fun (e : Nat × Nat) => e.1 / 12288)).eraseDups
  if off = 0x00 then
    s.lake.mode % 4 + 4 * b2n st.zeroing + 8 * b2n ((List.range 32).all (fun c => (st.chan c).power == 2)) + 16 * b2n (decide (340 < st.temp)) + place (min 255 (st.temp / 4)) 8 5 + place st.gen 16 16
  else if off = 0x04 then b2n st.scrubEn + 2 * b2n st.spareEn
  else if off = 0x08 then min 0xFFFF st.sbe
  else if off = 0x0C then
    b2n st.dbeValid + 2 * b2n st.dbeScrub + place st.dbeCh 5 2 + place st.dbeBank 6 7 + place st.dbeRow 14 13 + place st.dbeOp 3 27
  else if off = 0x10 then st.dbeCol % 2 ^ 11 + place st.dbeGen 16 16
  else if off = 0x14 then min 0xFFFFFFFF ((List.range 32).foldl (fun m c => min m (st.chan c).passes) 0xFFFFFFFF)
  else if off = 0x18 then (banks.foldl (fun m b => max m (st.bankUsed b)) 0) % 64 + 64 * b2n st.exhausted + place st.spares.length 16 16
  else if off = 0x1C then min 0xFFFF st.idxSkip
  else if off = 0x20 then min 0xFFFF st.genDrop
  else if off = 0x24 then min 0xFFFF st.palRange
  else 0

/-! ### DMA blocks (spec/07_descriptor_dma.md) -/

def State.dmaReg (s : State) (c off : Nat) : Nat :=
  let v := s.ch c
  if off = 0x08 then v.next % 2 ^ 32
  else if off = 0x0C then v.next / 2 ^ 32 % 2 ^ 32
  else if off = 0x10 then s.dmaShown c + 8 * b2n v.pend + 16 * b2n v.fetchErr + place v.lastStatus 8 6 + place v.tagGen 16 16
  else if off = 0x14 then v.timeoutUs % 2 ^ 24
  else if off = 0x18 then min 0xFFFF v.nearMiss
  else if off = 0x1C then v.done % 2 ^ 32
  else if off = 0x20 then v.claim % 4
  else 0

/-! ### Link blocks (spec/08_stoith_links.md) -/

def State.linkReg (s : State) (l off : Nat) : Nat :=
  let k := s.link l
  if off = 0x00 then
    k.state % 8 + 8 * b2n k.lane0 + 16 * b2n k.lane1 + 32 * b2n k.carries_ + place (k.sch.getD 0) 3 6 + 512 * b2n k.planMismatch + 1024 * b2n k.queued + place k.claim 2 11
      + 8192 * b2n (k.state == 1 && k.fast)
  else if off = 0x04 then k.farId % 2 ^ 19 + place k.farPort 7 19
  else if off = 0x08 then k.farLpn % 2 ^ 15 + place (b2n k.farLpnValid) 1 15 + place k.farRole 2 16 + place k.farDev 8 18
  else if off = 0x0C then min 0xFFFFFFFF k.fecCorr
  else if off = 0x10 then min 0xFFFF k.badFrames + place (min 0xFFFF k.replays) 16 16
  else if off = 0x14 then k.fastRetrains % 256 + place k.fullTrains 8 8 + place k.handoffs 8 16 + place k.nearMiss 8 24
  else if off = 0x18 then toBits 16 k.asym
  else if off = 0x1C then k.genDrop % 2 ^ 16 + place k.misroute 16 16
  else if off = 0x20 then k.repeatDrop % 2 ^ 16
  else 0

/-! ### Power, reset and spare blocks (spec/12, 13 and 14) -/

def State.powerReg (s : State) (off : Nat) : Nat :=
  let p := s.pw
  if off = 0x00 then p.limit % 2 ^ 16 + place p.capHw 16 16
  else if off = 0x04 then place (p.run.getD 0 16) 5 0 + place (p.run.getD 1 16) 5 8 + place (p.run.getD 2 16) 5 16 + place (p.run.getD 3 16) 5 24
  else if off = 0x08 then p.k % 2 ^ 16 + place p.diverge 7 16
  else if off = 0x0C then p.measA % 2 ^ 16 + place p.measB 16 16
  else if off = 0x10 then place p.sheds 8 0 + place p.flows 8 8 + place p.leaks 8 16 + place p.sprints 8 24
  else if off = 0x14 then p.sprintMs % 2 ^ 32
  else 0

def State.resetReg (s : State) (off : Nat) : Nat :=
  if off = 0x00 then s.faults.lastReset % 16 + place s.faults.mordRestarts 8 8 + place s.faults.watchRestarts 8 16
  else if off = 0x04 then s.ctx.phase % 8 + place s.ctx.killCause 3 3 + place s.ctx.oldGen 16 16
  else if off = 0x08 then min 0xFFFF s.faults.tileDrop + place (min 0xFFFF s.faults.nackRx) 16 16
  else 0

def Spr.line (p : Spr) (k : Nat) : SprLine := Tab.get SprLine.zero p.lines k
def State.setLine (s : State) (k : Nat) (v : SprLine) : State := { s with spr := { s.spr with lines := Tab.set s.spr.lines k v } }

/-- Bytes of a member's slot (R424). -/
def Spr.slotBytes (p : Spr) : Nat := p.budget * 2 ^ 20

/-- A point of so many 4 KiB units is double-buffered (R433). -/
def Spr.double (p : Spr) (units : Nat) : Bool := decide (0 < units ∧ units * 4096 ≤ p.slotBytes / 2)

/-- The entry of the member on line `k`. -/
def Spr.entryOf (p : Spr) (k : Nat) : Option (Nat × Member) :=
  (((List.range p.members.length).zip p.members).find? (fun (e : Nat × Member) => e.2.line == k))

/-- `HB_ACK_IN[k]` has shown an edge in the last 5 ms. -/
def State.waveIn (s : State) (k : Nat) : Bool :=
  match (s.spr.line k).lastB with
  | some a => decide (s.time.now ≤ a + 5 * ms)
  | none => false

def State.sprReg (s : State) (off : Nat) : Nat :=
  let p := s.spr
  if off = 0x00 then
    p.state % 8 + 8 * b2n p.displaced + 16 * b2n p.fenceFail + 32 * b2n p.multiSilent + 64 * b2n s.hbRuns + place p.group 8 8 + place (if p.role = 2 then p.members.length else 0) 5 16
  else if off = 0x04 then p.fenceOut % 2 ^ 18
  else if off = 0x08 then maskOf ((List.range 18).filter s.waveIn)
  else if off = 0x10 then p.txPoint % 2 ^ 32
  else if off = 0x14 then p.txUnits % 2 ^ 32
  else if off = 0x18 then p.hbSeq % 2 ^ 32
  else if off = 0x1C then place p.takeovers 8 0 + place p.fenceFails 8 8 + place p.mirRefused 16 16
  else if 0x100 ≤ off ∧ off < 0x220 then
    let k := (off - 0x100) / 16
    let l := p.line k
    let e := p.entryOf k
    let q := off % 16
    if q = 0 then
      (match e with
       | some (_, m) => m.lpn % 2 ^ 15 + 2 ^ 15
       | none => 0)
        + 2 ^ 16 * b2n l.armed + 2 ^ 17 * b2n l.aOk + 2 ^ 18 * b2n l.bOk + 2 ^ 19 * b2n (p.double l.units) + place ((e.map Prod.fst).getD 0) 5 20
    else if q = 4 then l.lastPoint % 2 ^ 32
    else if q = 8 then l.curPoint % 2 ^ 32
    else l.bytes / 4096 % 2 ^ 32
  else 0

/-! ### The map -/

/-- A block of the register map with the unit in it and the offset. -/
inductive RegAt where
  | tile (pti off : Nat)
  | die (d off : Nat)
  | lake (k off : Nat)
  | dma (c off : Nat)
  | link (l off : Nat)
  | route (lpn : Nat)
  | unreach (h off : Nat)
  | power (off : Nat)
  | reset (off : Nat)
  | spare (off : Nat)
  | fw (off : Nat)
  | none_
  deriving DecidableEq, Repr

/-- The register at a local address. -/
def regAt (a : Nat) : RegAt :=
  if 0x1F040000000 ≤ a ∧ a < 0x1F040000000 + 624 * 0x1000 then .tile ((a - 0x1F040000000) / 0x1000) (a % 0x1000)
  else if 0x1F050000000 ≤ a ∧ a < 0x1F050040000 then .die ((a - 0x1F050000000) / 0x10000) (a % 0x10000)
  else if 0x1F060000000 ≤ a ∧ a < 0x1F060080000 then .lake ((a - 0x1F060000000) / 0x10000) (a % 0x10000)
  else if 0x1F070000000 ≤ a ∧ a < 0x1F070010000 then .dma ((a - 0x1F070000000) / 0x1000) (a % 0x1000)
  else if 0x1F080000000 ≤ a ∧ a < 0x1F080060000 then .link ((a - 0x1F080000000) / 0x1000) (a % 0x1000)
  else if 0x1F081000000 ≤ a ∧ a < 0x1F081020000 then .route ((a - 0x1F081000000) / 4)
  else if 0x1F082000000 ≤ a ∧ a < 0x1F082002000 then .unreach ((a - 0x1F082000000) / 0x1000) (a % 0x1000)
  else if 0x1F0A0000000 ≤ a ∧ a < 0x1F0A0010000 then .power (a - 0x1F0A0000000)
  else if 0x1F0B0000000 ≤ a ∧ a < 0x1F0B0010000 then .reset (a - 0x1F0B0000000)
  else if 0x1F0C0000000 ≤ a ∧ a < 0x1F0C0010000 then .spare (a - 0x1F0C0000000)
  else if 0x1F0D0000000 ≤ a ∧ a < 0x1F0D0010000 then .fw (a - 0x1F0D0000000)
  else .none_

/-- The value a register reads. -/
def State.regValue (s : State) (a : Nat) : Nat :=
  match regAt a with
  | .tile p off => s.tileReg p off
  | .die d off => s.dieReg d off
  | .lake k off => s.lakeReg k off
  | .dma c off => s.dmaReg c off
  | .link l off => s.linkReg l off
  | .route lpn => Tab.get 0 s.st.routes lpn % 2 ^ 24
  | .unreach h off => if off = 0 then min 0xFFFF (Tab.get 0 s.st.unreach h) else 0
  | .power off => s.powerReg off
  | .reset off => s.resetReg off
  | .spare off => s.sprReg off
  | .fw off => s.fwReg off
  | .none_ => 0

/-- What an RC field keeps of a read: the events of the read's own clock cycle (R11). -/
def rcKeep (x same : Nat) : Nat := min x same

/-- What a read clears: the RC fields of the register (R10). `same` holds, in the places of the fields, the events of the read's own clock cycle: the field keeps them (R11). -/
def State.regClear (s : State) (a same : Nat) : State :=
  let lo := fld same 15 0
  let hi := fld same 31 16
  match regAt a with
  | .tile p off =>
    if off = 0x10 then s.setBlk p (fun b => { b with sbe := rcKeep b.sbe lo })
    else if off = 0x14 then s.setBlk p (fun b => { b with lateWake := rcKeep b.lateWake lo })
    else if off = 0x24 then s.setBlk p (fun b => { b with nearMiss := rcKeep b.nearMiss lo })
    else s
  | .die d off =>
    if off = 0x04 then s.setDie d { s.die d with dnSbe := rcKeep (s.die d).dnSbe lo }
    else if off = 0x0C then s.setDie d { s.die d with glzSbe := rcKeep (s.die d).glzSbe lo }
    else s
  | .lake k off =>
    let st := s.stack k
    if off = 0x08 then s.setStack k { st with sbe := rcKeep st.sbe lo }
    else if off = 0x1C then s.setStack k { st with idxSkip := rcKeep st.idxSkip lo }
    else if off = 0x20 then s.setStack k { st with genDrop := rcKeep st.genDrop lo }
    else if off = 0x24 then s.setStack k { st with palRange := rcKeep st.palRange lo }
    else s
  | .dma c off => if off = 0x18 then s.setCh c { s.ch c with nearMiss := rcKeep (s.ch c).nearMiss lo } else s
  | .link l off =>
    let k := s.link l
    if off = 0x0C then s.setLink l { k with fecCorr := rcKeep k.fecCorr same }
    else if off = 0x10 then s.setLink l { k with badFrames := rcKeep k.badFrames lo, replays := rcKeep k.replays hi }
    else if off = 0x14 then s.setLink l { k with
      fastRetrains := rcKeep k.fastRetrains (fld same 7 0), fullTrains := rcKeep k.fullTrains (fld same 15 8)
      handoffs := rcKeep k.handoffs (fld same 23 16), nearMiss := rcKeep k.nearMiss (fld same 31 24) }
    else if off = 0x1C then s.setLink l { k with genDrop := rcKeep k.genDrop lo, misroute := rcKeep k.misroute hi }
    else if off = 0x20 then s.setLink l { k with repeatDrop := rcKeep k.repeatDrop lo }
    else s
  | .unreach h off => if off = 0 then { s with st := { s.st with unreach := Tab.put 0 s.st.unreach h (rcKeep (Tab.get 0 s.st.unreach h) lo) } } else s
  | .power off => if off = 0x10 then { s with pw := { s.pw with
      sheds := rcKeep s.pw.sheds (fld same 7 0), flows := rcKeep s.pw.flows (fld same 15 8), leaks := rcKeep s.pw.leaks (fld same 23 16), sprints := rcKeep s.pw.sprints (fld same 31 24) } } else s
  | .reset off =>
    if off = 0x00 then { s with faults := { s.faults with mordRestarts := rcKeep s.faults.mordRestarts (fld same 15 8), watchRestarts := rcKeep s.faults.watchRestarts (fld same 23 16) } }
    else if off = 0x08 then { s with faults := { s.faults with tileDrop := rcKeep s.faults.tileDrop lo, nackRx := rcKeep s.faults.nackRx hi } }
    else s
  | .spare off => if off = 0x1C then { s with spr := { s.spr with takeovers := rcKeep s.spr.takeovers (fld same 7 0), fenceFails := rcKeep s.spr.fenceFails (fld same 15 8), mirRefused := rcKeep s.spr.mirRefused hi } } else s
  | .route _ => s
  | .fw _ => s
  | .none_ => s

/-- The value a read returns: without the events of its own cycle (R11). -/
def State.regShown (s : State) (a same : Nat) : Nat := s.regValue a - ((s.regClear a same).regValue a - (s.regClear a 0).regValue a)

/-- `n` words from a register address on: each is read and its RC fields cleared (R337). `same` gives for each word the events of the cycle of its read. -/
def State.regRead (s : State) (a : Nat) (same : List Nat) : Nat → State × List Nat
  | 0 => (s, [])
  | n + 1 =>
    let r := (s.regClear a (same.headD 0)).regRead (a + 4) same.tail n
    (r.1, s.regShown a (same.headD 0) :: r.2)

/-- A half of `DMA_NEXT` written through the channel's block (R236). -/
def State.dmaNext (s : State) (c : Nat) (hi : Bool) (v : Nat) : State :=
  let x := s.ch c
  if !s.dmaPaused ∧ (x.state = 0 ∨ x.state = 3) then
    s.setCh c { x with next := if hi then x.next % 2 ^ 32 + place v 32 32 else x.next / 2 ^ 32 * 2 ^ 32 + v % 2 ^ 32 }
  else s

/-- What a write does: RW fields are stored, W1C bits cleared, and every other field stands (R9, R10). WO fields have rows of their own. -/
def State.regWrite (s : State) (a v : Nat) : State :=
  match regAt a with
  | .tile p off =>
    if off = 0x04 then s.setBlk p (fun b => b.clearFaults v)
    else if off = 0x0C then s.setBlk p (fun b => { b with chk := v % 8 })
    else s
  | .die d off =>
    let r := s.die d
    if off = 0x00 then s.setDie d { r with scrubEn := bitAt v 4 }
    else if off = 0x08 then s.setDie d { r with dbeValid := r.dbeValid && !bitAt v 0 }
    else if off = 0x10 then s.setDie d { r with gdbeValid := r.gdbeValid && !bitAt v 0 }
    else s
  | .lake k off =>
    let st := s.stack k
    if off = 0x04 then s.setStack k { st with scrubEn := bitAt v 0, spareEn := bitAt v 1 }
    else if off = 0x0C then s.setStack k { st with dbeValid := st.dbeValid && !bitAt v 0 }
    else if off = 0x18 then s.setStack k { st with exhausted := st.exhausted && !bitAt v 6 }
    else s
  | .dma c off =>
    if off = 0x08 then s.dmaNext c false v
    else if off = 0x0C then s.dmaNext c true v
    else if off = 0x14 then s.setCh c { s.ch c with timeoutUs := v % 2 ^ 24 }
    else s
  | .route lpn => { s with st := { s.st with routes := Tab.put 0 s.st.routes lpn (v % 2 ^ 24) } }
  | .spare off =>
    if off = 0x00 then { s with spr := { s.spr with fenceFail := s.spr.fenceFail && !bitAt v 4, multiSilent := s.spr.multiSilent && !bitAt v 5 } }
    else if off = 0x10 then { s with spr := { s.spr with txPoint := v % 2 ^ 32 } }
    else if off = 0x14 then { s with spr := { s.spr with txUnits := v % 2 ^ 32 } }
    else s
  | .link _ _ => s
  | .unreach _ _ => s
  | .power _ => s
  | .reset _ => s
  | .fw _ => s
  | .none_ => s

/-- Whether a register has an RW or W1C field, so that a debug write may reach it (R466). -/
def regWritable (a : Nat) : Bool :=
  match regAt a with
  | .tile _ off => off == 0x04 || off == 0x0C
  | .die _ off => off == 0x00 || off == 0x08 || off == 0x10
  | .lake _ off => off == 0x04 || off == 0x0C || off == 0x18
  | .dma _ off => off == 0x08 || off == 0x0C || off == 0x14
  | .route _ => true
  | .spare off => off == 0x00 || off == 0x10 || off == 0x14
  | _ => false

end Sys2Proof.Machine
end

