-- ==== Sys2Proof/Machine/Mirror.lean ====
section
/-!
DEFINITION. The status mirror (R304 to R308): what each record shows, and its writing to host memory.
-/
namespace Sys2Proof.Machine

def zeros (n : Nat) : List Byte := List.replicate n 0#8

/-- `LPN` with `LPN_VALID`. -/
def State.lpnWord (s : State) : Nat := s.lpn % 2 ^ 15 + 2 ^ 15 * b2n s.pkg.lpnValid

/-- `PID` with `ROLE_SPARE`. -/
def State.pidWord (s : State) : Nat := s.pid % 2 ^ 19 + 2 ^ 19 * b2n s.pkg.role

/-- The identifier of the accepted context; 0 when none. -/
def State.ctxIdShown (s : State) : Nat := if s.ctx.accepted then s.ctx.id else 0

/-- The four caps (R327). -/
def State.capBytes (s : State) : List Byte := leBytes 2 s.capEff ++ leBytes 2 s.m.capHost ++ leBytes 2 s.m.capMgr ++ leBytes 2 s.pw.capHw

/-- Temperatures in °C: hottest junction, inlet, outlet. -/
def State.tempBytes (s : State) : List Byte :=
  leBytes 1 (min 255 (s.pw.hottest / 4)) ++ leBytes 1 (min 255 (s.pw.inlet / 4)) ++ leBytes 1 (min 255 (s.pw.outlet / 4)) ++ [0#8]

def State.coolantBytes (s : State) : List Byte := leBytes 2 (min 0xFFFF (s.flowQ.getD 0)) ++ leBytes 2 (min 0xFFFF s.pw.pressure)

/-- The bytes at 0x0C4 to 0x0E3 of the page, which `POWER_GET` returns too. -/
def State.powerBytes (s : State) : List Byte :=
  s.capBytes ++ leBytes 2 (min 0xFFFF s.pw.meas) ++ leBytes 2 (min 0xFFFF s.pw.est) ++ leBytes 4 s.powerFlags ++ s.tempBytes ++ s.coolantBytes ++ leBytes 4 s.pw.sprintMs
    ++ leBytes 4 s.logs.orders.length

/-- The rack manager is present: heard within the 10 s of R319. -/
def State.mgrPresent (s : State) : Bool :=
  match s.m.mgrHeard with
  | some a => decide (s.time.now < a + 10000 * ms)
  | none => false

def State.mgrAttached (s : State) : Bool :=
  match s.cfg.image with
  | some im => im.mgr
  | none => false

/-- The time from which the manager's absence counts: the last datagram heard (R319), or the acceptance of the image where that is later and declares a manager (R374). -/
def State.absentFrom (s : State) : Nat :=
  if s.mgrAttached then max (s.m.mgrFrom.getD 0) (s.m.mgrHeard.getD 0) else s.m.mgrHeard.getD 0

/-- `MGR_ABSENT_MS`. -/
def State.absentMs (s : State) : Nat := if s.mgrPresent then 0 else min 0xFFFFFFFF ((s.time.now - s.absentFrom) / ms)

/-- The tray controller is present on I3C: a completed command within 30 s (R315). -/
def State.i3cPresent (s : State) : Bool :=
  match s.m.i3cAt with
  | some a => decide (s.time.now < a + 30000 * ms)
  | none => false

/-- `DEBUG_FLAGS` (R464). -/
def State.debugFlags (s : State) : Nat := b2n s.pertOn + 2 * b2n s.debugOn + 4 * b2n s.pert.strapLow

/-- `SPARE_LPN`: the LPN of the member taken over, or of the first member watched; a member shows its spare's. -/
def State.spareLpn (s : State) : Nat :=
  match (if s.spr.state = 3 ∨ s.spr.state = 4 ∨ s.spr.role = 0 then s.spr.takenLpn else none) with
  | some x => x
  | none => match s.spr.members with
    | m :: _ => m.lpn
    | [] => 0

/-- `MIRROR_MIB`: data of the current point copied so far. -/
def State.mirrorMib (s : State) : Nat :=
  if s.spr.role = 2 then (s.spr.members.foldl (fun n m => n + (s.spr.line m.line).bytes) 0) / 2 ^ 20 else (s.spr.txDone + (match (s.ch 15).cur with
    | some d => if d.chain then d.bytesDone else 0
    | none => 0)) / 2 ^ 20

def pairNibbles : List Nat → List Byte
  | a :: b :: r => BitVec.ofNat 8 (a % 16 + b % 16 * 16) :: pairNibbles r
  | _ => []

/-- The 56 bytes of a record between its two `REC_SEQ` (R307). -/
def State.recordBody (s : State) (r : Nat) : List Byte :=
  match r with
  | 0 =>
    leBytes 4 0x901 ++ leBytes 4 s.h.heartbeat ++ leBytes 1 s.shown ++ leBytes 1 s.reasonShown ++ leBytes 2 s.ctx.gen ++ leBytes 4 s.ctxIdShown ++ leBytes 2 s.lpnWord ++ zeros 2
      ++ leBytes 4 s.pidWord ++ leBytes 8 s.time.ft ++ zeros 24
  | 1 =>
    leBytes 1 s.seq.runState ++ leBytes 1 (b2n (s.ctx.killCause != 0) + 2 * b2n s.seq.runLate + 4 * b2n s.seq.runNear) ++ leBytes 2 s.ctx.abortOrigin ++ leBytes 4 s.ctx.abortCtxId
      ++ leBytes 2 s.ctx.killCause ++ leBytes 2 s.seq.run.length ++ leBytes 2 s.seq.done.length ++ leBytes 2 s.seq.lastStep ++ leBytes 4 s.seq.runsEnded
      ++ leBytes 4 (min 0xFFFFFFFF s.seq.lateStarts) ++ leBytes 8 s.seq.lastFt ++ zeros 24
  | 2 =>
    let f := s.faults
    leBytes 4 f.sticky ++ leBytes 2 f.firstFault ++ leBytes 2 f.firstTid ++ leBytes 2 f.firstTileFault ++ leBytes 2 f.firstStepId ++ leBytes 8 f.firstFt ++ leBytes 4 f.count
      ++ leBytes 4 (min 0xFFFFFFFF f.sbeTotal) ++ zeros 28
  | 3 => s.powerBytes ++ zeros 24
  | 4 =>
    leBytes 4 s.ftState ++ leBytes 4 s.holdoverMs ++ leBytes 4 (s.timeReg 0x200C) ++ leBytes 4 (b2n s.mgrPresent + 2 * b2n s.i3cPresent) ++ leBytes 4 s.absentMs ++ zeros 36
  | 5 =>
    ((List.range 4).flatMap (fun n =>
      let m := s.mbx n
      leBytes 2 m.cons ++ leBytes 2 m.lastStatus ++ leBytes 4 m.lastSeq ++ leBytes 2 m.lastOp ++ leBytes 1 (b2n m.busy + 2 * b2n m.handover) ++ [0#8])) ++ leBytes 4 s.m.mmbDone ++ zeros 4
  | 6 =>
    ((List.range 16).flatMap (fun c =>
      let v := s.ch c
      leBytes 2 (s.dmaShown c + 8 * b2n v.pend + place v.lastStatus 8 4 + place v.claim 2 12))) ++ leBytes 4 ((List.range 16).foldl (fun n c => n + (s.ch c).done) 0) ++ zeros 20
  | 7 =>
    pairNibbles (allLinks.map (fun l => (s.link l).state)) ++ leBytes 2 (maskOf ((List.range 12).filter (fun o => (s.octet o).short)))
      ++ leBytes 2 (allLinks.filter (fun l => (s.link l).state == 4)).length ++ leBytes 4 s.st.handoffs
  | 8 =>
    leBytes 1 s.spr.state ++ leBytes 1 s.spr.group ++ leBytes 2 s.spareLpn ++ leBytes 4 s.mirrorMib ++ leBytes 4 s.fw.flags ++ leBytes 4 s.leaseS ++ leBytes 4 s.debugFlags ++ zeros 36
  | _ => zeros 56

/-- A record with its `REC_SEQ` at both ends (R305); the records in reserve are zero throughout. -/
def State.recordBytes (s : State) (r : Nat) : List Byte :=
  let q := Tab.get 0 s.h.recSeq r
  if 9 ≤ r then zeros 64 else leBytes 4 q ++ (s.recordBody r).take 56 ++ leBytes 4 q

/-- Write a record: one aligned 64-byte write, with `REC_SEQ` one higher; nothing is written while the link is down (R290). -/
def State.writeRecord (s : State) (r : Nat) : State :=
  if !s.h.linkUp then s
  else
    let s1 := { s with h := { s.h with recSeq := Tab.set s.h.recSeq r ((Tab.get 0 s.h.recSeq r + 1) % 2 ^ 32) } }
    { s1 with h := { s1.h with mem := Mem.store s1.h.mem (s1.h.smAddr + 64 * r) (s1.recordBytes r) } }

/-- The whole page. -/
def State.writePage (s : State) : State := (List.range 64).foldl State.writeRecord s

end Sys2Proof.Machine
end

