-- ==== Sys2Proof/Machine/Host.lean ====
section
/-!
DEFINITION. The CXL port: configuration, link, resets, BAR0, BAR2, the HDM window, doorbells and the status mirror (R287 to R307). What the host reads goes to channel 7: a value, the bytes of
a BAR2 read, or status 1 for Unsupported Request and 2 for poisoned data; channel 11 answers configuration requests.
-/
namespace Sys2Proof.Machine

/-! ### Error reporting (R289) -/

/-- A read that is not supported: its completion says so, and it is reported. -/
def State.urRead (s : State) : State := (s.aer aerUr).emit 7 1

/-- A posted write that is not supported: advisory. -/
def State.urWrite (s : State) : State := s.aer aerAdvisory

/-! ### Configuration and the link (R287, R288) -/

/-- The port answers from the rise of `PERST_N` on, once the watch domain and H-die 0 have power (R288). -/
def State.portUp (s : State) : Bool := s.h.cfgReady && s.booted && s.pkg.hPower

/-- The status register that counts of errors stand for: `base` is 0 for the uncorrectable ones, 100 for the correctable ones. -/
def State.aerStatus (s : State) (base : Nat) : Nat := maskOf ((List.range 32).filter (fun b => Tab.get 0 s.h.aer (base + b) != 0))

/-- `Memory_Active`: every stack has trained and not lost power since, and CXL.mem is there (R294). -/
def State.memActive (s : State) : Bool := s.pkg.lakeTrained

/-- The code that PCI Express gives a rate. -/
def speedCode (r : Nat) : Nat := if r = 128 then 7 else if r = 64 then 6 else if r = 32 then 5 else 0

/-- A register of configuration space. What the spec states shows over what the last write left: Device ID, Revision ID and class code; a 64-bit non-prefetchable BAR0 of 64 KiB and a
64-bit prefetchable BAR2 of 16 MiB and no other; Interrupt Pin 0; a capability list of PCI Express and power management alone, so no MSI or MSI-X; no FLR, no ASPM, D0 only; AER; and
the CXL DVSEC with one HDM range of 384 GiB and no further capability, so no SR-IOV and no IDE; one function; Flit Mode Supported; link speeds of 32, 64 and 128 GT/s alone; no ECRC, no Viral
(R287 to R289, R294). The places are those of PCI Express and CXL, the capabilities stand where log entry 16 says. -/
def State.cfgValue (s : State) (r : Nat) : Nat :=
  let w := Tab.get 0 s.h.space r
  let v := Config.cfgReg r w
  if r = 0 then v % 2 ^ 16 + 0x09600000
  else if r = 4 then v / 2 ^ 21 * 2 ^ 21 + 2 ^ 20 + v % 2 ^ 20
  else if r = 8 then 0x120000B0
  else if r = 0x0C then v / 2 ^ 24 * 2 ^ 24 + v % 2 ^ 16
  else if r = 0x10 then w / 2 ^ 16 * 2 ^ 16 + 4
  else if r = 0x18 then w / 2 ^ 24 * 2 ^ 24 + 12
  else if r = 0x14 ∨ r = 0x1C then w
  else if r = 0x20 ∨ r = 0x24 then 0
  else if r = 0x34 then v / 2 ^ 8 * 2 ^ 8 + 0x40
  else if r = 0x3C then v / 2 ^ 16 * 2 ^ 16 + v % 2 ^ 8
  else if r = 0x40 then 0x80028010
  else if r = 0x44 then v / 2 ^ 29 * 2 ^ 29 + v % 2 ^ 28
  else if r = 0x48 then w % 2 ^ 15
  else if r = 0x4C then v / 2 ^ 12 * 2 ^ 12 + 16 * 16 + 7
  else if r = 0x50 then w / 4 * 4 % 2 ^ 16 + (if s.h.linkUp then place (speedCode s.h.rate) 4 16 + place s.h.width 6 20 else 0)
  else if r = 0x6C then v / 2 ^ 8 * 2 ^ 8 + 0xE0
  else if r = 0x80 then 0x00030001
  else if r = 0x84 then v / 4 * 4
  else if r = 0x100 then 0x15020001
  else if r = 0x104 then s.aerStatus 0
  else if r = 0x108 ∨ r = 0x114 then w
  else if r = 0x10C then s.aerSeverity
  else if r = 0x110 then s.aerStatus 100
  else if r = 0x118 then v / 2 ^ 9 * 2 ^ 9 + v % 2 ^ 5
  else if r = 0x150 then 0x00010023
  else if r = 0x154 then v / 2 ^ 16 * 2 ^ 16 + 0x1E98
  else if r = 0x158 then (if s.h.cxl then place 0x16 6 16 else place 2 6 16) + place (v / 2 ^ 23) 7 23 + place (v / 2 ^ 31) 1 31
  else if r = 0x168 then 0x60
  else if r = 0x16C then 1 + 2 * b2n s.memActive + place (v / 4) 26 2
  else v

/-- A write of configuration space: bits written as 1 to an error status register are cleared, other registers are kept. -/
def State.cfgWrite (s : State) (r v : Nat) : State :=
  let clear := fun (base : Nat) => { s with h := { s.h with aer := s.h.aer.filter (fun e => !(decide (base ≤ e.1) && decide (e.1 < base + 32) && bitAt v (e.1 - base))) } }
  if r = 0x104 then clear 0
  else if r = 0x110 then clear 100
  else { s with h := { s.h with space := Tab.set s.h.space r (v % 2 ^ 32) } }

/-- A configuration request, answered once the port is up (R288). -/
def execConfigRequest (write : Bool) (reg v t : Nat) (s : State) : Out1 :=
  let s0 := s.advance t
  let r := reg / 4 * 4
  if !s0.portUp then ok s0
  else if write then ok ((s0.cfgWrite r v).emit 11 0)
  else ok (s0.emit 11 (s0.cfgValue r % 2 ^ 32))

/-- The highest of a list, highest first, that the far end supports. -/
def bestOf (l : List Nat) (far : Nat) : Option Nat := l.find? (fun x => decide (x ≤ far))

/-- The port trains to the highest rate and width that both ends support, as CXL or, where negotiation does not yield it, as PCI Express (R287, R288). -/
def execCxlLinkTrain (cxl : Bool) (rate width t : Nat) (s : State) : Out1 :=
  let s0 := s.advance t
  if !s0.portUp ∨ s0.h.perst then ok s0
  else
    match bestOf [128, 64, 32] rate, bestOf [16, 8, 4] width with
    | some r, some w => ok { s0 with h := { s0.h with linkUp := true, cxl := cxl, rate := r, width := w } }
    | _, _ => ok s0

/-- HDM requests in flight are discarded (R290). -/
def State.dropHdm (s : State) : State :=
  let isHost := fun (p : Pkt) => match p.asker with
    | .host _ => true
    | _ => false
  let ids := (s.net.pkts.filter isHost).map Pkt.id
  let s1 := { s with net := { s.net with pkts := s.net.pkts.filter (fun p => !isHost p) } }
  (List.range 8).foldl (fun (u : State) k =>
    let st := u.stack k
    let keep := fun (l : List Nat) => l.filter (fun i => !ids.contains i)
    u.setStack k { st with waitQ := keep st.waitQ, heldQ := keep st.heldQ }) s1

def execCxlLinkDown (t : Nat) (s : State) : Out1 :=
  let s0 := s.advance t
  ok { s0 with h := { s0.h with linkUp := false } }.dropHdm

/-! ### PERST_N and hot reset (R290, R291) -/

/-- A `HOST` channel at a reset of the port: its host requests fail at once, and its descriptor completes with `DMA_S_HOST`, where a stop drains too; a descriptor read from host memory fails. -/
def State.dmaPortReset (s : State) (c : Nat) : State :=
  let v := s.ch c
  if v.claim ≠ 1 then s
  else
    let reading := v.fetching && v.reqs.any (fun r => r.host && r.what == 1)
    let s1 := s.setCh c { v with reqs := v.reqs.filter (fun r => !r.host), shadow := none, stopReq := false }
    match v.cur with
    | some _ => (s1.dmaFail c 3).dmaCheck c
    | none => if reading then s1.dmaFetchFail c 3 else s1

/-- A host mailbox after a reset of the port: commands not begun are discarded, and one being executed, of opcode `op`, goes on without an answer. -/
def Mbx.portReset (m : Mbx) (op : Nat) : Mbx := { m with ghost := if m.busy then some op else m.ghost, prod := 0, cons := 0, busy := false, prodErr := false, nearMiss := 0, regs := [], hoHidden := m.handover }

/-- What `PERST_N` and a hot reset clear (R290). The link trains again. -/
def State.portReset (s : State) : State :=
  let s1 := { s with h := { s.h with
    linkUp := false, space := [], comp := [], hdmBase := 0, hdmSize := 0, hdmCommit := false, hdmLock := false, aer := [], ras := 0, rasStat := 0, slotOld := [],
    mbx := s.h.mbx.map (fun (e : Nat × Mbx) => if e.1 < 4 then (e.1, e.2.portReset (s.slotF e.1 0 2)) else e), smAddr := 0, smEn := false, smActive := false } }
  let s2 := s1.dropHdm
  (List.range 16).foldl State.dmaPortReset s2

def execPerstN (t : Nat) (s : State) : Out1 :=
  let s0 := s.advance t
  ok { s0.portReset with h := { s0.portReset.h with perst := true, cfgReady := false } }

def execHotReset (t : Nat) (s : State) : Out1 := ok (s.advance t).portReset

/-- `PERST_N` deasserts: the presence of the reference clock is detected, and the port comes up as soon as the watch domain and H-die 0 have power (R288, R483). -/
def execPerstNDeassert (refclk : Bool) (t : Nat) (s : State) : Out1 :=
  let s0 := s.advance t
  ok { s0 with h := { s0.h with perst := false, refclk := refclk, cfgReady := true } }

/-! ### BAR2 (R293) -/

/-- A byte of BAR2 that is SRAM: a ring or a staging region. -/
def bar2Backed (a : Nat) : Bool := decide (a < 0x10000) || (decide (0x100000 ≤ a) && decide (a < 0x1000000))

/-- The slot at BAR2 address `a` is registered and `CONS` has not passed it (R298). -/
def State.slotTaken (s : State) (a : Nat) : Bool :=
  let m := s.mbx (a / 0x4000)
  decide (a < 0x10000) && decide ((a / 256 % 64 + 64 - m.cons % 64) % 64 < (m.prod + 65536 - m.cons) % 65536)

/-- The host writes a registered slot: the package uses either copy, the one before the write or the one after it (R298). -/
def State.keepSlot (s : State) (a : Nat) : State :=
  let b := a / 256 * 256
  if !s.slotTaken a then s
  else if Config.slotNew a s.time.now then { s with h := { s.h with slotOld := Tab.del s.h.slotOld b } }
  else
    match Tab.find s.h.slotOld b with
    | some _ => s
    | none => { s with h := { s.h with slotOld := Tab.set s.h.slotOld b (Mem.bytes s.h.ram b 256) } }

/-- A host access to BAR2. `ups` are upsets that have struck SRAM words before it. -/
def execBar2Access (write : Bool) (addr len : Nat) (data : BitVec 2048) (poisoned : Bool) (ups : List (Nat × Nat)) (t : Nat) (s : State) : Out1 :=
  let s00 := s.advance t
  let s0 := { s00 with h := { s00.h with ramFlips := strike s00.h.ramFlips ups } }
  if !s0.h.linkUp then ok s0
  else if len = 0 ∨ 256 < len ∨ 0x1000000 < addr + len ∨ addr / 256 ≠ (addr + len - 1) / 256 then ok (if write then s0.urWrite else s0.urRead)
  else if write then
    if poisoned then ok (s0.aer aerPoisoned)
    else if !bar2Backed addr then ok s0
    else
      let bs := (leBytes 256 data.toNat).take len
      let s1 := s0.keepSlot addr
      ok { s1 with h := { s1.h with ram := Mem.store s1.h.ram addr bs, ramFlips := clearFlips s1.h.ramFlips addr len } }
  else if !bar2Backed addr then ok (s0.emitBytes 7 (zeros len))
  else
    let lo := addr / 4 * 4
    let ws := eccWords s0.h.ram s0.h.ramFlips lo ((addr + len - lo + 3) / 4)
    let ring := decide (addr < 0x10000)
    let s1 := if ring && ws.any Ecc.isFixed then s0.aer aerCorrected else s0
    let n := (ws.filter Ecc.isFixed).length
    let s2 := { s1 with faults := { s1.faults with sbeTotal := s1.faults.sbeTotal + n } }
    if ws.any Ecc.isDbe then ok ((if ring then s2.aer aerInternal else s2).emit 7 2)
    else ok (s2.emitBytes 7 (((eccBytes ws).drop (addr - lo)).take len))

/-! ### BAR0 (R292) -/

/-- `HOST_ID`: firmware numbers show from the start of the Mordant complex on (R343). -/
def State.hostId (s : State) : Nat :=
  0xB009 + (if s.pkg.bootOk then place (fwVersion s.fw.runImage % 256) 8 16 + place (fwVersion s.fw.runImage / 256 % 256) 8 24 else 0)

/-- Where the component registers stand in BAR0 (log entry 61): the CXL capability header, the RAS capability and the HDM decoder capability. -/
def compHdr : Nat := 0x9000
def rasCap : Nat := 0x9100
def hdmCap : Nat := 0x9200

/-- A component register (R288, R289, R292, R294): without CXL the header names no HDM decoder capability, and its registers read zero. -/
def State.compReg (s : State) (off : Nat) : Nat :=
  let w := Tab.get 0 s.h.comp off
  if off = compHdr then 0x00110001 + place (if s.h.cxl then 3 else 2) 8 24
  else if off = compHdr + 4 then 0x10010002
  else if off = compHdr + 8 then 0x18010004
  else if off = compHdr + 12 then (if s.h.cxl then 0x20010005 else 0)
  else if off = rasCap then s.h.rasStat
  else if hdmCap ≤ off ∧ off < hdmCap + 0x2C then
    (if !s.h.cxl ∨ off = hdmCap then 0
     else if off = hdmCap + 0x10 ∨ off = hdmCap + 0x18 then w / 2 ^ 28 * 2 ^ 28
     else if off = hdmCap + 0x20 then w / 2 ^ 12 * 2 ^ 12 + w % 2 ^ 10 + 2 ^ 10 * b2n s.h.hdmCommit + 2 ^ 11 * b2n (bitAt w 9 && !s.h.hdmCommit)
     else w)
  else Config.cfgReg off w

/-- A register of BAR0. -/
def State.bar0 (s : State) (off : Nat) : Nat :=
  if off = 0 then s.hostId
  else if off = 4 then s.pidWord
  else if off = 8 then s.shown + place s.ctx.gen 16 16
  else if off = 0xC then s.h.heartbeat
  else if 0x100 ≤ off ∧ off < 0x140 then
    let m := s.mbx ((off - 0x100) / 16)
    if off % 16 = 0 then m.prod
    else if off % 16 = 4 then m.cons
    else if off % 16 = 8 then b2n m.busy + 2 * b2n m.prodErr + 4 * b2n (m.handover && !m.hoHidden) + place m.nearMiss 16 16
    else 0
  else if off = 0x200 then s.h.smAddr % 2 ^ 32
  else if off = 0x204 then s.h.smAddr / 2 ^ 32 % 2 ^ 32
  else if off = 0x208 then b2n s.h.smEn + 2 * b2n s.h.smActive
  else if 0x2000 ≤ off ∧ off < 0x2100 then s.timeReg off
  else if 0x4000 ≤ off ∧ off < 0x5000 then s.dmaReg ((off - 0x4000) / 0x100) (off % 0x100)
  else if 0x8000 ≤ off then s.compReg off
  else 0

/-- What a read of a BAR0 register clears; events of its own cycle stay (R11). -/
def State.bar0Clear (s : State) (off same : Nat) : State :=
  if 0x100 ≤ off ∧ off < 0x140 ∧ off % 16 = 8 then
    let n := (off - 0x100) / 16
    s.setMbx n { s.mbx n with nearMiss := rcKeep (s.mbx n).nearMiss (fld same 31 16) }
  else if 0x4000 ≤ off ∧ off < 0x5000 ∧ off % 0x100 = 0x18 then
    let c := (off - 0x4000) / 0x100
    s.setCh c { s.ch c with nearMiss := rcKeep (s.ch c).nearMiss (fld same 15 0) }
  else s

/-- The value a read of a BAR0 register returns: without the events of its own cycle (R11). -/
def State.bar0Shown (s : State) (off same : Nat) : Nat := s.bar0 off - ((s.bar0Clear off same).bar0 off - (s.bar0Clear off 0).bar0 off)

/-- A read of a register, by the host in BAR0 or by the Mordant complex in the package map: the value, and its RC fields cleared (R10, R11). `size` is the bytes of the access: the host
makes aligned 4-byte ones, and 8-byte ones of FT and of the TAI offset; another is an Unsupported Request (R161, R292). A read of `FT_LO` latches `FT_HI`. The complex makes 4-byte
ones. `same` holds, in the places of the register's RC fields, the events of the read's own clock cycle (R11). -/
def execRcRead (byHost : Bool) (addr size same t : Nat) (s : State) : Out1 :=
  let s0 := s.advance t
  if byHost then
    if !s0.h.linkUp then ok s0
    else if size = 8 ∧ addr = 0x2000 then ok (s0.emit 7 (s0.time.ft % 2 ^ 64))
    else if size = 8 ∧ addr = 0x2018 then ok (s0.emit 7 (toBits 64 s0.time.tai))
    else if size ≠ 4 ∨ addr % 4 ≠ 0 ∨ 0x10000 ≤ addr then ok s0.urRead
    else if addr = 0x2000 then ok s0.ftLoRead
    else ok ((s0.bar0Clear addr same).emit 7 (s0.bar0Shown addr same))
  else if size ≠ 4 then ok s0
  else ok ((s0.regClear addr same).emit 7 (s0.regShown addr same))

/-- A write of a component register: those of the HDM decoder act (R294). Commit takes a size that is a multiple of 256 MiB up to 384 GiB, one way, a DPA skip of 0, and a trained CXL link; a locked decoder stands. Bits written as
1 to the RAS status are cleared. -/
def State.compWrite (s : State) (off v : Nat) : State :=
  let s1 := { s with h := { s.h with comp := Tab.set s.h.comp off (v % 2 ^ 32) } }
  if off = rasCap then { s with h := { s.h with rasStat := s.h.rasStat &&& (2 ^ 32 - 1 - v % 2 ^ 32) } }
  else if s.h.hdmLock ∨ !s.h.cxl then (if hdmCap ≤ off ∧ off < hdmCap + 0x2C then s else s1)
  else if off = hdmCap + 0x20 then
    let g := fun (o : Nat) => Tab.get 0 s.h.comp (hdmCap + o)
    let base := g 0x10 / 2 ^ 28 * 2 ^ 28 + g 0x14 * 2 ^ 32
    let size := g 0x18 / 2 ^ 28 * 2 ^ 28 + g 0x1C * 2 ^ 32
    let fits := decide (2 ^ 28 ≤ size ∧ size ≤ 384 * 2 ^ 30) && fld v 7 4 == 0 && g 0x24 == 0 && g 0x28 == 0
    if bitAt v 9 ∧ fits then { s1 with h := { s1.h with hdmBase := base, hdmSize := size, hdmCommit := true, hdmLock := bitAt v 8 } }
    else { s1 with h := { s1.h with hdmCommit := false } }
  else s1

/-- Enable the status mirror: the whole page is written, then `ACTIVE` is set (R304). -/
def State.mirrorOn (s : State) : State :=
  if s.h.smEn then s
  else
    let s1 := { s with h := { s.h with smEn := true } }.writePage
    { s1 with h := { s1.h with smActive := true } }

/-- A write of a register that has no row of its own, by the host in BAR0 or by the Mordant complex in the package map (R9, R10, R224, R292). `size` is the bytes of the
access: the host makes aligned 4-byte ones. -/
def execRegisterWrite (byHost : Bool) (addr v size t : Nat) (s : State) : Out1 :=
  let s0 := s.advance t
  if !byHost then ok (if size = 4 then s0.regWrite addr (v % 2 ^ 32) else s0)
  else if !s0.h.linkUp then ok s0
  else if size ≠ 4 ∨ addr % 4 ≠ 0 ∨ 0x10000 ≤ addr then ok s0.urWrite
  else if 0x100 ≤ addr ∧ addr < 0x140 ∧ addr % 16 = 8 then
    let n := (addr - 0x100) / 16
    let m := s0.mbx n
    ok (s0.setMbx n { m with prodErr := m.prodErr && !bitAt v 1 })
  else if addr = 0x208 then
    ok (if bitAt v 0 then s0.mirrorOn else { s0 with h := { s0.h with smEn := false, smActive := false } })
  else if 0x4000 ≤ addr ∧ addr < 0x5000 then
    let c := (addr - 0x4000) / 0x100
    ok (if (s0.ch c).claim = 1 then s0.regWrite (0x1F070000000 + c * 0x1000 + addr % 0x100) v else s0)
  else if 0x8000 ≤ addr then ok (s0.compWrite addr v)
  else ok s0

/-! ### The HDM window (R294 to R296) -/

/-- The request of a host access as it reaches the lake controller. -/
def State.hdmPkt (s : State) (a tag kind : Nat) (data : List Word) : Pkt :=
  let k := lakeStack s.lake.mode a
  { id := 0, kind := kind, addr := a, lpn := s.lpn, tag := 0, srcEp := 0, dstEp := stackEp k, words := 16, gen := 0, genChk := false, ext := [0, 0, 0, 0], data := data,
    asker := .host tag, dest := .lake k, inHub := false, hub := 0, die := k / 2, plane := 0, row := 0, col := 0, trow := 0, tcol := 0, hops := 0, arrived := true,
    poisoned := false, via := [], since := s.time.now, inp := 4, copyOf := none }

/-- The lake address of a host physical address inside the committed range. -/
def State.hdmAddr (s : State) (hpa : Nat) : Option Nat :=
  if s.h.hdmCommit ∧ s.h.cxl ∧ s.h.hdmBase ≤ hpa ∧ hpa < s.h.hdmBase + s.h.hdmSize then some ((hpa - s.h.hdmBase) / 64 * 64) else none

/-- A 64-byte read through the window. `ups` are upsets that have struck lake words before it; `req` and `rsp` name words with bits flipped at the pins of the stack (R215). -/
def execHdmRead (hpa tag : Nat) (req rsp ups : List (Nat × Nat)) (t : Nat) (s : State) : Out1 :=
  let s0 := (s.advance t).lakeStrike ups
  if !s0.h.linkUp then ok s0
  else
    match s0.hdmAddr hpa with
    | none => ok s0.urRead
    | some a =>
      if !s0.pkg.lakeTrained then ok (s0.hdmPoison tag)
      else ok ((s0.addPkt (s0.hdmPkt a tag 0x01 [])).lakeServe s0.net.seq (fun _ => true) req rsp)

/-- A 64-byte write through the window; poisoned data are discarded. -/
def execHdmWrite (hpa tag : Nat) (data : BitVec 512) (poisoned : Bool) (req rsp : List (Nat × Nat)) (t : Nat) (s : State) : Out1 :=
  let s0 := s.advance t
  if !s0.h.linkUp then ok s0
  else
    match s0.hdmAddr hpa with
    | none => ok s0.urWrite
    | some a =>
      if poisoned then ok (s0.aer aerPoisoned)
      else if !s0.pkg.lakeTrained then ok s0.rasError
      else ok ((s0.addPkt (s0.hdmPkt a tag 0x03 (wordsOf (leBytes 64 data.toNat)))).lakeServe s0.net.seq (fun _ => true) req rsp)

/-! ### Doorbells and the mirror (R298, R304 to R306) -/

/-- A write of `HMBn_PROD` registers commands, or is ignored with `PROD_ERR` (R298, R343). -/
def execProdWrite (n v t : Nat) (s : State) : Out1 :=
  let s0 := s.advance t
  if 4 ≤ n ∨ !s0.h.linkUp ∨ !s0.booted then ok s0
  else
    let m := s0.mbx n
    let d := (v % 65536 + 65536 - m.prod) % 65536
    if d ≤ (m.cons + 64 + 65536 - m.prod) % 65536 then ok (s0.registerN n d)
    else ok (s0.setMbx n { m with prodErr := true })

/-- A write of a half of the page address, ignored while `EN` is 1 (R292). -/
def execSmAddrWrite (hi : Bool) (v t : Nat) (s : State) : Out1 :=
  let s0 := s.advance t
  if !s0.h.linkUp ∨ s0.h.smEn then ok s0
  else
    let a := s0.h.smAddr
    ok { s0 with h := { s0.h with smAddr := if hi then a % 2 ^ 32 + place v 32 32 else a / 2 ^ 32 * 2 ^ 32 + v % 2 ^ 32 / 4096 * 4096 } }

def execStatusMirrorEnable (t : Nat) (s : State) : Out1 :=
  let s0 := s.advance t
  ok (if s0.h.linkUp then s0.mirrorOn else s0)

def execStatusRecordWrite (r t : Nat) (s : State) : Out1 :=
  let s0 := s.advance t
  ok (if s0.h.smEn ∧ r < 64 then s0.writeRecord r else s0)

def execStatusMirrorRefresh (t : Nat) (s : State) : Out1 :=
  let s0 := s.advance t
  ok (if s0.h.smEn then s0.writePage else s0)

/-- `HEARTBEAT` increments every 1 ms while the Mordant complex runs; it pauses through a handover and a rollback (R306, R451, R452). That it has
stood for 50 ms of a self-check fails the check. -/
def execMirrorHeartbeat (t : Nat) (s : State) : Out1 :=
  let s0 := s.advance t
  let paused := s0.fw.act == 3 || s0.fw.act == 4 || s0.fw.act == 5 || s0.fw.act == 7
  ok (if s0.pkg.mordRuns ∧ s0.booted ∧ !paused ∧ s0.h.beatAt + ms ≤ s0.time.now then
      { s0 with
        h := { s0.h with heartbeat := (s0.h.heartbeat + 1) % 2 ^ 32, beatAt := s0.time.now }
        fw := { s0.fw with fail := if s0.beatStood ∧ s0.fw.fail = 0 then 3 else s0.fw.fail } }
    else s0)

/-- A command that heads its ring past its deadline is not executed: it is answered `MBX_E_EXPIRED`, or the status of a check that stands before it in R302 and fails (R297, R300). -/
def execMailboxDeadlineExpiry (mb t : Nat) (s : State) : Out1 :=
  let s0 := s.advance t
  match s0.headReg mb with
  | none => ok s0
  | some (_, reg) => ok (if s0.mbxRuns ∧ mb < 6 ∧ !(s0.mbx mb).handover ∧ s0.expired mb reg then
      (s0.slotErrors mb).answer mb (Resp.err (s0.headerStatus mb reg (cmdOf (s0.slotF mb 0 2)) (!opcodes.contains (s0.slotF mb 0 2)))) else s0)

end Sys2Proof.Machine
end

