-- ==== Sys2Proof/Machine/CfgCmds.lean ====
section
/-!
DEFINITION. The commands of groups 0x01xx and 0x02xx: identity, status and configuration (R320 to R323).
-/
namespace Sys2Proof.Machine

/-- `ID_GET`, and the answer to an unlisted opcode (R309, R320). -/
def execIdGet (mb t : Nat) (s : State) : Out1 :=
  ok (s.commandNow mb t (Cmd.fixed 0x0101 0 [1, 2, 3] false []) (fun u _ =>
    (u, Resp.ok_ (leBytes 4 u.pidWord ++ leBytes 2 u.lpnWord ++ [0x09#8, 0xB0#8] ++ leBytes 4 (fwVersion u.fw.runImage) ++ leBytes 8 u.pkg.serial ++ ascii "TF9-LY-0576" ++ zeros 1))))

/-- `STATE_GET` (R320). -/
def execStateGet (mb t : Nat) (s : State) : Out1 :=
  ok (s.commandNow mb t (Cmd.fixed 0x0102 0 [1, 2, 3] false []) (fun u _ =>
    (u, Resp.ok_ (leBytes 1 u.shown ++ leBytes 1 u.reasonShown ++ leBytes 2 u.ctx.gen ++ leBytes 4 u.ctxIdShown ++ leBytes 4 u.faults.sticky ++ leBytes 4 u.powerFlags ++ u.capBytes
      ++ u.tempBytes ++ u.coolantBytes ++ leBytes 4 u.ftState ++ leBytes 4 u.absentMs ++ leBytes 8 u.time.ft))))

/-- `CFG_PART` appends to the buffer; a part with offset 0 first empties it (R321, R322). -/
def execCfgPart (mb t : Nat) (s : State) : Out1 :=
  ok (s.commandNow mb t (Cmd.fixed 0x0201 8 [1] true []) (fun u r =>
    let off := r.f 0 4
    let len := r.f 4 4
    let buf := if off = 0 then [] else u.cfg.buf
    let first := if off = 0 then len else u.cfg.bufLen
    if off ≠ buf.length ∨ len ≠ first then (u, Resp.err 0x0221)
    else if 0x400000 < len ∨ len < off + r.data.length then (u, Resp.err 0x0222)
    else
      let b := buf ++ r.data
      ({ u with cfg := { u.cfg with buf := b, bufLen := len } }, Resp.ok_ (leBytes 4 b.length))))

/-- `CFG_COMMIT` validates the buffer and accepts the image (R321, R361, R362). A rejection carries its record. -/
def execCfgCommit (mb t : Nat) (s : State) : Out1 :=
  ok (s.commandNow mb t (Cmd.fixed 0x0202 4 [1] false []) (fun u r =>
    if u.ctx.accepted then (u, ⟨0x0220, zeros 16, []⟩)
    else if u.cfg.buf.length < r.f 0 4 then (u, ⟨0x0223, zeros 16, []⟩)
    else
      match u.validate (r.f 0 4) with
      | .inl e => (u, ⟨e.code, e.record, []⟩)
      | .inr im => (u.applyImage im, Resp.ok_ im.digest)))

/-- `CFG_INFO` (R321). -/
def execCfgInfo (mb t : Nat) (s : State) : Out1 :=
  ok (s.commandNow mb t (Cmd.fixed 0x0203 0 [1] false []) (fun u _ =>
    match u.cfg.image with
    | none => (u, Resp.ok_ (zeros 80))
    | some im => (u, Resp.ok_ (im.digest ++ leBytes 4 im.len ++ zeros 4 ++ leBytes 8 im.ft))))

/-- The binding ends (R425). -/
def State.unbind (s : State) : State :=
  let s1 := { s with spr := { s.spr with
    role := 0, group := 0xFF, members := [], budget := 0, state := 0, noTake := false, fenceOut := if s.gate then s.spr.fenceOut else 0, fenceDrop := if s.gate then s.spr.fenceOut else 0, lines := [], takeLine := 0, phase := 0, restored := 0,
    txPoint := 0, txUnits := 0, txLast := 0, txDone := 0, regions := [] } }
  if s1.pkg.under = psWatch then s1.enter psConf else s1

/-- The accepted image is discarded, and with it a binding, which survives what the image survives (R425): a spare that watches is in `CONFIGURED` then. No LPN, no routes, no claims but the channels' own, and channels `IDLE` (R244); from `CONFIGURED` the package enters `AWAIT_CONFIG` (R340). -/
def State.clearImage (s0 : State) : State :=
  let u := if s0.spr.role = 0 then s0 else s0.unbind
  let s := { u with spr := { u.spr with fenceOut := s0.spr.fenceOut, fenceDrop := s0.spr.fenceDrop, takenLpn := none } }
  let s1 := { s with
    cfg := { s.cfg with image := none }
    lpn := 0
    pkg := { s.pkg with lpnValid := false }
    st := { s.st with routes := [], octets := [], trainMode := 0 }
    m := { s.m with mgrFrom := none } }
  let s2 := s1.relinkAll
  let s3 := s2.timeConfigured false
  let s4 := (s3.applyChecks).dmaConfigure s3.dmaClaim
  if s4.pkg.under = psConf then s4.enter psAwait else s4

/-- `CFG_CLEAR` (R321, R322). -/
def execCfgClear (mb t : Nat) (s : State) : Out1 :=
  ok (s.commandNow mb t (Cmd.fixed 0x0204 0 [1] false []) (fun u _ => if u.ctx.accepted then (u, Resp.err 0x0220) else (u.clearImage, Resp.ok_ [])))

/-- A resource of R359 exists. -/
def resExists (kind index : Nat) : Bool :=
  (kind == 1 && decide (index < 16)) || (kind == 2 && decide (index < 96)) || (kind == 3 && index == 0) || (kind == 4 && decide (index < 8))

/-- The explicit claims of the image become `cs`; the resource's holder follows. -/
def State.setClaims (s : State) (im : Image) (cs : List (Nat × Nat × Nat)) (kind index : Nat) : State :=
  let s1 := { s with cfg := { s.cfg with image := some { im with claims := cs } } }
  if kind = 1 then s1.setCh index { s1.ch index with claim := s1.dmaClaim index }
  else if kind = 2 then s1.setLink index { s1.link index with claim := s1.linkClaim index }
  else s1

/-- `CLAIM_SET` (R321, R323, R359, R360). -/
def execClaimSet (mb t : Nat) (s : State) : Out1 :=
  ok (s.commandNow mb t (Cmd.fixed 0x0205 8 [1] false [(6, 2)]) (fun u r =>
    let kind := r.f 0 2
    let index := r.f 2 2
    let feat := r.f 4 2
    match u.cfg.image with
    | none => (u, Resp.err 0x0220)
    | some im =>
      let others := im.claims.filter (fun c => !(c.1 == kind && c.2.1 == index))
      if (kind = 1 ∧ index < 16 ∧ u.dmaShown index ≠ 0) ∨ (kind ≠ 1 ∧ u.ctx.accepted) then (u, Resp.err 0x0220)
      else if feat = 0 then (if resExists kind index then (u.setClaims im others kind index, Resp.ok_ []) else (u, Resp.err 0x0205))
      else if !claimable (fun o => sparePos (im.spareIdx.getD o 7)) kind index feat then (u, Resp.err 0x0205)
      else
        let pert := (u.pertClaims.find? (fun c => c.1 == kind && c.2.1 == index)).map (fun c => c.2.2)
        match (im.clash kind index feat).or pert with
        | some a => (u, ⟨0x0207, (Reject.mk 0x0207 kind index a feat 0).record, []⟩)
        | none => (u.setClaims im (im.claims ++ [(kind, index, feat)]) kind index, Resp.ok_ [])))

end Sys2Proof.Machine
end

