-- ==== Sys2Proof/Machine/Loader.lean ====
section
/-!
DEFINITION. The bundle loader (R181, R324, R363, R364). A load is written into its tiles by `BCAST_WR` packets of the bridges of H-die 0; the fabric part goes out as UNS writes into
the children's loader windows, and their reports come back as writes into the parent's.
-/
namespace Sys2Proof.Machine

/-! ### The load record (R363) -/

def Loader.f (l : Loader) (off n : Nat) : Nat := Mem.le l.window off n
def Loader.count (l : Loader) : Nat := l.f 10 2
def Loader.mask (l : Loader) : Nat := l.f 16 72
/-- The tiles that the load names. -/
def Loader.tids (l : Loader) : List Nat := bitsOf 576 l.mask
def Loader.bundles (l : Loader) : List Byte := Mem.bytes l.window 128 (64 * l.count)

/-- Bytes from `pos` up to `hi` are covered by the pieces received; `n` bounds the steps. -/
def covered (got : List (Nat × Nat)) : Nat → Nat → Nat → Bool
  | 0, pos, hi => decide (hi ≤ pos)
  | n + 1, pos, hi =>
    if hi ≤ pos then true
    else match got.find? (fun g => decide (g.1 ≤ pos) && decide (pos < g.1 + g.2)) with
      | some g => covered got n (g.1 + g.2) hi
      | none => false

/-- The load is whole: its record and every bundle are held. -/
def Loader.whole (l : Loader) : Bool := covered l.got l.got.length 0 (128 + 64 * l.count)

/-- The context of the load is the accepted one (R364). -/
def State.loadCtx (s : State) : Bool := s.ctx.genLive && !s.ctx.killing && s.ctx.id == s.ld.f 4 4

/-! ### The tree (R363) -/

def State.loadList (s : State) : List (Nat × Nat) :=
  match s.cfg.image with
  | some im => im.loadList
  | none => []

/-- The members of the subtree at position `c` of a tree of `m`; a tree of 32,768 is five levels deep. -/
def treeSize (m : Nat) : Nat → Nat → Nat
  | 0, _ => 0
  | n + 1, c => if c < m then 1 + ((kidsOf m c).map (treeSize m n)).foldl (· + ·) 0 else 0

/-- The own position with an origin, and the LPN at a position; none where a member is not in the load list. -/
def State.loadPos (s : State) (origin : Nat) : Option Nat :=
  let rs := s.loadList
  match rangeIndex rs s.lpn, rangeIndex rs origin with
  | some j, some k => some ((j + rangeCount rs - k) % rangeCount rs)
  | _, _ => none

def State.loadMember (s : State) (origin p : Nat) : Option Nat :=
  let rs := s.loadList
  match rangeIndex rs origin with
  | some k => rangeMember rs ((p + k) % rangeCount rs)
  | none => none

/-! ### Sending -/

/-- A UNS write into a member's loader window; `c` numbers the child for its answer. -/
def State.loadSend (s : State) (lpn c off : Nat) (bs : List Byte) : State :=
  let ws := wordsOf bs
  s.hubOut { id := 0, kind := 0x03, addr := loaderBase + off, lpn := lpn, tag := loaderTag c, srcEp := 0, dstEp := 0, words := ws.length, gen := s.ctx.gen, genChk := true,
             ext := [0, 0, 0, 0], data := ws, asker := .loader, dest := .hub 0, inHub := true, hub := 0, die := 0, plane := 0, row := 0, col := 0, trow := 0, tcol := 0, hops := 0,
             arrived := false, poisoned := false, via := [], since := s.time.now, inp := 4, copyOf := none } false

/-- A piece of the load goes on to every child. -/
def State.loadForward (s : State) (off : Nat) (bs : List Byte) : State :=
  ((List.range s.ld.kids.length).zip s.ld.kids).foldl (fun (u : State) (k : Nat × Nat) => u.loadSend k.2 k.1 off bs) s

/-- The pieces an origin sends: the record, and the bundles 256 bytes at a time. -/
def Loader.pieces (l : Loader) : List (Nat × Nat) :=
  (0, 128) :: (List.range ((l.count + 3) / 4)).map (fun i => (128 + 256 * i, min 256 (64 * l.count - 256 * i)))

/-! ### Progress -/

/-- The groups of tiles that one `BCAST_WR` can name (R178): on a die, the logical rows with the same columns in the load's mask: the die and word 4. -/
def Loader.groups (l : Loader) : List (Nat × Nat) :=
  allDies.flatMap (fun d =>
    let cols := (List.range 12).map (fun r => l.mask / 2 ^ (144 * d + 12 * r) % 2 ^ 12)
    ((cols.filter (· ≠ 0)).eraseDups).map (fun c => (d, maskOf ((List.range 12).filter (fun r => cols.getD r 0 == c)) + c * 2 ^ 12)))

/-- The broadcasts of a load: for each group its bundles, 256 bytes at a time. -/
def Loader.casts (l : Loader) : List LoadBc :=
  ((List.range l.groups.length).zip l.groups).flatMap (fun g =>
    (List.range ((l.count + 3) / 4)).map (fun i => ⟨g.2.1, g.2.2, g.1, 256 * i, min 256 (64 * l.count - 256 * i)⟩))

/-- The tiles that word 4 of a broadcast names. -/
def castTiles (mask : Nat) : Nat := (bitsOf 12 (fld mask 11 0)).length * (bitsOf 12 (fld mask 23 12)).length

/-- The bridge of H-die 0 to die `x.die` sends a broadcast with `BSTORE` = 1 (R181), under a tag of its own (R182). -/
def State.loadCast (s : State) (x : LoadBc) : State :=
  let b := bridgeNo x.die epB0
  let ws := wordsOf (Mem.bytes s.ld.window (128 + x.off) x.len)
  let tag := loaderTag (16 + s.ld.bcSeq % 4096)
  let q : Pkt :=
    { id := 0, kind := 0x05, addr := s.ld.f 8 2 * 64 + x.off, lpn := s.lpn, tag := tag, srcEp := 0, dstEp := epB0, words := ws.length, gen := s.ctx.gen, genChk := true,
      ext := ext4 (x.mask + 2 ^ 25), data := ws, asker := .loader, dest := .hub 0, inHub := false, hub := 0, die := x.die, plane := 0, row := 0, col := 0, trow := 0, tcol := 0, hops := 0,
      arrived := false, poisoned := false, via := [], since := s.time.now, inp := 4, copyOf := none }
  let r := s.bridgeTake b q
  { r.1.inject r.2 x.die epB0 epB0 with ld := { s.ld with bcSeq := s.ld.bcSeq + 1, bcs := s.ld.bcs ++ [(tag, x.group, castTiles x.mask)] } }

/-- Broadcasts go out in order while their bridge holds fewer than 512 requests (R182). -/
def State.loadIssue (s : State) : List LoadBc → State
  | [] => { s with ld := { s.ld with sends := [] } }
  | x :: r => if 512 ≤ (s.bridge (bridgeNo x.die epB0)).length then { s with ld := { s.ld with sends := x :: r } } else (s.loadCast x).loadIssue r

/-- A broadcast of the load is answered: `BCAST_ACK` gives the tiles that refused it (R36), another answer refuses it for all of its tiles (R180). -/
def Loader.castAnswered (l : Loader) (tag kind refused : Nat) : Loader :=
  match l.bcs.find? (fun b => b.1 == tag) with
  | none => l
  | some b =>
    let n := if kind = 0x06 then refused else b.2.2
    { l with bcs := l.bcs.filter (fun x => decide (x.1 ≠ tag)), grp := Tab.set l.grp b.2.1 (max (Tab.get 0 l.grp b.2.1) n) }

/-- The load has been written into its tiles: what was refused is counted, and the load is one that this package has applied. -/
def State.loadWritten (s : State) : State :=
  let l := s.ld
  { s with ld := { l with written := true, wroteAt := s.time.now, refused := l.refused + (l.grp.map (fun e => e.2)).sum, applied := l.applied ++ [(l.f 12 2, l.f 0 4)] } }

/-- The writes of a load whose bundles are all held go on. -/
def State.loadTiles (s : State) : State :=
  let l := if s.ld.issued then s.ld else { s.ld with issued := true, sends := s.ld.casts, bcs := [], grp := [] }
  let s1 := { s with ld := l }.loadIssue l.sends
  if s1.ld.bcs.isEmpty ∧ s1.ld.sends.isEmpty then s1.loadWritten else s1

/-- The load in the window is over; packets of it that come again belong to no other load. -/
def Loader.over_ (l : Loader) : Loader :=
  { l with active := false, got := [], kids := [], waiting := [], issued := false, sends := [], bcs := [],
           repLen := if l.written then 128 + 64 * l.count else 0, repAll := false }

/-- The load is over: the report to the parent, or at the origin the response of `BUNDLE_LOAD` (R324, R364). -/
def State.loadEnd (s : State) : State :=
  let l := s.ld
  let s1 := { s with ld := l.over_ }
  if l.origin then
    let n := min 0xFFFF (l.refused + l.missing * l.tids.length)
    let r : Resp := ⟨if n = 0 then 0 else 0x0308, leBytes 2 n ++ leBytes 2 0, []⟩
    if (s1.mbx l.mbx).busy ∧ s1.slotF l.mbx 0 2 = 0x0302 then s1.answer l.mbx r else s1.endGhost l.mbx 0x0302
  else
    match s1.loadMember (l.f 12 2) ((l.pos - 1) / 8) with
    | some p => s1.loadSend p 8 (0x40080 + 16 * ((l.pos - 1) % 8)) (leBytes 4 (l.f 0 4) ++ leBytes 4 l.refused ++ leBytes 4 l.missing ++ leBytes 4 0)
    | none => s1

/-- What a load in progress does next: the tiles are written once all bundles are held, and it ends once every child has reported. When its context has died a member drops it, and the
origin counts its own tiles as refused. -/
def State.loadStep (s : State) : State :=
  if !s.ld.active then s
  else if !s.ld.written ∧ !s.loadCtx then
    (if s.ld.origin then
      let s1 := { s with ld := { s.ld with written := true, wroteAt := s.time.now, refused := s.ld.refused + s.ld.tids.length } }
      if s1.ld.waiting.isEmpty then s1.loadEnd else s1
    else { s with ld := s.ld.over_ })
  else
    let s1 := if !s.ld.written ∧ s.ld.whole then s.loadTiles else s
    if s1.ld.written ∧ s1.ld.waiting.isEmpty then s1.loadEnd else s1

/-! ### `BUNDLE_LOAD` (R324, R325) -/

/-- A context is accepted and no kill of it has begun. -/
def State.ctxLive (s : State) : Bool := s.ctx.accepted && !s.ctx.killing

/-- A request's `EXP_GEN` at an offset does not match (R313). -/
def State.genBad (s : State) (r : Req) (off : Nat) : Bool := r.f off 2 != 0xFFFF && r.f off 2 != s.ctx.gen

/-- The load that an accepted `BUNDLE_LOAD` starts: its record and bundles stand in the window, and its children are to receive them. -/
def State.loadBegin (s : State) (mb : Nat) (r : Req) : State :=
  let fabric := r.f 4 4 == 1
  let id := (s.ld.nextId + 1) % 2 ^ 32
  let n := r.data.length / 64
  let rec_ := leBytes 4 id ++ leBytes 4 s.ctx.id ++ leBytes 2 (r.f 2 2) ++ leBytes 2 n ++ leBytes 2 s.lpn ++ leBytes 2 0 ++ (r.payload.drop 8).take 72 ++ zeros 40
  let kids := if fabric then (kidsOf (rangeCount s.loadList) 0).filterMap (s.loadMember s.lpn) else []
  let l : Loader :=
    { s.ld with
      window := Mem.store [] 0 (rec_ ++ r.data), got := [(0, 128 + 64 * n)], nextId := if fabric then id else s.ld.nextId, active := true, origin := true, mbx := mb, pos := 0,
      kids := kids, waiting := List.range kids.length, wroteAt := 0, written := false, refused := 0, missing := 0, issued := false, sends := [], bcs := [] }
  let s1 := { s with ld := l }
  l.pieces.foldl (fun (u : State) (p : Nat × Nat) => u.loadForward p.1 (Mem.bytes l.window p.1 p.2)) s1

/-- `BUNDLE_LOAD`: it waits while a whole load is being applied here. -/
def execBundleLoad (mb t : Nat) (s : State) : Out1 :=
  if s.ld.active ∧ (s.ld.origin ∨ s.ld.whole) then ok (s.advance t)
  else
    let c : Cmd := ⟨0x0302, fun _ p => p.length == 80, [1], true, fun p => decide (leAt p 4 4 < 2)⟩
    ok (s.command mb t c (fun u r =>
      let n := r.data.length / 64
      if u.genBad r 0 then (u, some (Resp.err 0x0304))
      else if !u.ctxLive then (u, some (Resp.err 0x0301))
      else if r.data.isEmpty ∨ r.data.length % 64 ≠ 0 ∨ 4096 < r.f 2 2 + n ∨ r.f 8 72 = 0 then (u, some (Resp.err 0x0307))
      else (u.loadBegin mb r, none))).loadStep

/-! ### Packets of the loader (R363, R364) -/

/-- A packet for the loader waits in the H-dies: a write into the window that is no report (`report` false) or one that is, or an answer to a write of this package's own. -/
def loadPkt (report : Bool) (p : Pkt) : Bool :=
  p.inHub && p.arrived && (match p.asker with
    | .loader => !report
    | .link _ _ _ _ _ => decide (loaderBase ≤ p.addr) && decide (p.addr < loaderBase + loaderLen) && decide (loaderBase + 0x40080 ≤ p.addr) == report
    | _ => false)

def State.takeLoad (s : State) (report : Bool) : Option (Pkt × State) :=
  match s.net.pkts.find? (loadPkt report) with
  | some p => some (p, s.delPkt p.id)
  | none => none

/-- A child with its subtree counts as not loaded. -/
def State.loadLost (s : State) (c : Nat) : State :=
  if !s.ld.active ∨ !s.ld.waiting.contains c then s
  else
    let size := treeSize (rangeCount s.loadList) 6 (8 * s.ld.pos + 1 + c)
    { s with ld := { s.ld with waiting := s.ld.waiting.erase c, missing := s.ld.missing + size } }

/-- A new record starts a load at this member; what came before the record goes on to the children after it. -/
def State.loadRecord (s : State) : State :=
  let l := s.ld
  match s.loadPos (l.f 12 2) with
  | none => { s with ld := { l with got := [] } }
  | some p =>
    if p = 0 ∨ !s.loadCtx then { s with ld := { l with got := [] } }
    else
      let kids := (kidsOf (rangeCount s.loadList) p).filterMap (s.loadMember (l.f 12 2))
      let s1 := { s with ld := { l with
        active := true, origin := false, pos := p, kids := kids, waiting := List.range kids.length, wroteAt := 0, written := false, refused := 0, missing := 0,
        issued := false, sends := [], bcs := [], repAll := false } }
      l.got.foldl (fun (u : State) (g : Nat × Nat) => u.loadForward g.1 (Mem.bytes l.window g.1 g.2)) s1

/-- A packet of a load that this package has applied comes again (R364): a piece after the record of that load has come again, no load being under way. A piece says nothing of its load, so one
that comes with no such record before it waits for the next record: it counts for that load where it is new, and is ignored with it where it has been applied (DEDUCED, log entry 79). -/
def Loader.repeats (l : Loader) (off : Nat) (bs : List Byte) : Bool :=
  !l.active && l.got.isEmpty && l.repAll && decide (128 ≤ off ∧ off + bs.length ≤ l.repLen)

/-- A piece of a load arrives in the window: it is kept, acknowledged, and forwarded (R364). While this package is the origin of a load, once a load is whole, and where it is of a load
applied already, a piece is acknowledged and ignored. -/
def State.loadPiece (s : State) (q : Pkt) : State :=
  let off := q.addr - loaderBase
  let bs := bytesOfWords q.data
  let s0 := s.hubAnswer (q.answer 0x04 [0, 0, 0, 0] [])
  let old := s0.ld.f 0 4
  let fresh := off = 0 ∧ 128 ≤ bs.length
  if s0.ld.active ∧ (s0.ld.origin ∨ s0.ld.whole) then s0
  else if s0.ld.repeats off bs then s0
  else if fresh ∧ s0.ld.applied.contains (leAt bs 12 2, leAt bs 0 4) then
    (if s0.ld.active then s0 else { s0 with ld := { s0.ld with got := [], repLen := 128 + 64 * leAt bs 10 2, repAll := true } })
  else
    let l := { s0.ld with window := Mem.store s0.ld.window off bs }
    let again := s0.ld.active ∧ (!decide fresh ∨ leNat (bs.take 4) = old)
    if again then { s0 with ld := { l with got := l.got ++ [(off, bs.length)] } }.loadForward off bs
    else
      let s1 := { s0 with ld := { l with active := false, got := (if s0.ld.active then [] else l.got) ++ [(off, bs.length)] } }
      if fresh then s1.loadRecord else s1

/-- A packet of the loader: a piece received, an answer to a broadcast or to a piece sent (a child that answers `GEN_NACK` is not loaded), or, with none waiting, broadcasts that waited for
room in a bridge. -/
def execLoaderPacket (t : Nat) (s : State) : Out1 :=
  let s0 := s.advance t
  match s0.takeLoad false with
  | none => ok s0.loadStep
  | some (q, s1) =>
    match q.asker with
    | .loader =>
      if loaderTag 16 ≤ q.tag then ok { s1 with ld := s1.ld.castAnswered q.tag q.kind (q.extWord 0 % 2 ^ 16) }.loadStep
      else ok (if q.kind = 0x20 ∧ q.tag ≠ loaderTag 8 then s1.loadLost (q.tag - loaderTag 0) else s1).loadStep
    | _ => ok (s1.loadPiece q).loadStep

/-- 100 ms after the own writes the children that have not reported count as not loaded (R364). -/
def State.reportLapse (s : State) : State :=
  if !s.ld.active ∨ !s.ld.written ∨ watchCycle s.time.now ≤ watchCycle (s.ld.wroteAt + 100 * ms) then s else s.ld.waiting.foldl State.loadLost s

/-- A child's report arrives in its slot (R364); in the cycle of the expiry edge it is a near miss, and a later one comes after the expiry (R417). -/
def execLoaderReport (t : Nat) (s : State) : Out1 :=
  let s0 := s.advance t
  match s0.takeLoad true with
  | none => ok s0
  | some (q, s1) =>
    let s2 := (s1.hubAnswer (q.answer 0x04 [0, 0, 0, 0] [])).reportLapse
    let c := (q.addr - loaderBase - 0x40080) / 16
    let bs := bytesOfWords q.data
    if !s2.ld.active ∨ !s2.ld.waiting.contains c ∨ leAt bs 0 4 ≠ s2.ld.f 0 4 then ok s2.loadStep
    else
      let s3 := if s2.ld.written ∧ watchCycle (s2.ld.wroteAt + 100 * ms) = watchCycle s2.time.now then s2.nearMissEvent 7 else s2
      ok { s3 with ld := { s3.ld with waiting := s3.ld.waiting.erase c, refused := s3.ld.refused + leAt bs 4 4, missing := s3.ld.missing + leAt bs 8 4 } }.loadStep

/-- The time of the reports is over. -/
def execLoaderReportTimeout (t : Nat) (s : State) : Out1 :=
  let s0 := s.advance t
  if !s0.ld.active ∨ !s0.ld.written ∨ watchCycle s0.time.now ≤ watchCycle (s0.ld.wroteAt + 100 * ms) then ok s0
  else ok s0.reportLapse.loadStep

end Sys2Proof.Machine
end

