-- ==== Sys2Proof/Machine/CtxCmds.lean ====
section
/-!
DEFINITION. The commands of group 0x03xx but `BUNDLE_LOAD`: acceptance, the step table, runs, and the end of a context (R324 to R326, R411, R412).
-/
namespace Sys2Proof.Machine

/-! ### Acceptance -/

/-- A command refused in `HOLD` is logged against the earliest holder (R314, R325, R376). -/
def State.holdLog (s : State) (op mb seq : Nat) : State :=
  s.addOrder op (partyCode mb) (match s.m.holders with
    | b :: _ => holderParty b
    | [] => 0) seq 1 1

/-- The physical row a die skips: its defective row, or row 12 (R39, R347). -/
def State.skipFor (s : State) (d : Nat) : Nat := ((s.badRows d).head?).getD 12

/-- What acceptance leaves of a tile: flags and descriptors zero (R103), the fault record clear (R52), the new generation. -/
def Tile.accept (t : Tile) (g : Nat) : Tile :=
  { t with
    r := { t.r with flags := [], descs := [], regNow := [], heldInc := [] }
    iss := { t.iss with arrive := [], stopped := false }
    blk := { t.blk with fault := 0, faultPc := 0, faultSlot := 0, precise := false, faultGen := 0, infoSet := false, gen := g } }

/-- The palette caches are emptied (R202). -/
def State.emptyCaches (s : State) : State := (List.range 8).foldl (fun u k => u.setStack k { u.stack k with palCache := [] }) s

/-- `CTX_ACCEPT` takes effect: rows are mapped (R39, R41), every tile, lake die and the edge take the generation (R411), the step table, caches and fault record are cleared (R129, R202,
R404), and the package enters `RUNNING`. A descriptor that runs ends with `DMA_S_GEN` (R240). -/
def State.accept (s : State) (id : Nat) : State :=
  let g := id % 2 ^ 16
  let s1 := allDies.foldl (fun (u : State) d =>
    let f := u.skipFor d
    let v := u.setDie d { u.die d with skipRow := f }
    v.setRow (d * 13 + f) { v.row (d * 13 + f) with power := 3, wakeAt := none, deferred := false }) s
  let s2 := { s1 with
    tiles := (List.range 624).map (fun p => (p, (s1.tile p).accept g))
    seq := { Seq.reset with lastStep := s1.seq.lastStep, lastFt := s1.seq.lastFt }
    ctx := { s1.ctx with accepted := true, genLive := true, gen := g, id := id, killDue := 0, phase := 0, killCause := 0, abortOrigin := 0, abortCtxId := 0, abortSent := false,
                         noSpareRow := false }
    faults := { s1.faults with sticky := 0, firstFault := 0xFFFF, firstTid := 0x3FF, firstTileFault := 0, firstStepId := 0xFFFF, firstFt := 0, count := 0, sbeTotal := 0 } }
  let s3 := (List.range 8).foldl (fun (u : State) k => u.setStack k { u.stack k with gen := g, draining := false, palCache := [] }) s2
  s3.dmaGenChange.enter psRun

/-- The status of a `CTX_ACCEPT`, 0 where it is accepted (R155, R325, R326, R347, R411, R437). -/
def State.acceptStatus (s : State) (id : Nat) : Nat :=
  if id = 0 ∨ id % 2 ^ 16 ≤ s.ctx.gen ∨ id % 2 ^ 16 = 0xFFFF then 0x0309
  else if (s.pkg.under = psNotReady ∧ s.pkg.reason = 2) ∨ (s.pkg.under = psConf ∧ (s.secondRow ∨ s.ctx.noSpareRow)) then 0x030C
  else if s.ctx.killing ∨ (List.range 8).any (fun k => (s.stack k).zeroing) then 0x0303
  else if s.shown = psHold then 0x0302
  else if s.shown ≠ psConf ∨ s.spr.displaced then 0x0301
  else if s.time.tstate ≠ 2 ∧ s.time.tstate ≠ 5 then 0x030B
  else 0

def execCtxAccept (mb t : Nat) (s : State) : Out1 :=
  ok (s.commandNow mb t (Cmd.fixed 0x0301 8 [1] false [(6, 2)]) (fun u r =>
    if u.genBad r 4 then (u, Resp.err 0x0304)
    else
      let st := u.acceptStatus (r.f 0 4)
      if st = 0x0302 then (u.holdLog 0x0301 mb r.seq, Resp.err st)
      else if st ≠ 0 then (u, Resp.err st)
      else
        let v := u.accept (r.f 0 4)
        (v, Resp.ok_ (leBytes 2 v.ctx.gen ++ allDies.flatMap (fun d => leBytes 1 (v.die d).skipRow) ++ leBytes 2 0 ++ leBytes 8 v.time.ft))))

/-! ### The step table and runs (R126, R129, R130) -/

/-- One entry is written, or left empty where its header is refused; the indices refused so far are kept. -/
def State.writeStep (a : State × List Nat) (ix : Nat) (h : List Byte) : State × List Nat :=
  let s := a.1
  if s.hdrBad h then ({ s with seq := { s.seq with table := Tab.del s.seq.table ix } }, a.2 ++ [ix])
  else ({ s with seq := { s.seq with table := Tab.set s.seq.table ix h } }, a.2)

def execStepWrite (mb t : Nat) (s : State) : Out1 :=
  ok (s.commandNow mb t (Cmd.fixed 0x0303 4 [1] true []) (fun u r =>
    let n := r.data.length / 128
    let first := r.f 2 2
    if u.genBad r 0 then (u, Resp.err 0x0304)
    else if !u.ctxLive then (u, Resp.err 0x0301)
    else if u.seq.runActive then (u, Resp.err 0x0305)
    else if r.data.isEmpty ∨ r.data.length % 128 ≠ 0 ∨ 1024 < first + n then (u, Resp.err 0x0307)
    else
      let w := (List.range n).foldl (fun (a : State × List Nat) k => State.writeStep a (first + k) ((r.data.drop (128 * k)).take 128)) (u, [])
      let p := leBytes 2 (n - w.2.length) ++ leBytes 2 (w.2.headD 0xFFFF)
      (w.1, ⟨if w.2.isEmpty then 0 else 0x030A, p, []⟩)))

/-- The indices of a `RUN_SUBMIT`. -/
def Req.runList (r : Req) : List Nat :=
  let b := if r.staged then r.data else r.payload.drop 4
  (List.range (b.length / 2)).map (fun i => leAt b (2 * i) 2)

/-- A run starts (R129, R130); the palette caches are emptied (R202). -/
def State.submit (s : State) (l : List Nat) : State :=
  let q := s.seq
  let s1 := { s with seq := { q with
    runActive := true, runState := 1, run := l, nextEntry := 0, stopReq := false, steps := [], done := [], runLate := false, runNear := false, runNo := q.runNo + 1 } }
  s1.emptyCaches

def execRunSubmit (mb t : Nat) (s : State) : Out1 :=
  let c : Cmd := ⟨0x0304, fun st p => if st then p.length == 4 else p.length == 4 + 2 * leAt p 2 2, [1], true, fun _ => true⟩
  ok (s.commandNow mb t c (fun u r =>
    let n := r.f 2 2
    let l := r.runList
    if u.genBad r 0 then (u, Resp.err 0x0304)
    else if !u.ctxLive then (u, Resp.err 0x0301)
    else if u.seq.runActive then (u, Resp.err 0x0305)
    else if u.shown = psHold then (u.holdLog 0x0304 mb r.seq, Resp.err 0x0302)
    else if n = 0 ∨ 4096 < n ∨ (r.staged ∧ r.data.length ≠ 2 * n) ∨ l.any (fun i => decide (1024 ≤ i)) then (u, Resp.err 0x0307)
    else if l.any (fun i => !Tab.has u.seq.table i) then (u, Resp.err 0x030A)
    else
      let v := u.submit l
      (v, Resp.ok_ (leBytes 4 v.seq.runNo))))

/-- `RUN_STOP`: no further entry launches, and the run ends once the launched ones complete. -/
def execRunStop (mb t : Nat) (s : State) : Out1 :=
  ok (s.commandNow mb t (Cmd.fixed 0x0305 4 [1] false [(2, 2)]) (fun u r =>
    if u.genBad r 0 then (u, Resp.err 0x0304)
    else if !u.seq.runActive then (u, Resp.err 0x0306)
    else ({ u with seq := { u.seq with stopReq := true } }.runEnd, Resp.ok_ (leBytes 2 u.seq.nextEntry ++ leBytes 2 0))))

/-! ### The end of a context -/

/-- `CTX_KILL`: the kill begins with `KILL_CAUSE` 3; it is answered once the `ABORT`s are sent. -/
def execCtxKill (mb t : Nat) (s : State) : Out1 :=
  ok (s.command mb t (Cmd.fixed 0x0306 4 [1] false [(2, 2)]) (fun u r =>
    if u.genBad r 0 then (u, some (Resp.err 0x0304))
    else if !u.ctxLive then (u, some (Resp.err 0x0301))
    else (u.beginKill 3 u.lpn u.ctx.id true, none)))

/-- `CTX_END`: teardown without `ABORT`. -/
def execCtxEnd (mb t : Nat) (s : State) : Out1 :=
  ok (s.command mb t (Cmd.fixed 0x0307 4 [1] false [(2, 2)]) (fun u r =>
    if u.genBad r 0 then (u, some (Resp.err 0x0304))
    else if !u.ctxLive then (u, some (Resp.err 0x0301))
    else if u.seq.runActive then (u, some (Resp.err 0x0305))
    else (u.beginKill 0 0 0 false, none)))

/-- `WARM_RESET` (R324, R416). -/
def execWarmReset (mb t : Nat) (s : State) : Out1 :=
  ok (s.commandNow mb t (Cmd.fixed 0x0308 4 [1, 2] false [(2, 2)]) (fun u r => if u.genBad r 0 then (u, Resp.err 0x0304) else (u.warmReset 1, Resp.ok_ [])))

end Sys2Proof.Machine
end

