-- ==== Sys2Proof/Machine/SpareCmds.lean ====
section
/-!
DEFINITION. The commands of group 0x06xx: bindings and mirroring (R331, R332, R424, R425, R432).
-/
namespace Sys2Proof.Machine

/-! ### Binding -/

/-- The entries of a `SPARE_BIND`. -/
def Req.entries (r : Req) : List Member := (List.range (r.f 2 2)).map (fun j => ⟨r.f (8 + 8 * j) 4, r.f (12 + 8 * j) 2, r.f (14 + 8 * j) 1⟩)

/-- The accepted image's `HEARTBEAT_EN` and `MIRROR_EN`. -/
def State.heartbeatEn (s : State) : Bool :=
  match s.cfg.image with
  | some im => bitAt im.spareEn 1
  | none => false

def State.mirrorEn (s : State) : Bool :=
  match s.cfg.image with
  | some im => bitAt im.spareEn 0
  | none => false

/-- A list names nothing twice. -/
def noTwice : List Nat → Bool
  | [] => true
  | x :: r => !r.contains x && noTwice r

/-- The status of a bind, 0 where it is taken (R331, R332, R424). -/
def State.bindStatus (s : State) (r : Req) : Nat :=
  let role := r.f 1 1
  let es := r.entries
  if !s.heartbeatEn ∨ s.spr.displaced ∨ (role = 1 ∧ es.any (fun e => e.pid == s.pid))
      ∨ (role = 1 ∧ (s.ctx.accepted ∨ !(s.pkg.under = psConf ∨ s.pkg.under = psWatch))) then 0x0601
  else if r.f 0 1 = 255 ∨ 1 < role ∨ es.length = 0 ∨ 18 < es.length ∨ (role = 0 ∧ es.length ≠ 1) ∨ es.any (fun e => decide (17 < e.line))
      ∨ !noTwice (es.map Member.pid) ∨ !noTwice (es.map Member.line) then 0x0602
  else if 393216 < es.length * r.f 4 4 then 0x0603
  else 0

/-- A new binding replaces the old one and releases the fence lines (R425), which wait for the output gate to open (R430). A taken-over LPN stays the package's. -/
def State.bind (s : State) (group role : Nat) (es : List Member) (budget : Nat) : State :=
  let s1 := { s with spr := { s.spr with
    role := role + 1, group := group, members := es, budget := budget, state := if role = 1 then 5 else 1, noTake := false, fenceOut := if s.gate then s.spr.fenceOut else 0, fenceDrop := if s.gate then s.spr.fenceOut else 0, lines := [], takeLine := 0, phase := 0,
    restored := 0, hbAt := s.time.now, txPoint := 0, txUnits := 0, txLast := 0, txDone := 0, regions := [] } }
  if role = 1 ∧ s1.pkg.under = psConf then s1.enter psWatch
  else if role = 0 ∧ s1.pkg.under = psWatch then s1.enter psConf
  else s1

/-- `SPARE_BIND`. -/
def execSpareBind (mb t : Nat) (s : State) : Out1 :=
  let c : Cmd := ⟨0x0601, fun _ p => p.length == 8 + 8 * leAt p 2 2, [2], false,
    fun p => (List.range (leAt p 2 2)).all (fun j => zeroAt p (15 + 8 * j) 1) && (leAt p 1 1 != 0 || leAt p 4 4 == 0)⟩
  ok (s.commandNow mb t c (fun u r =>
    let st := u.bindStatus r
    if st ≠ 0 then (u, Resp.err st) else (u.bind (r.f 0 1) (r.f 1 1) r.entries (r.f 4 4), Resp.ok_ [])))

/-- `SPARE_UNBIND`. -/
def execSpareUnbind (mb t : Nat) (s : State) : Out1 :=
  ok (s.commandNow mb t (Cmd.fixed 0x0602 4 [2] false [(1, 3)]) (fun u r =>
    if u.spr.role = 0 then (u, Resp.err 0x0601)
    else if r.f 0 1 ≠ u.spr.group then (u, Resp.err 0x0602)
    else (u.unbind, Resp.ok_ [])))

/-- The last complete point that `SPARE_GET` shows: the member's own; the one restored after a takeover; of a spare, its first member's. -/
def State.pointShown (s : State) : Nat :=
  let p := s.spr
  if p.role = 1 then p.txLast
  else if p.state = 4 then p.restored
  else match p.members with
    | m :: _ => (p.line m.line).lastPoint
    | [] => 0

/-- The health of the two heartbeat paths: of a spare, that every line is well; of a member, that its spare's wave is (R429). -/
def State.pathsOk (s : State) : Nat :=
  let p := s.spr
  if p.role = 2 then b2n (p.members.all (fun m => (p.line m.line).aOk)) + 2 * b2n (p.members.all (fun m => (p.line m.line).bOk))
  else if p.role = 1 then 2 * b2n (p.members.all (fun m => s.waveIn m.line))
  else 0

/-- `SPARE_GET`. -/
def execSpareGet (mb t : Nat) (s : State) : Out1 :=
  ok (s.commandNow mb t (Cmd.fixed 0x0603 0 [1, 2] false []) (fun u _ =>
    (u, Resp.ok_ (leBytes 1 u.spr.state ++ leBytes 1 u.spr.group ++ leBytes 2 u.spareLpn ++ leBytes 4 u.mirrorMib ++ leBytes 4 u.spr.budget ++ leBytes 4 u.pointShown
      ++ leBytes 1 u.pathsOk ++ zeros 7))))

/-! ### Mirroring -/

/-- The regions of a `MIRROR_REGIONS`: local address and length. -/
def Req.regionList (r : Req) : List (Nat × Nat) := (List.range (r.f 2 2)).map (fun j => (r.f (4 + 16 * j) 8, r.f (12 + 16 * j) 8))

def regionTotal (l : List (Nat × Nat)) : Nat := (l.map Prod.snd).foldl (· + ·) 0

/-- A region is 4 KiB-aligned and lies in the package's own lake (R332). -/
def regionOk (x : Nat × Nat) : Bool := x.1 % 4096 == 0 && x.2 % 4096 == 0 && decide (x.1 + x.2 ≤ lakeEnd)

/-- `MIRROR_REGIONS`: the total stays within `BUDGET_MIB` (R332); a member's own bind gives it 0, which bounds nothing here (log entry 81). -/
def execMirrorRegions (mb t : Nat) (s : State) : Out1 :=
  let c : Cmd := ⟨0x0604, fun _ p => p.length == 4 + 16 * leAt p 2 2, [1], false, fun _ => true⟩
  ok (s.commandNow mb t c (fun u r =>
    let l := r.regionList
    if u.genBad r 0 then (u, Resp.err 0x0304)
    else if u.spr.role ≠ 1 then (u, Resp.err 0x0601)
    else if !u.mirrorEn then (u, Resp.err 0x0604)
    else if u.spr.copying then (u, Resp.err 0x0606)
    else if 14 < l.length then (u, Resp.err 0x0602)
    else if !l.all regionOk then (u, Resp.err 0x0605)
    else if (if u.spr.budget = 0 then lakeEnd else u.spr.budget * 2 ^ 20) < regionTotal l then (u, Resp.err 0x0603)
    else ({ u with spr := { u.spr with regions := l } }, Resp.ok_ (leBytes 4 (regionTotal l / 2 ^ 20)))))

/-- A consistent point starts: its number and length are written, and `DMA15` runs the chain (R432). -/
def State.startPoint (s : State) : State :=
  let p := s.spr
  ({ s with spr := { p with txPoint := (p.txPoint + 1) % 2 ^ 32, txUnits := regionTotal p.regions / 4096, txDone := 0, copying := true } }).dmaRing 15

/-- `MIRROR_POINT`. -/
def execMirrorPoint (mb t : Nat) (s : State) : Out1 :=
  ok (s.commandNow mb t (Cmd.fixed 0x0605 4 [1] false [(2, 2)]) (fun u r =>
    if u.genBad r 0 then (u, Resp.err 0x0304)
    else if u.spr.role ≠ 1 then (u, Resp.err 0x0601)
    else if !u.mirrorEn then (u, Resp.err 0x0604)
    else if u.spr.copying then (u, Resp.err 0x0606)
    else
      let v := u.startPoint
      (v, Resp.ok_ (leBytes 4 v.spr.txPoint))))

end Sys2Proof.Machine
end

