-- ==== Sys2Proof/Machine/Spares.lean ====
section
/-!
DEFINITION. Spare packages at work: the heartbeat paths (R426 to R429), a takeover (R435 to R438), the claim of an LPN (R277, R437), and mirror writes (R433, R434).
-/
namespace Sys2Proof.Machine

/-! ### The heartbeat paths -/

/-- The level of `HB_ACK_OUT` (R426); low stands for not driven too, since the tray then holds the line low. -/
def State.ackOut (s : State) : Bool :=
  if s.gate ∨ s.pkg.under ≤ psStandby then false
  else if s.hbRuns then decide ((s.time.now - s.spr.hbAt) % ms < ms / 2)
  else true

/-- A member sends a `HEARTBEAT` every 1 ms to its spare's LPN (R427). -/
def execHeartbeatSend (t : Nat) (s : State) : Out1 :=
  let s0 := s.advance t
  let p := s0.spr
  if !s0.hbRuns ∨ p.role ≠ 1 ∨ s0.time.now < p.hbAt + ms then ok s0
  else
    match p.members with
    | [] => ok s0
    | m :: _ =>
      let q := (p.hbSeq + 1) % 2 ^ 32
      ok ({ s0 with spr := { p with hbSeq := q, hbAt := s0.time.now } }.sendMgt ⟨1, false, 0, m.lpn, s0.lpn, s0.ctx.gen, q⟩)

/-- A spare watches its lines: `SPARE_STATE` 2 or 5 (R429, R439). -/
def Spr.watches (p : Spr) : Bool := p.role == 2 && (p.state == 2 || p.state == 5)

/-- The time from which a path has been silent for 5 ms. -/
def silentFrom (last : Option Nat) : Option Nat := last.map (fun a => a + 5 * ms)

/-- A path's 5 ms have run out (R417, R429). -/
def State.pathExpired (s : State) (last : Option Nat) : Bool :=
  match silentFrom last with
  | some e => decide (watchCycle e < watchCycle s.time.now)
  | none => false

/-- An event at the expiry edge of a path's timer is a near miss (R417). -/
def State.pathNear (s : State) (last : Option Nat) : State :=
  match silentFrom last with
  | some e => if watchCycle e = watchCycle s.time.now then s.nearMissEvent 11 else s
  | none => s

/-- A line is armed by a heartbeat and an edge within one 5 ms window; when every line of the binding is armed, `SPARE_STATE` is 2 (R429, R439). -/
def State.arm (s : State) (k : Nat) : State :=
  let l := s.spr.line k
  let near := match l.lastA, l.lastB with
    | some a, some b => decide (a ≤ b + 5 * ms ∧ b ≤ a + 5 * ms)
    | _, _ => false
  let s1 := if near then s.setLine k { l with armed := true } else s
  if s1.spr.members.all (fun m => (s1.spr.line m.line).armed) then { s1 with spr := { s1.spr with state := 2 } } else s1

/-- A `HEARTBEAT` is received (R429). -/
def execHeartbeat (l t : Nat) (s : State) : Out1 :=
  let s0 := s.advance t
  match s0.takeRx l (isMgt 1) with
  | some (.mgt m, s1) =>
    if m.dlpn ≠ s1.lpn ∨ s1.spr.displaced then
      let k := s1.link l
      ok (s1.setLink l { k with misroute := satInc 16 k.misroute })
    else if !s1.spr.watches then ok s1
    else
      match s1.spr.members.find? (fun e => e.lpn == m.slpn) with
      | none => ok s1
      | some e =>
        let x := s1.spr.line e.line
        let s2 := s1.pathNear x.lastA
        ok ((s2.setLine e.line { x with lastA := some s2.time.now, aOk := true, silentAt := none }).arm e.line)
  | _ => ok s0

/-- An edge on `HB_ACK_IN[k]` (R429). -/
def execHbAckEdge (k : Nat) (high : Bool) (t : Nat) (s : State) : Out1 :=
  let s0 := s.advance t
  if 17 < k then ok s0
  else
    let x := s0.spr.line k
    let x1 := { x with lastB := some s0.time.now, level := high, low := if high then x.low else s0.time.now }
    if s0.spr.watches ∧ (s0.spr.entryOf k).isSome then
      ok (((s0.pathNear x.lastB).setLine k { x1 with bOk := true, silentAt := none }).arm k)
    else ok (s0.setLine k x1)

/-- When both paths of a line have been silent for 5 ms. -/
def SprLine.fell (x : SprLine) : Nat :=
  match x.lastA, x.lastB with
  | some a, some b => max a b + 5 * ms
  | _, _ => 0

/-- Both paths of an armed line are silent. -/
def State.lineSilent (s : State) (k : Nat) : Bool :=
  let x := s.spr.line k
  x.armed && s.pathExpired x.lastA && s.pathExpired x.lastB

/-- A line of the binding has both paths silent: a takeover of its member starts, or, where another armed line fell silent within the same 5 ms, none does (R429, R435). A spare whose gate is
closed, or that has failed to fence since it was bound, begins none (R431, R438). -/
def State.judgeSilence (s : State) (k : Nat) : State :=
  let x := s.spr.line k
  if !s.lineSilent k ∨ x.silentAt.isSome then s
  else
    let s1 := s.setLine k { x with silentAt := some s.time.now }
    let twin := s1.spr.members.any (fun m =>
      let y := s1.spr.line m.line
      m.line != k && s1.lineSilent m.line && decide (y.fell ≤ x.fell + 5 * ms ∧ x.fell ≤ y.fell + 5 * ms))
    if twin then { s1 with spr := { s1.spr with multiSilent := true } }
    else if s1.gate ∨ s1.spr.noTake then s1
    else { s1 with spr := { s1.spr with state := 3, takeLine := k, phase := 1, takeAt := s1.time.now, restored := 0 } }

/-- Path A of line k is silent (R429). -/
def execHeartbeatPathASilent (k t : Nat) (s : State) : Out1 :=
  let s0 := s.advance t
  let x := s0.spr.line k
  if !s0.spr.watches ∨ (s0.spr.entryOf k).isNone ∨ !s0.pathExpired x.lastA then ok s0
  else ok ((s0.setLine k { x with aOk := false }).judgeSilence k)

/-- Path B of line k is silent (R429). -/
def execHeartbeatPathBSilent (k t : Nat) (s : State) : Out1 :=
  let s0 := s.advance t
  let x := s0.spr.line k
  if !s0.spr.watches ∨ (s0.spr.entryOf k).isNone ∨ !s0.pathExpired x.lastB then ok s0
  else ok ((s0.setLine k { x with bOk := false }).judgeSilence k)

/-! ### Takeover (R435, R436, R438) -/

/-- A takeover stands at a step and may go on (R431). -/
def State.takeStep (s : State) (phase : Nat) : Bool := s.spr.state == 3 && s.spr.phase == phase && !s.gate

/-- The watch core asserts the fence (R431, R435). -/
def execTakeoverFence (t : Nat) (s : State) : Out1 :=
  let s0 := s.advance t
  if !s0.takeStep 1 ∨ s0.pkg.watchStall then ok s0
  else ok { s0 with spr := { s0.spr with fenceOut := s0.spr.fenceOut ||| 2 ^ s0.spr.takeLine, phase := 2, takeAt := s0.time.now } }

/-- The time from which the fenced member's line has been steady low since the assertion; none while it is high. -/
def State.steadyFrom (s : State) : Option Nat :=
  let x := s.spr.line s.spr.takeLine
  if x.level then none else some (max x.low s.spr.takeAt)

/-- A claim of the LPN that this package holds (R277). -/
def State.claimSlot (s : State) : Mgt := ⟨0x20, true, 0, 0, s.lpn, s.ctx.gen, s.pid⟩

/-- A claim of the own LPN by another package: `DISPLACED` (R437). The role of time master follows the LPN (R152). -/
def State.displace (s : State) : State :=
  let s1 := { s with spr := { s.spr with displaced := true }, pkg := { s.pkg with lpnValid := false } }
  (s1.beginKill 5 s1.lpn s1.ctx.id true).timeRole false

/-- Another package's claim of LPN `x` has come within the last second (R277): where two spares take one member over, the first claim wins (R440). -/
def State.claimLost (s : State) (x : Nat) : Bool :=
  s.st.claimsSeen.any (fun (e : Nat × Nat × Nat) => e.1 == x && e.2.1 != s.pid && decide (s.time.now < e.2.2 + 1000 * ms))

/-- `HB_ACK_IN` has been steady low for 1 ms: the spare takes the LPN and broadcasts its claim, the role of time master follows the LPN, and restore begins: requests of the stacks are applied and
later ones held (R152, R277, R435, R436). A spare that has received another's claim of the LPN sends none and is `DISPLACED` (R437, R440). -/
def execTakeoverProceed (rsp : List (Nat × List (Nat × Nat))) (t : Nat) (s : State) : Out1 :=
  let s0 := s.advance t
  match s0.steadyFrom, s0.spr.entryOf s0.spr.takeLine with
  | some a, some (_, m) =>
    if !s0.takeStep 2 ∨ s0.time.now < a + ms ∨ s0.spr.takeAt + 20 * ms < a + ms then ok s0
    else
      let s1 := { s0 with lpn := m.lpn, pkg := { s0.pkg with lpnValid := true }, spr := { s0.spr with takenLpn := some m.lpn, phase := 3 } }
      let s4 := if s0.claimLost m.lpn then s1.displace
        else
          let s2 := s1.broadcast s1.claimSlot none
          ({ s2 with st := { s2.st with claimAgain := some (s2.time.now + 2000 * ms) } }).timeRole false
      ok ((List.range 8).foldl (fun (u : State) k => (u.drainStack k rsp).zeroStart k) s4)
  | _, _ => ok s0

/-- No steady low within 20 ms of the assertion: the takeover is abandoned (R438). -/
def execFenceFail (t : Nat) (s : State) : Out1 :=
  let s0 := s.advance t
  let steady : Bool := match s0.steadyFrom with
    | some a => decide (a + ms ≤ s0.spr.takeAt + 20 * ms)
    | none => false
  if !s0.takeStep 2 ∨ s0.time.now < s0.spr.takeAt + 20 * ms ∨ steady then ok s0
  else
    let k := s0.spr.takeLine
    let s1 := s0.setLine k { s0.spr.line k with armed := false }
    ok { s1 with spr := { s1.spr with state := 2, phase := 0, fenceFail := true, noTake := true, fenceFails := satInc 8 s1.spr.fenceFails } }

/-- Where the last complete point of line k lies in the spare's lake, and its length (R433). -/
def State.pointAt (s : State) (k : Nat) : Nat × Nat :=
  let p := s.spr
  let x := p.line k
  let j := ((p.entryOf k).map Prod.fst).getD 0
  let half := if p.double x.lastUnits then x.lastPoint % 2 * (p.slotBytes / 2) else 0
  (j * p.slotBytes + half, if x.lastPoint = 0 then 0 else x.lastUnits * 4096)

/-- Move what a table holds of the restored point, at `unit` bytes a key, to the member's regions; `o` is the mirror offset of the first region. -/
def movedTo {α : Type} (m : Tab α) (unit src len : Nat) : List (Nat × Nat) → Nat → Tab α → Tab α
  | [], _, acc => acc
  | (a, n) :: r, o, acc =>
    let lo := src + o
    let hi := min (lo + n) (src + len)
    let acc1 := m.foldl (fun (u : Tab α) e => if lo ≤ e.1 * unit ∧ e.1 * unit < hi then Tab.set u ((a + (e.1 * unit - lo)) / unit) e.2 else u) acc
    movedTo m unit src len r (o + n) acc1

/-- The last complete point is restored to X's regions, and every lake byte outside them is zero (R436). `regions` are X's regions in order: the spec does not say how the spare knows them (log
entry 91). A word with a single-bit error moves corrected; one with a double-bit error stays detected. -/
def State.restore (s : State) (regions : List (Nat × Nat)) : State :=
  let at_ := s.pointAt s.spr.takeLine
  let words := (s.lake.flips.map Prod.fst).filter (fun w => decide (at_.1 ≤ 4 * w ∧ 4 * w < at_.1 + at_.2))
  let m := words.foldl copyWord (s.lake.mem, s.lake.flips)
  { s with lake := { s.lake with mem := movedTo m.1 1 at_.1 at_.2 regions 0 [], flips := movedTo m.2 4 at_.1 at_.2 regions 0 [] } }

/-- Restore and zeroing have covered the lake (R436). -/
def execMirrorRestoreDone (regions : List (Nat × Nat)) (t : Nat) (s : State) : Out1 :=
  let s0 := s.advance t
  if !s0.takeStep 3 ∨ !(List.range 8).all (fun k => (s0.stack k).awake) then ok s0
  else
    let x := s0.spr.line s0.spr.takeLine
    let s1 := s0.restore regions
    let lines := s1.spr.lines.map (fun (e : Nat × SprLine) => (e.1, { e.2 with lastPoint := 0, lastUnits := 0, curPoint := 0, units := 0, bytes := 0 }))
    ok { s1 with spr := { s1.spr with phase := 4, restored := x.lastPoint, lines := lines } }

/-- The takeover is complete: what was held is served, and the package shows `CONFIGURED` (R340, R435). `rsp` names, by packet, words with bits flipped at the pins on the answers. -/
def execTakeoverDone (rsp : List (Nat × List (Nat × Nat))) (t : Nat) (s : State) : Out1 :=
  let s0 := s.advance t
  if !s0.takeStep 4 then ok s0
  else
    let s1 := (List.range 8).foldl (fun (u : State) k =>
      let st := u.stack k
      (u.setStack k { st with zeroing := false, heldQ := [] }).lakeResume k rsp st.heldQ) s0
    let s2 := { s1 with spr := { s1.spr with state := 4, phase := 0, takeovers := satInc 8 s1.spr.takeovers } }
    ok (if s2.pkg.under = psWatch then s2.enter psConf else s2)

/-! ### The claim of an LPN -/

/-- A received `LPN_CLAIM`: applied to the package itself, then relayed once (R277, R437). -/
def execLpnClaim (l t : Nat) (s : State) : Out1 :=
  let s0 := s.advance t
  match s0.takeRx l (isMgt 0x20) with
  | some (.mgt m, s1) =>
    let pid := fld m.arg 18 0
    let s2 := if s1.pkg.lpnValid ∧ m.slpn = s1.lpn ∧ pid ≠ s1.pid then s1.displace else s1
    let fresh := s2.st.claimsSeen.filter (fun (e : Nat × Nat × Nat) => decide (s2.time.now < e.2.2 + 1000 * ms))
    if fresh.any (fun e => e.1 == m.slpn && e.2.1 == pid) then
      let k := s2.link l
      ok (s2.setLink l { k with repeatDrop := satInc 16 k.repeatDrop })
    else ok ({ s2 with st := { s2.st with claimsSeen := fresh ++ [(m.slpn, pid, s2.time.now)] } }.broadcast m (some l))
  | _ => ok s0

/-- The spare sends its claim again 2 s after the first (R277). -/
def execLpnClaimResend (t : Nat) (s : State) : Out1 :=
  let s0 := s.advance t
  match s0.st.claimAgain with
  | none => ok s0
  | some a =>
    if s0.time.now < a then ok s0
    else
      let s1 := { s0 with st := { s0.st with claimAgain := none } }
      ok (if s1.spr.displaced ∨ !s1.pkg.lpnValid then s1 else s1.broadcast s1.claimSlot none)

/-! ### Mirror writes at the spare (R433, R434) -/

/-- A mirror-class request that waits at the package edge, with the `SLPN` it carries. -/
def State.mirrorPkt (s : State) (id : Nat) : Option (Pkt × Nat) :=
  match s.pkt id with
  | none => none
  | some p =>
    match p.asker with
    | .link _ _ slpn _ true => if p.inHub ∧ p.arrived ∧ !isRsp p.kind then some (p, slpn) else none
    | _ => none

/-- A mirror request is refused (R434). -/
def State.mirrorRefuse (s : State) (p : Pkt) (code : Nat) : State :=
  let s1 := s.delPkt p.id
  ({ s1 with spr := { s1.spr with mirRefused := satInc 16 s1.spr.mirRefused } }).hubError p code

/-- The lake address of mirror offset `o` of point `pt` of entry `j`, and the end of the slot or half in use (R433). -/
def Spr.mirrorBase (p : Spr) (j pt units : Nat) : Nat × Nat :=
  if p.double units then (j * p.slotBytes + pt % 2 * (p.slotBytes / 2), p.slotBytes / 2) else (j * p.slotBytes, p.slotBytes)

/-- What a line holds once a write of point `pt` has been applied: the point that is current, its bytes, and whether it is complete (R433, R434). -/
def SprLine.applied (x : SprLine) (pt units n : Nat) (double : Bool) : SprLine :=
  let x1 := if x.curPoint < pt then { x with curPoint := pt, units := units, bytes := 0, lastPoint := if double then x.lastPoint else 0 } else x
  let x2 := { x1 with bytes := x1.bytes + n }
  if x2.bytes = x2.units * 4096 then { x2 with lastPoint := pt, lastUnits := x2.units } else x2

/-- A mirror write is applied to the lake and acknowledged; it waits where its stack zeroes (R213), its channel sleeps (R210), its row is being copied (R217), an
earlier request to its bursts waits (R205), or another requester's transfer is in use on its channel (R208). Its words and those of the answer cross the pins (R215): `req` and `rsp` name flipped
bits, a double-bit error leaves the request unapplied, and one in the answer lets no answer through. -/
def State.mirrorStore (s : State) (p : Pkt) (a : Nat) (req rsp : List (Nat × Nat)) (f : State → State) : State :=
  let q := { p with addr := a }
  let k := lakeStack s.lake.mode a
  let need := lakeBlocks q.addr q.extent
  let asleep := s.lakeAsleep need
  if (s.stack k).zeroing ∨ s.lakeCopies need ∨ s.waitsBefore k q then s
  else if !asleep.isEmpty then asleep.foldl State.askWake s
  else if !(s.chanBusy need 1).isEmpty then s.chanAsk need 1
  else
    let h := pinCheck q req
    let s1 := (((((s.lakeUse need).chanUse need 1).lakeCount [(p.addr, p.extent)]).pinFound k q h).delPkt p.id)
    if h.badHdr || h.badData then s1
    else
      let w := pinCheck (p.answer 0x04 [0, 0, 0, 0] []) rsp
      let s2 := (f (s1.lakeStore a (bytesOfWords (h.p.data.take p.words)))).pinFound k q w
      if w.badHdr || w.badData then s2 else s2.hubAnswer (p.answer 0x04 [0, 0, 0, 0] [])

/-- A `PKT` with `MIR` = 1 at the package edge (R434). `req` and `rsp` name words with bits flipped at the pins of lake. -/
def execMirrorWrite (id : Nat) (req rsp : List (Nat × Nat)) (t : Nat) (s : State) : Out1 :=
  let s0 := s.advance t
  match s0.mirrorPkt id with
  | none => ok s0
  | some (p, slpn) =>
    let q := s0.spr
    match q.members.find? (fun m => m.lpn == slpn) with
    | none => ok (s0.mirrorRefuse p 0x0004)
    | some m =>
      let x := q.line m.line
      let pt := p.extWord 0
      let units := p.extWord 1
      let j := ((q.entryOf m.line).map Prod.fst).getD 0
      let base := q.mirrorBase j pt units
      let n := 4 * p.words
      if !q.watches then ok (s0.mirrorRefuse p 0x0004)
      else if p.kind ≠ 0x03 then ok (s0.mirrorRefuse p 0x0001)
      else if pt < x.curPoint then ok (s0.mirrorRefuse p 0x0001)
      else if base.2 < p.addr + n then ok (s0.mirrorRefuse p 0x0001)
      else ok (s0.mirrorStore p (base.1 + p.addr) req rsp (fun u => u.setLine m.line ((u.spr.line m.line).applied pt units n (q.double units))))

end Sys2Proof.Machine
end

