-- ==== Sys2Proof/Machine/FwCmds.lean ====
section
/-!
DEFINITION. Firmware staging, activation, handover, self-check and rollback (R333, R334, R444 to R453).
-/
namespace Sys2Proof.Machine

/-! ### Staging (R444 to R446) -/

/-- Bytes of part q of chunk c of an image of `len` bytes. -/
def partLen (len c q : Nat) : Nat := min 1024 (len - (c * 65536 + q * 1024))

/-- The parts of chunk c. -/
def partCount (len c : Nat) : Nat := (min 65536 (len - c * 65536) + 1023) / 1024

/-- `FW_STAGE_BEGIN`: with the digest held it resumes, else it erases and starts afresh, and is answered by `STAGING_ERASE_DONE`. -/
def execFwStageBegin (mb t : Nat) (s : State) : Out1 :=
  ok (s.command mb t (Cmd.fixed 0x0701 72 [2] true []) (fun u r =>
    let len := r.f 0 4
    let digest := (r.payload.drop 8).take 64
    let f := u.fw
    if f.act ≠ 0 then (u, some (Resp.err 0x0708))
    else if fwMax < len ∨ r.f 4 4 ≠ fwChunks len ∨ r.data.length ≠ 4 * fwChunks len then (u, some (Resp.err 0x0709))
    else if f.staging ∧ f.stageDigest = digest then (u, some (Resp.ok_ (leBytes 4 f.chunks.length ++ f.bitmap)))
    else ({ u with fw := { f with staging := true, erasing := true, stageLen := len, stageDigest := digest, manifest := r.data, chunks := [], parts := [], writing := none } }, none)))

/-- The erase has finished. -/
def execStagingEraseDone (t : Nat) (s : State) : Out1 :=
  let s0 := s.advance t
  ok (if s0.fw.erasing then
      let s1 := { s0 with fw := { s0.fw with erasing := false } }
      s1.answerOp 0x0701 (Resp.ok_ (leBytes 4 s1.fw.chunks.length ++ s1.fw.bitmap))
    else s0)

/-- The payload of a `FW_CHUNK` response. -/
def State.chunkResp (s : State) (c : Nat) : Resp := Resp.ok_ (leBytes 2 c ++ leBytes 1 (b2n (Tab.has s.fw.chunks c) + 2 * b2n s.fw.whole) ++ [0#8])

/-- `FW_CHUNK`: the last part of a chunk leads to its check; a chunk that passes is written, and answered by `CHUNK_WRITE_DONE`. -/
def execFwChunk (mb t : Nat) (s : State) : Out1 :=
  ok (s.command mb t (Cmd.fixed 0x0702 4 [2] true [(3, 1)]) (fun u r =>
    let c := r.f 0 2
    let q := r.f 2 1
    let f := u.fw
    if f.act ≠ 0 then (u, some (Resp.err 0x0708))
    else if !f.staging ∨ f.erasing then (u, some (Resp.err 0x0701))
    else if fwChunks f.stageLen ≤ c ∨ 63 < q ∨ partLen f.stageLen c q = 0 ∨ r.data.length ≠ partLen f.stageLen c q then (u, some (Resp.err 0x0702))
    else if Tab.has f.chunks c then (u, some (u.chunkResp c))
    else
      let parts := Tab.set f.parts (c * 64 + q) r.data
      let n := partCount f.stageLen c
      if (List.range n).any (fun i => !Tab.has parts (c * 64 + i)) then
        let v := { u with fw := { f with parts := parts } }
        (v, some (v.chunkResp c))
      else
        let b := (List.range n).flatMap (fun i => Tab.get [] parts (c * 64 + i))
        let rest := parts.filter (fun (e : Nat × List Byte) => decide (e.1 / 64 ≠ c))
        if shake256 b 4 = (f.manifest.drop (4 * c)).take 4 then ({ u with fw := { f with parts := rest, writing := some (c, b) } }, none)
        else ({ u with fw := { f with parts := rest } }, some (Resp.err 0x0702))))

/-- The checked chunk stands in the staging area. -/
def execChunkWriteDone (t : Nat) (s : State) : Out1 :=
  let s0 := s.advance t
  match s0.fw.writing with
  | none => ok s0
  | some (c, b) =>
    let s1 := { s0 with fw := { s0.fw with writing := none, chunks := Tab.set s0.fw.chunks c b } }
    ok (s1.answerOp 0x0702 (s1.chunkResp c))

/-- `FW_STATUS`. -/
def execFwStatus (mb t : Nat) (s : State) : Out1 :=
  ok (s.commandNow mb t (Cmd.fixed 0x0703 0 [1, 2] false []) (fun u _ =>
    let f := u.fw
    (u, Resp.ok_ (leBytes 4 (fwVersion f.runImage) ++ leBytes 4 (fwVersion (f.slots.getD (1 - f.run) [])) ++ leBytes 4 (if f.whole then fwVersion f.staged else 0)
      ++ leBytes 4 f.chunks.length ++ leBytes 1 f.arb ++ leBytes 1 f.flags ++ zeros 2 ++ leBytes 4 u.leaseS ++ f.bitmap))))

/-! ### Activation (R448, R449) -/

/-- The status of an `FW_ACTIVATE`, 0 where the activation is requested. -/
def State.activateStatus (s : State) : Nat :=
  let f := s.fw
  if f.act ≠ 0 then 0x0708
  else if !f.staging then 0x0701
  else if !f.whole then 0x0703
  else if shake256 f.staged 64 ≠ f.stageDigest ∨ !s.fwGood f.staged then 0x0704
  else if !s.fwValid f.staged then 0x0705
  else 0

/-- `FW_ACTIVATE`: the notice of 60 s starts. A request that meets the host's lease is logged (R314). -/
def execFwActivate (mb t : Nat) (s : State) : Out1 :=
  ok (s.commandNow mb t (Cmd.fixed 0x0704 0 [2] false []) (fun u r =>
    let st := u.activateStatus
    if st ≠ 0 then (if u.fw.leaseEnd.isSome then u.addOrder 0x0704 (partyCode mb) 1 r.seq 1 1 else u, Resp.err st)
    else ({ u with fw := { u.fw with act := 1, reqAt := u.time.now, reqSeq := r.seq, leaseEnd := none, leaseUsed := false, prepared := false, fail := 0 } }, Resp.ok_ (leBytes 4 0 ++ leBytes 4 60))))

/-- `FW_DEFER`: the lease runs from here, once for each request, and the activation that now waits is logged as the manager's order met by the host's (R314, R333). A value outside 1
to 86,400 is granted as the nearest one. -/
def execFwDefer (mb t : Nat) (s : State) : Out1 :=
  ok (s.commandNow mb t (Cmd.fixed 0x0705 4 [1] false []) (fun u r =>
    if u.fw.act ≠ 1 then (u, Resp.err 0x0707)
    else if u.fw.leaseUsed then (u, Resp.err 0x0706)
    else
      let n := max 1 (min 86400 (r.f 0 4))
      (({ u.addOrder 0x0704 2 (partyCode mb) u.fw.reqSeq 1 1 with fw := { u.fw with leaseEnd := some (u.time.now + n * 1000 * ms), leaseUsed := true } }), Resp.ok_ (leBytes 4 n))))

/-- The steps of R448 end: the image stands in the other slot, and its components in the standby program region and the watch core's standby code bank. `good` says that slot write, readback and loads succeeded; where they did not, `left` is what the slot then holds. -/
def execActivationPrepDone (good : Bool) (left : List Byte) (t : Nat) (s : State) : Out1 :=
  let s0 := s.advance t
  let f := s0.fw
  if f.act ≠ 1 ∨ f.prepared then ok s0
  else if good ∧ s0.fwValid f.staged then
    ok { s0 with fw := { f with prepared := true, slots := f.slots.set (1 - f.run) f.staged, standby := fwPart f.staged 1, watchBank := fwPart f.staged 2 } }
  else
    let s1 := { s0 with fw := { f with slots := f.slots.set (1 - f.run) (if good then f.staged else left) } }
    ok (s1.cancelActivation 1)

/-- The end of the notice, or of the lease. -/
def Fw.beginsAt (f : Fw) : Nat := f.leaseEnd.getD (f.reqAt + 60000 * ms)

/-- The version and `SVN` of an image as event data (R454). -/
def fwEvent (b : List Byte) (v : Nat) : Nat := place (fwVersion b) 32 0 + place v 8 32

/-- Activation begins: the drain (R449, R450). -/
def execActivationBegin (t : Nat) (s : State) : Out1 :=
  let s0 := s.advance t
  let f := s0.fw
  let busy := s0.shown == psBoot || s0.shown == psTrain || s0.shown == psTear
  if f.act ≠ 1 ∨ !f.prepared ∨ watchCycle s0.time.now ≤ watchCycle f.beginsAt ∨ busy ∨ s0.spr.state = 3 ∨ s0.ld.active then ok s0
  else
    let b := f.slots.getD (1 - f.run) []
    ok ({ s0 with fw := { f with act := 2, leaseEnd := none } }.event 0x0020 5 (fwEvent b (fwSvn b)))

/-! ### Handover (R450, R451) -/

/-- `HANDOVER` on every mailbox. -/
def State.setHandover (s : State) (b : Bool) : State := (List.range 6).foldl (fun (u : State) n => u.setMbx n { u.mbx n with handover := b, hoHidden := false }) s

/-- The handover record as the outgoing firmware writes it (R450): nothing is under way in the journal once the drain has ended. -/
def State.handRecord (s : State) : HandRec :=
  let p := s.spr
  let journal := (List.range 6).filterMap (fun n => (s.mbx n).ghost)
  let binding := [p.role, p.group, p.budget, p.state] ++ p.members.flatMap (fun m => [m.pid, m.lpn, m.line])
  let orders := [s.m.capHost, s.m.capMgr, b2n s.m.sprintHost, b2n s.m.sprintMgr] ++ s.m.holders
  let heads := [s.logs.events.length, s.logs.faults.length, s.logs.orders.length]
  { journal := journal, binding := binding, orders := orders, heads := heads, digest := shake256 (Config.recordBytes (journal ++ binding ++ orders ++ heads)) 64 }

/-- The digest of the record holds. -/
def HandRec.good (r : HandRec) : Bool := r.digest == shake256 (Config.recordBytes (r.journal ++ r.binding ++ r.orders ++ r.heads)) 64

/-- The drain has ended: every executing command is answered. `HANDOVER` is set, the record written, and the cores restart in the standby region, which becomes the running one. -/
def execHandoverStart (t : Nat) (s : State) : Out1 :=
  let s0 := s.advance t
  let f := s0.fw
  if f.act ≠ 2 ∨ (List.range 6).any (fun n => (s0.mbx n).busy || (s0.mbx n).ghost.isSome) then ok s0
  else
    ok ({ s0 with fw := { f with
      act := 3, record := some s0.handRecord, run := 1 - f.run, prev := f.run, runImage := f.slots.getD (1 - f.run) [], region := f.standby, standby := f.region,
      prepared := false, runAt := s0.time.now } }.setHandover true)

/-- The new firmware imports the record, whose digest must hold; where that fails the self-check has failed, and stays so (R452). -/
def execHandoverImport (good : Bool) (t : Nat) (s : State) : Out1 :=
  let s0 := s.advance t
  if s0.fw.act ≠ 3 ∨ s0.fw.fail ≠ 0 then ok s0
  else if good ∧ s0.fw.record.any HandRec.good then ok { s0 with fw := { s0.fw with act := 4 } }
  else ok { s0 with fw := { s0.fw with fail := 1 } }

/-- The watch core switches code bank at a control-period boundary, between two control decisions; the bank it leaves keeps the previous code (R450). -/
def execWatchBankSwitch (t : Nat) (s : State) : Out1 :=
  let s0 := s.advance t
  ok (if s0.fw.act = 4 ∧ !s0.pkg.watchStall ∧ s0.atBoundary then { s0 with fw := { s0.fw with act := 5, watch := s0.fw.watchBank, watchBank := s0.fw.watch, watchNext := none } } else s0)

/-- `HANDOVER` clears and commands resume: after a handover the self-check begins; after a rollback nothing is left of the activation. -/
def execHandoverEnd (t : Nat) (s : State) : Out1 :=
  let s0 := s.advance t
  if s0.fw.act = 5 then ok ({ s0 with fw := { s0.fw with act := 6, selfAt := s0.time.now, record := none, fail := 0 } }.setHandover false)
  else if s0.fw.act = 7 then ok ({ s0 with fw := { s0.fw with act := 0, record := none, fail := 0 } }.setHandover false)
  else ok s0

/-! ### Self-check, rollback, anti-rollback (R452, R453) -/

/-- The level rises to the `SVN` of the image that the boot record names and that has run for 60 s without a self-check failure, and the slots of its `REVOKE` are revoked (R453). -/
def State.arbRaise (s : State) : State :=
  let f := s.fw
  { s with fw := { f with arb := min 64 (max f.arb (fwSvn f.runImage)), revoked := f.revoked ||| (leAt f.runImage 13 1 % 16) } }

/-- The self-check passes after 60 s (R452): the boot record names the new slot, the staging area empties, and the event carries the level after the raise of R453 (R454). `cut` says that power
is lost during the write of the boot record, which so leaves the previous one in force (R441). -/
def execSelfCheckPass (cut : Bool) (t : Nat) (s : State) : Out1 :=
  let s0 := s.advance t
  let f := s0.fw
  if f.act ≠ 6 ∨ f.fail ≠ 0 ∨ s0.beatStood ∨ s0.time.now < f.selfAt + 60000 * ms then ok s0
  else if cut then ok { s0 with fw := f.writeBoot f.run true }
  else
    let s1 := { s0 with fw := { f.writeBoot f.run false with
      act := 0, leaseEnd := none, leaseUsed := false, staging := false, erasing := false, stageLen := 0, stageDigest := [], manifest := [], chunks := [], parts := [], writing := none } }
    let s2 := s1.arbRaise
    ok (s2.event 0x0021 5 (fwEvent f.runImage s2.fw.arb))

/-- The cause of a rollback that is due: what the self-check has met, `HEARTBEAT` standing for 50 ms, or the firmware's own checks (`own`). -/
def State.rollCause (s : State) (own : Bool) : Option Nat :=
  let f := s.fw
  if f.act = 3 ∧ f.fail = 1 then some 1
  else if f.act ≠ 6 then none
  else if f.fail ≠ 0 then some f.fail
  else if s.beatStood then some 3
  else if own then some 4
  else none

/-- The package rolls back to the previous image (R452): the cores restart in the previous program region, and the watch core returns to its previous code bank at a control-period boundary. -/
def execRollback (own : Bool) (t : Nat) (s : State) : Out1 :=
  let s0 := s.advance t
  match s0.rollCause own with
  | none => ok s0
  | some c =>
    let f := s0.fw
    let s1 := { s0 with fw := { f with
      act := 7, run := f.prev, prev := f.run, runImage := f.slots.getD f.prev [], region := f.standby, standby := f.region, watchNext := if f.act = 6 then some f.watchBank else f.watchNext,
      rolled := true, fail := 0, record := none, runAt := s0.time.now, leaseUsed := false } }
    ok ((s1.setHandover true).event 0x0022 5 (fwEvent f.runImage c))

/-- The image that the boot record names has run for 60 s: the level rises (R453). -/
def execArbRaise (t : Nat) (s : State) : Out1 :=
  let s0 := s.advance t
  let f := s0.fw
  ok (if !s0.booted ∨ !s0.pkg.bootOk ∨ f.act = 6 ∨ f.act = 7 ∨ f.run ≠ f.active ∨ s0.time.now < f.runAt + 60000 * ms then s0 else s0.arbRaise)

end Sys2Proof.Machine
end

