-- ==== Sys2Proof/Machine/AttestCmds.lean ====
section
/-!
DEFINITION. The commands of groups 0x08xx and 0x09xx: attestation, identity and management keys (R335, R336, R455 to R457), logs and registers (R337, R314, R346, R421, R422).
-/
namespace Sys2Proof.Machine

/-! ### Reports (R456, R457) -/

/-- The entry of a defect as log 3 shows it (R346). -/
def Defect.bytes (d : Defect) : List Byte :=
  leBytes 8 d.ft ++ leBytes 1 d.kind ++ leBytes 1 d.source ++ zeros 2 ++ leBytes 4 d.location ++ leBytes 1 d.spare ++ zeros 15

/-- The 48 bytes of the perturbation registers in number order (R464). -/
def State.pertBytes (s : State) : List Byte := (List.range 12).flatMap (fun i => leBytes 4 (Tab.get 0 s.pert.regs (i + 1)))

/-- The body of a report. -/
def State.reportBody (s : State) (nonce : List Byte) : List Byte :=
  let f := s.fw
  let other := f.slots.getD (1 - f.run) []
  leBytes 4 0x54413959 ++ leBytes 2 1 ++ leBytes 2 512 ++ nonce ++ leBytes 8 s.time.ft ++ leBytes 4 s.pidWord ++ leBytes 8 s.pkg.serial ++ leBytes 1 0x09 ++ leBytes 1 0xB0
    ++ leBytes 1 f.arb ++ leBytes 1 f.flags ++ leBytes 4 (fwVersion f.runImage) ++ leBytes 1 (fwSvn f.runImage) ++ leBytes 1 f.run ++ zeros 2
    ++ shake256 f.runImage 64 ++ (if s.fwValid other then shake256 other 64 else zeros 64) ++ (if f.staging then f.stageDigest else zeros 64)
    ++ (match s.cfg.image with
      | some im => im.digest
      | none => zeros 64)
    ++ shake256 (s.logs.defects.flatMap Defect.bytes) 64 ++ leBytes 4 s.ctxIdShown ++ leBytes 2 s.ctx.gen ++ leBytes 2 s.lpnWord ++ leBytes 1 s.shown ++ leBytes 1 s.reasonShown
    ++ leBytes 1 s.spr.state ++ zeros 1 ++ leBytes 4 s.debugFlags ++ shake256 s.pertBytes 64
    ++ leBytes 1 (maskOf ((List.range 4).filter (fun i => Tab.has s.m.keys i)) + 16 * (f.revoked % 16)) ++ zeros 3 ++ leBytes 4 f.boots ++ zeros 32

def reportLen : Nat := 50368

/-- A report: its body and the signature of the identity key over it. -/
def reportOf (body : List Byte) : List Byte := body ++ (List.range 49856).map (Config.signByte body)

/-- The report that an `ATTEST` of a mailbox reads: the cached one for the nonce it was formed for, else a new one, which takes its place. -/
def State.report (s : State) (mb : Nat) (nonce : List Byte) : State × List Byte :=
  let fresh := s.reportBody nonce
  let new := ({ s with fw := { s.fw with reports := Tab.set s.fw.reports mb (nonce, fresh) } }, fresh)
  match Tab.find s.fw.reports mb with
  | some (n, b) => if n = nonce then (s, b) else new
  | none => new

/-- `ATTEST`. -/
def execAttest (mb t : Nat) (s : State) : Out1 :=
  ok (s.commandNow mb t (Cmd.fixed 0x0801 40 [1, 2] true [(36, 4)]) (fun u r =>
    let off := r.f 32 4
    if reportLen ≤ off then (u, Resp.err 0x0801)
    else
      let x := u.report mb (r.payload.take 32)
      (x.1, ⟨0, leBytes 4 reportLen ++ leBytes 4 off, ((reportOf x.2).drop off).take r.cap⟩)))

/-! ### Identity (R455) -/

/-- Bytes `off` to `off + n − 1` of the blob that the part decides. -/
def certBytes (off n : Nat) : List Byte := (List.range n).map (fun i => Config.certByte (off + i))

/-- A certificate of the blob that starts at byte `at_`: kind, device serial, and the digest of the issuer's key. -/
def certificate (at_ kind serial : Nat) (issuer : List Byte) : List Byte :=
  leBytes 4 0x54433959 ++ leBytes 2 1 ++ leBytes 1 kind ++ zeros 1 ++ certBytes (at_ + 8) 24 ++ leBytes 8 serial ++ zeros 8 ++ certBytes (at_ + 48) 64 ++ issuer ++ zeros 16
    ++ certBytes (at_ + 192) 49856

def certLen : Nat := 50048
def blobLen : Nat := 100112

/-- The identity blob: its header, the device certificate, and the manufacturing certificate that signed it. -/
def State.identityBlob (s : State) : List Byte :=
  let b := 16 + certLen
  leBytes 4 0x44493959 ++ leBytes 2 1 ++ leBytes 2 2 ++ zeros 8 ++ certificate 16 0 s.pkg.serial (shake256 (certBytes (b + 48) 64) 64) ++ certificate b 1 0 (certBytes (b + 112) 64)

/-- `IDENTITY`. -/
def execIdentity (mb t : Nat) (s : State) : Out1 :=
  ok (s.commandNow mb t (Cmd.fixed 0x0802 4 [1, 2] true []) (fun u r =>
    let off := r.f 0 4
    if blobLen ≤ off then (u, Resp.err 0x0801)
    else (u, ⟨0, leBytes 4 blobLen ++ leBytes 4 off, (u.identityBlob.drop off).take r.cap⟩)))

/-! ### Management keys (R335, R336) -/

/-- The request payload in a mailbox's slot is written over with zero bytes. -/
def State.wipePayload (s : State) (mb n : Nat) : State := { s with h := { s.h with ram := Mem.store s.h.ram (slotAddr mb (s.mbx mb).cons + 16) (zeros n), slotOld := Tab.del s.h.slotOld (slotAddr mb (s.mbx mb).cons) } }

/-- `KEY_SET`. -/
def execKeySet (mb t : Nat) (s : State) : Out1 :=
  ok (s.commandNow mb t (Cmd.fixed 0x0803 36 [1, 2] false [(1, 3)]) (fun u r =>
    let k := r.f 0 1
    let w := u.wipePayload mb 36
    if 3 < k then (w, Resp.err 0x0802)
    else if r.party = 1 ∧ Tab.has u.m.keys k then (w, Resp.err 0x0803)
    else ({ w with m := { w.m with keys := Tab.set w.m.keys k ⟨(r.payload.drop 4).take 32, 0, 0⟩ } }, Resp.ok_ [])))

/-- `KEY_CLEAR`. -/
def execKeyClear (mb t : Nat) (s : State) : Out1 :=
  ok (s.commandNow mb t (Cmd.fixed 0x0804 4 [2] false [(1, 3)]) (fun u r =>
    let k := r.f 0 1
    if 3 < k then (u, Resp.err 0x0802)
    else if Tab.has u.m.keys k ∧ u.m.keys.length = 1 then (u, Resp.err 0x0804)
    else ({ u with m := { u.m with keys := Tab.del u.m.keys k } }, Resp.ok_ [])))

/-! ### Logs (R337) -/

def EventEnt.bytes (e : EventEnt) : List Byte := leBytes 8 e.ft ++ leBytes 2 e.event ++ leBytes 1 e.source ++ zeros 1 ++ leBytes 20 e.data

def FaultEnt.bytes (e : FaultEnt) : List Byte :=
  leBytes 8 e.ft ++ leBytes 1 e.bit ++ leBytes 1 (b2n e.killed) ++ leBytes 2 e.gen ++ leBytes 4 e.ctxId ++ leBytes 2 e.stepId ++ leBytes 2 e.location ++ leBytes 8 e.detail ++ zeros 4

/-- The defect list as log 3 (R346): one entry for each unit of the union, with every source that marked it; `FT` is 0 until flash holds the unit. -/
def Logs.defectLog (l : Logs) : List Defect :=
  (l.fuses.map (fun (d : Defect) => { d with ft := 0, source := d.source ||| 1 }) ++ l.defects
    ++ (l.bist ++ l.pendingDefects).map (fun (d : Defect) => { d with ft := 0 })).foldl (fun acc d => markIn d acc) []

/-- The entries ever written to a log, and how many of the newest it keeps. -/
def State.logEntries (s : State) (log : Nat) : List (List Byte) × Nat :=
  if log = 0 then (s.logs.events.map EventEnt.bytes, 4096)
  else if log = 1 then (s.logs.orders.map (leBytes 32), 1024)
  else if log = 2 then (s.logs.faults.map FaultEnt.bytes, 1024)
  else (s.logs.defectLog.map Defect.bytes, s.logs.defectLog.length)

/-- `LOG_READ`. -/
def execLogRead (mb t : Nat) (s : State) : Out1 :=
  ok (s.commandNow mb t (Cmd.fixed 0x0901 12 [1, 2] true [(1, 3), (10, 2)]) (fun u r =>
    if 3 < r.f 0 1 then (u, Resp.err 0x0901)
    else
      let x := u.logEntries (r.f 0 1)
      let oldest := x.1.length - x.2
      let n := if r.staged then r.f 8 2 else min 7 (r.f 8 2)
      let es := ((x.1.drop (max oldest (r.f 4 4))).take n).flatten
      let head := leBytes 4 oldest ++ leBytes 4 x.1.length
      (u, if r.staged then ⟨0, head, es⟩ else Resp.ok_ (head ++ es))))

/-- The ranges that `REG_READ` reads: first address and end. -/
def regRanges : List (Nat × Nat) :=
  [(0x1F040000000, 0x1F040270000), (0x1F050000000, 0x1F050040000), (0x1F060000000, 0x1F060080000), (0x1F070000000, 0x1F070010000), (0x1F080000000, 0x1F080060000),
   (0x1F081000000, 0x1F081020000), (0x1F082000000, 0x1F082002000)]

/-- `REG_READ`. `same` gives for each word the events of the clock cycle of its read (R11). -/
def execRegRead (mb : Nat) (same : List Nat) (t : Nat) (s : State) : Out1 :=
  ok (s.commandNow mb t (Cmd.fixed 0x0902 12 [1, 2] false [(10, 2)]) (fun u r =>
    let a := r.f 0 8
    let n := r.f 8 2
    if a % 4 ≠ 0 ∨ n = 0 ∨ 56 < n ∨ !regRanges.any (fun x => decide (x.1 ≤ a ∧ a + 4 * n ≤ x.2)) then (u, Resp.err 0x0902)
    else
      let x := u.regRead a same n
      (x.1, Resp.ok_ (x.2.flatMap (leBytes 4)))))

end Sys2Proof.Machine
end

