-- ==== Sys2Proof/Machine/Teardown.lean ====
section
/-!
DEFINITION. The kill, the `ABORT`, the teardown sequence (R407 to R410), the restart of the Mordant complex (R413), and the writing of the flash defect list (R345).
-/
namespace Sys2Proof.Machine

/-- A kill begins for a local fault (R407, R137). -/
def execContextKill (t : Nat) (s : State) : Out1 :=
  let s0 := s.advance t
  ok (if s0.ctx.killDue = 0 then s0 else s0.beginKill 1 s0.lpn s0.ctx.id true)

/-- `ABORT` with the old generation goes out on every usable link unless the teardown sends none or the output gate is closed, and the generation changes (R276, R407). A warm reset goes on
into `BOOT` from here (R416), and so does a generation that would reach 0xFFFF (R411). -/
def execAbortSend (t : Nat) (s : State) : Out1 :=
  let s0 := s.advance t
  if !s0.ctx.killing ∨ s0.ctx.phase ≠ 1 then ok s0
  else
    let c := s0.ctx
    let s1 := if c.abortSent ∨ s0.gate then s0 else s0.broadcast ⟨2, true, 0, 0, s0.lpn, c.gen, c.id + s0.pid * 2 ^ 32⟩ none
    let s2 := { s1 with ctx := { c with abortSent := true, relayed := c.relayed ++ [(c.id, c.gen, s0.pid)] } }
    let n := nextGen c.gen
    let s3 := s2.takeGen n.1
    let r := Resp.ok_ (leBytes 2 n.1 ++ leBytes 2 0)
    let s4 := (s3.answerOp 0x0306 r).answerOp 0x0307 r
    ok (if c.warm ≠ 0 then s4.warmBoot c.warm else if n.2 then s4.warmBoot 2 else s4)

/-- The first `ABORT` received on a link (R276, R409, R410). -/
def execAbort (l t : Nat) (s : State) : Out1 :=
  let s0 := s.advance t
  match s0.takeRx l (isMgt 2) with
  | some (.mgt m, s1) =>
    let cid := fld m.arg 31 0
    let org := fld m.arg 50 32
    let seen := s1.ctx.relayed.contains (cid, m.gen, org)
    let match_ := s1.ctx.genLive && m.gen == s1.ctx.gen && cid == s1.ctx.id
    if seen ∨ org = s1.pid then
      let k := s1.link l
      ok (s1.setLink l { k with repeatDrop := satInc 16 k.repeatDrop })
    else if !match_ then ok (s1.linkGenDrop l)
    else
      let s2 := { s1 with ctx := { s1.ctx with relayed := s1.ctx.relayed ++ [(cid, m.gen, org)] } }
      let s3 := s2.broadcast m (some l)
      ok (if s3.ctx.killDue ≠ 0 then s3.beginKill 1 s3.lpn s3.ctx.id true else s3.beginKill 2 m.slpn cid true)
  | _ => ok s0

/-- The lake requests of the old generation are applied, and teardown zeroing starts in every stack and slice (R212, R407). `rsp` names, by packet, words with bits flipped at the pins on the
answers. -/
def execLakeDrainEnd (rsp : List (Nat × List (Nat × Nat))) (t : Nat) (s : State) : Out1 :=
  let s0 := s.advance t
  if !s0.ctx.killing ∨ s0.ctx.phase ≠ 3 then ok s0
  else
    let s1 := (List.range 8).foldl (fun (u : State) k => (u.drainStack k rsp).zeroStart k) s0
    ok ({ s1 with ctx := { s1.ctx with phase := 4, lakeLeft := List.range 8 } }.setDieZeroing true)

/-- Teardown zeroing of the glaze slices has finished (R189). -/
def execGlazeZeroDone (t : Nat) (s : State) : Out1 :=
  let s0 := s.advance t
  if !s0.ctx.killing ∨ s0.ctx.phase ≠ 4 ∨ s0.ctx.glazeZeroed then ok s0
  else
    let s1 := s0.clearGlaze.setDieZeroing false
    ok { s1 with ctx := { s1.ctx with glazeZeroed := true } }.tearCheck

/-- Local store, palettes, registers, flags, accumulators and descriptors are zero, bundle stores invalid and the step table empty (R407). -/
def execTileZeroDone (t : Nat) (s : State) : Out1 :=
  let s0 := s.advance t
  if !s0.ctx.killing ∨ s0.ctx.phase ≠ 4 ∨ s0.ctx.tileZeroed then ok s0
  else
    ok { s0 with
      tiles := mapTiles Tile.cleared s0.tiles
      seq := { s0.seq with table := [] }
      ctx := { s0.ctx with tileZeroed := true } }.tearCheck

/-- A stack has finished teardown zeroing, all its channels in `L_ACTIVE`; what was held is served (R212, R213, R384). -/
def execLakeZeroDone (k : Nat) (rsp : List (Nat × List (Nat × Nat))) (t : Nat) (s : State) : Out1 :=
  let s0 := s.advance t
  if !s0.ctx.killing ∨ s0.ctx.phase ≠ 4 ∨ !s0.ctx.lakeLeft.contains k ∨ !(s0.stack k).awake then ok s0
  else
    let s1 := s0.zeroEnd k rsp
    ok { s1 with ctx := { s1.ctx with lakeLeft := s1.ctx.lakeLeft.erase k } }.tearCheck

/-! ### The Mordant complex (R413) -/

/-- A core has missed its check-ins for 20 ms: the Mordant complex restarts (R413). Parts of incomplete firmware chunks are lost (R445). -/
def execMordantRestart (core t : Nat) (s : State) : Out1 :=
  let s0 := s.advance t
  if !s0.pkg.mordRuns then ok s0
  else
    let s1 := (s0.recordFault 11 false 0xFFFF 0 0).event 0x0007 5 (core % 256)
    ok { s1 with
      pkg := { s1.pkg with mordRuns := false, mordBack := some (s1.time.now + 200 * ms) }
      faults := { s1.faults with mordRestarts := satInc 8 s1.faults.mordRestarts }
      fw := { s1.fw with parts := [], fail := if s1.fw.act = 6 ∧ s1.fw.fail = 0 then 2 else s1.fw.fail } }

/-- The restart ends, and commands run again (R413). `started` names the mailboxes whose next command had journaled its start before the restart and had no effect yet: it is answered
`MBX_E_HANDOVER`. -/
def execMordantRestartEnd (started : List Nat) (t : Nat) (s : State) : Out1 :=
  let s0 := s.advance t
  match s0.pkg.mordBack with
  | none => ok s0
  | some b =>
    if !s0.pkg.bootOk ∨ !s0.booted then ok s0
    else
      let s1 := { s0 with pkg := { s0.pkg with mordRuns := true, mordBack := none } }
      ok ((List.range 6).foldl (fun (u : State) n =>
        match u.headReg n with
        | some (_, reg) => if started.contains n ∧ reg + 200 * ms ≤ b then (u.slotErrors n).answer n (Resp.err 5) else u
        | none => u) s1)

/-! ### The flash defect list (R345 to R347) -/

/-- A die has more defective rows than the one that its `NO_SPARE_ROW` leaves (R347). -/
def State.noSpare (s : State) (d : Defect) : Bool :=
  match d.row with
  | some (die, _) => decide (1 < (s.badRows die).length)
  | none => false

/-- The oldest unit found and not yet written joins the flash list: an entry of its own, or its source joins the entry of the unit (R345, R346). A full list takes no new entry (R348). A second
defective row of a die sets `FAULTS` bit 6 (R347). -/
def execDefectListWrite (t : Nat) (s : State) : Out1 :=
  let s0 := s.advance t
  match s0.logs.pendingDefects with
  | [] => ok s0
  | d :: r =>
    if !s0.booted then ok s0
    else
      let s1 := if s0.noSpare d then { s0 with faults := { s0.faults with sticky := s0.faults.sticky ||| 2 ^ 6 } } else s0
      if s1.logs.defects.any d.same then ok { s1 with logs := { s1.logs with pendingDefects := r, defects := markIn d s1.logs.defects } }
      else if 4096 ≤ s1.logs.defects.length then ok s1
      else ok { s1 with logs := { s1.logs with pendingDefects := r, defects := s1.logs.defects ++ [{ d with ft := s1.time.ft }] } }

end Sys2Proof.Machine
end

