-- ==== Sys2Proof/Machine/Bringup.lean ====
section
/-!
DEFINITION. The pins and events that move the package between its states: blade power, `PWR_EN`, `PRSNT_N`, `THERMTRIP_N`, the fence input, and the ends of boot, self-test and lake training
(R340 to R350, R430, R447, R476 to R480, R483).
-/
namespace Sys2Proof.Machine

/-! ### The blade (R340, R476, R477) -/

/-- The state of watch-domain power-up: what flash and the fuses hold, and the levels at the pins (R415). The output gate is closed where `FENCE_IN_N` is low (R430). -/
def State.powerUp (s : State) : State :=
  let z := State.reset
  { z with
    pending := s.pending
    out := s.out
    logs := { s.logs with pendingDefects := [], bist := [] }
    cfg := { z.cfg with flashIp := s.cfg.flashIp, flashPort := s.cfg.flashPort }
    pert := { z.pert with strapLow := s.pert.strapLow }
    h := { z.h with mem := s.h.mem, perst := s.h.perst, cfgReady := s.h.cfgReady, refclk := s.h.refclk }
    gate := s.pkg.fenceLow
    m := { z.m with keys := s.m.keys, holders := if s.m.holders.contains 1 then [1] else [] }
    pw := { z.pw with bins := s.pw.flashBins.drop 1, curBin := s.pw.flashBins.headD 0, flashBins := s.pw.flashBins, shedLow := s.pw.shedLow, leakLow := s.pw.leakLow }
    fw := { z.fw with
      slots := s.fw.slots, recs := s.fw.recs, stageLen := s.fw.stageLen, stageDigest := s.fw.stageDigest, manifest := s.fw.manifest,
      chunks := s.fw.chunks, staging := s.fw.staging, arb := s.fw.arb, keyDigests := s.fw.keyDigests, revoked := s.fw.revoked, boots := s.fw.boots }
    pkg := { z.pkg with
      blade := true, pwrEn := s.pkg.pwrEn, pwrLowAt := if s.pkg.pwrEn then none else some 0, mated := s.pkg.mated, thermExt := s.pkg.thermExt, fenceLow := s.pkg.fenceLow, straps := s.pkg.straps, serial := s.pkg.serial } }

/-- The blade rises through 46 V (R340): the watch domain runs, FT counts from 0, and the package is in `STANDBY`; during hold-up nothing was lost. The straps and the level of
`THERMTRIP_N` at the pin are inputs. -/
def execBladePowerUp (straps : Nat) (thermLow : Bool) (s : State) : Out1 :=
  if s.pkg.blade then ok s
  else if s.pkg.under ≠ psOff then ok { s with pkg := { s.pkg with blade := true, bladeLow := none } }
  else
    let s1 := s.powerUp
    let s2 := { s1 with pkg := { s1.pkg with straps := straps % 2 ^ 20, thermExt := thermLow } }
    ok (s2.setUnder psStandby).sampleStraps.tryBoot

/-- The blade falls below 46 V, and hold-up starts (R340, R477). -/
def execBladePowerLoss (t : Nat) (s : State) : Out1 :=
  let s0 := s.advance t
  ok (if s0.pkg.blade then { s0 with pkg := { s0.pkg with blade := false, bladeLow := some s0.time.now } } else s0)

/-- Hold-up has run out: `OFF` (R340, R477). -/
def execHoldUpExpiry (t : Nat) (s : State) : Out1 :=
  let s0 := s.advance t
  match s0.pkg.bladeLow with
  | none => ok s0
  | some a =>
    if s0.time.now < a + 10 * ms then ok s0
    else
      let s1 := s0.toStandby
      ok ({ s1 with pkg := { s1.pkg with bladeLow := none, pgOut := false } }.setUnder psOff)

/-! ### PWR_EN and PRSNT_N (R476 to R480) -/

/-- `PWR_EN` high: a low of 100 ms ends the wait that a stage-1 stop began (R478). `straps` are the levels at the strap lands, which count from the next entry to `BOOT` (R475). -/
def execPwrEnHigh (straps t : Nat) (s : State) : Out1 :=
  let s0 := s.advance t
  let long : Bool := match s0.pkg.pwrLowAt with
    | some a => decide (a + 100 * ms ≤ s0.time.now)
    | none => false
  ok ({ s0 with pkg := { s0.pkg with straps := straps % 2 ^ 20, pwrEn := true, pwrLowAt := none, cycleNeeded := s0.pkg.cycleNeeded && !long } }.tryBoot)

/-- `PWR_EN` low: the path to `STANDBY` (R477). -/
def execPwrEnLow (t : Nat) (s : State) : Out1 :=
  let s0 := s.advance t
  ok ({ s0 with pkg := { s0.pkg with pwrEn := false, pwrLowAt := s0.pkg.pwrLowAt.or (some s0.time.now) } }.toStandby)

/-- `PRSNT_N` breaks: the unclean removal is recorded, sprint bins and pending defect entries go to flash, and the path to `STANDBY` follows (R418, R477, R480). -/
def execPrsntNBreak (t : Nat) (s : State) : Out1 :=
  let s0 := s.advance t
  if s0.pkg.under = psOff then ok { s0 with pkg := { s0.pkg with mated := false } }
  else
    let s1 := (s0.event 0x0003 5 s0.shown).endSprint
    let put := fun (x : List Defect × List Defect) (d : Defect) =>
      if x.1.any d.same ∨ x.1.length < 4096 then (markIn { d with ft := s1.time.ft } x.1, x.2) else (x.1, x.2 ++ [d])
    let w := s1.logs.pendingDefects.foldl put (s1.logs.defects, [])
    let s2 := { s1 with
      pkg := { s1.pkg with mated := false, unclean := true }
      pw := { s1.pw with flashBins := s1.pw.curBin :: s1.pw.bins }
      logs := { s1.logs with defects := w.1, pendingDefects := w.2 } }
    ok s2.toStandby

/-- `PRSNT_N` goes low: the package stands in a slot, whose straps are at its lands (R475). -/
def execPrsntNAssert (straps t : Nat) (s : State) : Out1 :=
  let s0 := s.advance t
  ok ({ s0 with pkg := { s0.pkg with straps := straps % 2 ^ 20, mated := true } }.tryBoot)

/-! ### THERMTRIP_N (R391, R479) -/

/-- A sensor at 115 °C: `THERMTRIP_N` low, stage 1 off, and `STANDBY`. `tray` says that it is the tray that pulls the pin low, which only keeps the package out of `BOOT` (R479). -/
def execThermtrip (tray : Bool) (t : Nat) (s : State) : Out1 :=
  let s0 := s.advance t
  if s0.pkg.under = psOff then ok s0
  else if tray then ok { s0 with pkg := { s0.pkg with thermExt := true } }
  else ok ({ s0 with pkg := { s0.pkg with therm := true } }.toStandby)

/-- The tray lets the pin return high. -/
def execThermtripNDeassert (t : Nat) (s : State) : Out1 :=
  let s0 := s.advance t
  ok ({ s0 with pkg := { s0.pkg with thermExt := false } }.tryBoot)

/-- `PWR_EN` has been low for 1 s: the package stops holding the pin low. -/
def execThermtripNRelease (t : Nat) (s : State) : Out1 :=
  let s0 := s.advance t
  let due : Bool := match s0.pkg.pwrLowAt with
    | some a => decide (a + 1000 * ms ≤ s0.time.now)
    | none => false
  ok (if due then { s0 with pkg := { s0.pkg with therm := false } } else s0)

/-! ### Stage-1 stops (R478, R483) -/

/-- Stage 1 stops by itself: as on `PWR_EN` low, and `PWR_EN` counts as low until it is cycled. -/
def State.stageStop (s : State) : State := if s.pkg.stage1 then { s with pkg := { s.pkg with cycleNeeded := true } }.toStandby else s

def execBladeUndervoltage (t : Nat) (s : State) : Out1 := ok (s.advance t).stageStop

def execBladeOvervoltage (t : Nat) (s : State) : Out1 :=
  let s0 := s.advance t
  ok s0.stageStop

/-- `REFCLK_25` has stopped for 10 µs: stage 1 stops, and FT stays at the count it had reached when the clock stopped (R483). -/
def execRefclkLoss (t : Nat) (s : State) : Out1 :=
  let s0 := s.advance (t - 10 * us)
  ok ({ s0 with pkg := { s0.pkg with refLost := true } }.advance t).stageStop

/-- Every stage-2 regulator is in regulation: `PG_OUT` is released high (R476), and the CXL port has power. -/
def execPowerGood (t : Nat) (s : State) : Out1 :=
  let s0 := s.advance t
  ok (if s0.booted ∧ s0.pkg.stage1 then { s0 with pkg := { s0.pkg with pgOut := true, hPower := true } } else s0)

/-! ### The fence input (R430, R340) -/

/-- `FENCE_IN_N` has been low for 200 ns: the output gate closes, and a context is killed without `ABORT`; `FENCED` shows from `BOOT` on. -/
def execFenceInAssert (t : Nat) (s : State) : Out1 :=
  let s0 := s.advance t
  let s1 := { s0 with pkg := { s0.pkg with fenceLow := true } }
  ok (if s1.booted then ({ s1 with pkg := { s1.pkg with fenced := true } }).closeGate else if s1.pkg.under = psStandby then s1.closeGate else s1)

/-- `FENCE_IN_N` has been high for 1 ms: the warm reset that ends `FENCED`. -/
def execFenceRelease (t : Nat) (s : State) : Out1 :=
  let s0 := s.advance t
  let s1 := { s0 with pkg := { s0.pkg with fenceLow := false } }
  ok (if s1.pkg.fenced ∧ s1.booted then s1.warmReset 3 else s1)

/-! ### Boot (R447, R344, R345) -/

/-- The boot ROM verifies the image of `ACTIVE_SLOT`, else that of the other slot, loads its components and starts the Mordant complex from it; with neither, `FAILED` (R447). The watch core passes to its
loaded code at the next control-period boundary. -/
def execFirmwareBootVerify (t : Nat) (s : State) : Out1 :=
  let s0 := s.advance t
  if s0.pkg.under ≠ psBoot ∨ s0.pkg.bootOk then ok s0
  else
    let a := s0.fw.active % 2
    let img := fun (k : Nat) => s0.fw.slots.getD k []
    let start := fun (u : State) (k : Nat) => { u with
      fw := { u.fw with run := k, prev := 1 - k, runImage := img k, region := fwPart (img k) 1, watchNext := some (fwPart (img k) 2), act := 0, prepared := false, record := none, leaseEnd := none, leaseUsed := false, runAt := u.time.now, rolled := k != a, fail := 0 }
      h := { u.h with mbx := u.h.mbx.map (fun (e : Nat × Mbx) => (e.1, { e.2 with handover := false })) }
      pkg := { u.pkg with bootOk := true, mordRuns := true, mordBack := none } }
    if s0.fwValid (img a) then ok (start s0 a)
    else if s0.fwValid (img (1 - a)) then ok ((start s0 (1 - a)).event 0x0023 5 (1 - a))
    else ok (s0.setUnder psFailed)

/-- The unit a failed test marks (R344). A tile or a glaze slice marks its row. A lake row that the union has spared keeps its spare row at its first result of this boot; every other
result of a row, that of a failed spare row too, takes the next spare row of its bank or, past 32, leaves the row unspared. -/
def State.bistMark (s : State) (x : Nat × Nat) : Defect :=
  let row : Defect := ⟨0, 4, 4, x.2, 0⟩
  if x.1 = 2 ∨ x.1 = 3 then ⟨0, 1, 4, x.2 % 64, 0⟩
  else if x.1 = 4 then
    match (if s.logs.bist.any row.same then none else (s.union.filter row.same).getLast?) with
    | some e => { row with kind := e.kind, spare := e.spare }
    | none =>
      let n := s.bankNext (x.2 % 2 ^ 14)
      if n < 32 then { row with spare := n } else { row with kind := 5 }
  else ⟨0, x.1, 4, x.2, 0⟩

/-- One BIST result joins the results of this boot, and what waits to be written where the flash list lacks it or has another spare row for it. -/
def State.bistAdd (s : State) (x : Nat × Nat) : State :=
  let d := s.bistMark x
  let held := s.logs.defects.any (fun e => d.same e && e.kind == d.kind && e.spare == d.spare)
  { s with logs := { s.logs with bist := markIn d s.logs.bist, pendingDefects := if held then s.logs.pendingDefects else markIn d s.logs.pendingDefects } }

/-- The sources of the flash entries at this boot (R346): the flash list itself, this boot's BIST, and the fuses. -/
def State.sources (s : State) : State :=
  let isIn := fun (l : List Defect) (d : Defect) => l.any d.same
  { s with logs := { s.logs with
    defects := s.logs.defects.map (fun (d : Defect) =>
      { d with source := (d.source ||| 2) - fld (d.source ||| 2) 2 2 * 4 - (d.source ||| 2) % 2 + 4 * b2n (isIn s.logs.bist d) + b2n (isIn s.logs.fuses d) }) } }

/-- A tile after the march tests: every store zero and its bundle store invalid (R416). -/
def Tile.marched (t : Tile) : Tile :=
  let c := t.cleared
  { c with mem := { c.mem with glaze := [], glazeFlips := [], bundles := [], bundleFlips := [] } }

/-- The spared rows of the union are applied to a stack (R217, R349). -/
def State.applySpares (s : State) (k : Nat) : State :=
  let rows := s.union.filterMap (fun d =>
    if d.kind = 4 ∧ d.location % 8 = k then some ((fld d.location 7 3 * 64 + fld d.location 13 8) * 12288 + fld d.location 27 14, d.spare) else none)
  let st := s.stack k
  s.setStack k { st with spares := rows.foldl (fun (m : Tab Nat) x => Tab.set m x.1 x.2) st.spares }

/-- BIST ends (R344, R345, R348): `FAILED` where H-die 0 fails, `NOT_READY` where the flash list is unreadable or the union does not fit, else `TRAIN`, in which every link without training
starts it (R350). `results` lists in order the tests that failed, by kind and location; a further result for one lake row says that the spare row in its place failed. Failed lake rows
are spared at once (R217); after a warm reset lake rows and links are not tested. It waits for the firmware and for teardown zeroing (R416). -/
def execBistDone (results : List (Nat × Nat)) (hdieOk listOk : Bool) (t : Nat) (s : State) : Out1 :=
  let s0 := s.advance t
  if s0.pkg.under ≠ psBoot ∨ !s0.pkg.bootOk ∨ s0.pkg.bistOk ∨ s0.ctx.killing then ok s0
  else
    let tested := results.filter (fun (x : Nat × Nat) => x.1 == 1 || x.1 == 2 || x.1 == 3 || x.1 == 7 || (!s0.pkg.warm && (x.1 == 4 || x.1 == 6)))
    let s1 := tested.foldl State.bistAdd { s0 with logs := { s0.logs with bist := [], digestOk := s0.logs.digestOk && listOk } }
    let s2 := (if s0.pkg.warm then s1 else (List.range 8).foldl State.applySpares s1).sources
    let s3 := { s2 with
      tiles := mapTiles Tile.marched s2.tiles
      seq := { s2.seq with table := [], steps := [], runActive := false }
      pkg := { s2.pkg with bistOk := true }
      pw := { s2.pw with phases := (List.range 6).map s2.badPhases } }
    ok (if !hdieOk then s3.setUnder psFailed
      else if !s3.logs.digestOk then s3.notReady 4
      else if !s3.fits then s3.notReady 1
      else if s3.listFull then s3.notReady 5
      else (s3.setUnder psTrain).trainLinks)

/-! ### Lake training (R349) -/

/-- Requests that wait at the stacks ask their channels to wake (R210). -/
def State.wakeWaiting (s : State) : State :=
  (List.range 8).foldl (fun (u : State) k => (u.stack k).waitQ.foldl (fun (v : State) i =>
    match v.pkt i with
    | some p => (v.lakeAsleep (v.lakeNeeds k p)).foldl State.askWake v
    | none => v) u) s

/-- The lake stacks end an attempt at training: a failed one is repeated once, a second failure leads to `NOT_READY`; when every stack has trained, Memory_Active is 1 and the package enters
`CONFIGURED` with an image held, else `AWAIT_CONFIG` (R340, R349). -/
def execLakeTrainDone (trained : Bool) (t : Nat) (s : State) : Out1 :=
  let s0 := s.advance t
  if s0.pkg.under ≠ psTrain then ok s0
  else if !trained then
    ok (if s0.pkg.lakeTries = 0 then { s0 with pkg := { s0.pkg with lakeTries := 1 } } else { s0 with pkg := { s0.pkg with lakeTrained := false } }.notReady 3)
  else
    let s1 := (List.range 8).foldl (fun (u : State) k =>
      let v := u.applySpares k
      let st := v.stack k
      v.setStack k { st with chans := (List.range 32).map (fun c => (c, { st.chan c with power := 2, wakeReq := none })) }) s0
    let s2 := { s1 with pkg := { s1.pkg with lakeTrained := true, lakeTries := 0 } }
    ok (s2.wakeWaiting.enter (if s2.cfg.image.isSome then psConf else psAwait))

end Sys2Proof.Machine
end

