-- ==== Sys2Proof/Machine/DebugCmds.lean ====
section
/-!
DEFINITION. The commands of group 0x0Axx, the scopes, and the perturbation registers (R338, R339, R458 to R464, R467).
-/
namespace Sys2Proof.Machine

/-! ### Scopes (R338) -/

/-- The party index of an enable: 0 host, 1 rack manager. -/
def askParty (r : Req) : Nat := if r.party = 1 then 0 else 1

/-- An enable of a party for scope bit `b` that stands: its scope is enabled, or it is at most 60 s old. -/
def State.askOf (s : State) (party b : Nat) : Option ScopeAsk :=
  s.pert.asks.find? (fun a => a.party == party && a.scopes == 2 ^ b && ((if b = 0 then s.pertOn else s.debugOn) || decide (s.time.now ≤ a.at_ + askWindow * 1000 * ms)))

/-- The response of `DEBUG_ENABLE` and `DEBUG_DISABLE`. -/
def State.scopeResp (s : State) : Resp :=
  let has := fun (p b : Nat) => b2n (s.askOf p b).isSome * 2 ^ b
  Resp.ok_ (leBytes 4 (b2n s.pertOn + 2 * b2n s.debugOn + 4 * (has 0 0 + has 0 1) + 16 * (has 1 0 + has 1 1)))

/-- A party's enable of scope bit `b`: with the other party's within 60 s the scope is enabled for the shorter of the two durations. A scope that is enabled keeps its end. -/
def State.askScope (s : State) (party b secs : Nat) : State × Bool :=
  let asks := (s.pert.asks.filter (fun a => !(a.party == party && a.scopes == 2 ^ b))) ++ [⟨party, 2 ^ b, secs, s.time.now⟩]
  let s1 := { s with pert := { s.pert with asks := asks } }
  let on := if b = 0 then s1.pertOn else s1.debugOn
  match s.askOf (1 - party) b with
  | some o =>
    if on then (s1, false)
    else
      let e := some (s.time.now + min secs o.secs * 1000 * ms)
      (if b = 0 then { s1 with pert := { s1.pert with pertEnd := e } } else { s1 with pert := { s1.pert with debugEnd := e } }, true)
  | none => (s1, false)

/-- `DEBUG_ENABLE`. -/
def execDebugEnable (mb t : Nat) (s : State) : Out1 :=
  let c : Cmd := ⟨0x0A01, fun _ p => p.length == 8, [1, 2], false, fun p => leAt p 0 1 / 4 == 0 && zeroAt p 1 3⟩
  ok (s.commandNow mb t c (fun u r =>
    let sc := r.f 0 1
    let secs := r.f 4 4
    if !u.pert.strapLow then (u, Resp.err 0x0A01)
    else if sc = 0 ∨ secs = 0 ∨ 86400 < secs then (u, Resp.err 0x0A04)
    else
      let a := if bitAt sc 0 then u.askScope (askParty r) 0 secs else (u, false)
      let b := if bitAt sc 1 then a.1.askScope (askParty r) 1 secs else (a.1, false)
      let new := b2n a.2 + 2 * b2n b.2
      let v := if new = 0 then b.1 else b.1.event 0x0030 5 (new + 256 * partyCode mb)
      (v, v.scopeResp)))

/-- `DEBUG_DISABLE`. -/
def execDebugDisable (mb t : Nat) (s : State) : Out1 :=
  let c : Cmd := ⟨0x0A02, fun _ p => p.length == 4, [1, 2], false, fun p => leAt p 0 1 / 4 == 0 && zeroAt p 1 3⟩
  ok (s.commandNow mb t c (fun u r =>
    if r.f 0 1 = 0 then (u, Resp.err 0x0A04)
    else
      let v := u.endScopes (r.f 0 1) 2
      (v, v.scopeResp)))

/-- A scope's duration has run out (R338). -/
def execDebugScopeExpiry (t : Nat) (s : State) : Out1 :=
  let s0 := s.advance t
  let ended := fun (e : Option Nat) => match e with
    | some x => decide (x ≤ s0.time.now)
    | none => false
  let m := b2n (ended s0.pert.pertEnd) + 2 * b2n (ended s0.pert.debugEnd)
  ok (if m = 0 then s0 else s0.endScopes m 1)

/-- `DEBUG_EN_N` is low (R338, R465). -/
def execDebugEnNAssert (t : Nat) (s : State) : Out1 :=
  let s0 := s.advance t
  ok { s0 with pert := { s0.pert with strapLow := true } }

/-- `DEBUG_EN_N` is high: both scopes end (R467). -/
def execDebugEnNDeassert (t : Nat) (s : State) : Out1 :=
  let s0 := s.advance t
  ok { s0.endScopes 3 3 with pert := { (s0.endScopes 3 3).pert with strapLow := false } }

/-! ### Values of the registers (R459) -/

/-- A field in its range. -/
def inRange (v lo hi : Int) : Bool := decide (lo ≤ v ∧ v ≤ hi)

/-- The smallest size of pool `p` among the links that `LINK` names. -/
def State.poolSize (s : State) (link p : Nat) : Nat :=
  if link < 96 then nth (s.pools link) p else min (nth (s.pools 0) p) (min (nth (s.pools 64) p) (nth (s.pools 88) p))

/-- A value of register `n` has every field in its range and no unlisted bit set; 0, the default, always does. -/
def State.pertValueOk (s : State) (n v : Nat) : Bool :=
  let link := decide (fld v 6 0 < 96) || fld v 6 0 == 127
  v == 0 ||
  match n with
  | 1 => link && decide (fld v 16 7 ≤ 1000) && decide (v < 2 ^ 17)
  | 2 => link && decide (fld v 9 7 ≤ 4) && decide (fld v 22 10 ≤ s.poolSize (fld v 6 0) (fld v 9 7)) && decide (v < 2 ^ 23)
  | 3 => decide (v < 2 ^ 18)
  | 4 => decide (fld v 18 5 ≤ 10000) && decide (v < 2 ^ 19)
  | 5 => decide (1 ≤ fld v 1 0) && fld v 7 2 == 0 && inRange (sext 8 (fld v 15 8)) (-50) 50 && decide (v < 2 ^ 16)
  | 6 => decide (1 ≤ fld v 4 3) && fld v 15 5 == 0 && inRange (sext 16 (fld v 31 16)) (-160) 160
  | 7 => inRange (sext 8 (fld v 7 0)) (-100) 100 && decide (v < 2 ^ 9)
  | 8 => decide (1 ≤ fld v 14 1) && decide (fld v 14 1 ≤ 10000) && decide (v < 2 ^ 15)
  | 9 => decide (fld v 1 0 ≤ 2) && decide (fld v 11 2 ≤ 1000) && decide (v < 2 ^ 12)
  | 10 => decide (v < 2 ^ 6)
  | 11 => decide (v < 2)
  | 12 => decide (2 ≤ fld v 17 4) && decide (1 ≤ fld v 31 18) && decide (fld v 31 18 < fld v 17 4)
  | _ => false

/-- The claim that a value of register `n` makes: kind, index and feature (R461). -/
def pertClaimOf (n v : Nat) : Option (Nat × Nat × Nat) :=
  if n = 11 ∧ bitAt v 0 then some (3, 0, 7) else if n = 12 ∧ bitAt v 3 then some (4, fld v 2 0, 9) else none

/-- The claim of the image that a value of register `n` clashes with. -/
def State.pertClash (s : State) (n v : Nat) : Option Reject :=
  match pertClaimOf n v, s.cfg.image with
  | some (k, i, f), some im => (im.claimOf k i).map (fun a => Reject.mk 0x0207 k i a f 0)
  | some (4, i, f), none => if i < 3 then some (Reject.mk 0x0207 4 i 3 f 0) else none
  | _, _ => none

/-- Whether a command registered at `reg` finds the perturbation scope enabled: not from the watch-clock cycle of the scope's end on (R460). -/
def State.pertScope (s : State) (reg : Nat) : Bool :=
  match s.pert.pertEnd with
  | some e => decide (watchCycle reg < watchCycle e)
  | none => false

/-- The registration time of the command at a mailbox's `CONS`. -/
def State.regTime (s : State) (mb : Nat) : Nat :=
  let m := s.mbx mb
  match m.regs.find? (fun x => x.1 == m.cons) with
  | some x => x.2
  | none => s.time.now

/-- `PERTURB_SET` stores a value; it takes effect by its register's row (R460). -/
def execPerturbSet (mb t : Nat) (s : State) : Out1 :=
  ok (s.commandNow mb t (Cmd.fixed 0x0A03 8 [1, 2] false [(2, 2)]) (fun u r =>
    let n := r.f 0 2
    let v := r.f 4 4
    let old := Tab.get 0 u.pert.regs n
    let by_ := Tab.get 0 u.pert.setBy n
    if n = 0 ∨ 12 < n then (u, Resp.err 0x0A03)
    else if !u.pertScope (u.regTime mb) then (u, Resp.err 0x0A02)
    else if !u.pert.strapLow then (u, Resp.err 0x0A01)
    else if !u.pertValueOk n v then (u, Resp.err 0x0A04)
    else
      match u.pertClash n v with
      | some x => (u, ⟨0x0207, x.record, []⟩)
      | none =>
        let u1 := if by_ % 16 ≠ 0 ∧ by_ % 16 ≠ r.party then u.addOrder 0x0A03 (partyCode mb) by_ r.seq v old else u
        let u2 := { u1 with pert := { u1.pert with
          regs := Tab.set u1.pert.regs n v, setBy := Tab.set u1.pert.setBy n (partyCode mb), timerSet := if n = 12 then u1.time.now else u1.pert.timerSet, shedNew := u1.pert.shedNew || n == 8 } }
        (u2.event 0x0032 5 (n % 256 + 256 * partyCode mb + 2 ^ 32 * v), Resp.ok_ (leBytes 4 v))))

/-- `PERTURB_GET`. -/
def execPerturbGet (mb t : Nat) (s : State) : Out1 :=
  ok (s.commandNow mb t (Cmd.fixed 0x0A04 4 [1, 2] false [(2, 2)]) (fun u r =>
    let n := r.f 0 2
    if n = 0 ∨ 12 < n then (u, Resp.err 0x0A03) else (u, Resp.ok_ (leBytes 4 (Tab.get 0 u.pert.regs n)))))

/-! ### Registers taking effect (R459, R460) -/

/-- `SYNC_AUX` under `PT_TRIGGER`: its level goes out. -/
def State.showTrigger (s : State) : State := if bitAt (Tab.get 0 s.pert.eff 11) 0 then s.emit 5 (b2n (s.actionOn && !s.gate)) else s

/-- The value of register `n` as written takes effect. -/
def State.takeReg (s : State) (n : Nat) : State := { s with pert := { s.pert with eff := Tab.put 0 s.pert.eff n (Tab.get 0 s.pert.regs n) } }

/-- Credits withheld that the register no longer asks for are freed. -/
def State.settleCredits (s : State) : State := s.st.links.foldl (fun (u : State) e => (List.range 6).foldl (fun (v : State) p => v.freeCredit e.1 p 0) u) s

/-- A forced shed starts (R459), as `SHED_N` does (R391): the dies freeze until the next control-period boundary, from which `CAP_HW` takes the term; the shed counts. Where a shed stands
already the two act as one freeze (R461). -/
def State.startShed (s : State) : State :=
  let v := Tab.get 0 s.pert.eff 8
  if !bitAt v 0 then s
  else
    let s1 := { s with pert := { s.pert with shedEnd := some (s.time.now + fld v 14 1 * ms) }, pw := { s.pw with sheds := satInc 8 s.pw.sheds } }
    (if s.shedStands then s1 else s1.hwFreeze allDies).respond

def State.endShed (s : State) : State := { s with pert := { s.pert with shedEnd := none } }

/-- `PT_TIMER` gates the actions. -/
def State.timerEn (s : State) : Bool := bitAt (Tab.get 0 s.pert.eff 12) 3

/-- A time lies in the on window. -/
def State.inWindow (s : State) : Bool :=
  let v := Tab.get 0 s.pert.eff 12
  decide ((s.time.now - s.pert.timerAt) % (fld v 17 4 * ms) < fld v 31 18 * ms)

/-- The on window opens or closes. -/
def State.setWindow (s : State) (b : Bool) : State :=
  if b = s.pert.on then s
  else
    let s1 := { s with pert := { s.pert with on := b } }
    (if b then s1.startShed else s1.endShed).settleCredits.showTrigger

def execPtLinkDelay (t : Nat) (s : State) : Out1 := ok ((s.advance t).takeReg 1).showTrigger

def execPtCreditHold (t : Nat) (s : State) : Out1 := ok (((s.advance t).takeReg 2).settleCredits).showTrigger

def execPtLakeLat (t : Nat) (s : State) : Out1 := ok ((s.advance t).takeReg 3).showTrigger

def execPtMbxDelay (t : Nat) (s : State) : Out1 := ok ((s.advance t).takeReg 4).showTrigger

def execPtMeasOfs (t : Nat) (s : State) : Out1 :=
  let s0 := s.advance t
  ok (if s0.atBoundary then (s0.takeReg 5).showTrigger else s0)

def execPtTempOfs (t : Nat) (s : State) : Out1 :=
  let s0 := s.advance t
  ok (if s0.atBoundary then (s0.takeReg 6).showTrigger else s0)

def execPtFlowOfs (t : Nat) (s : State) : Out1 :=
  let s0 := s.advance t
  ok (if s0.atBoundary then (s0.takeReg 7).showTrigger else s0)

/-- `PT_FORCE_SHED` takes effect at the control-period boundary after a write (R460): a shed starts on a write of `SHED` = 1, or under `PT_TIMER` at each on edge; a write of 0 ends one. -/
def execPtForceShed (t : Nat) (s : State) : Out1 :=
  let s0 := s.advance t
  if !s0.atBoundary ∨ !s0.pert.shedNew then ok s0
  else
    let u := s0.takeReg 8
    let s1 := { u with pert := { u.pert with shedNew := false } }
    ok (if !bitAt (Tab.get 0 s1.pert.eff 8) 0 then s1.endShed else if s1.timerEn then s1 else s1.startShed).showTrigger

/-- A forced shed ends: after `DURATION`, or outside the on window. -/
def execForcedShedEnd (t : Nat) (s : State) : Out1 :=
  let s0 := s.advance t
  match s0.pert.shedEnd with
  | some e => ok (if e ≤ s0.time.now ∨ (s0.timerEn ∧ !s0.pert.on) then s0.endShed.showTrigger else s0)
  | none => ok s0

def execPtClkStart (t : Nat) (s : State) : Out1 := ok ((s.advance t).takeReg 9).showTrigger

/-- `PT_CHECKS` (R53, R190, R221). -/
def execPtChecks (t : Nat) (s : State) : Out1 :=
  let s0 := s.advance t
  ok (if s0.atBoundary then (s0.takeReg 10).applyChecks else s0)

/-- `PT_TRIGGER`: with `EN` = 0 `SYNC_AUX` goes low. -/
def execPtTrigger (t : Nat) (s : State) : Out1 :=
  let s0 := s.advance t
  if !s0.atBoundary then ok s0
  else
    let s1 := s0.takeReg 11
    ok (if bitAt (Tab.get 0 s1.pert.eff 11) 0 then s1.showTrigger else if bitAt (Tab.get 0 s0.pert.eff 11) 0 then s1.emit 5 0 else s1)

/-- `PT_TIMER`: the periods count from the write. -/
def execPtTimer (t : Nat) (s : State) : Out1 :=
  let s0 := s.advance t
  if !s0.atBoundary then ok s0
  else
    let s1 := s0.takeReg 12
    let s2 := { s1 with pert := { s1.pert with timerAt := s1.pert.timerSet, on := false } }
    ok (s2.setWindow (s2.timerEn && s2.inWindow)).settleCredits.showTrigger

/-- An edge of `PT_TIMER`. -/
def execPtTimerEdge (t : Nat) (s : State) : Out1 :=
  let s0 := s.advance t
  ok (if s0.timerEn then s0.setWindow s0.inWindow else s0)

end Sys2Proof.Machine
end

