-- ==== Sys2Proof/Machine/JtagOps.lean ====
section
/-!
DEFINITION. The JTAG port and the debug access port (R465 to R467). What shifts out at `TDO` goes to channel 10.
-/
namespace Sys2Proof.Machine

/-- In `OFF` every land is high-impedance and the port has no power (R473): nothing shifts out, and no instruction is taken. -/
def State.jtagOn (s : State) (f : State → State) : State := if s.pkg.under = psOff then s else f s

/-- `EXTEST`, `CLAMP` and `HIGHZ` are available in `STANDBY` with `DEBUG_EN_N` low. -/
def State.jtagFree (s : State) : Bool := s.pkg.under == psStandby && s.pert.strapLow

/-- What drives the lands: 0 the package, 1 the boundary register, 2 nothing. -/
def State.landDrive (s : State) : Nat := if !s.jtagFree then 0 else if s.jtag.ir = 3 ∨ s.jtag.ir = 4 then 1 else if s.jtag.ir = 5 then 2 else 0

def State.setIr (s : State) (i : Nat) : State := { s with jtag := { s.jtag with ir := i } }

/-- A scan of the one-bit bypass register captures 0. -/
def State.bypassScan (s : State) : State := s.emit 10 0

/-- `IDCODE`. -/
def idcode : Nat := place 2 4 28 + place 0x0960 16 12 + place Config.jedecId.toNat 11 1 + 1

def execIdcode (s : State) : Out1 := ok (s.jtagOn (fun u => (u.setIr 1).emit 10 idcode))

/-- A scan of the boundary register: the levels at the lands are captured and shift out, and `shift` shifts in. -/
def State.boundaryScan (s : State) (lands shift : Nat) : State := { s with jtag := { s.jtag with boundary := shift } }.emit 10 lands

def execSamplePreload (lands shift : Nat) (s : State) : Out1 := ok (s.jtagOn (fun u => (u.setIr 2).boundaryScan lands shift))

def execExtest (lands shift : Nat) (s : State) : Out1 := ok (s.jtagOn (fun u => if u.jtagFree then (u.setIr 3).boundaryScan lands shift else (u.setIr 3).bypassScan))

def execClamp (s : State) : Out1 := ok (s.jtagOn (fun u => (u.setIr 4).bypassScan))

def execHighz (s : State) : Out1 := ok (s.jtagOn (fun u => (u.setIr 5).bypassScan))

def execBypass (s : State) : Out1 := ok (s.jtagOn (fun u => (u.setIr 0xFF).bypassScan))

/-! ### Debug access (R466) -/

/-- Capture-DR: read data and status shift out. -/
def State.captureDr (s : State) : State := s.emit 10 (place s.jtag.data 32 41 + place s.jtag.status 3 73)

/-- `DAP` selects the debug access register; a scan with `OP` 0 makes no access. A window access under way goes on first, where it may (R467). -/
def execDap (s : State) : Out1 := ok (s.jtagOn (fun u => (u.dapServe.setIr 0x10).captureDr))

/-- A word of lake, as a request without a generation; the answer comes from the stack (R213, R466). `req` and `rsp` name words with bits flipped at the pins (R215). -/
def State.dapLake (s : State) (a : Nat) (write : Option Nat) (req rsp : List (Nat × Nat)) : State :=
  if !s.pkg.lakeTrained then s.dapEnd 4 none
  else
    let d := match write with
      | some v => [BitVec.ofNat 32 v]
      | none => []
    let p := { s.hdmPkt a 0 (if write.isSome then 0x03 else 0x01) d with words := 1, asker := .probe }
    ((s.dapEnd 1 none).addPkt p).lakeServe s.net.seq (fun _ => true) req rsp

/-- Access to a tile's window: it is made at once, or waits (R46, R171) while the port shows it as busy. -/
def State.dapTile (s : State) (x : DapAccess) : State := ({ s with jtag := { s.jtag with access := some x } }.dapEnd 1 none).dapServe

/-- The physical tile, space and offset of a tile window address while a context is accepted. -/
def State.dapWindow (s : State) (a : Nat) : Option (Nat × Nat × Nat) :=
  if !s.ctx.accepted then none
  else
    match regionRange a 4 with
    | .localStore tid off => some (s.ptiOf tid, 0, off)
    | .glaze tid off => some (s.ptiOf tid, 1, off)
    | _ => none

/-- The package register blocks begin here. -/
def regBase : Nat := 0x1F000000000

/-- An address of a glaze or local-store window: where it maps to no slice or tile, the endpoint that translates it answers with `ERR_RESP` (R179). -/
def windowAddr (a : Nat) : Bool :=
  decide (0x10000000000 ≤ a ∧ a < 0x10000000000 + 576 * 0x800000) || decide (0x18000000000 ≤ a ∧ a < 0x18000000000 + 576 * 0x100000)

/-- A read at Update-DR; `same` holds the events of a register's RC fields in the read's own cycle (R11). -/
def State.dapRead (s : State) (a same : Nat) (req rsp : List (Nat × Nat)) : State :=
  if regBase ≤ a then (s.regClear a same).dapEnd 0 (some (s.regShown a same % 2 ^ 32))
  else if a < lakeEnd then s.dapLake a none req rsp
  else
    match s.dapWindow a with
    | none => s.dapEnd 4 none
    | some (pti, space, off) => s.dapTile ⟨pti, space, off, none⟩

/-- A write at Update-DR; every write the port does not reach is refused and counted in the event log. -/
def State.dapWrite (s : State) (a v : Nat) (req rsp : List (Nat × Nat)) : State :=
  if regBase ≤ a then (if regWritable a then (s.regWrite a v).dapEnd 0 none else (s.event 0x0032 5 0).dapEnd 2 none)
  else if a < lakeEnd then s.dapLake a (some v) req rsp
  else
    match s.dapWindow a with
    | none => if windowAddr a then s.dapEnd 4 none else (s.event 0x0032 5 0).dapEnd 2 none
    | some (pti, space, off) => s.dapTile ⟨pti, space, off, some v⟩

/-- A scan with `OP` read or write: where a window access is still under way, Capture-DR shows it as busy and the scan makes no access (DESIGN CHOICE, log entry 125). `f` makes the access. -/
def State.dapScan (s : State) (f : State → State) : State :=
  if s.jtag.ir ≠ 0x10 then s.bypassScan
  else
    let s1 := s.dapServe.captureDr
    if s1.jtag.access.isSome then s1 else if !s1.debugOn then s1.dapEnd 3 none else f s1

/-- A scan with `OP` read: `ADDR_W` is the local byte address ÷ 4. -/
def execDapRead (addrW same : Nat) (req rsp : List (Nat × Nat)) (t : Nat) (s : State) : Out1 :=
  ok ((s.advance t).jtagOn (fun v => v.dapScan (fun u => u.dapRead (addrW % 2 ^ 39 * 4) same req rsp)))

/-- A scan with `OP` write. -/
def execDapWrite (addrW data : Nat) (req rsp : List (Nat × Nat)) (t : Nat) (s : State) : Out1 :=
  ok ((s.advance t).jtagOn (fun v => v.dapScan (fun u => u.dapWrite (addrW % 2 ^ 39 * 4) (data % 2 ^ 32) req rsp)))

end Sys2Proof.Machine
end

