-- ==== Sys2Proof/Machine/Matrix.lean ====
section
/-!
DEFINITION. The meanings of the matrix slot (R108 to R112), of the block commit (R21, R71, R72) and of the matrix residue check (R49, R73).
-/
namespace Sys2Proof.Machine

def execMks (tid fa fb acc wb half sp last : Nat) (s : State) : Out1 :=
  ok (s.issue tid slotMX (encMXK 0x01 fa fb acc wb half sp last) (effMks fa fb acc wb half sp last))

def execMclr (tid acc : Nat) (s : State) : Out1 :=
  ok (s.issue tid slotMX (encMXD 0x02 acc 0 0 0 0) (effMclr acc))

def execMdrn (tid acc fmt cc a m : Nat) (s : State) : Out1 :=
  ok (s.issue tid slotMX (encMXD 0x03 acc fmt cc a m) (effMdrn acc fmt cc a m))

/-- The oldest closed block's sum is converted and added at the end of cycle t + 8. `delta` is a physical corruption of the 48-bit block sum of element
`elem` = 128 × row + column; 0 where the array is sound. -/
def execBlockCommit (tid elem : Nat) (delta : Int) (s : State) : Out1 :=
  ok (s.onTid tid (fun t => t.commit elem delta))

/-- The oldest matrix residue check completes; a mismatch raises `RESIDUE_MX` while the check is enabled. -/
def Tile.mxCheckDone (t : Tile) : Tile :=
  match t.mx.mxChecks with
  | [] => t
  | c :: r =>
    let t1 := { t with mx := { t.mx with mxChecks := r } }
    if c.bad && bitAt t.blk.chkEff 0 then t1.raise .residueMx slotMX t1.pcNow false else t1

def execResidueMxCheck (tid : Nat) (s : State) : Out1 := ok (s.onTid tid Tile.mxCheckDone)

end Sys2Proof.Machine
end

