-- ==== Sys2Proof/Machine/Parties.lean ====
section
/-!
DEFINITION. How the rack manager's and the tray controller's commands reach the package: the management datagram (R316 to R319), the manager's absence (R374), and the I3C port (R315).
-/
namespace Sys2Proof.Machine

/-! ### The management datagram (R316 to R318) -/

/-- Why a datagram is discarded: 0 where it passes R317, else the reason of event 0x0005. The package takes requests (type 1) and index queries (type 3). -/
def State.dgramBad (s : State) (b : List Byte) : Nat :=
  let n := leAt b 22 2
  let body := b.take (280 + n)
  if b.length ≠ 296 + n ∨ 1024 < n ∨ leAt b 0 4 ≠ 0x39594C4D ∨ leAt b 4 1 ≠ 1 ∨ (leAt b 5 1 ≠ 1 ∧ leAt b 5 1 ≠ 3) then 1
  else if leAt b 16 4 ≠ s.pid then 2
  else
    match s.keySlot (leAt b 6 2) with
    | none => 3
    | some k => if dgramTag k.key body ≠ b.drop (280 + n) then 4 else if leAt b 8 8 ≤ k.rx then 5 else 0

/-- A discard is counted in the event log (R317, R318). -/
def State.dgramDrop (s : State) (reason : Nat) : State := s.event 0x0005 5 reason

/-- The expiry of the 30 s count (R374). -/
def State.absentDue (s : State) : Nat := s.absentFrom + 30000 * ms

/-- The manager has not been heard for 30 s: `CAP_MGR` takes `ORPHAN_CAP`, once for each absence (R374, R420). -/
def State.absentLapse (s : State) : State :=
  match s.cfg.image with
  | none => s
  | some im =>
    if !im.mgr ∨ s.m.mgrFrom.isNone ∨ s.m.mgrFired = some s.absentFrom ∨ s.pkg.watchStall ∨ watchCycle s.time.now ≤ watchCycle s.absentDue then s
    else { s with m := { s.m with capMgr := im.orphanCap, orphan := true, mgrFired := some s.absentFrom }, pw := { s.pw with capMgrWas := im.orphanCap } }

/-- A datagram that passes R317: its counter is kept, and the manager is heard (R319); one heard in the cycle of the expiry edge is a near miss, and one heard later comes after
the expiry (R417). -/
def State.dgramHeard (s : State) (b : List Byte) : State :=
  let id := leAt b 6 2
  let s1 := match s.keySlot id with
    | some k => { s with m := { s.m with keys := Tab.set s.m.keys id { k with rx := leAt b 8 8 } } }
    | none => s
  let s1 := s1.absentLapse
  let near := s1.mgrAttached && s1.m.mgrFired != some s1.absentFrom && watchCycle s1.absentDue == watchCycle s1.time.now
  let s2 := if near then s1.nearMissEvent 9 else s1
  { s2 with m := { s2.m with mgrHeard := some s2.time.now } }

/-- The package can be reached on `MMB`: from `BOOT` on, with an address in flash (R341, R343). -/
def State.mmbOn (s : State) : Bool := s.booted && s.cfg.flashIp != 0

/-- A request datagram (R316 to R319): at `PROD` it is written into its slot and registered, between `CONS` and `PROD` it repeats a command that is not answered yet. -/
def execMmbDatagram (b : List Byte) (t : Nat) (s : State) : Out1 :=
  let s0 := s.advance t
  if !s0.mmbOn ∨ leAt b 5 1 = 3 then ok s0
  else
    let bad := s0.dgramBad b
    if bad ≠ 0 then ok (s0.dgramDrop bad)
    else
      let s1 := s0.dgramHeard b
      let m := s1.mbx 4
      let idx := leAt b 20 2
      let n := leAt b 22 2
      let room := decide ((m.prod + 65536 - m.cons) % 65536 < 64)
      if idx = m.prod ∧ room then
        let ram := Mem.store (Mem.store s1.h.ram (slotAddr 4 idx) ((b.drop 24).take 256)) (mmbReq + idx % 64 * 1024) ((b.drop 280).take n)
        let s2 := { s1 with h := { s1.h with ram := ram }, m := { s1.m with
          reqKey := Tab.set s1.m.reqKey (idx % 64) (mmbNote (leAt b 6 2) n 0)
          reqAuth := match s1.keySlot (leAt b 6 2) with
            | some k => Tab.set s1.m.reqAuth (idx % 64) k
            | none => s1.m.reqAuth } }
        ok (s2.registerN 4 1)
      else if (idx + 65536 - m.cons) % 65536 < (m.prod + 65536 - m.cons) % 65536 then ok s1
      else ok (s1.dgramDrop 6)

/-- An index query is answered with `CONS` and `PROD` (R318). -/
def execIndexQuery (b : List Byte) (t : Nat) (s : State) : Out1 :=
  let s0 := s.advance t
  if !s0.mmbOn ∨ leAt b 5 1 ≠ 3 then ok s0
  else
    let bad := s0.dgramBad b
    if bad ≠ 0 then ok (s0.dgramDrop bad)
    else
      let s1 := s0.dgramHeard b
      let m := s1.mbx 4
      ok (s1.sendDgram (s1.keySlot (leAt b 6 2)) (leAt b 6 2) 4 m.cons m.prod (zeros 256) [])

/-- The 30 s of the manager's absence are over (R374). -/
def execManagerAbsentTimeout (t : Nat) (s : State) : Out1 := ok (s.advance t).absentLapse

/-! ### I3C (R315) -/

/-- The 48-bit provisional ID. -/
def State.i3cId (s : State) : Nat := s.pid % 2 ^ 19 + place Config.i3cIdent.toNat 29 19

/-- The tray controller assigns a dynamic address; the package gives its provisional ID. -/
def execEntdaa (addr t : Nat) (s : State) : Out1 :=
  let s0 := s.advance t
  if !s0.booted then ok s0 else ok ({ s0 with m := { s0.m with i3cAddr := some (addr % 128) } }.emit 9 s0.i3cId)

/-- A private write carries a command; while one is pending it is NACKed (value 0), else acknowledged (value 1). -/
def execI3cPrivateWrite (b : List Byte) (t : Nat) (s : State) : Out1 :=
  let s0 := s.advance t
  if !s0.booted ∨ s0.m.i3cAddr.isNone then ok s0
  else if s0.m.i3cPending then ok (s0.emit 9 0)
  else
    let ram := Mem.store (Mem.zero s0.h.ram i3cSlot 256) i3cSlot (b.take 256)
    let s1 := { s0 with h := { s0.h with ram := ram }, m := { s0.m with i3cPending := true, i3cReady := false } }
    ok ((s1.registerN 5 1).emit 9 1)

/-- A private read is NACKed until a response is ready; then it returns the header and the payload once. -/
def execI3cPrivateRead (t : Nat) (s : State) : Out1 :=
  let s0 := s.advance t
  if !s0.booted ∨ s0.m.i3cAddr.isNone then ok s0
  else if !s0.m.i3cReady then ok (s0.emit 9 0)
  else ok ({ s0 with m := { s0.m with i3cReady := false } }.emitBytes 9 (Mem.bytes s0.h.ram i3cSlot (16 + Mem.le s0.h.ram (i3cSlot + 8) 2)))

/-- 30 s without a completed command: the tray controller counts as absent from I3C. Its hold stands (R374). -/
def execI3cPresenceTimeout (t : Nat) (s : State) : Out1 :=
  let s0 := s.advance t
  if s0.i3cPresent then ok s0 else ok { s0 with m := { s0.m with i3cAt := none } }

end Sys2Proof.Machine
end

