-- ==== Sys2Proof/Machine/PowerCmds.lean ====
section
/-!
DEFINITION. The commands of groups 0x04xx and 0x05xx: power (R327 to R329, R372 to R376) and time (R330).
-/
namespace Sys2Proof.Machine

/-- `CAP_SET`: the party's own cap. A value above the lower of the other party's cap and `CAP_HW` is held and logged (R327, R329, R376). The rack manager's clears the orphan flag (R374), also
where the image declares no manager: R327 lets the command set the cap that R7 keeps at `ORPHAN_CAP` (DEDUCED, log entry 112). -/
def execCapSet (mb t : Nat) (s : State) : Out1 :=
  ok (s.commandNow mb t (Cmd.fixed 0x0401 4 [1, 2] false [(2, 2)]) (fun u r =>
    let v := r.f 0 2
    let host := r.party == 1
    let other := if host then u.m.capMgr else u.m.capHost
    let low := min other u.pw.capHw
    if 2800 < v then (u, Resp.err 0x0401)
    else if v < 1200 then (u, Resp.err 0x0402)
    else
      let u1 := if host then { u with m := { u.m with capHost := v, capBy := partyCode mb } } else { u with m := { u.m with capMgr := v, orphan := false } }
      let u2 := if low < v then u1.addOrder 0x0401 (partyCode mb) (if u.pw.capHw < other then 5 else if host then 2 else u.m.capBy) r.seq v low else u1
      (u2, Resp.ok_ u2.capBytes)))

/-- `CAP_GET`. -/
def execCapGet (mb t : Nat) (s : State) : Out1 :=
  ok (s.commandNow mb t (Cmd.fixed 0x0402 0 [1, 2, 3] false []) (fun u _ => (u, Resp.ok_ u.capBytes)))

/-- The holder bit of a party: 0 the rack manager, 2 the tray controller by I3C. -/
def holdBit (party : Nat) : Nat := if party = 2 then 0 else 2

/-- `HOLD_SET` (R328). -/
def execHoldSet (mb t : Nat) (s : State) : Out1 :=
  ok (s.commandNow mb t (Cmd.fixed 0x0403 0 [2, 3] false []) (fun u r =>
    let u1 := u.addHold (holdBit r.party)
    (u1, Resp.ok_ (leBytes 2 u1.holdersMask))))

/-- The code of the earliest holder, 0 with none. -/
def State.firstHolder (s : State) : Nat :=
  match s.m.holders with
  | b :: _ => holderParty b
  | [] => 0

/-- `HOLD_RELEASE` (R328): by a party that does not hold it is refused and logged. -/
def execHoldRelease (mb t : Nat) (s : State) : Out1 :=
  ok (s.commandNow mb t (Cmd.fixed 0x0404 0 [2, 3] false []) (fun u r =>
    let b := holdBit r.party
    if u.m.holders.contains b then
      let u1 := u.dropHold b
      (u1, Resp.ok_ (leBytes 2 u1.holdersMask))
    else (u.addOrder 0x0404 (partyCode mb) u.firstHolder r.seq 1 (b2n u.held), Resp.err 0x0403)))

/-- `SPRINT_SET` (R327, R397). -/
def execSprintSet (mb t : Nat) (s : State) : Out1 :=
  ok (s.commandNow mb t (Cmd.fixed 0x0405 4 [1, 2] false [(1, 3)]) (fun u r =>
    let v := r.f 0 1
    if 1 < v then (u, Resp.err 0x0401)
    else
      let u1 := if r.party = 1 then { u with m := { u.m with sprintHost := v == 1 } } else { u with m := { u.m with sprintMgr := v == 1 } }
      (u1, Resp.ok_ (leBytes 2 (b2n u1.m.sprintHost + 2 * b2n u1.m.sprintMgr + 4 * b2n u1.pw.sprintAt.isSome)))))

/-- `POWER_GET`. -/
def execPowerGet (mb t : Nat) (s : State) : Out1 :=
  ok (s.commandNow mb t (Cmd.fixed 0x0406 0 [1, 2, 3] false []) (fun u _ => (u, Resp.ok_ (u.powerBytes ++ leBytes 8 u.time.ft))))

/-! ### Time (R330) -/

/-- `TIME_GET`. -/
def execTimeGet (mb t : Nat) (s : State) : Out1 :=
  ok (s.commandNow mb t (Cmd.fixed 0x0501 0 [1, 2] false []) (fun u _ =>
    (u, Resp.ok_ (leBytes 8 u.time.ft ++ leBytes 4 u.ftState ++ leBytes 4 (u.timeReg 0x200C) ++ leBytes 4 (u.timeReg 0x2010) ++ leBytes 4 (u.timeReg 0x2014)
      ++ leBytes 8 (toBits 64 u.time.tai) ++ leBytes 4 u.holdoverMs ++ zeros 4))))

/-- `TAI_SET`: the master's TAI offset; FT is unchanged. Replacing a value the other party set is logged. -/
def execTaiSet (mb t : Nat) (s : State) : Out1 :=
  ok (s.commandNow mb t (Cmd.fixed 0x0502 8 [1, 2] false []) (fun u r =>
    if u.time.tstate ≠ 5 then (u, Resp.err 0x0501)
    else
      let v := sext 64 (r.f 0 8)
      let old := u.time.tai
      let replaces := u.m.taiBy % 16 ≠ 0 ∧ u.m.taiBy % 16 ≠ r.party ∧ u.m.taiVal = old
      let u1 := if replaces then u.addOrder 0x0502 (partyCode mb) u.m.taiBy r.seq (toBits 64 v) (toBits 64 old) else u
      let u2 := u1.setTai v
      ({ u2 with m := { u2.m with taiBy := partyCode mb, taiVal := v } }, Resp.ok_ [])))

/-- `MASTER_SET` replaces the time master LPN of the accepted image (R152 to R154). -/
def execMasterSet (mb t : Nat) (s : State) : Out1 :=
  ok (s.commandNow mb t (Cmd.fixed 0x0503 4 [1] false [(2, 2)]) (fun u r =>
    match u.cfg.image with
    | none => (u, Resp.err 0x0503)
    | some im =>
      if 32768 ≤ r.f 0 2 then (u, Resp.err 0x0503)
      else if u.ctx.accepted then (u, Resp.err 0x0502)
      else ({ u with cfg := { u.cfg with image := some { im with timeMaster := r.f 0 2 } } }.timeConfigured true, Resp.ok_ [])))

/-- `PTP_GET`. -/
def execPtpGet (mb t : Nat) (s : State) : Out1 :=
  ok (s.commandNow mb t (Cmd.fixed 0x0504 0 [1, 2] false []) (fun u _ =>
    let x := u.time
    (u, Resp.ok_ (leBytes 4 x.ptpAnnounceRx ++ leBytes 4 x.ptpSyncRx ++ leBytes 4 x.ptpDelayResp ++ leBytes 4 x.ptpDrop ++ leBytes 1 u.clockClass ++ leBytes 1 u.timeSource
      ++ leBytes 1 (b2n (u.timeEn 1)) ++ zeros 5))))

end Sys2Proof.Machine
end

