-- ==== Sys2Proof/Machine/Scalar.lean ====
section
/-!
DEFINITION. The meanings of the scalar slot (R98 to R100, R113) and of NOP (R83). Each issues its syllable where the tile's bundle holds exactly it.
-/
namespace Sys2Proof.Machine

/-- NOP (R83): issues and does nothing. Decode of the bundle may find its faults here (R84, R16, R37). -/
def execNop (tid slot : Nat) (s : State) : Out1 := ok (s.issue tid slot 0 (fun t => t))

/-- A three-register scalar operation of R98. -/
def State.alu (s : State) (op tid d a b : Nat) : State := s.issue tid slotSC (encSC op d a b 0 0) (effAlu op d a b)

def execAdd (tid d a b : Nat) (s : State) : Out1 := ok (s.alu 0x01 tid d a b)
def execSub (tid d a b : Nat) (s : State) : Out1 := ok (s.alu 0x02 tid d a b)
def execAnd (tid d a b : Nat) (s : State) : Out1 := ok (s.alu 0x03 tid d a b)
def execOr (tid d a b : Nat) (s : State) : Out1 := ok (s.alu 0x04 tid d a b)
def execXor (tid d a b : Nat) (s : State) : Out1 := ok (s.alu 0x05 tid d a b)
def execShl (tid d a b : Nat) (s : State) : Out1 := ok (s.alu 0x06 tid d a b)
def execShr (tid d a b : Nat) (s : State) : Out1 := ok (s.alu 0x07 tid d a b)
def execSra (tid d a b : Nat) (s : State) : Out1 := ok (s.alu 0x08 tid d a b)
def execCmpeq (tid d a b : Nat) (s : State) : Out1 := ok (s.alu 0x09 tid d a b)
def execCmplt (tid d a b : Nat) (s : State) : Out1 := ok (s.alu 0x0A tid d a b)
def execCmpltu (tid d a b : Nat) (s : State) : Out1 := ok (s.alu 0x0B tid d a b)
def execMul (tid d a b : Nat) (s : State) : Out1 := ok (s.alu 0x10 tid d a b)

def execAddi (tid d a : Nat) (imm : Word) (s : State) : Out1 :=
  ok (s.issue tid slotSC (encSC 0x18 d a 0 0 imm.toNat) (effAddi d a imm.toNat))

def execMovi (tid d : Nat) (imm : Word) (s : State) : Out1 :=
  ok (s.issue tid slotSC (encSC 0x19 d 0 0 0 imm.toNat) (effMovi d imm.toNat))

def execMovl (tid d l : Nat) (s : State) : Out1 :=
  ok (s.issue tid slotSC (encSC 0x1A d 0 0 (l % 4) 0) (effMovl d (l % 4)))

def execBcast (tid d a : Nat) (s : State) : Out1 :=
  ok (s.issue tid slotSC (encSC 0x20 d a 0 0 0) (effBcast d a))

def execExt (tid d a lane : Nat) (s : State) : Out1 :=
  ok (s.issue tid slotSC (encSC 0x21 d a 0 (lane % 256) 0) (effExt d a (lane % 256)))

def execAdw (tid d word a : Nat) (s : State) : Out1 :=
  ok (s.issue tid slotSC (encSC 0x28 d a 0 word 0) (effAdw d word a))

def execAdwi (tid d word : Nat) (imm : Word) (s : State) : Out1 :=
  ok (s.issue tid slotSC (encSC 0x29 d 0 0 word imm.toNat) (effAdwi d word imm.toNat))

def execFset (tid f : Nat) (imm : BitVec 16) (s : State) : Out1 :=
  ok (s.issue tid slotSC (encSC 0x30 0 0 0 f imm.toNat) (effFset f imm.toNat))

def execFeed (tid a pre : Nat) (s : State) : Out1 :=
  ok (s.issue tid slotSC (encSC 0x31 a 0 0 (pre % 2) 0) (effFeed a (pre % 2)))

end Sys2Proof.Machine
end

