-- ==== Sys2Proof/Machine/Stream.lean ====
section
/-!
DEFINITION. The meanings of the stream load and store slots (R104 to R107) and of the completion of a palette write. `u` is 0 for `LS0`, 1 for `LS1`.
-/
namespace Sys2Proof.Machine

/-- The slot of LS unit `u`. -/
def lsSlot (u : Nat) : Nat := u % 2 + 2

def execVld (tid u reg a q : Nat) (s : State) : Out1 :=
  ok (s.issue tid (lsSlot u) (encLS 0x01 reg a q 0 0 0 0 0 0 0 0) (effVld (lsSlot u) reg a q))

def execVldx8 (tid u reg a : Nat) (s : State) : Out1 :=
  ok (s.issue tid (lsSlot u) (encLS 0x02 reg a 0 0 0 0 0 0 0 0 0) (effVldx8 (lsSlot u) reg a))

def execVldx4 (tid u reg a : Nat) (s : State) : Out1 :=
  ok (s.issue tid (lsSlot u) (encLS 0x03 reg a 0 0 0 0 0 0 0 0 0) (effVldx4 (lsSlot u) reg a))

def execSld (tid u reg a : Nat) (s : State) : Out1 :=
  ok (s.issue tid (lsSlot u) (encLS 0x04 reg a 0 0 0 0 0 0 0 0 0) (effSld (lsSlot u) reg a))

def execVst (tid u reg a q p : Nat) (s : State) : Out1 :=
  ok (s.issue tid (lsSlot u) (encLS 0x08 reg a q p 0 0 0 0 0 0 0) (effVst (lsSlot u) reg a q p))

def execSst (tid u reg a : Nat) (s : State) : Out1 :=
  ok (s.issue tid (lsSlot u) (encLS 0x09 reg a 0 0 0 0 0 0 0 0 0) (effSst (lsSlot u) reg a))

def execWbf (tid wb a off len : Nat) (s : State) : Out1 :=
  ok (s.issue tid slotLS1 (encLS 0x10 0 a 0 0 wb off len 0 0 0 0) (effWbf wb a off len))

def execPalw (tid a pslot pcnt pt f : Nat) (s : State) : Out1 :=
  ok (s.issue tid slotLS1 (encLS 0x11 0 a 0 0 0 0 0 f pslot pcnt pt) (effPalw a pslot pcnt pt f))

/-- All slots of the oldest palette write are written and its flag increments (R107); in a frozen period it stops with the clock (R13, R47). -/
def execPalwComplete (tid : Nat) (s : State) : Out1 :=
  ok (s.onTid tid (fun t => if s.runs (s.ptiOf tid) && !t.iss.dbgFreeze then t.palComplete else t))

end Sys2Proof.Machine
end

