-- ==== Sys2Proof/Machine/Vector.lean ====
section
/-!
DEFINITION. The meanings of the vector slots (R115 to R117) and of the vector residue check (R49). `u` is 0 for `VX0`, 1 for `VX1`. In the residue-checked operations
`elem` and `delta` are a physical corruption of one element's significand product, `delta` 0 where the datapath is sound.
-/
namespace Sys2Proof.Machine

/-- VX unit number 0 or 1. -/
def vxU (u : Nat) : Nat := u % 2

def execVfma (tid u d a b c p ty elem : Nat) (delta : Int) (s : State) : Out1 :=
  ok (s.issue tid (vxSlot (vxU u)) (encVX 0x01 d a b c p ty 0 0 0 0 0 0 0) (effVfma (vxU u) d a b c p ty elem delta))

def execVmul (tid u d a b p ty elem : Nat) (delta : Int) (s : State) : Out1 :=
  ok (s.issue tid (vxSlot (vxU u)) (encVX 0x02 d a b 0 p ty 0 0 0 0 0 0 0) (effVmul (vxU u) d a b p ty elem delta))

def execVadd (tid u d a b p ty elem : Nat) (delta : Int) (s : State) : Out1 :=
  ok (s.issue tid (vxSlot (vxU u)) (encVX 0x03 d a b 0 p ty 0 0 0 0 0 0 0) (effVadd (vxU u) d a b p ty elem delta))

def execVsub (tid u d a b p ty elem : Nat) (delta : Int) (s : State) : Out1 :=
  ok (s.issue tid (vxSlot (vxU u)) (encVX 0x04 d a b 0 p ty 0 0 0 0 0 0 0) (effVsub (vxU u) d a b p ty elem delta))

/-- A 32-bit integer vector operation of R115. -/
def State.vint (s : State) (op tid u d a b p : Nat) : State :=
  s.issue tid (vxSlot (vxU u)) (encVX op d a b 0 p 6 0 0 0 0 0 0 0) (effVint op d a b p)

def execViadd (tid u d a b p : Nat) (s : State) : Out1 := ok (s.vint 0x08 tid u d a b p)
def execVisub (tid u d a b p : Nat) (s : State) : Out1 := ok (s.vint 0x09 tid u d a b p)
def execVand (tid u d a b p : Nat) (s : State) : Out1 := ok (s.vint 0x0A tid u d a b p)
def execVor (tid u d a b p : Nat) (s : State) : Out1 := ok (s.vint 0x0B tid u d a b p)
def execVxor (tid u d a b p : Nat) (s : State) : Out1 := ok (s.vint 0x0C tid u d a b p)
def execVshl (tid u d a b p : Nat) (s : State) : Out1 := ok (s.vint 0x0D tid u d a b p)
def execVshr (tid u d a b p : Nat) (s : State) : Out1 := ok (s.vint 0x0E tid u d a b p)
def execVsra (tid u d a b p : Nat) (s : State) : Out1 := ok (s.vint 0x0F tid u d a b p)

def execVsel (tid u d a b p : Nat) (s : State) : Out1 :=
  ok (s.issue tid (vxSlot (vxU u)) (encVX 0x10 d a b 0 p 0 0 0 0 0 0 0 0) (effVsel d a b p))

def execVfmax (tid u d a b p ty : Nat) (s : State) : Out1 :=
  ok (s.issue tid (vxSlot (vxU u)) (encVX 0x11 d a b 0 p ty 0 0 0 0 0 0 0) (effVmax d a b p ty))

def execVfmin (tid u d a b p ty : Nat) (s : State) : Out1 :=
  ok (s.issue tid (vxSlot (vxU u)) (encVX 0x12 d a b 0 p ty 0 0 0 0 0 0 0) (effVmin d a b p ty))

def execVcmp (tid u d a b p ty fn : Nat) (s : State) : Out1 :=
  ok (s.issue tid (vxSlot (vxU u)) (encVX 0x18 d a b 0 p ty 0 0 fn 0 0 0 0) (effVcmp d a b p ty fn))

def execVperm (tid u d a b p : Nat) (s : State) : Out1 :=
  ok (s.issue tid (vxSlot (vxU u)) (encVX 0x1C d a b 0 p 0 0 0 0 0 0 0 0) (effVperm d a b p))

def execVcvt (tid u d a p ty t2 cc fn q pk : Nat) (s : State) : Out1 :=
  ok (s.issue tid (vxSlot (vxU u)) (encVX 0x20 d a 0 0 p ty t2 cc fn q pk 0 0) (effVcvt tid (vxU u) d a p ty t2 cc fn q pk))

def execVred (tid u d a p ty fn : Nat) (s : State) : Out1 :=
  ok (s.issue tid (vxSlot (vxU u)) (encVX 0x24 d a 0 0 p ty 0 0 fn 0 0 0 0) (effVred d a p ty fn))

def execVpal (tid u d a p sel imm8 : Nat) (s : State) : Out1 :=
  ok (s.issue tid (vxSlot (vxU u)) (encVX 0x28 d a 0 0 p 0 0 0 0 0 0 sel imm8) (effVpal d a p sel imm8))

def execVtr (tid d a p fn : Nat) (s : State) : Out1 :=
  ok (s.issue tid slotVX1 (encVX 0x30 d a 0 0 p 0 0 0 fn 0 0 0 0) (effVtr d a p fn))

/-- Take the first check of a slot out of the list. -/
def takeCheck (slot : Nat) : List Chk → Option (Chk × List Chk)
  | [] => none
  | c :: r =>
    if c.slot = slot then some (c, r)
    else match takeCheck slot r with
      | some (x, r') => some (x, c :: r')
      | none => none

/-- The oldest vector residue check of slot VX`u` completes; a mismatch raises `RESIDUE_VX` while the check is enabled. -/
def Tile.vxCheckDone (t : Tile) (u : Nat) : Tile :=
  match takeCheck (vxSlot u) t.mx.vxChecks with
  | none => t
  | some (c, r) =>
    let t1 := { t with mx := { t.mx with vxChecks := r } }
    if c.bad && bitAt t.blk.chkEff 1 then t1.raise .residueVx (vxSlot u) t1.pcNow false else t1

def execResidueVxCheck (tid u : Nat) (s : State) : Out1 := ok (s.onTid tid (fun t => t.vxCheckDone (vxU u)))

end Sys2Proof.Machine
end

