-- ==== Sys2Proof/Machine/Dispatch.lean ====
section
/-!
DEFINITION. The meaning of each command: one arm per row of the table.
-/
namespace Sys2Proof.Machine

def exec (i : Instr) (s : State) : Host.Outcome State Fault Refusal :=
  match i with
  | .nop tid slot => Sys2Proof.Machine.execNop tid slot s
  | .br tid target => Sys2Proof.Machine.execBr tid target s
  | .brz tid sr target => Sys2Proof.Machine.execBrz tid sr target s
  | .brnz tid sr target => Sys2Proof.Machine.execBrnz tid sr target s
  | .call tid sr target => Sys2Proof.Machine.execCall tid sr target s
  | .ret tid sr => Sys2Proof.Machine.execRet tid sr s
  | .loopi tid l count target => Sys2Proof.Machine.execLoopi tid l count target s
  | .loops tid l sr target => Sys2Proof.Machine.execLoops tid l sr target s
  | .lexit tid l => Sys2Proof.Machine.execLexit tid l s
  | .waitf tid f count => Sys2Proof.Machine.execWaitf tid f count s
  | .waitfs tid f sr => Sys2Proof.Machine.execWaitfs tid f sr s
  | .waitfPass tid => Sys2Proof.Machine.execWaitfPass tid s
  | .barrier tid f => Sys2Proof.Machine.execBarrier tid f s
  | .barrierLimitRelease tid => Sys2Proof.Machine.execBarrierLimitRelease tid s
  | .wake tid die rows => Sys2Proof.Machine.execWake tid die rows s
  | .stepEnd tid => Sys2Proof.Machine.execStepEnd tid s
  | .stepEndRelease tid => Sys2Proof.Machine.execStepEndRelease tid s
  | .add tid d a b => Sys2Proof.Machine.execAdd tid d a b s
  | .sub tid d a b => Sys2Proof.Machine.execSub tid d a b s
  | .and tid d a b => Sys2Proof.Machine.execAnd tid d a b s
  | .or tid d a b => Sys2Proof.Machine.execOr tid d a b s
  | .xor tid d a b => Sys2Proof.Machine.execXor tid d a b s
  | .shl tid d a b => Sys2Proof.Machine.execShl tid d a b s
  | .shr tid d a b => Sys2Proof.Machine.execShr tid d a b s
  | .sra tid d a b => Sys2Proof.Machine.execSra tid d a b s
  | .cmpeq tid d a b => Sys2Proof.Machine.execCmpeq tid d a b s
  | .cmplt tid d a b => Sys2Proof.Machine.execCmplt tid d a b s
  | .cmpltu tid d a b => Sys2Proof.Machine.execCmpltu tid d a b s
  | .mul tid d a b => Sys2Proof.Machine.execMul tid d a b s
  | .addi tid d a imm => Sys2Proof.Machine.execAddi tid d a imm s
  | .movi tid d imm => Sys2Proof.Machine.execMovi tid d imm s
  | .movl tid d l => Sys2Proof.Machine.execMovl tid d l s
  | .bcast tid d a => Sys2Proof.Machine.execBcast tid d a s
  | .ext tid d a lane => Sys2Proof.Machine.execExt tid d a lane s
  | .adw tid d word a => Sys2Proof.Machine.execAdw tid d word a s
  | .adwi tid d word imm => Sys2Proof.Machine.execAdwi tid d word imm s
  | .fset tid f imm => Sys2Proof.Machine.execFset tid f imm s
  | .feed tid a pre => Sys2Proof.Machine.execFeed tid a pre s
  | .vld tid u reg a q => Sys2Proof.Machine.execVld tid u reg a q s
  | .vldx8 tid u reg a => Sys2Proof.Machine.execVldx8 tid u reg a s
  | .vldx4 tid u reg a => Sys2Proof.Machine.execVldx4 tid u reg a s
  | .sld tid u reg a => Sys2Proof.Machine.execSld tid u reg a s
  | .vst tid u reg a q p => Sys2Proof.Machine.execVst tid u reg a q p s
  | .sst tid u reg a => Sys2Proof.Machine.execSst tid u reg a s
  | .wbf tid wb a off len => Sys2Proof.Machine.execWbf tid wb a off len s
  | .palw tid a pslot pcnt pt f => Sys2Proof.Machine.execPalw tid a pslot pcnt pt f s
  | .palwComplete tid => Sys2Proof.Machine.execPalwComplete tid s
  | .mks tid fa fb acc wb half sp last => Sys2Proof.Machine.execMks tid fa fb acc wb half sp last s
  | .blockCommit tid elem delta => Sys2Proof.Machine.execBlockCommit tid elem delta s
  | .mclr tid acc => Sys2Proof.Machine.execMclr tid acc s
  | .mdrn tid acc fmt cc a m => Sys2Proof.Machine.execMdrn tid acc fmt cc a m s
  | .vfma tid u d a b c p ty elem delta => Sys2Proof.Machine.execVfma tid u d a b c p ty elem delta s
  | .vmul tid u d a b p ty elem delta => Sys2Proof.Machine.execVmul tid u d a b p ty elem delta s
  | .vadd tid u d a b p ty elem delta => Sys2Proof.Machine.execVadd tid u d a b p ty elem delta s
  | .vsub tid u d a b p ty elem delta => Sys2Proof.Machine.execVsub tid u d a b p ty elem delta s
  | .viadd tid u d a b p => Sys2Proof.Machine.execViadd tid u d a b p s
  | .visub tid u d a b p => Sys2Proof.Machine.execVisub tid u d a b p s
  | .vand tid u d a b p => Sys2Proof.Machine.execVand tid u d a b p s
  | .vor tid u d a b p => Sys2Proof.Machine.execVor tid u d a b p s
  | .vxor tid u d a b p => Sys2Proof.Machine.execVxor tid u d a b p s
  | .vshl tid u d a b p => Sys2Proof.Machine.execVshl tid u d a b p s
  | .vshr tid u d a b p => Sys2Proof.Machine.execVshr tid u d a b p s
  | .vsra tid u d a b p => Sys2Proof.Machine.execVsra tid u d a b p s
  | .vsel tid u d a b p => Sys2Proof.Machine.execVsel tid u d a b p s
  | .vfmax tid u d a b p ty => Sys2Proof.Machine.execVfmax tid u d a b p ty s
  | .vfmin tid u d a b p ty => Sys2Proof.Machine.execVfmin tid u d a b p ty s
  | .vcmp tid u d a b p ty fn => Sys2Proof.Machine.execVcmp tid u d a b p ty fn s
  | .vperm tid u d a b p => Sys2Proof.Machine.execVperm tid u d a b p s
  | .vcvt tid u d a p ty t2 cc fn q pk => Sys2Proof.Machine.execVcvt tid u d a p ty t2 cc fn q pk s
  | .vred tid u d a p ty fn => Sys2Proof.Machine.execVred tid u d a p ty fn s
  | .vpal tid u d a p sel imm8 => Sys2Proof.Machine.execVpal tid u d a p sel imm8 s
  | .vtr tid d a p fn => Sys2Proof.Machine.execVtr tid d a p fn s
  | .fixedLatencyWriteback tid => Sys2Proof.Machine.execFixedLatencyWriteback tid s
  | .residueMxCheck tid => Sys2Proof.Machine.execResidueMxCheck tid s
  | .residueVxCheck tid u => Sys2Proof.Machine.execResidueVxCheck tid u s
  | .xrd tid f a sa len => Sys2Proof.Machine.execXrd tid f a sa len s
  | .xwr tid f a sa len => Sys2Proof.Machine.execXwr tid f a sa len s
  | .xwrb tid f a sa sb len => Sys2Proof.Machine.execXwrb tid f a sa sb len s
  | .xred tid f a sa fmt rop len => Sys2Proof.Machine.execXred tid f a sa fmt rop len s
  | .xgath tid f a sa sb es len => Sys2Proof.Machine.execXgath tid f a sa sb es len s
  | .xscat tid f a sa sb fmt es len => Sys2Proof.Machine.execXscat tid f a sa sb fmt es len s
  | .xpdec tid f a sa sb fmt len => Sys2Proof.Machine.execXpdec tid f a sa sb fmt len s
  | .xzero tid f sa len => Sys2Proof.Machine.execXzero tid f sa len s
  | .xfLimitRelease tid => Sys2Proof.Machine.execXfLimitRelease tid s
  | .flagIncrement tid f => Sys2Proof.Machine.execFlagIncrement tid f s
  | .heldIncrementRegister tid f => Sys2Proof.Machine.execHeldIncrementRegister tid f s
  | .bundleStoreWrite pti addr data => Sys2Proof.Machine.execBundleStoreWrite pti addr data s
  | .tileScrub pti space ups => Sys2Proof.Machine.execTileScrub pti space ups s
  | .stepLaunch t => Sys2Proof.Machine.execStepLaunch t s
  | .timedWake t => Sys2Proof.Machine.execTimedWake t s
  | .stepStart t => Sys2Proof.Machine.execStepStart t s
  | .rowWakeComplete r t => Sys2Proof.Machine.execRowWakeComplete r t s
  | .rowRetain r t => Sys2Proof.Machine.execRowRetain r t s
  | .stepComplete t => Sys2Proof.Machine.execStepComplete t s
  | .watchdog tid => Sys2Proof.Machine.execWatchdog tid s
  | .contextKill t => Sys2Proof.Machine.execContextKill t s
  | .abortSend t => Sys2Proof.Machine.execAbortSend t s
  | .lakeDrainEnd rsp t => Sys2Proof.Machine.execLakeDrainEnd rsp t s
  | .glazeZeroDone t => Sys2Proof.Machine.execGlazeZeroDone t s
  | .tileZeroDone t => Sys2Proof.Machine.execTileZeroDone t s
  | .lakeZeroDone k rsp t => Sys2Proof.Machine.execLakeZeroDone k rsp t s
  | .freezeNoteSend d g t => Sys2Proof.Machine.execFreezeNoteSend d g t s
  | .freezeNote l t => Sys2Proof.Machine.execFreezeNote l t s
  | .freezeNoteLapse g t => Sys2Proof.Machine.execFreezeNoteLapse g t s
  | .barrierUp l t => Sys2Proof.Machine.execBarrierUp l t s
  | .barrierDone l t => Sys2Proof.Machine.execBarrierDone l t s
  | .arbiterGrant kind idx reqs rsp => Sys2Proof.Machine.execArbiterGrant kind idx reqs rsp s
  | .emergencyGrant kind idx t => Sys2Proof.Machine.execEmergencyGrant kind idx t s
  | .packetHop id errs => Sys2Proof.Machine.execPacketHop id errs s
  | .bridgeCrossing id errs => Sys2Proof.Machine.execBridgeCrossing id errs s
  | .rdReq id => Sys2Proof.Machine.execRdReq id s
  | .rdData id => Sys2Proof.Machine.execRdData id s
  | .wr id => Sys2Proof.Machine.execWr id s
  | .wrAck id => Sys2Proof.Machine.execWrAck id s
  | .bcastWr id => Sys2Proof.Machine.execBcastWr id s
  | .bcastAck id => Sys2Proof.Machine.execBcastAck id s
  | .genNack id => Sys2Proof.Machine.execGenNack id s
  | .errResp id => Sys2Proof.Machine.execErrResp id s
  | .glazeArbiterRead id ups => Sys2Proof.Machine.execGlazeArbiterRead id ups s
  | .glazeScrubVisit d ups wrote => Sys2Proof.Machine.execGlazeScrubVisit d ups wrote s
  | .lakeRead id req rsp ups t => Sys2Proof.Machine.execLakeRead id req rsp ups t s
  | .lakeWrite id req rsp t => Sys2Proof.Machine.execLakeWrite id req rsp t s
  | .lakeReduce id req rsp ups t => Sys2Proof.Machine.execLakeReduce id req rsp ups t s
  | .lakeScatterAdd id req rsp ups t => Sys2Proof.Machine.execLakeScatterAdd id req rsp ups t s
  | .lakeGather id req rsp ups t => Sys2Proof.Machine.execLakeGather id req rsp ups t s
  | .lakePaletteDecode id req rsp ups t => Sys2Proof.Machine.execLakePaletteDecode id req rsp ups t s
  | .lakeRangeZero id req rsp t => Sys2Proof.Machine.execLakeRangeZero id req rsp t s
  | .lakeDone id => Sys2Proof.Machine.execLakeDone id s
  | .lakeRefresh k c t => Sys2Proof.Machine.execLakeRefresh k c t s
  | .lakeScrubVisit k c ups t => Sys2Proof.Machine.execLakeScrubVisit k c ups t s
  | .lakeSpareCopyDone k rsp => Sys2Proof.Machine.execLakeSpareCopyDone k rsp s
  | .lakeChannelPdn k c t => Sys2Proof.Machine.execLakeChannelPdn k c t s
  | .lakeChannelSref k c t => Sys2Proof.Machine.execLakeChannelSref k c t s
  | .lakeChannelWake k c rsp t => Sys2Proof.Machine.execLakeChannelWake k c rsp t s
  | .defectListWrite t => Sys2Proof.Machine.execDefectListWrite t s
  | .dmaDoorbell c byHost t => Sys2Proof.Machine.execDmaDoorbell c byHost t s
  | .dmaStop c byHost t => Sys2Proof.Machine.execDmaStop c byHost t s
  | .dmaNextWrite c byHost hi v => Sys2Proof.Machine.execDmaNextWrite c byHost hi v s
  | .dmaDescFetch c code data t => Sys2Proof.Machine.execDmaDescFetch c code data t s
  | .dmaShadowRead c t => Sys2Proof.Machine.execDmaShadowRead c t s
  | .dmaCopy c wr t => Sys2Proof.Machine.execDmaCopy c wr t s
  | .dmaIlv c wr t => Sys2Proof.Machine.execDmaIlv c wr t s
  | .dmaBpl c wr t => Sys2Proof.Machine.execDmaBpl c wr t s
  | .dmaMxs c wr t => Sys2Proof.Machine.execDmaMxs c wr t s
  | .dmaRequestAnswer c tok code data t => Sys2Proof.Machine.execDmaRequestAnswer c tok code data t s
  | .dmaRequestTimeout c tok t => Sys2Proof.Machine.execDmaRequestTimeout c tok t s
  | .frameRx l frame fecBad corrected t => Sys2Proof.Machine.execFrameRx l frame fecBad corrected t s
  | .nakRepeat l t => Sys2Proof.Machine.execNakRepeat l t s
  | .ackSend l t => Sys2Proof.Machine.execAckSend l t s
  | .ack l t => Sys2Proof.Machine.execAck l t s
  | .replayExhaustion l t => Sys2Proof.Machine.execReplayExhaustion l t s
  | .pkt l t => Sys2Proof.Machine.execPkt l t s
  | .egressGrant l t => Sys2Proof.Machine.execEgressGrant l t s
  | .heartbeat l t => Sys2Proof.Machine.execHeartbeat l t s
  | .heartbeatSend t => Sys2Proof.Machine.execHeartbeatSend t s
  | .abort l t => Sys2Proof.Machine.execAbort l t s
  | .lpnClaim l t => Sys2Proof.Machine.execLpnClaim l t s
  | .lpnClaimResend t => Sys2Proof.Machine.execLpnClaimResend t s
  | .sync l t => Sys2Proof.Machine.execSync l t s
  | .dreq l t => Sys2Proof.Machine.execDreq l t s
  | .resp l t => Sys2Proof.Machine.execResp l t s
  | .timSyncSend l child t => Sys2Proof.Machine.execTimSyncSend l child t s
  | .timParentTimeout t => Sys2Proof.Machine.execTimParentTimeout t s
  | .masterListenEnd t => Sys2Proof.Machine.execMasterListenEnd t s
  | .ppsInEdge t => Sys2Proof.Machine.execPpsInEdge t s
  | .ppsInMissed t => Sys2Proof.Machine.execPpsInMissed t s
  | .ppsOutRise t => Sys2Proof.Machine.execPpsOutRise t s
  | .ppsOutFall t => Sys2Proof.Machine.execPpsOutFall t s
  | .syncAuxTimecode t => Sys2Proof.Machine.execSyncAuxTimecode t s
  | .ptpSyncSend t => Sys2Proof.Machine.execPtpSyncSend t s
  | .ptpAnnounceSend t => Sys2Proof.Machine.execPtpAnnounceSend t s
  | .delayReq domain t => Sys2Proof.Machine.execDelayReq domain t s
  | .ptpMessageRx kind domain => Sys2Proof.Machine.execPtpMessageRx kind domain s
  | .ftSampleRead t => Sys2Proof.Machine.execFtSampleRead t s
  | .ftLoRead t => Sys2Proof.Machine.execFtLoRead t s
  | .ident l t => Sys2Proof.Machine.execIdent l t s
  | .identSend l t => Sys2Proof.Machine.execIdentSend l t s
  | .handoffReq l t => Sys2Proof.Machine.execHandoffReq l t s
  | .handoffRsp l t => Sys2Proof.Machine.execHandoffRsp l t s
  | .handoffTimeout l t => Sys2Proof.Machine.execHandoffTimeout l t s
  | .retrain l t => Sys2Proof.Machine.execRetrain l t s
  | .linkTrainStart l pmd t => Sys2Proof.Machine.execLinkTrainStart l pmd t s
  | .trainPhaseTimeout l t => Sys2Proof.Machine.execTrainPhaseTimeout l t s
  | .linkTrainComplete l asym t => Sys2Proof.Machine.execLinkTrainComplete l asym t s
  | .lossOfSignal l t => Sys2Proof.Machine.execLossOfSignal l t s
  | .laneLockLoss l lane t => Sys2Proof.Machine.execLaneLockLoss l lane t s
  | .fastRetrainEnd l ok0 ok1 t => Sys2Proof.Machine.execFastRetrainEnd l ok0 ok1 t s
  | .fastRetrainTimeout l t => Sys2Proof.Machine.execFastRetrainTimeout l t s
  | .degradedTimeout l t => Sys2Proof.Machine.execDegradedTimeout l t s
  | .configRequest write reg v t => Sys2Proof.Machine.execConfigRequest write reg v t s
  | .cxlLinkTrain cxl rate width t => Sys2Proof.Machine.execCxlLinkTrain cxl rate width t s
  | .cxlLinkDown t => Sys2Proof.Machine.execCxlLinkDown t s
  | .perstN t => Sys2Proof.Machine.execPerstN t s
  | .hotReset t => Sys2Proof.Machine.execHotReset t s
  | .perstNDeassert refclk t => Sys2Proof.Machine.execPerstNDeassert refclk t s
  | .hdmRead hpa tag req rsp ups t => Sys2Proof.Machine.execHdmRead hpa tag req rsp ups t s
  | .hdmWrite hpa tag data poisoned req rsp t => Sys2Proof.Machine.execHdmWrite hpa tag data poisoned req rsp t s
  | .bar2Access write addr len data poisoned ups t => Sys2Proof.Machine.execBar2Access write addr len data poisoned ups t s
  | .prodWrite n v t => Sys2Proof.Machine.execProdWrite n v t s
  | .smAddrWrite hi v t => Sys2Proof.Machine.execSmAddrWrite hi v t s
  | .statusMirrorEnable t => Sys2Proof.Machine.execStatusMirrorEnable t s
  | .statusRecordWrite r t => Sys2Proof.Machine.execStatusRecordWrite r t s
  | .statusMirrorRefresh t => Sys2Proof.Machine.execStatusMirrorRefresh t s
  | .mirrorHeartbeat t => Sys2Proof.Machine.execMirrorHeartbeat t s
  | .rcRead byHost addr size same t => Sys2Proof.Machine.execRcRead byHost addr size same t s
  | .registerWrite byHost addr v size t => Sys2Proof.Machine.execRegisterWrite byHost addr v size t s
  | .mailboxDeadlineExpiry mb t => Sys2Proof.Machine.execMailboxDeadlineExpiry mb t s
  | .mmbDatagram b t => Sys2Proof.Machine.execMmbDatagram b t s
  | .indexQuery b t => Sys2Proof.Machine.execIndexQuery b t s
  | .managerAbsentTimeout t => Sys2Proof.Machine.execManagerAbsentTimeout t s
  | .entdaa addr t => Sys2Proof.Machine.execEntdaa addr t s
  | .i3cPrivateWrite b t => Sys2Proof.Machine.execI3cPrivateWrite b t s
  | .i3cPrivateRead t => Sys2Proof.Machine.execI3cPrivateRead t s
  | .i3cPresenceTimeout t => Sys2Proof.Machine.execI3cPresenceTimeout t s
  | .idGet mb t => Sys2Proof.Machine.execIdGet mb t s
  | .stateGet mb t => Sys2Proof.Machine.execStateGet mb t s
  | .cfgPart mb t => Sys2Proof.Machine.execCfgPart mb t s
  | .cfgCommit mb t => Sys2Proof.Machine.execCfgCommit mb t s
  | .cfgInfo mb t => Sys2Proof.Machine.execCfgInfo mb t s
  | .cfgClear mb t => Sys2Proof.Machine.execCfgClear mb t s
  | .claimSet mb t => Sys2Proof.Machine.execClaimSet mb t s
  | .ctxAccept mb t => Sys2Proof.Machine.execCtxAccept mb t s
  | .bundleLoad mb t => Sys2Proof.Machine.execBundleLoad mb t s
  | .stepWrite mb t => Sys2Proof.Machine.execStepWrite mb t s
  | .runSubmit mb t => Sys2Proof.Machine.execRunSubmit mb t s
  | .runStop mb t => Sys2Proof.Machine.execRunStop mb t s
  | .ctxKill mb t => Sys2Proof.Machine.execCtxKill mb t s
  | .ctxEnd mb t => Sys2Proof.Machine.execCtxEnd mb t s
  | .warmReset mb t => Sys2Proof.Machine.execWarmReset mb t s
  | .capSet mb t => Sys2Proof.Machine.execCapSet mb t s
  | .capGet mb t => Sys2Proof.Machine.execCapGet mb t s
  | .holdSet mb t => Sys2Proof.Machine.execHoldSet mb t s
  | .holdRelease mb t => Sys2Proof.Machine.execHoldRelease mb t s
  | .sprintSet mb t => Sys2Proof.Machine.execSprintSet mb t s
  | .powerGet mb t => Sys2Proof.Machine.execPowerGet mb t s
  | .timeGet mb t => Sys2Proof.Machine.execTimeGet mb t s
  | .taiSet mb t => Sys2Proof.Machine.execTaiSet mb t s
  | .masterSet mb t => Sys2Proof.Machine.execMasterSet mb t s
  | .ptpGet mb t => Sys2Proof.Machine.execPtpGet mb t s
  | .spareBind mb t => Sys2Proof.Machine.execSpareBind mb t s
  | .spareUnbind mb t => Sys2Proof.Machine.execSpareUnbind mb t s
  | .spareGet mb t => Sys2Proof.Machine.execSpareGet mb t s
  | .mirrorRegions mb t => Sys2Proof.Machine.execMirrorRegions mb t s
  | .mirrorPoint mb t => Sys2Proof.Machine.execMirrorPoint mb t s
  | .fwStageBegin mb t => Sys2Proof.Machine.execFwStageBegin mb t s
  | .stagingEraseDone t => Sys2Proof.Machine.execStagingEraseDone t s
  | .fwChunk mb t => Sys2Proof.Machine.execFwChunk mb t s
  | .chunkWriteDone t => Sys2Proof.Machine.execChunkWriteDone t s
  | .fwStatus mb t => Sys2Proof.Machine.execFwStatus mb t s
  | .fwActivate mb t => Sys2Proof.Machine.execFwActivate mb t s
  | .fwDefer mb t => Sys2Proof.Machine.execFwDefer mb t s
  | .activationPrepDone good left t => Sys2Proof.Machine.execActivationPrepDone good left t s
  | .activationBegin t => Sys2Proof.Machine.execActivationBegin t s
  | .handoverStart t => Sys2Proof.Machine.execHandoverStart t s
  | .handoverImport good t => Sys2Proof.Machine.execHandoverImport good t s
  | .watchBankSwitch t => Sys2Proof.Machine.execWatchBankSwitch t s
  | .handoverEnd t => Sys2Proof.Machine.execHandoverEnd t s
  | .selfCheckPass cut t => Sys2Proof.Machine.execSelfCheckPass cut t s
  | .rollback own t => Sys2Proof.Machine.execRollback own t s
  | .arbRaise t => Sys2Proof.Machine.execArbRaise t s
  | .attest mb t => Sys2Proof.Machine.execAttest mb t s
  | .identity mb t => Sys2Proof.Machine.execIdentity mb t s
  | .keySet mb t => Sys2Proof.Machine.execKeySet mb t s
  | .keyClear mb t => Sys2Proof.Machine.execKeyClear mb t s
  | .logRead mb t => Sys2Proof.Machine.execLogRead mb t s
  | .regRead mb same t => Sys2Proof.Machine.execRegRead mb same t s
  | .debugEnable mb t => Sys2Proof.Machine.execDebugEnable mb t s
  | .debugDisable mb t => Sys2Proof.Machine.execDebugDisable mb t s
  | .perturbSet mb t => Sys2Proof.Machine.execPerturbSet mb t s
  | .perturbGet mb t => Sys2Proof.Machine.execPerturbGet mb t s
  | .ptLinkDelay t => Sys2Proof.Machine.execPtLinkDelay t s
  | .ptCreditHold t => Sys2Proof.Machine.execPtCreditHold t s
  | .ptLakeLat t => Sys2Proof.Machine.execPtLakeLat t s
  | .ptMbxDelay t => Sys2Proof.Machine.execPtMbxDelay t s
  | .ptMeasOfs t => Sys2Proof.Machine.execPtMeasOfs t s
  | .ptTempOfs t => Sys2Proof.Machine.execPtTempOfs t s
  | .ptFlowOfs t => Sys2Proof.Machine.execPtFlowOfs t s
  | .ptForceShed t => Sys2Proof.Machine.execPtForceShed t s
  | .forcedShedEnd t => Sys2Proof.Machine.execForcedShedEnd t s
  | .ptClkStart t => Sys2Proof.Machine.execPtClkStart t s
  | .ptChecks t => Sys2Proof.Machine.execPtChecks t s
  | .ptTrigger t => Sys2Proof.Machine.execPtTrigger t s
  | .ptTimer t => Sys2Proof.Machine.execPtTimer t s
  | .ptTimerEdge t => Sys2Proof.Machine.execPtTimerEdge t s
  | .debugScopeExpiry t => Sys2Proof.Machine.execDebugScopeExpiry t s
  | .debugEnNDeassert t => Sys2Proof.Machine.execDebugEnNDeassert t s
  | .idcode => Sys2Proof.Machine.execIdcode s
  | .samplePreload lands shift => Sys2Proof.Machine.execSamplePreload lands shift s
  | .extest lands shift => Sys2Proof.Machine.execExtest lands shift s
  | .clamp => Sys2Proof.Machine.execClamp s
  | .highz => Sys2Proof.Machine.execHighz s
  | .bypass => Sys2Proof.Machine.execBypass s
  | .dap => Sys2Proof.Machine.execDap s
  | .dapRead addrW same req rsp t => Sys2Proof.Machine.execDapRead addrW same req rsp t s
  | .dapWrite addrW data req rsp t => Sys2Proof.Machine.execDapWrite addrW data req rsp t s
  | .controlPeriod a b va vb ts dem t => Sys2Proof.Machine.execControlPeriod a b va vb ts dem t s
  | .dieFreeze d t => Sys2Proof.Machine.execDieFreeze d t s
  | .calibrationWindow t => Sys2Proof.Machine.execCalibrationWindow t s
  | .capHwRamp t => Sys2Proof.Machine.execCapHwRamp t s
  | .sprintBinRoll t => Sys2Proof.Machine.execSprintBinRoll t s
  | .shedNAssert t => Sys2Proof.Machine.execShedNAssert t s
  | .shedNDeassert t => Sys2Proof.Machine.execShedNDeassert t s
  | .leakNAssert t => Sys2Proof.Machine.execLeakNAssert t s
  | .leakNDeassert t => Sys2Proof.Machine.execLeakNDeassert t s
  | .leakRelease t => Sys2Proof.Machine.execLeakRelease t s
  | .flowPulseEdge t => Sys2Proof.Machine.execFlowPulseEdge t s
  | .flowTimeout t => Sys2Proof.Machine.execFlowTimeout t s
  | .flowStopTimeout t => Sys2Proof.Machine.execFlowStopTimeout t s
  | .flowRelease t => Sys2Proof.Machine.execFlowRelease t s
  | .controlledStopFreeze t => Sys2Proof.Machine.execControlledStopFreeze t s
  | .controlledStopEnd t => Sys2Proof.Machine.execControlledStopEnd t s
  | .holdNAssert t => Sys2Proof.Machine.execHoldNAssert t s
  | .holdNDeassert t => Sys2Proof.Machine.execHoldNDeassert t s
  | .thermtrip tray t => Sys2Proof.Machine.execThermtrip tray t s
  | .stage1CurrentLimit t => Sys2Proof.Machine.execStage1CurrentLimit t s
  | .regulatorCurrentLimit d t => Sys2Proof.Machine.execRegulatorCurrentLimit d t s
  | .converterPhaseFail reg phase t => Sys2Proof.Machine.execConverterPhaseFail reg phase t s
  | .regulatorOutOfRegulation reg => Sys2Proof.Machine.execRegulatorOutOfRegulation reg s
  | .sensorDisagree location t => Sys2Proof.Machine.execSensorDisagree location t s
  | .coldPlateRead answers inlet outlet pressure t => Sys2Proof.Machine.execColdPlateRead answers inlet outlet pressure t s
  | .watchCoreStall t => Sys2Proof.Machine.execWatchCoreStall t s
  | .watchCoreRestart t => Sys2Proof.Machine.execWatchCoreRestart t s
  | .mordantRestart core t => Sys2Proof.Machine.execMordantRestart core t s
  | .mordantRestartEnd started t => Sys2Proof.Machine.execMordantRestartEnd started t s
  | .bladePowerUp straps thermLow => Sys2Proof.Machine.execBladePowerUp straps thermLow s
  | .bladePowerLoss t => Sys2Proof.Machine.execBladePowerLoss t s
  | .holdUpExpiry t => Sys2Proof.Machine.execHoldUpExpiry t s
  | .pwrEnHigh straps t => Sys2Proof.Machine.execPwrEnHigh straps t s
  | .pwrEnLow t => Sys2Proof.Machine.execPwrEnLow t s
  | .prsntNBreak t => Sys2Proof.Machine.execPrsntNBreak t s
  | .bladeUndervoltage t => Sys2Proof.Machine.execBladeUndervoltage t s
  | .bladeOvervoltage t => Sys2Proof.Machine.execBladeOvervoltage t s
  | .refclkLoss t => Sys2Proof.Machine.execRefclkLoss t s
  | .bistDone results hdieOk listOk t => Sys2Proof.Machine.execBistDone results hdieOk listOk t s
  | .firmwareBootVerify t => Sys2Proof.Machine.execFirmwareBootVerify t s
  | .lakeTrainDone trained t => Sys2Proof.Machine.execLakeTrainDone trained t s
  | .fenceInAssert t => Sys2Proof.Machine.execFenceInAssert t s
  | .fenceRelease t => Sys2Proof.Machine.execFenceRelease t s
  | .hbAckEdge k high t => Sys2Proof.Machine.execHbAckEdge k high t s
  | .heartbeatPathASilent k t => Sys2Proof.Machine.execHeartbeatPathASilent k t s
  | .heartbeatPathBSilent k t => Sys2Proof.Machine.execHeartbeatPathBSilent k t s
  | .takeoverFence t => Sys2Proof.Machine.execTakeoverFence t s
  | .takeoverProceed rsp t => Sys2Proof.Machine.execTakeoverProceed rsp t s
  | .fenceFail t => Sys2Proof.Machine.execFenceFail t s
  | .mirrorRestoreDone regions t => Sys2Proof.Machine.execMirrorRestoreDone regions t s
  | .takeoverDone rsp t => Sys2Proof.Machine.execTakeoverDone rsp t s
  | .mirrorWrite id req rsp t => Sys2Proof.Machine.execMirrorWrite id req rsp t s
  | .loaderPacket t => Sys2Proof.Machine.execLoaderPacket t s
  | .loaderReport t => Sys2Proof.Machine.execLoaderReport t s
  | .loaderReportTimeout t => Sys2Proof.Machine.execLoaderReportTimeout t s
  | .prsntNAssert straps t => Sys2Proof.Machine.execPrsntNAssert straps t s
  | .thermtripNDeassert t => Sys2Proof.Machine.execThermtripNDeassert t s
  | .thermtripNRelease t => Sys2Proof.Machine.execThermtripNRelease t s
  | .codewordLock l lane t => Sys2Proof.Machine.execCodewordLock l lane t s
  | .debugEnNAssert t => Sys2Proof.Machine.execDebugEnNAssert t s
  | .powerGood t => Sys2Proof.Machine.execPowerGood t s

end Sys2Proof.Machine
end

