-- ==== Sys2Proof/Machine/SyllableCode.lean ====
section
/-!
DEFINITION. The syllable that a tile command spells (R82 to R118), and the command that a defined syllable of a slot spells. An upset operand of a command is no part of its syllable.
-/
namespace Sys2Proof.Machine

/-- The syllable of a command that issues one: the logical tile, the slot of R82 and the 64-bit syllable; none for a command that is no syllable. -/
def syllableOf : Instr → Option (Nat × Nat × Nat)
  | .nop tid slot => some (tid, slot, 0)
  | .br tid target => some (tid, slotCT, encCTB 0x01 0 0 0 target)
  | .brz tid sr target => some (tid, slotCT, encCTB 0x02 sr 0 0 target)
  | .brnz tid sr target => some (tid, slotCT, encCTB 0x03 sr 0 0 target)
  | .call tid sr target => some (tid, slotCT, encCTB 0x04 sr 0 0 target)
  | .ret tid sr => some (tid, slotCT, encCTB 0x05 sr 0 0 0)
  | .loopi tid l count target => some (tid, slotCT, encCTB 0x08 0 l count target)
  | .loops tid l sr target => some (tid, slotCT, encCTB 0x09 sr l 0 target)
  | .lexit tid l => some (tid, slotCT, encCTB 0x0A 0 l 0 0)
  | .waitf tid f count => some (tid, slotCT, encCTW 0x10 0 f count 0 0)
  | .waitfs tid f sr => some (tid, slotCT, encCTW 0x11 sr f 0 0 0)
  | .barrier tid f => some (tid, slotCT, encCTW 0x18 0 f 0 0 0)
  | .wake tid die rows => some (tid, slotCT, encCTW 0x19 0 0 0 die rows)
  | .stepEnd tid => some (tid, slotCT, encCTW 0x1F 0 0 0 0 0)
  | .add tid d a b => some (tid, slotSC, encSC 0x01 d a b 0 0)
  | .sub tid d a b => some (tid, slotSC, encSC 0x02 d a b 0 0)
  | .and tid d a b => some (tid, slotSC, encSC 0x03 d a b 0 0)
  | .or tid d a b => some (tid, slotSC, encSC 0x04 d a b 0 0)
  | .xor tid d a b => some (tid, slotSC, encSC 0x05 d a b 0 0)
  | .shl tid d a b => some (tid, slotSC, encSC 0x06 d a b 0 0)
  | .shr tid d a b => some (tid, slotSC, encSC 0x07 d a b 0 0)
  | .sra tid d a b => some (tid, slotSC, encSC 0x08 d a b 0 0)
  | .cmpeq tid d a b => some (tid, slotSC, encSC 0x09 d a b 0 0)
  | .cmplt tid d a b => some (tid, slotSC, encSC 0x0A d a b 0 0)
  | .cmpltu tid d a b => some (tid, slotSC, encSC 0x0B d a b 0 0)
  | .mul tid d a b => some (tid, slotSC, encSC 0x10 d a b 0 0)
  | .addi tid d a imm => some (tid, slotSC, encSC 0x18 d a 0 0 imm.toNat)
  | .movi tid d imm => some (tid, slotSC, encSC 0x19 d 0 0 0 imm.toNat)
  | .movl tid d l => some (tid, slotSC, encSC 0x1A d 0 0 l 0)
  | .bcast tid d a => some (tid, slotSC, encSC 0x20 d a 0 0 0)
  | .ext tid d a lane => some (tid, slotSC, encSC 0x21 d a 0 lane 0)
  | .adw tid d word a => some (tid, slotSC, encSC 0x28 d a 0 word 0)
  | .adwi tid d word imm => some (tid, slotSC, encSC 0x29 d 0 0 word imm.toNat)
  | .fset tid f imm => some (tid, slotSC, encSC 0x30 0 0 0 f imm.toNat)
  | .feed tid a pre => some (tid, slotSC, encSC 0x31 a 0 0 pre 0)
  | .vld tid u reg a q => some (tid, u + 2, encLS 0x01 reg a q 0 0 0 0 0 0 0 0)
  | .vldx8 tid u reg a => some (tid, u + 2, encLS 0x02 reg a 0 0 0 0 0 0 0 0 0)
  | .vldx4 tid u reg a => some (tid, u + 2, encLS 0x03 reg a 0 0 0 0 0 0 0 0 0)
  | .sld tid u reg a => some (tid, u + 2, encLS 0x04 reg a 0 0 0 0 0 0 0 0 0)
  | .vst tid u reg a q p => some (tid, u + 2, encLS 0x08 reg a q p 0 0 0 0 0 0 0)
  | .sst tid u reg a => some (tid, u + 2, encLS 0x09 reg a 0 0 0 0 0 0 0 0 0)
  | .wbf tid wb a off len => some (tid, slotLS1, encLS 0x10 0 a 0 0 wb off len 0 0 0 0)
  | .palw tid a pslot pcnt pt f => some (tid, slotLS1, encLS 0x11 0 a 0 0 0 0 0 f pslot pcnt pt)
  | .mks tid fa fb acc wb half sp last => some (tid, slotMX, encMXK 0x01 fa fb acc wb half sp last)
  | .mclr tid acc => some (tid, slotMX, encMXD 0x02 acc 0 0 0 0)
  | .mdrn tid acc fmt cc a m => some (tid, slotMX, encMXD 0x03 acc fmt cc a m)
  | .vfma tid u d a b c p ty _ _ => some (tid, u + 5, encVX 0x01 d a b c p ty 0 0 0 0 0 0 0)
  | .vmul tid u d a b p ty _ _ => some (tid, u + 5, encVX 0x02 d a b 0 p ty 0 0 0 0 0 0 0)
  | .vadd tid u d a b p ty _ _ => some (tid, u + 5, encVX 0x03 d a b 0 p ty 0 0 0 0 0 0 0)
  | .vsub tid u d a b p ty _ _ => some (tid, u + 5, encVX 0x04 d a b 0 p ty 0 0 0 0 0 0 0)
  | .viadd tid u d a b p => some (tid, u + 5, encVX 0x08 d a b 0 p 6 0 0 0 0 0 0 0)
  | .visub tid u d a b p => some (tid, u + 5, encVX 0x09 d a b 0 p 6 0 0 0 0 0 0 0)
  | .vand tid u d a b p => some (tid, u + 5, encVX 0x0A d a b 0 p 6 0 0 0 0 0 0 0)
  | .vor tid u d a b p => some (tid, u + 5, encVX 0x0B d a b 0 p 6 0 0 0 0 0 0 0)
  | .vxor tid u d a b p => some (tid, u + 5, encVX 0x0C d a b 0 p 6 0 0 0 0 0 0 0)
  | .vshl tid u d a b p => some (tid, u + 5, encVX 0x0D d a b 0 p 6 0 0 0 0 0 0 0)
  | .vshr tid u d a b p => some (tid, u + 5, encVX 0x0E d a b 0 p 6 0 0 0 0 0 0 0)
  | .vsra tid u d a b p => some (tid, u + 5, encVX 0x0F d a b 0 p 6 0 0 0 0 0 0 0)
  | .vsel tid u d a b p => some (tid, u + 5, encVX 0x10 d a b 0 p 0 0 0 0 0 0 0 0)
  | .vfmax tid u d a b p ty => some (tid, u + 5, encVX 0x11 d a b 0 p ty 0 0 0 0 0 0 0)
  | .vfmin tid u d a b p ty => some (tid, u + 5, encVX 0x12 d a b 0 p ty 0 0 0 0 0 0 0)
  | .vcmp tid u d a b p ty fn => some (tid, u + 5, encVX 0x18 d a b 0 p ty 0 0 fn 0 0 0 0)
  | .vperm tid u d a b p => some (tid, u + 5, encVX 0x1C d a b 0 p 0 0 0 0 0 0 0 0)
  | .vcvt tid u d a p ty t2 cc fn q pk => some (tid, u + 5, encVX 0x20 d a 0 0 p ty t2 cc fn q pk 0 0)
  | .vred tid u d a p ty fn => some (tid, u + 5, encVX 0x24 d a 0 0 p ty 0 0 fn 0 0 0 0)
  | .vpal tid u d a p sel imm8 => some (tid, u + 5, encVX 0x28 d a 0 0 p 0 0 0 0 0 0 sel imm8)
  | .vtr tid d a p fn => some (tid, slotVX1, encVX 0x30 d a 0 0 p 0 0 0 fn 0 0 0 0)
  | .xrd tid f a sa len => some (tid, slotXF, encXF 0x01 f a sa 0 0 0 0 len)
  | .xwr tid f a sa len => some (tid, slotXF, encXF 0x02 f a sa 0 0 0 0 len)
  | .xwrb tid f a sa sb len => some (tid, slotXF, encXF 0x03 f a sa sb 0 0 0 len)
  | .xred tid f a sa fmt rop len => some (tid, slotXF, encXF 0x08 f a sa 0 fmt rop 0 len)
  | .xgath tid f a sa sb es len => some (tid, slotXF, encXF 0x09 f a sa sb 0 0 es len)
  | .xscat tid f a sa sb fmt es len => some (tid, slotXF, encXF 0x0A f a sa sb fmt 0 es len)
  | .xpdec tid f a sa sb fmt len => some (tid, slotXF, encXF 0x0B f a sa sb fmt 0 0 len)
  | .xzero tid f sa len => some (tid, slotXF, encXF 0x0C f 0 sa 0 0 0 0 len)
  | _ => none

/-- The command of a `CT` syllable, by its opcode (R89, R95 to R97). -/
def ctInstr (tid w : Nat) : Option Instr :=
  match opOf w with
  | 0x01 => some (.br tid (fld w 11 0))
  | 0x02 => some (.brz tid (fld w 55 51) (fld w 11 0))
  | 0x03 => some (.brnz tid (fld w 55 51) (fld w 11 0))
  | 0x04 => some (.call tid (fld w 55 51) (fld w 11 0))
  | 0x05 => some (.ret tid (fld w 55 51))
  | 0x08 => some (.loopi tid (fld w 50 49) (fld w 48 29) (fld w 11 0))
  | 0x09 => some (.loops tid (fld w 50 49) (fld w 55 51) (fld w 11 0))
  | 0x0A => some (.lexit tid (fld w 50 49))
  | 0x10 => some (.waitf tid (fld w 50 45) (fld w 44 29))
  | 0x11 => some (.waitfs tid (fld w 50 45) (fld w 55 51))
  | 0x18 => some (.barrier tid (fld w 50 45))
  | 0x19 => some (.wake tid (fld w 28 27) (fld w 26 15))
  | 0x1F => some (.stepEnd tid)
  | _ => none

/-- The command of an `SC` syllable (R98 to R100, R113). -/
def scInstr (tid w : Nat) : Option Instr :=
  let d := fld w 55 51
  let a := fld w 50 46
  let b := fld w 45 41
  let imm := BitVec.ofNat 32 (fld w 31 0)
  match opOf w with
  | 0x01 => some (.add tid d a b)
  | 0x02 => some (.sub tid d a b)
  | 0x03 => some (.and tid d a b)
  | 0x04 => some (.or tid d a b)
  | 0x05 => some (.xor tid d a b)
  | 0x06 => some (.shl tid d a b)
  | 0x07 => some (.shr tid d a b)
  | 0x08 => some (.sra tid d a b)
  | 0x09 => some (.cmpeq tid d a b)
  | 0x0A => some (.cmplt tid d a b)
  | 0x0B => some (.cmpltu tid d a b)
  | 0x10 => some (.mul tid d a b)
  | 0x18 => some (.addi tid d a imm)
  | 0x19 => some (.movi tid d imm)
  | 0x1A => some (.movl tid d (fld w 33 32))
  | 0x20 => some (.bcast tid d a)
  | 0x21 => some (.ext tid d a (fld w 39 32))
  | 0x28 => some (.adw tid (fld w 54 51) (fld w 34 32) a)
  | 0x29 => some (.adwi tid (fld w 54 51) (fld w 34 32) imm)
  | 0x30 => some (.fset tid (fld w 37 32) (BitVec.ofNat 16 (fld w 15 0)))
  | 0x31 => some (.feed tid (fld w 54 51) (fld w 32 32))
  | _ => none

/-- The command of an `LS` syllable of unit `u` (R104 to R107). -/
def lsInstr (tid u w : Nat) : Option Instr :=
  let reg := fld w 55 51
  let a := fld w 50 47
  match opOf w with
  | 0x01 => some (.vld tid u reg a (fld w 46 45))
  | 0x02 => some (.vldx8 tid u reg a)
  | 0x03 => some (.vldx4 tid u reg a)
  | 0x04 => some (.sld tid u reg a)
  | 0x08 => some (.vst tid u reg a (fld w 46 45) (fld w 44 42))
  | 0x09 => some (.sst tid u reg a)
  | 0x10 => some (.wbf tid (fld w 41 41) a (fld w 40 34) (fld w 33 27))
  | 0x11 => some (.palw tid a (fld w 20 13) (fld w 12 10) (fld w 9 9) (fld w 26 21))
  | _ => none

/-- The command of an `MX` syllable (R108 to R112). -/
def mxInstr (tid w : Nat) : Option Instr :=
  match opOf w with
  | 0x01 => some (.mks tid (fld w 55 52) (fld w 51 48) (fld w 47 46) (fld w 45 45) (fld w 44 44) (fld w 43 43) (fld w 42 42))
  | 0x02 => some (.mclr tid (fld w 55 54))
  | 0x03 => some (.mdrn tid (fld w 55 54) (fld w 53 50) (fld w 49 48) (fld w 47 44) (fld w 43 40))
  | _ => none

/-- The command of a `VX` syllable of unit `u` (R115 to R117), with no upset. -/
def vxInstr (tid u w : Nat) : Option Instr :=
  let d := fld w 55 51
  let a := fld w 50 46
  let b := fld w 45 41
  let p := fld w 35 33
  let ty := fld w 32 29
  let fn := fld w 22 19
  match opOf w with
  | 0x01 => some (.vfma tid u d a b (fld w 40 36) p ty 0 0)
  | 0x02 => some (.vmul tid u d a b p ty 0 0)
  | 0x03 => some (.vadd tid u d a b p ty 0 0)
  | 0x04 => some (.vsub tid u d a b p ty 0 0)
  | 0x08 => some (.viadd tid u d a b p)
  | 0x09 => some (.visub tid u d a b p)
  | 0x0A => some (.vand tid u d a b p)
  | 0x0B => some (.vor tid u d a b p)
  | 0x0C => some (.vxor tid u d a b p)
  | 0x0D => some (.vshl tid u d a b p)
  | 0x0E => some (.vshr tid u d a b p)
  | 0x0F => some (.vsra tid u d a b p)
  | 0x10 => some (.vsel tid u d a b p)
  | 0x11 => some (.vfmax tid u d a b p ty)
  | 0x12 => some (.vfmin tid u d a b p ty)
  | 0x18 => some (.vcmp tid u d a b p ty fn)
  | 0x1C => some (.vperm tid u d a b p)
  | 0x20 => some (.vcvt tid u d a p ty (fld w 28 25) (fld w 24 23) fn (fld w 18 17) (fld w 16 16))
  | 0x24 => some (.vred tid u d a p ty fn)
  | 0x28 => some (.vpal tid u d a p (fld w 15 15) (fld w 14 7))
  | 0x30 => some (.vtr tid d a p fn)
  | _ => none

/-- The command of an `XF` syllable (R118). -/
def xfInstr (tid w : Nat) : Option Instr :=
  let f := fld w 55 50
  let a := fld w 49 46
  let sa := fld w 45 41
  let sb := fld w 40 36
  let fmt := fld w 35 32
  let es := fld w 29 26
  let len := fld w 25 6
  match opOf w with
  | 0x01 => some (.xrd tid f a sa len)
  | 0x02 => some (.xwr tid f a sa len)
  | 0x03 => some (.xwrb tid f a sa sb len)
  | 0x08 => some (.xred tid f a sa fmt (fld w 31 30) len)
  | 0x09 => some (.xgath tid f a sa sb es len)
  | 0x0A => some (.xscat tid f a sa sb fmt es len)
  | 0x0B => some (.xpdec tid f a sa sb fmt len)
  | 0x0C => some (.xzero tid f sa len)
  | _ => none

/-- The command that a syllable of a slot spells; none where the syllable is undefined (R84). -/
def syllableInstr (tid slot w : Nat) : Option Instr :=
  if !sylDefined slot w then none
  else if w = 0 then some (.nop tid slot)
  else match slot with
    | 0 => ctInstr tid w
    | 1 => scInstr tid w
    | 2 => lsInstr tid 0 w
    | 3 => lsInstr tid 1 w
    | 4 => mxInstr tid w
    | 5 => vxInstr tid 0 w
    | 6 => vxInstr tid 1 w
    | _ => xfInstr tid w

/-- The command carries no physical corruption of its datapath. -/
def upsetFree : Instr → Bool
  | .vfma _ _ _ _ _ _ _ _ elem delta => decide (elem = 0) && decide (delta = 0)
  | .vmul _ _ _ _ _ _ _ elem delta => decide (elem = 0) && decide (delta = 0)
  | .vadd _ _ _ _ _ _ _ elem delta => decide (elem = 0) && decide (delta = 0)
  | .vsub _ _ _ _ _ _ _ elem delta => decide (elem = 0) && decide (delta = 0)
  | _ => true

end Sys2Proof.Machine
end

