-- ==== Sys2Proof/Safety.lean ====
section
/-!
DEFINITION. The terms in which the statements speak: when a syllable issues, the canonical form of the memories, and the parts of the package that each command may change.
-/
namespace Sys2Proof.Safety
open Sys2Proof.Machine

/-! ### When a syllable issues (R41, R84, R85, R87) -/

/-- The bundle of a tile may issue its syllable `w` in `slot` now: the tile runs, decode finds no fault in the bundle, the slot holds exactly `w` and has not issued, and nothing holds the bundle. -/
def tileIssues (t : Tile) (run barOk : Bool) (slot w : Nat) : Bool :=
  t.atIssue run && (decide (t.iss.issued ≠ 0) || t.bundleFault.isNone) && !t.hasIssued slot && t.syl slot == w && !t.iss.held && t.unheld barOk

/-- The logical tile `tid` of the accepted context issues `w` in `slot` now. -/
def issues (s : State) (tid slot w : Nat) : Bool :=
  s.ctx.accepted && decide (tid < 576) && tileIssues (s.ltile tid) (s.runs (s.ptiOf tid)) (s.barOk (s.ltile tid)) slot w

/-- The state after a syllable of the logical tile issued in `slot` with the effect `f` on its tile. -/
def issueOn (s : State) (tid slot : Nat) (f : Tile → Tile) : State := s.onTid tid (fun t => f (t.mark slot))

/-- A context is accepted and `tid` names a logical tile: commands on it act (R41). -/
def onTile (s : State) (tid : Nat) : Bool := s.ctx.accepted && decide (tid < 576)

/-- The tile's bundle is held, nothing of it has issued, and its condition is now met (R87). -/
def heldReady (t : Tile) (run barOk : Bool) : Bool := t.atIssue run && t.iss.held && t.iss.issued == 0 && t.unheld barOk

/-- Every lane that the predicate P keeps, with its value. -/
def lanesOf (m : Nat) (f : Nat → Word) : List (Nat × Word) := maskLanes m ((List.range 256).map f)

/-! ### When a command of a mailbox runs (R298 to R303) -/

/-- The state in which the body of a command of a mailbox runs: the errors of its slot and of its staged data are reported, the mailbox is busy, and a begin in the watch-clock cycle of its expiry is a near miss. -/
def busyState (s : State) (mb reg : Nat) : State :=
  let near := match s.expiry mb reg with
    | some e => watchCycle e == watchCycle s.time.now
    | none => false
  let m := s.mbx mb
  (s.requestErrors mb).setMbx mb { m with busy := true, nearMiss := if near then satInc 16 m.nearMiss else m.nearMiss }

/-- The command at the head of mailbox `mb` is `c`, keeps its header rules and may begin now: the state its body starts from, and its request. -/
def begins (s : State) (mb t : Nat) (c : Cmd) : Option (State × Req) :=
  let s0 := s.advance t
  match s0.headReg mb with
  | none => none
  | some (_, reg) =>
    if s0.mbxRuns && decide (mb < 6) && s0.slotF mb 0 2 == c.op && opcodes.contains c.op && s0.headerStatus mb reg c false == 0 && s0.groupFree mb (c.op / 256) reg && s0.ptMbxFree mb reg
    then some (busyState s0 mb reg, s0.request mb)
    else none

/-- The state after the command that began in `u` and left `v` is answered with `r`. -/
def answered (u v : State) (mb : Nat) (r : Resp) : State := v.answerWith mb (u.authKey (u.mbx mb).cons) r

/-! ### A run of an arbiter (R166, R167) -/

/-- The arbiter after a number of decisions: before each, the requests of its batch register. -/
def arbRun (n : Nat) (a : Arb) : List (List (Nat × Nat × Nat)) → Arb
  | [] => a
  | q :: r => arbRun n ((q.foldl (fun (u : Arb) x => u.register x.1 x.2.1 x.2.2) a).decide n) r

/-! ### The form of the memories -/

/-- Lake memory, BAR2, host memory and the loader window are in canonical form: addresses strictly rising, no byte listed that reads as an unlisted one. -/
def memoriesWf (s : State) : Prop :=
  s.lake.mem.wf = true ∧ s.h.ram.wf = true ∧ s.h.mem.wf = true ∧ s.ld.window.wf = true

/-- The three memories of a tile are in canonical form. -/
def tileMemWf (t : Tile) : Prop := t.mem.ls.wf = true ∧ t.mem.glaze.wf = true ∧ t.mem.bundles.wf = true

/-! ### The parts of the package -/

/-- A part of the package: one field of State but for the queue. -/
inductive Part where
  /-- The tiles: registers, memories, matrix engine, issue state, register block. -/
  | tiles
  /-- The row power states. -/
  | rows
  /-- The step sequencer, its table and the barrier units. -/
  | seq
  /-- The fabric time block. -/
  | time
  /-- The die networks, bridges, glaze queues and die registers. -/
  | net
  /-- Lake memory and the stacks. -/
  | lake
  /-- The accepted context and its teardown. -/
  | context
  /-- The collected faults. -/
  | faults
  /-- The logs and the defect list. -/
  | logs
  /-- The frozen dies. -/
  | dieFrozen
  /-- The Stoith links, octets and routes. -/
  | links
  /-- The DMA channels. -/
  | dma
  /-- The package state and its pins. -/
  | pkg
  /-- The package's LPN. -/
  | lpn
  /-- The output gate. -/
  | gate
  /-- The perturbation registers. -/
  | perturb
  /-- The test port. -/
  | jtag
  /-- The configuration image and buffer. -/
  | cfg
  /-- The PID. -/
  | pid
  /-- The CXL port, host memory, BAR2 and the mailboxes. -/
  | host
  /-- The command parties. -/
  | mgmt
  /-- The power manager. -/
  | power
  /-- The spare group. -/
  | spares
  /-- The firmware. -/
  | firmware
  /-- The bundle loader. -/
  | loader
  /-- What was sent outside. -/
  | out
  deriving DecidableEq, Repr

/-- The part is the same in two states. -/
def Part.same (a b : State) : Part → Prop
  | .tiles => a.tiles = b.tiles
  | .rows => a.rows = b.rows
  | .seq => a.seq = b.seq
  | .time => a.time = b.time
  | .net => a.net = b.net
  | .lake => a.lake = b.lake
  | .context => a.ctx = b.ctx
  | .faults => a.faults = b.faults
  | .logs => a.logs = b.logs
  | .dieFrozen => a.dieFrozen = b.dieFrozen
  | .links => a.st = b.st
  | .dma => a.dma = b.dma
  | .pkg => a.pkg = b.pkg
  | .lpn => a.lpn = b.lpn
  | .gate => a.gate = b.gate
  | .perturb => a.pert = b.pert
  | .jtag => a.jtag = b.jtag
  | .cfg => a.cfg = b.cfg
  | .pid => a.pid = b.pid
  | .host => a.h = b.h
  | .mgmt => a.m = b.m
  | .power => a.pw = b.pw
  | .spares => a.spr = b.spr
  | .firmware => a.fw = b.fw
  | .loader => a.ld = b.ld
  | .out => a.out = b.out

/-- What a tile operation may change: its tile, and what its faults reach (R405). -/
def tileParts : List Part := [.tiles, .context, .faults, .logs]

/-- The parts that a command of the chapter may change: tile commands (spec/01_tile.md to 03_tile_bundles.md); none for a command of another chapter. -/
def touchesTile : Instr → Option (List Part)
  | .nop .. => some tileParts
  | .br .. => some tileParts
  | .brz .. => some tileParts
  | .brnz .. => some tileParts
  | .call .. => some tileParts
  | .ret .. => some tileParts
  | .loopi .. => some tileParts
  | .loops .. => some tileParts
  | .lexit .. => some tileParts
  | .waitf .. => some tileParts
  | .waitfs .. => some tileParts
  | .waitfPass .. => some tileParts
  | .stepEnd .. => some tileParts
  | .stepEndRelease .. => some tileParts
  | .add .. => some tileParts
  | .sub .. => some tileParts
  | .and .. => some tileParts
  | .or .. => some tileParts
  | .xor .. => some tileParts
  | .shl .. => some tileParts
  | .shr .. => some tileParts
  | .sra .. => some tileParts
  | .cmpeq .. => some tileParts
  | .cmplt .. => some tileParts
  | .cmpltu .. => some tileParts
  | .mul .. => some tileParts
  | .addi .. => some tileParts
  | .movi .. => some tileParts
  | .movl .. => some tileParts
  | .bcast .. => some tileParts
  | .ext .. => some tileParts
  | .adw .. => some tileParts
  | .adwi .. => some tileParts
  | .fset .. => some tileParts
  | .feed .. => some tileParts
  | .vld .. => some tileParts
  | .vldx8 .. => some tileParts
  | .vldx4 .. => some tileParts
  | .sld .. => some tileParts
  | .vst .. => some tileParts
  | .sst .. => some tileParts
  | .wbf .. => some tileParts
  | .palw .. => some tileParts
  | .palwComplete .. => some tileParts
  | .mks .. => some tileParts
  | .blockCommit .. => some tileParts
  | .mclr .. => some tileParts
  | .mdrn .. => some tileParts
  | .vfma .. => some tileParts
  | .vmul .. => some tileParts
  | .vadd .. => some tileParts
  | .vsub .. => some tileParts
  | .viadd .. => some tileParts
  | .visub .. => some tileParts
  | .vand .. => some tileParts
  | .vor .. => some tileParts
  | .vxor .. => some tileParts
  | .vshl .. => some tileParts
  | .vshr .. => some tileParts
  | .vsra .. => some tileParts
  | .vsel .. => some tileParts
  | .vfmax .. => some tileParts
  | .vfmin .. => some tileParts
  | .vcmp .. => some tileParts
  | .vperm .. => some tileParts
  | .vcvt .. => some tileParts
  | .vred .. => some tileParts
  | .vpal .. => some tileParts
  | .vtr .. => some tileParts
  | .fixedLatencyWriteback .. => some tileParts
  | .residueMxCheck .. => some tileParts
  | .residueVxCheck .. => some tileParts
  | .xrd .. => some [.tiles, .net, .context, .faults, .logs]
  | .xwr .. => some [.tiles, .net, .context, .faults, .logs]
  | .xwrb .. => some [.tiles, .net, .context, .faults, .logs]
  | .xred .. => some [.tiles, .net, .context, .faults, .logs]
  | .xgath .. => some [.tiles, .net, .context, .faults, .logs]
  | .xscat .. => some [.tiles, .net, .context, .faults, .logs]
  | .xpdec .. => some [.tiles, .net, .context, .faults, .logs]
  | .xzero .. => some [.tiles, .net, .context, .faults, .logs]
  | .xfLimitRelease .. => some [.tiles, .net, .context, .faults, .logs]
  | .flagIncrement .. => some tileParts
  | .heldIncrementRegister .. => some tileParts
  | .watchdog .. => some tileParts
  | _ => none

/-- The parts that a command of the chapter may change: steps, rows, barriers and freeze notices (spec/04_steps_and_fabric_time.md); none for a command of another chapter. -/
def touchesStep : Instr → Option (List Part)
  | .barrier .. => some [.tiles, .seq, .context, .faults, .logs, .links]
  | .barrierLimitRelease .. => some [.tiles, .seq, .context, .faults, .logs, .links]
  | .wake .. => some [.tiles, .rows, .context, .faults, .logs]
  | .stepLaunch .. => some [.tiles, .rows, .seq, .time]
  | .timedWake .. => some [.rows, .seq, .time]
  | .stepStart .. => some [.tiles, .rows, .seq, .time, .context, .faults, .logs]
  | .rowWakeComplete .. => some [.tiles, .rows, .time, .net, .context, .faults, .logs, .jtag]
  | .rowRetain .. => some [.rows, .time]
  | .stepComplete .. => some [.seq, .time]
  | .freezeNoteSend .. => some [.seq, .time, .links]
  | .freezeNote .. => some [.seq, .time, .logs, .links]
  | .freezeNoteLapse .. => some [.seq, .time]
  | .barrierUp .. => some [.tiles, .seq, .time, .context, .faults, .logs, .links]
  | .barrierDone .. => some [.tiles, .seq, .time, .context, .faults, .logs, .links]
  | _ => none

/-- The parts that a command of the chapter may change: fabric time (spec/04_steps_and_fabric_time.md); none for a command of another chapter. -/
def touchesTime : Instr → Option (List Part)
  | .sync .. => some [.time, .logs, .links]
  | .dreq .. => some [.time, .logs, .links]
  | .resp .. => some [.time, .logs, .links]
  | .timSyncSend .. => some [.time, .links]
  | .timParentTimeout .. => some [.time]
  | .masterListenEnd .. => some [.time]
  | .ppsInEdge .. => some [.time]
  | .ppsInMissed .. => some [.time]
  | .ppsOutRise .. => some [.time]
  | .ppsOutFall .. => some [.time]
  | .syncAuxTimecode .. => some [.time, .out]
  | .ptpSyncSend .. => some [.time, .out]
  | .ptpAnnounceSend .. => some [.time, .out]
  | .delayReq .. => some [.time, .out]
  | .ptpMessageRx .. => some [.time]
  | .ftSampleRead .. => some [.time, .out]
  | .ftLoRead .. => some [.time, .out]
  | _ => none

/-- The parts that a command of the chapter may change: glaze, die network and bridges (spec/05_glaze_and_die_network.md); none for a command of another chapter. -/
def touchesNet : Instr → Option (List Part)
  | .bundleStoreWrite .. => some [.tiles, .context, .faults, .logs, .out]
  | .tileScrub .. => some tileParts
  | .arbiterGrant .. => some [.net, .lake, .context, .faults, .logs, .jtag, .host, .out]
  | .emergencyGrant .. => some [.tiles, .rows, .time, .net, .lake, .context, .faults, .logs, .links, .jtag, .out]
  | .packetHop .. => some [.net, .context, .faults, .logs]
  | .bridgeCrossing .. => some [.net, .context, .faults, .logs, .links]
  | .rdReq .. => some [.tiles, .rows, .net, .context, .faults, .logs]
  | .rdData .. => some [.tiles, .rows, .net, .context, .faults, .logs]
  | .wr .. => some [.tiles, .rows, .net, .context, .faults, .logs]
  | .wrAck .. => some [.tiles, .rows, .net, .context, .faults, .logs]
  | .bcastWr .. => some [.tiles, .rows, .net, .context, .faults, .logs]
  | .bcastAck .. => some [.tiles, .rows, .net, .context, .faults, .logs]
  | .genNack .. => some [.tiles, .rows, .net, .context, .faults, .logs]
  | .errResp .. => some [.tiles, .rows, .net, .context, .faults, .logs]
  | .glazeArbiterRead .. => some [.tiles, .net, .context, .faults, .logs]
  | .glazeScrubVisit .. => some [.tiles, .net, .context, .faults, .logs]
  | .lakeDone .. => some [.tiles, .rows, .net, .context, .faults, .logs]
  | .pkt .. => some [.time, .net, .links]
  | _ => none

/-- The parts that a command of the chapter may change: lake stacks (spec/06_lake_stacks.md); none for a command of another chapter. -/
def touchesLake : Instr → Option (List Part)
  | .lakeRead .. => some [.time, .net, .lake, .context, .faults, .logs, .jtag, .host, .out]
  | .lakeWrite .. => some [.time, .net, .lake, .context, .faults, .logs, .jtag, .host, .out]
  | .lakeReduce .. => some [.time, .net, .lake, .context, .faults, .logs, .jtag, .host, .out]
  | .lakeScatterAdd .. => some [.time, .net, .lake, .context, .faults, .logs, .jtag, .host, .out]
  | .lakeGather .. => some [.time, .net, .lake, .context, .faults, .logs, .jtag, .host, .out]
  | .lakePaletteDecode .. => some [.time, .net, .lake, .context, .faults, .logs, .jtag, .host, .out]
  | .lakeRangeZero .. => some [.time, .net, .lake, .context, .faults, .logs, .jtag, .host, .out]
  | .lakeRefresh .. => some [.time, .lake]
  | .lakeScrubVisit .. => some [.time, .net, .lake, .context, .faults, .logs]
  | .lakeSpareCopyDone .. => some [.net, .lake, .context, .faults, .logs, .jtag, .host, .out]
  | .lakeChannelPdn .. => some [.time, .lake]
  | .lakeChannelSref .. => some [.time, .lake]
  | .lakeChannelWake .. => some [.time, .net, .lake, .context, .faults, .logs, .jtag, .host, .out]
  | _ => none

/-- The parts that a command of the chapter may change: kill, teardown and restarts (spec/13_faults_and_reset.md); none for a command of another chapter. -/
def touchesTeardown : Instr → Option (List Part)
  | .contextKill .. => some [.tiles, .seq, .time, .context, .logs, .pkg]
  | .abortSend .. => some [.tiles, .rows, .time, .net, .lake, .context, .faults, .logs, .links, .dma, .pkg, .gate, .perturb, .pid, .host, .mgmt, .spares, .firmware, .out]
  | .lakeDrainEnd .. => some [.time, .net, .lake, .context, .faults, .logs, .jtag, .host, .out]
  | .glazeZeroDone .. => some [.tiles, .rows, .time, .net, .context, .faults, .logs, .links, .dma, .pkg, .host, .spares]
  | .tileZeroDone .. => some [.tiles, .rows, .seq, .time, .net, .context, .faults, .logs, .links, .dma, .pkg, .host, .spares]
  | .lakeZeroDone .. => some [.tiles, .rows, .time, .net, .lake, .context, .faults, .logs, .links, .dma, .pkg, .jtag, .host, .spares, .out]
  | .defectListWrite .. => some [.time, .faults, .logs]
  | .abort .. => some [.tiles, .seq, .time, .context, .logs, .links, .pkg]
  | .mordantRestart .. => some [.time, .context, .faults, .logs, .pkg, .firmware]
  | .mordantRestartEnd .. => some [.time, .faults, .pkg, .host, .mgmt, .out]
  | _ => none

/-- The parts that a command of the chapter may change: descriptor DMA (spec/07_descriptor_dma.md); none for a command of another chapter. -/
def touchesDma : Instr → Option (List Part)
  | .dmaDoorbell .. => some [.time, .net, .context, .faults, .logs, .links, .dma, .spares]
  | .dmaStop .. => some [.tiles, .time, .net, .context, .faults, .logs, .links, .dma, .host, .spares]
  | .dmaNextWrite .. => some [.dma]
  | .dmaDescFetch .. => some [.tiles, .time, .net, .context, .faults, .logs, .links, .dma, .host, .spares, .out]
  | .dmaShadowRead .. => some [.time, .net, .links, .dma]
  | .dmaCopy .. => some [.tiles, .time, .net, .context, .faults, .logs, .links, .dma, .host, .spares]
  | .dmaIlv .. => some [.tiles, .time, .net, .context, .faults, .logs, .links, .dma, .host, .spares]
  | .dmaBpl .. => some [.tiles, .time, .net, .context, .faults, .logs, .links, .dma, .host, .spares]
  | .dmaMxs .. => some [.tiles, .time, .net, .context, .faults, .logs, .links, .dma, .host, .spares]
  | .dmaRequestAnswer .. => some [.tiles, .time, .net, .context, .faults, .logs, .links, .dma, .host, .spares, .out]
  | .dmaRequestTimeout .. => some [.tiles, .time, .net, .context, .faults, .logs, .links, .dma, .host, .spares, .out]
  | _ => none

/-- The parts that a command of the chapter may change: Stoith links (spec/08_stoith_links.md); none for a command of another chapter. -/
def touchesLink : Instr → Option (List Part)
  | .frameRx .. => some [.time, .links, .out]
  | .nakRepeat .. => some [.time, .links, .out]
  | .ackSend .. => some [.time, .links, .out]
  | .ack .. => some [.time, .net, .context, .faults, .logs, .links, .out]
  | .replayExhaustion .. => some [.time, .net, .context, .faults, .logs, .links, .out]
  | .egressGrant .. => some [.time, .links, .out]
  | .ident .. => some [.time, .net, .context, .faults, .logs, .links, .out]
  | .identSend .. => some [.time, .links, .out]
  | .handoffReq .. => some [.time, .links, .out]
  | .handoffRsp .. => some [.time, .logs, .links]
  | .handoffTimeout .. => some [.time, .net, .context, .faults, .logs, .links]
  | .retrain .. => some [.time, .net, .context, .faults, .logs, .links, .out]
  | .linkTrainStart .. => some [.time, .links]
  | .trainPhaseTimeout .. => some [.time, .net, .context, .faults, .logs, .links, .out]
  | .linkTrainComplete .. => some [.time, .links]
  | .lossOfSignal .. => some [.time, .net, .context, .faults, .logs, .links, .out]
  | .laneLockLoss .. => some [.time, .net, .context, .faults, .logs, .links, .out]
  | .fastRetrainEnd .. => some [.time, .net, .context, .faults, .logs, .links, .out]
  | .fastRetrainTimeout .. => some [.time, .net, .context, .faults, .logs, .links, .out]
  | .degradedTimeout .. => some [.time, .net, .context, .faults, .logs, .links, .out]
  | .codewordLock .. => some [.time, .net, .context, .faults, .logs, .links]
  | _ => none

/-- The parts that a command of the chapter may change: spares and fencing (spec/14_spares_and_fencing.md); none for a command of another chapter. -/
def touchesSpare : Instr → Option (List Part)
  | .heartbeat .. => some [.time, .logs, .links, .spares]
  | .heartbeatSend .. => some [.time, .links, .spares]
  | .lpnClaim .. => some [.tiles, .seq, .time, .context, .logs, .links, .pkg, .spares]
  | .lpnClaimResend .. => some [.time, .links]
  | .spareBind .. => some [.tiles, .rows, .time, .net, .context, .faults, .logs, .links, .dma, .pkg, .host, .mgmt, .spares, .out]
  | .spareUnbind .. => some [.tiles, .rows, .time, .net, .context, .faults, .logs, .links, .dma, .pkg, .host, .mgmt, .spares, .out]
  | .spareGet .. => some [.time, .faults, .host, .mgmt, .out]
  | .mirrorRegions .. => some [.time, .faults, .host, .mgmt, .spares, .out]
  | .mirrorPoint .. => some [.time, .net, .context, .faults, .logs, .links, .dma, .host, .mgmt, .spares, .out]
  | .hbAckEdge .. => some [.time, .logs, .spares]
  | .heartbeatPathASilent .. => some [.time, .spares]
  | .heartbeatPathBSilent .. => some [.time, .spares]
  | .takeoverFence .. => some [.time, .spares]
  | .takeoverProceed .. => some [.tiles, .seq, .time, .net, .lake, .context, .faults, .logs, .links, .pkg, .lpn, .jtag, .host, .spares, .out]
  | .fenceFail .. => some [.time, .spares]
  | .mirrorRestoreDone .. => some [.time, .lake, .spares]
  | .takeoverDone .. => some [.tiles, .rows, .time, .net, .lake, .context, .faults, .logs, .links, .dma, .pkg, .jtag, .host, .spares, .out]
  | .mirrorWrite .. => some [.time, .net, .lake, .context, .faults, .logs, .links, .spares]
  | _ => none

/-- The parts that a command of the chapter may change: host attachment and command parties (spec/09_host_attachment.md, 10_mordant_commands.md); none for a command of another chapter. -/
def touchesHost : Instr → Option (List Part)
  | .configRequest .. => some [.time, .host, .out]
  | .cxlLinkTrain .. => some [.time, .host]
  | .cxlLinkDown .. => some [.time, .net, .lake, .host]
  | .perstN .. => some [.tiles, .time, .net, .lake, .context, .faults, .logs, .links, .dma, .host, .spares]
  | .hotReset .. => some [.tiles, .time, .net, .lake, .context, .faults, .logs, .links, .dma, .host, .spares]
  | .perstNDeassert .. => some [.time, .host]
  | .hdmRead .. => some [.time, .net, .lake, .context, .faults, .logs, .jtag, .host, .out]
  | .hdmWrite .. => some [.time, .net, .lake, .context, .faults, .logs, .jtag, .host, .out]
  | .bar2Access .. => some [.time, .faults, .host, .out]
  | .prodWrite .. => some [.time, .host]
  | .smAddrWrite .. => some [.time, .host]
  | .statusMirrorEnable .. => some [.time, .host]
  | .statusRecordWrite .. => some [.time, .host]
  | .statusMirrorRefresh .. => some [.time, .host]
  | .mirrorHeartbeat .. => some [.time, .host, .firmware]
  | .rcRead .. => some [.tiles, .time, .net, .lake, .faults, .links, .dma, .host, .power, .spares, .out]
  | .registerWrite .. => some [.tiles, .time, .net, .lake, .links, .dma, .host, .spares, .out]
  | .mailboxDeadlineExpiry .. => some [.time, .faults, .host, .mgmt, .out]
  | .mmbDatagram .. => some [.time, .logs, .host, .mgmt, .power]
  | .indexQuery .. => some [.time, .logs, .mgmt, .power, .out]
  | .managerAbsentTimeout .. => some [.time, .mgmt, .power]
  | .entdaa .. => some [.time, .mgmt, .out]
  | .i3cPrivateWrite .. => some [.time, .host, .mgmt, .out]
  | .i3cPrivateRead .. => some [.time, .mgmt, .out]
  | .i3cPresenceTimeout .. => some [.time, .mgmt]
  | _ => none

/-- The parts that a command of the chapter may change: configuration, context, loader and power commands (spec/10_mordant_commands.md, 11_bring_up_and_configuration.md); none for a command of another chapter. -/
def touchesMordant : Instr → Option (List Part)
  | .idGet .. => some [.time, .faults, .host, .mgmt, .out]
  | .stateGet .. => some [.time, .faults, .host, .mgmt, .out]
  | .cfgPart .. => some [.time, .faults, .cfg, .host, .mgmt, .out]
  | .cfgCommit .. => some [.tiles, .rows, .time, .net, .lake, .context, .faults, .logs, .links, .dma, .pkg, .lpn, .cfg, .host, .mgmt, .power, .spares, .out]
  | .cfgInfo .. => some [.time, .faults, .host, .mgmt, .out]
  | .cfgClear .. => some [.tiles, .rows, .time, .net, .lake, .context, .faults, .logs, .links, .dma, .pkg, .lpn, .cfg, .host, .mgmt, .spares, .out]
  | .claimSet .. => some [.time, .faults, .links, .dma, .cfg, .host, .mgmt, .out]
  | .ctxAccept .. => some [.tiles, .rows, .seq, .time, .net, .lake, .context, .faults, .logs, .links, .dma, .pkg, .host, .mgmt, .spares, .out]
  | .bundleLoad .. => some [.time, .net, .faults, .links, .host, .mgmt, .loader, .out]
  | .stepWrite .. => some [.seq, .time, .faults, .host, .mgmt, .out]
  | .runSubmit .. => some [.seq, .time, .lake, .faults, .logs, .host, .mgmt, .out]
  | .runStop .. => some [.seq, .time, .faults, .host, .mgmt, .out]
  | .ctxKill .. => some [.tiles, .seq, .time, .context, .faults, .logs, .pkg, .host, .mgmt, .out]
  | .ctxEnd .. => some [.tiles, .seq, .time, .context, .faults, .logs, .pkg, .host, .mgmt, .out]
  | .warmReset .. => some [.tiles, .rows, .seq, .time, .net, .lake, .context, .faults, .logs, .links, .dma, .pkg, .gate, .perturb, .pid, .host, .mgmt, .spares, .firmware, .out]
  | .capSet .. => some [.time, .faults, .logs, .host, .mgmt, .out]
  | .capGet .. => some [.time, .faults, .host, .mgmt, .out]
  | .holdSet .. => some [.time, .faults, .host, .mgmt, .out]
  | .holdRelease .. => some [.tiles, .time, .net, .context, .faults, .logs, .links, .dma, .host, .mgmt, .spares, .out]
  | .sprintSet .. => some [.time, .faults, .host, .mgmt, .out]
  | .powerGet .. => some [.time, .faults, .host, .mgmt, .out]
  | .timeGet .. => some [.time, .faults, .host, .mgmt, .out]
  | .taiSet .. => some [.time, .faults, .logs, .host, .mgmt, .out]
  | .masterSet .. => some [.time, .faults, .cfg, .host, .mgmt, .out]
  | .ptpGet .. => some [.time, .faults, .host, .mgmt, .out]
  | .loaderPacket .. => some [.time, .net, .links, .host, .mgmt, .loader, .out]
  | .loaderReport .. => some [.time, .net, .logs, .links, .host, .mgmt, .loader, .out]
  | .loaderReportTimeout .. => some [.time, .net, .links, .host, .mgmt, .loader, .out]
  | _ => none

/-- The parts that a command of the chapter may change: firmware and attestation (spec/15_firmware_and_attestation.md); none for a command of another chapter. -/
def touchesFirmware : Instr → Option (List Part)
  | .fwStageBegin .. => some [.time, .faults, .host, .mgmt, .firmware, .out]
  | .stagingEraseDone .. => some [.time, .host, .mgmt, .firmware, .out]
  | .fwChunk .. => some [.time, .faults, .host, .mgmt, .firmware, .out]
  | .chunkWriteDone .. => some [.time, .host, .mgmt, .firmware, .out]
  | .fwStatus .. => some [.time, .faults, .host, .mgmt, .out]
  | .fwActivate .. => some [.time, .faults, .logs, .host, .mgmt, .firmware, .out]
  | .fwDefer .. => some [.time, .faults, .logs, .host, .mgmt, .firmware, .out]
  | .activationPrepDone .. => some [.time, .logs, .firmware]
  | .activationBegin .. => some [.time, .logs, .firmware]
  | .handoverStart .. => some [.time, .host, .firmware]
  | .handoverImport .. => some [.time, .firmware]
  | .watchBankSwitch .. => some [.time, .firmware]
  | .handoverEnd .. => some [.time, .host, .firmware]
  | .selfCheckPass .. => some [.time, .logs, .firmware]
  | .rollback .. => some [.time, .logs, .host, .firmware]
  | .arbRaise .. => some [.time, .firmware]
  | .attest .. => some [.time, .faults, .host, .mgmt, .firmware, .out]
  | .identity .. => some [.time, .faults, .host, .mgmt, .out]
  | .keySet .. => some [.time, .faults, .host, .mgmt, .out]
  | .keyClear .. => some [.time, .faults, .host, .mgmt, .out]
  | .logRead .. => some [.time, .faults, .host, .mgmt, .out]
  | .regRead .. => some [.tiles, .time, .net, .lake, .faults, .links, .dma, .host, .mgmt, .power, .spares, .out]
  | _ => none

/-- The parts that a command of the chapter may change: perturbation and the test port (spec/16_perturbation_and_debug.md); none for a command of another chapter. -/
def touchesDebug : Instr → Option (List Part)
  | .debugEnable .. => some [.time, .faults, .logs, .perturb, .host, .mgmt, .out]
  | .debugDisable .. => some [.tiles, .time, .net, .lake, .faults, .logs, .links, .perturb, .host, .mgmt, .out]
  | .perturbSet .. => some [.time, .faults, .logs, .perturb, .host, .mgmt, .out]
  | .perturbGet .. => some [.time, .faults, .host, .mgmt, .out]
  | .ptLinkDelay .. => some [.time, .perturb, .out]
  | .ptCreditHold .. => some [.time, .links, .perturb, .out]
  | .ptLakeLat .. => some [.time, .perturb, .out]
  | .ptMbxDelay .. => some [.time, .perturb, .out]
  | .ptMeasOfs .. => some [.time, .perturb, .out]
  | .ptTempOfs .. => some [.time, .perturb, .out]
  | .ptFlowOfs .. => some [.time, .perturb, .out]
  | .ptForceShed .. => some [.seq, .time, .dieFrozen, .perturb, .power, .out]
  | .forcedShedEnd .. => some [.time, .perturb, .out]
  | .ptClkStart .. => some [.time, .perturb, .out]
  | .ptChecks .. => some [.tiles, .time, .net, .lake, .perturb]
  | .ptTrigger .. => some [.time, .perturb, .out]
  | .ptTimer .. => some [.seq, .time, .dieFrozen, .links, .perturb, .power, .out]
  | .ptTimerEdge .. => some [.seq, .time, .dieFrozen, .links, .perturb, .power, .out]
  | .debugScopeExpiry .. => some [.tiles, .time, .net, .lake, .logs, .links, .perturb, .out]
  | .debugEnNDeassert .. => some [.tiles, .time, .net, .lake, .logs, .links, .perturb, .out]
  | .idcode .. => some [.jtag, .out]
  | .samplePreload .. => some [.jtag, .out]
  | .extest .. => some [.jtag, .out]
  | .clamp .. => some [.jtag, .out]
  | .highz .. => some [.jtag, .out]
  | .bypass .. => some [.jtag, .out]
  | .dap .. => some [.tiles, .rows, .net, .context, .faults, .logs, .jtag, .out]
  | .dapRead .. => some [.tiles, .rows, .time, .net, .lake, .context, .faults, .logs, .links, .dma, .jtag, .host, .power, .spares, .out]
  | .dapWrite .. => some [.tiles, .rows, .time, .net, .lake, .context, .faults, .logs, .links, .dma, .jtag, .host, .spares, .out]
  | .debugEnNAssert .. => some [.time, .perturb]
  | _ => none

/-- The parts that a command of the chapter may change: power and cooling (spec/12_power_and_cooling.md); none for a command of another chapter. -/
def touchesPower : Instr → Option (List Part)
  | .controlPeriod .. => some [.tiles, .rows, .seq, .time, .net, .lake, .context, .faults, .logs, .dieFrozen, .links, .power, .firmware]
  | .dieFreeze .. => some [.seq, .time, .dieFrozen, .power]
  | .calibrationWindow .. => some [.time, .context, .faults, .logs, .power]
  | .capHwRamp .. => some [.time, .logs, .power]
  | .sprintBinRoll .. => some [.time, .power]
  | .shedNAssert .. => some [.seq, .time, .dieFrozen, .power]
  | .shedNDeassert .. => some [.time, .power]
  | .leakNAssert .. => some [.seq, .time, .dieFrozen, .power]
  | .leakNDeassert .. => some [.time, .power]
  | .leakRelease .. => some [.time, .power]
  | .flowPulseEdge .. => some [.seq, .time, .logs, .dieFrozen, .power]
  | .flowTimeout .. => some [.seq, .time, .dieFrozen, .power]
  | .flowStopTimeout .. => some [.time, .power]
  | .flowRelease .. => some [.time, .power]
  | .controlledStopFreeze .. => some [.seq, .time, .dieFrozen, .power]
  | .controlledStopEnd .. => some [.time, .power]
  | .holdNAssert .. => some [.time, .mgmt]
  | .holdNDeassert .. => some [.tiles, .time, .net, .context, .faults, .logs, .links, .dma, .host, .mgmt, .spares]
  | .stage1CurrentLimit .. => some [.seq, .time, .dieFrozen, .power]
  | .regulatorCurrentLimit .. => some [.seq, .time, .dieFrozen, .power]
  | .converterPhaseFail .. => some [.time, .context, .faults, .logs, .power]
  | .regulatorOutOfRegulation .. => some [.pkg]
  | .sensorDisagree .. => some [.time, .context, .faults, .logs]
  | .coldPlateRead .. => some [.time, .context, .faults, .logs, .power]
  | .watchCoreStall .. => some [.seq, .time, .dieFrozen, .pkg, .power]
  | .watchCoreRestart .. => some [.time, .faults, .logs, .pkg, .power, .firmware]
  | _ => none

/-- The parts that a command of the chapter may change: bring-up, pins and package states (spec/11_bring_up_and_configuration.md, 17_package_and_electrical.md); none for a command of another chapter. -/
def touchesBringup : Instr → Option (List Part)
  | .thermtrip .. => some [.tiles, .rows, .seq, .time, .net, .lake, .context, .faults, .logs, .dieFrozen, .links, .dma, .pkg, .lpn, .gate, .perturb, .jtag, .cfg, .pid, .host, .mgmt, .power, .spares, .firmware, .loader, .out]
  | .bladePowerUp .. => some [.context, .faults, .logs, .pkg, .gate, .perturb, .cfg, .pid, .host, .mgmt, .power, .firmware]
  | .bladePowerLoss .. => some [.time, .pkg]
  | .holdUpExpiry .. => some [.tiles, .rows, .seq, .time, .net, .lake, .context, .faults, .logs, .dieFrozen, .links, .dma, .pkg, .lpn, .gate, .perturb, .jtag, .cfg, .pid, .host, .mgmt, .power, .spares, .firmware, .loader, .out]
  | .pwrEnHigh .. => some [.time, .context, .faults, .logs, .pkg, .gate, .pid, .power, .firmware]
  | .pwrEnLow .. => some [.tiles, .rows, .seq, .time, .net, .lake, .context, .faults, .logs, .dieFrozen, .links, .dma, .pkg, .lpn, .gate, .perturb, .jtag, .cfg, .pid, .host, .mgmt, .power, .spares, .firmware, .loader, .out]
  | .prsntNBreak .. => some [.tiles, .rows, .seq, .time, .net, .lake, .context, .faults, .logs, .dieFrozen, .links, .dma, .pkg, .lpn, .gate, .perturb, .jtag, .cfg, .pid, .host, .mgmt, .power, .spares, .firmware, .loader, .out]
  | .bladeUndervoltage .. => some [.tiles, .rows, .seq, .time, .net, .lake, .context, .faults, .logs, .dieFrozen, .links, .dma, .pkg, .lpn, .gate, .perturb, .jtag, .cfg, .pid, .host, .mgmt, .power, .spares, .firmware, .loader, .out]
  | .bladeOvervoltage .. => some [.tiles, .rows, .seq, .time, .net, .lake, .context, .faults, .logs, .dieFrozen, .links, .dma, .pkg, .lpn, .gate, .perturb, .jtag, .cfg, .pid, .host, .mgmt, .power, .spares, .firmware, .loader, .out]
  | .refclkLoss .. => some [.tiles, .rows, .seq, .time, .net, .lake, .context, .faults, .logs, .dieFrozen, .links, .dma, .pkg, .lpn, .gate, .perturb, .jtag, .cfg, .pid, .host, .mgmt, .power, .spares, .firmware, .loader, .out]
  | .bistDone .. => some [.tiles, .seq, .time, .lake, .logs, .links, .pkg, .power]
  | .firmwareBootVerify .. => some [.time, .logs, .pkg, .host, .firmware]
  | .lakeTrainDone .. => some [.tiles, .rows, .time, .net, .lake, .context, .faults, .logs, .links, .dma, .pkg, .host, .spares]
  | .fenceInAssert .. => some [.tiles, .seq, .time, .context, .logs, .links, .pkg, .gate, .out]
  | .fenceRelease .. => some [.tiles, .rows, .seq, .time, .net, .lake, .context, .faults, .logs, .links, .dma, .pkg, .gate, .perturb, .pid, .spares, .firmware, .out]
  | .prsntNAssert .. => some [.time, .context, .faults, .logs, .pkg, .gate, .pid, .power, .firmware]
  | .thermtripNDeassert .. => some [.time, .context, .faults, .logs, .pkg, .gate, .pid, .power, .firmware]
  | .thermtripNRelease .. => some [.time, .pkg]
  | .powerGood .. => some [.time, .pkg]
  | _ => none

end Sys2Proof.Safety
end

