-- ==== Sys2Proof/WellFormed.lean ====
section
/-!
DEFINITION. Well-formed commands: every operand that the spec bounds lies in its bound: a register, flag or other field of a syllable in its width (R82), a unit of the package in its number (R1, R4).
A meaning takes any operand; this check says which commands the spec can name.
-/
namespace Sys2Proof

def Instr.wf : Instr → Bool
  | .nop tid slot => decide (tid < 576) && decide (slot < 8)
  | .br tid target => decide (tid < 576) && decide (target < 4096)
  | .brz tid sr target => decide (tid < 576) && decide (sr < 32) && decide (target < 4096)
  | .brnz tid sr target => decide (tid < 576) && decide (sr < 32) && decide (target < 4096)
  | .call tid sr target => decide (tid < 576) && decide (sr < 32) && decide (target < 4096)
  | .ret tid sr => decide (tid < 576) && decide (sr < 32)
  | .loopi tid l count target => decide (tid < 576) && decide (l < 4) && decide (count < 2 ^ 20) && decide (target < 4096)
  | .loops tid l sr target => decide (tid < 576) && decide (l < 4) && decide (sr < 32) && decide (target < 4096)
  | .lexit tid l => decide (tid < 576) && decide (l < 4)
  | .waitf tid f count => decide (tid < 576) && decide (f < 64) && decide (count < 65536)
  | .waitfs tid f sr => decide (tid < 576) && decide (f < 64) && decide (sr < 32)
  | .waitfPass tid => decide (tid < 576)
  | .barrier tid f => decide (tid < 576) && decide (f < 64)
  | .barrierLimitRelease tid => decide (tid < 576)
  | .wake tid die rows => decide (tid < 576) && decide (die < 4) && decide (rows < 4096)
  | .stepEnd tid => decide (tid < 576)
  | .stepEndRelease tid => decide (tid < 576)
  | .add tid d a b => decide (tid < 576) && decide (d < 32) && decide (a < 32) && decide (b < 32)
  | .sub tid d a b => decide (tid < 576) && decide (d < 32) && decide (a < 32) && decide (b < 32)
  | .and tid d a b => decide (tid < 576) && decide (d < 32) && decide (a < 32) && decide (b < 32)
  | .or tid d a b => decide (tid < 576) && decide (d < 32) && decide (a < 32) && decide (b < 32)
  | .xor tid d a b => decide (tid < 576) && decide (d < 32) && decide (a < 32) && decide (b < 32)
  | .shl tid d a b => decide (tid < 576) && decide (d < 32) && decide (a < 32) && decide (b < 32)
  | .shr tid d a b => decide (tid < 576) && decide (d < 32) && decide (a < 32) && decide (b < 32)
  | .sra tid d a b => decide (tid < 576) && decide (d < 32) && decide (a < 32) && decide (b < 32)
  | .cmpeq tid d a b => decide (tid < 576) && decide (d < 32) && decide (a < 32) && decide (b < 32)
  | .cmplt tid d a b => decide (tid < 576) && decide (d < 32) && decide (a < 32) && decide (b < 32)
  | .cmpltu tid d a b => decide (tid < 576) && decide (d < 32) && decide (a < 32) && decide (b < 32)
  | .mul tid d a b => decide (tid < 576) && decide (d < 32) && decide (a < 32) && decide (b < 32)
  | .addi tid d a _ => decide (tid < 576) && decide (d < 32) && decide (a < 32)
  | .movi tid d _ => decide (tid < 576) && decide (d < 32)
  | .movl tid d l => decide (tid < 576) && decide (d < 32) && decide (l < 4)
  | .bcast tid d a => decide (tid < 576) && decide (d < 32) && decide (a < 32)
  | .ext tid d a lane => decide (tid < 576) && decide (d < 32) && decide (a < 32) && decide (lane < 256)
  | .adw tid d word a => decide (tid < 576) && decide (d < 32) && decide (word < 512) && decide (a < 32)
  | .adwi tid d word _ => decide (tid < 576) && decide (d < 32) && decide (word < 512)
  | .fset tid f _ => decide (tid < 576) && decide (f < 64)
  | .feed tid a pre => decide (tid < 576) && decide (a < 32) && decide (pre < 2)
  | .vld tid u reg a q => decide (tid < 576) && decide (u < 2) && decide (reg < 32) && decide (a < 16) && decide (q < 4)
  | .vldx8 tid u reg a => decide (tid < 576) && decide (u < 2) && decide (reg < 32) && decide (a < 16)
  | .vldx4 tid u reg a => decide (tid < 576) && decide (u < 2) && decide (reg < 32) && decide (a < 16)
  | .sld tid u reg a => decide (tid < 576) && decide (u < 2) && decide (reg < 32) && decide (a < 16)
  | .vst tid u reg a q p => decide (tid < 576) && decide (u < 2) && decide (reg < 32) && decide (a < 16) && decide (q < 4) && decide (p < 8)
  | .sst tid u reg a => decide (tid < 576) && decide (u < 2) && decide (reg < 32) && decide (a < 16)
  | .wbf tid wb a off len => decide (tid < 576) && decide (wb < 2) && decide (a < 16) && decide (off < 128) && decide (len < 128)
  | .palw tid a pslot pcnt pt f => decide (tid < 576) && decide (a < 16) && decide (pslot < 256) && decide (pcnt < 8) && decide (pt < 2) && decide (f < 64)
  | .palwComplete tid => decide (tid < 576)
  | .mks tid fa fb acc wb half sp last => decide (tid < 576) && decide (fa < 16) && decide (fb < 16) && decide (acc < 4) && decide (wb < 2) && decide (half < 2) && decide (sp < 2) && decide (last < 2)
  | .blockCommit tid elem _ => decide (tid < 576) && decide (elem < 16384)
  | .mclr tid acc => decide (tid < 576) && decide (acc < 4)
  | .mdrn tid acc fmt cc a m => decide (tid < 576) && decide (acc < 4) && decide (fmt < 16) && decide (cc < 4) && decide (a < 16) && decide (m < 16)
  | .vfma tid u d a b c p ty elem _ => decide (tid < 576) && decide (u < 2) && decide (d < 32) && decide (a < 32) && decide (b < 32) && decide (c < 32) && decide (p < 8) && decide (ty < 16) && decide (elem < 4096)
  | .vmul tid u d a b p ty elem _ => decide (tid < 576) && decide (u < 2) && decide (d < 32) && decide (a < 32) && decide (b < 32) && decide (p < 8) && decide (ty < 16) && decide (elem < 4096)
  | .vadd tid u d a b p ty elem _ => decide (tid < 576) && decide (u < 2) && decide (d < 32) && decide (a < 32) && decide (b < 32) && decide (p < 8) && decide (ty < 16) && decide (elem < 4096)
  | .vsub tid u d a b p ty elem _ => decide (tid < 576) && decide (u < 2) && decide (d < 32) && decide (a < 32) && decide (b < 32) && decide (p < 8) && decide (ty < 16) && decide (elem < 4096)
  | .viadd tid u d a b p => decide (tid < 576) && decide (u < 2) && decide (d < 32) && decide (a < 32) && decide (b < 32) && decide (p < 8)
  | .visub tid u d a b p => decide (tid < 576) && decide (u < 2) && decide (d < 32) && decide (a < 32) && decide (b < 32) && decide (p < 8)
  | .vand tid u d a b p => decide (tid < 576) && decide (u < 2) && decide (d < 32) && decide (a < 32) && decide (b < 32) && decide (p < 8)
  | .vor tid u d a b p => decide (tid < 576) && decide (u < 2) && decide (d < 32) && decide (a < 32) && decide (b < 32) && decide (p < 8)
  | .vxor tid u d a b p => decide (tid < 576) && decide (u < 2) && decide (d < 32) && decide (a < 32) && decide (b < 32) && decide (p < 8)
  | .vshl tid u d a b p => decide (tid < 576) && decide (u < 2) && decide (d < 32) && decide (a < 32) && decide (b < 32) && decide (p < 8)
  | .vshr tid u d a b p => decide (tid < 576) && decide (u < 2) && decide (d < 32) && decide (a < 32) && decide (b < 32) && decide (p < 8)
  | .vsra tid u d a b p => decide (tid < 576) && decide (u < 2) && decide (d < 32) && decide (a < 32) && decide (b < 32) && decide (p < 8)
  | .vsel tid u d a b p => decide (tid < 576) && decide (u < 2) && decide (d < 32) && decide (a < 32) && decide (b < 32) && decide (p < 8)
  | .vfmax tid u d a b p ty => decide (tid < 576) && decide (u < 2) && decide (d < 32) && decide (a < 32) && decide (b < 32) && decide (p < 8) && decide (ty < 16)
  | .vfmin tid u d a b p ty => decide (tid < 576) && decide (u < 2) && decide (d < 32) && decide (a < 32) && decide (b < 32) && decide (p < 8) && decide (ty < 16)
  | .vcmp tid u d a b p ty fn => decide (tid < 576) && decide (u < 2) && decide (d < 32) && decide (a < 32) && decide (b < 32) && decide (p < 8) && decide (ty < 16) && decide (fn < 16)
  | .vperm tid u d a b p => decide (tid < 576) && decide (u < 2) && decide (d < 32) && decide (a < 32) && decide (b < 32) && decide (p < 8)
  | .vcvt tid u d a p ty t2 cc fn q pk => decide (tid < 576) && decide (u < 2) && decide (d < 32) && decide (a < 32) && decide (p < 8) && decide (ty < 16) && decide (t2 < 16) && decide (cc < 4) && decide (fn < 16) && decide (q < 4) && decide (pk < 2)
  | .vred tid u d a p ty fn => decide (tid < 576) && decide (u < 2) && decide (d < 32) && decide (a < 32) && decide (p < 8) && decide (ty < 16) && decide (fn < 16)
  | .vpal tid u d a p sel imm8 => decide (tid < 576) && decide (u < 2) && decide (d < 32) && decide (a < 32) && decide (p < 8) && decide (sel < 2) && decide (imm8 < 256)
  | .vtr tid d a p fn => decide (tid < 576) && decide (d < 32) && decide (a < 32) && decide (p < 8) && decide (fn < 16)
  | .fixedLatencyWriteback tid => decide (tid < 576)
  | .residueMxCheck tid => decide (tid < 576)
  | .residueVxCheck tid u => decide (tid < 576) && decide (u < 2)
  | .xrd tid f a sa len => decide (tid < 576) && decide (f < 64) && decide (a < 16) && decide (sa < 32) && decide (len < 2 ^ 20)
  | .xwr tid f a sa len => decide (tid < 576) && decide (f < 64) && decide (a < 16) && decide (sa < 32) && decide (len < 2 ^ 20)
  | .xwrb tid f a sa sb len => decide (tid < 576) && decide (f < 64) && decide (a < 16) && decide (sa < 32) && decide (sb < 32) && decide (len < 2 ^ 20)
  | .xred tid f a sa fmt rop len => decide (tid < 576) && decide (f < 64) && decide (a < 16) && decide (sa < 32) && decide (fmt < 16) && decide (rop < 4) && decide (len < 2 ^ 20)
  | .xgath tid f a sa sb es len => decide (tid < 576) && decide (f < 64) && decide (a < 16) && decide (sa < 32) && decide (sb < 32) && decide (es < 16) && decide (len < 2 ^ 20)
  | .xscat tid f a sa sb fmt es len => decide (tid < 576) && decide (f < 64) && decide (a < 16) && decide (sa < 32) && decide (sb < 32) && decide (fmt < 16) && decide (es < 16) && decide (len < 2 ^ 20)
  | .xpdec tid f a sa sb fmt len => decide (tid < 576) && decide (f < 64) && decide (a < 16) && decide (sa < 32) && decide (sb < 32) && decide (fmt < 16) && decide (len < 2 ^ 20)
  | .xzero tid f sa len => decide (tid < 576) && decide (f < 64) && decide (sa < 32) && decide (len < 2 ^ 20)
  | .xfLimitRelease tid => decide (tid < 576)
  | .flagIncrement tid f => decide (tid < 576) && decide (f < 64)
  | .heldIncrementRegister tid f => decide (tid < 576) && decide (f < 64)
  | .bundleStoreWrite pti addr _ => decide (pti < 624) && decide (addr < 4096)
  | .tileScrub pti space _ => decide (pti < 624) && decide (space < 2)
  | .stepLaunch _ => true
  | .timedWake _ => true
  | .stepStart _ => true
  | .rowWakeComplete r _ => decide (r < 52)
  | .rowRetain r _ => decide (r < 52)
  | .stepComplete _ => true
  | .watchdog tid => decide (tid < 576)
  | .contextKill _ => true
  | .abortSend _ => true
  | .lakeDrainEnd _ _ => true
  | .glazeZeroDone _ => true
  | .tileZeroDone _ => true
  | .lakeZeroDone k _ _ => decide (k < 8)
  | .freezeNoteSend d g _ => decide (d < 4) && decide (g < 256)
  | .freezeNote l _ => decide (l < 96)
  | .freezeNoteLapse g _ => decide (g < 256)
  | .barrierUp l _ => decide (l < 96)
  | .barrierDone l _ => decide (l < 96)
  | .arbiterGrant kind _ _ _ => decide (kind < 4)
  | .emergencyGrant kind _ _ => decide (kind < 4)
  | .packetHop _ _ => true
  | .bridgeCrossing _ _ => true
  | .rdReq _ => true
  | .rdData _ => true
  | .wr _ => true
  | .wrAck _ => true
  | .bcastWr _ => true
  | .bcastAck _ => true
  | .genNack _ => true
  | .errResp _ => true
  | .glazeArbiterRead _ _ => true
  | .glazeScrubVisit d _ _ => decide (d < 4)
  | .lakeRead _ _ _ _ _ => true
  | .lakeWrite _ _ _ _ => true
  | .lakeReduce _ _ _ _ _ => true
  | .lakeScatterAdd _ _ _ _ _ => true
  | .lakeGather _ _ _ _ _ => true
  | .lakePaletteDecode _ _ _ _ _ => true
  | .lakeRangeZero _ _ _ _ => true
  | .lakeDone _ => true
  | .lakeRefresh k c _ => decide (k < 8) && decide (c < 32)
  | .lakeScrubVisit k c _ _ => decide (k < 8) && decide (c < 32)
  | .lakeSpareCopyDone k _ => decide (k < 8)
  | .lakeChannelPdn k c _ => decide (k < 8) && decide (c < 32)
  | .lakeChannelSref k c _ => decide (k < 8) && decide (c < 32)
  | .lakeChannelWake k c _ _ => decide (k < 8) && decide (c < 32)
  | .defectListWrite _ => true
  | .dmaDoorbell c _ _ => decide (c < 16)
  | .dmaStop c _ _ => decide (c < 16)
  | .dmaNextWrite c _ _ v => decide (c < 16) && decide (v < 2 ^ 32)
  | .dmaDescFetch c code _ _ => decide (c < 16) && decide (code < 16)
  | .dmaShadowRead c _ => decide (c < 16)
  | .dmaCopy c _ _ => decide (c < 16)
  | .dmaIlv c _ _ => decide (c < 16)
  | .dmaBpl c _ _ => decide (c < 16)
  | .dmaMxs c _ _ => decide (c < 16)
  | .dmaRequestAnswer c tok code _ _ => decide (c < 16) && decide (tok < 1024) && decide (code < 16)
  | .dmaRequestTimeout c tok _ => decide (c < 16) && decide (tok < 1024)
  | .frameRx l _ _ corrected _ => decide (l < 96) && decide (corrected < 65536)
  | .nakRepeat l _ => decide (l < 96)
  | .ackSend l _ => decide (l < 96)
  | .ack l _ => decide (l < 96)
  | .replayExhaustion l _ => decide (l < 96)
  | .pkt l _ => decide (l < 96)
  | .egressGrant l _ => decide (l < 96)
  | .heartbeat l _ => decide (l < 96)
  | .heartbeatSend _ => true
  | .abort l _ => decide (l < 96)
  | .lpnClaim l _ => decide (l < 96)
  | .lpnClaimResend _ => true
  | .sync l _ => decide (l < 96)
  | .dreq l _ => decide (l < 96)
  | .resp l _ => decide (l < 96)
  | .timSyncSend l _ _ => decide (l < 96)
  | .timParentTimeout _ => true
  | .masterListenEnd _ => true
  | .ppsInEdge _ => true
  | .ppsInMissed _ => true
  | .ppsOutRise _ => true
  | .ppsOutFall _ => true
  | .syncAuxTimecode _ => true
  | .ptpSyncSend _ => true
  | .ptpAnnounceSend _ => true
  | .delayReq domain _ => decide (domain < 256)
  | .ptpMessageRx _ domain => decide (domain < 256)
  | .ftSampleRead _ => true
  | .ftLoRead _ => true
  | .ident l _ => decide (l < 96)
  | .identSend l _ => decide (l < 96)
  | .handoffReq l _ => decide (l < 96)
  | .handoffRsp l _ => decide (l < 96)
  | .handoffTimeout l _ => decide (l < 96)
  | .retrain l _ => decide (l < 96)
  | .linkTrainStart l _ _ => decide (l < 96)
  | .trainPhaseTimeout l _ => decide (l < 96)
  | .linkTrainComplete l _ _ => decide (l < 96)
  | .lossOfSignal l _ => decide (l < 96)
  | .laneLockLoss l lane _ => decide (l < 96) && decide (lane < 2)
  | .fastRetrainEnd l _ _ _ => decide (l < 96)
  | .fastRetrainTimeout l _ => decide (l < 96)
  | .degradedTimeout l _ => decide (l < 96)
  | .configRequest _ _ v _ => decide (v < 2 ^ 32)
  | .cxlLinkTrain _ _ _ _ => true
  | .cxlLinkDown _ => true
  | .perstN _ => true
  | .hotReset _ => true
  | .perstNDeassert _ _ => true
  | .hdmRead _ _ _ _ _ _ => true
  | .hdmWrite _ _ _ _ _ _ _ => true
  | .bar2Access _ _ len _ _ _ _ => decide (len < 257)
  | .prodWrite n v _ => decide (n < 4) && decide (v < 65536)
  | .smAddrWrite _ v _ => decide (v < 2 ^ 32)
  | .statusMirrorEnable _ => true
  | .statusRecordWrite r _ => decide (r < 64)
  | .statusMirrorRefresh _ => true
  | .mirrorHeartbeat _ => true
  | .rcRead _ _ size _ _ => size == 1 || size == 2 || size == 4 || size == 8
  | .registerWrite _ _ v size _ => decide (v < 2 ^ 64) && (size == 1 || size == 2 || size == 4 || size == 8)
  | .mailboxDeadlineExpiry mb _ => decide (mb < 6)
  | .mmbDatagram _ _ => true
  | .indexQuery _ _ => true
  | .managerAbsentTimeout _ => true
  | .entdaa addr _ => decide (addr < 128)
  | .i3cPrivateWrite _ _ => true
  | .i3cPrivateRead _ => true
  | .i3cPresenceTimeout _ => true
  | .idGet mb _ => decide (mb < 6)
  | .stateGet mb _ => decide (mb < 6)
  | .cfgPart mb _ => decide (mb < 6)
  | .cfgCommit mb _ => decide (mb < 6)
  | .cfgInfo mb _ => decide (mb < 6)
  | .cfgClear mb _ => decide (mb < 6)
  | .claimSet mb _ => decide (mb < 6)
  | .ctxAccept mb _ => decide (mb < 6)
  | .bundleLoad mb _ => decide (mb < 6)
  | .stepWrite mb _ => decide (mb < 6)
  | .runSubmit mb _ => decide (mb < 6)
  | .runStop mb _ => decide (mb < 6)
  | .ctxKill mb _ => decide (mb < 6)
  | .ctxEnd mb _ => decide (mb < 6)
  | .warmReset mb _ => decide (mb < 6)
  | .capSet mb _ => decide (mb < 6)
  | .capGet mb _ => decide (mb < 6)
  | .holdSet mb _ => decide (mb < 6)
  | .holdRelease mb _ => decide (mb < 6)
  | .sprintSet mb _ => decide (mb < 6)
  | .powerGet mb _ => decide (mb < 6)
  | .timeGet mb _ => decide (mb < 6)
  | .taiSet mb _ => decide (mb < 6)
  | .masterSet mb _ => decide (mb < 6)
  | .ptpGet mb _ => decide (mb < 6)
  | .spareBind mb _ => decide (mb < 6)
  | .spareUnbind mb _ => decide (mb < 6)
  | .spareGet mb _ => decide (mb < 6)
  | .mirrorRegions mb _ => decide (mb < 6)
  | .mirrorPoint mb _ => decide (mb < 6)
  | .fwStageBegin mb _ => decide (mb < 6)
  | .stagingEraseDone _ => true
  | .fwChunk mb _ => decide (mb < 6)
  | .chunkWriteDone _ => true
  | .fwStatus mb _ => decide (mb < 6)
  | .fwActivate mb _ => decide (mb < 6)
  | .fwDefer mb _ => decide (mb < 6)
  | .activationPrepDone _ _ _ => true
  | .activationBegin _ => true
  | .handoverStart _ => true
  | .handoverImport _ _ => true
  | .watchBankSwitch _ => true
  | .handoverEnd _ => true
  | .selfCheckPass _ _ => true
  | .rollback _ _ => true
  | .arbRaise _ => true
  | .attest mb _ => decide (mb < 6)
  | .identity mb _ => decide (mb < 6)
  | .keySet mb _ => decide (mb < 6)
  | .keyClear mb _ => decide (mb < 6)
  | .logRead mb _ => decide (mb < 6)
  | .regRead mb _ _ => decide (mb < 6)
  | .debugEnable mb _ => decide (mb < 6)
  | .debugDisable mb _ => decide (mb < 6)
  | .perturbSet mb _ => decide (mb < 6)
  | .perturbGet mb _ => decide (mb < 6)
  | .ptLinkDelay _ => true
  | .ptCreditHold _ => true
  | .ptLakeLat _ => true
  | .ptMbxDelay _ => true
  | .ptMeasOfs _ => true
  | .ptTempOfs _ => true
  | .ptFlowOfs _ => true
  | .ptForceShed _ => true
  | .forcedShedEnd _ => true
  | .ptClkStart _ => true
  | .ptChecks _ => true
  | .ptTrigger _ => true
  | .ptTimer _ => true
  | .ptTimerEdge _ => true
  | .debugScopeExpiry _ => true
  | .debugEnNDeassert _ => true
  | .idcode => true
  | .samplePreload _ _ => true
  | .extest _ _ => true
  | .clamp => true
  | .highz => true
  | .bypass => true
  | .dap => true
  | .dapRead addrW _ _ _ _ => decide (addrW < 2 ^ 39)
  | .dapWrite addrW data _ _ _ => decide (addrW < 2 ^ 39) && decide (data < 2 ^ 32)
  | .controlPeriod _ _ _ _ _ _ _ => true
  | .dieFreeze d _ => decide (d < 4)
  | .calibrationWindow _ => true
  | .capHwRamp _ => true
  | .sprintBinRoll _ => true
  | .shedNAssert _ => true
  | .shedNDeassert _ => true
  | .leakNAssert _ => true
  | .leakNDeassert _ => true
  | .leakRelease _ => true
  | .flowPulseEdge _ => true
  | .flowTimeout _ => true
  | .flowStopTimeout _ => true
  | .flowRelease _ => true
  | .controlledStopFreeze _ => true
  | .controlledStopEnd _ => true
  | .holdNAssert _ => true
  | .holdNDeassert _ => true
  | .thermtrip _ _ => true
  | .stage1CurrentLimit _ => true
  | .regulatorCurrentLimit d _ => decide (d < 4)
  | .converterPhaseFail reg phase _ => decide (reg < 6) && decide (phase < 64)
  | .regulatorOutOfRegulation reg => decide (reg < 6)
  | .sensorDisagree _ _ => true
  | .coldPlateRead _ _ _ _ _ => true
  | .watchCoreStall _ => true
  | .watchCoreRestart _ => true
  | .mordantRestart core _ => decide (core < 4)
  | .mordantRestartEnd _ _ => true
  | .bladePowerUp straps _ => decide (straps < 2 ^ 20)
  | .bladePowerLoss _ => true
  | .holdUpExpiry _ => true
  | .pwrEnHigh straps _ => decide (straps < 2 ^ 20)
  | .pwrEnLow _ => true
  | .prsntNBreak _ => true
  | .bladeUndervoltage _ => true
  | .bladeOvervoltage _ => true
  | .refclkLoss _ => true
  | .bistDone _ _ _ _ => true
  | .firmwareBootVerify _ => true
  | .lakeTrainDone _ _ => true
  | .fenceInAssert _ => true
  | .fenceRelease _ => true
  | .hbAckEdge k _ _ => decide (k < 18)
  | .heartbeatPathASilent k _ => decide (k < 18)
  | .heartbeatPathBSilent k _ => decide (k < 18)
  | .takeoverFence _ => true
  | .takeoverProceed _ _ => true
  | .fenceFail _ => true
  | .mirrorRestoreDone _ _ => true
  | .takeoverDone _ _ => true
  | .mirrorWrite _ _ _ _ => true
  | .loaderPacket _ => true
  | .loaderReport _ => true
  | .loaderReportTimeout _ => true
  | .prsntNAssert straps _ => decide (straps < 2 ^ 20)
  | .thermtripNDeassert _ => true
  | .thermtripNRelease _ => true
  | .codewordLock l lane _ => decide (l < 96) && decide (lane < 2)
  | .debugEnNAssert _ => true
  | .powerGood _ => true

end Sys2Proof
end

