-- ==== Sys2Proof/Certificates/Slice0/Obligations.lean ====
section
/-!
DEFINITION. The statements for the provers: what the commands of the block do to its state, by the rules of spec/, and what every command leaves as it was.
-/
section
open Sys2Proof Sys2Proof.Machine Sys2Proof.Safety

/-- The step of the block. That it idles on an empty queue is the model's choice (log entry 3), no rule of the spec. -/
def Obligations.StepRunsTheFrontCommand : Prop :=
  (∀ (c : Instr) (r : List Instr) (s : State), step { s with pending := c :: r } = exec c { s with pending := r }) ∧
  (∀ (s : State), s.pending = [] → step s = .next s)

/-- That no command stops the block is the model's choice (log entry 7, DESIGN CHOICE), no rule of the spec: R404 and R405 make a fault of the package a record and a kill, and they speak of no stop. The queue is the block's alone (log entry 3). -/
def Obligations.EveryCommandCompletesAndKeepsTheQueue : Prop :=
  ∀ (c : Instr) (s : State), ∃ t, exec c s = .next t ∧ t.pending = s.pending

/-- The canonical form of the package's memories is kept by every command (the form is the model's; what an unlisted byte reads as is log entry 2). -/
def Obligations.MemoriesKeepTheirForm : Prop :=
  ∀ (s t : State), memoriesWf s → step s = .next t → memoriesWf t

/-- The values the chapters give for reset; every other field is at a value that log entry 1 names. -/
def Obligations.ResetStateIsOffAndEmpty : Prop :=
  let s := State.reset
  s.pending = [] ∧ s.pkg.under = psOff ∧ memoriesWf s ∧ s.lake.mem = [] ∧ s.h.ram = [] ∧ s.time.ft = 0 ∧ s.ctx.accepted = false ∧ s.ctx.gen = 0 ∧
  s.pw.capHw = 2800 ∧ s.m.capHost = 2800 ∧ s.m.capMgr = 2800 ∧ s.pw.run = [16, 16, 16, 16] ∧ s.pw.k = 0x1000 ∧
  (∀ c, (s.ch c).timeoutUs = 10000 ∧ (s.ch c).claim = 1 ∧ (s.ch c).state = 0 ∧ (s.ch c).next = 0) ∧
  (∀ l, (s.link l).state = lsDown) ∧ (∀ o, (s.octet o).spareIdx = 7) ∧
  s.faults.firstFault = 0xFFFF ∧ s.faults.firstTid = 0x3FF ∧ s.faults.sticky = 0 ∧ s.spr.group = 0xFF ∧ s.jtag.ir = 1

/-- R41, R405: the frame of the tile commands. -/
def Obligations.TileCommandsKeepTheRest : Prop :=
  ∀ (c : Instr) (s t : State) (ps : List Part), touchesTile c = some ps → exec c s = .next t →
    (∀ p, p ∉ ps → p.same s t) ∧
    (∀ tid slot w, syllableOf c = some (tid, slot, w) → ∀ q, q ≠ s.ptiOf tid → t.tile q = s.tile q)

/-- The frames of the commands of spec/04 to 06 and 08. -/
def Obligations.FabricCommandsKeepTheirFrames : Prop :=
  ∀ (c : Instr) (s t : State) (ps : List Part) (p : Part),
    touchesStep c = some ps ∨ touchesTime c = some ps ∨ touchesNet c = some ps ∨ touchesLake c = some ps ∨ touchesLink c = some ps →
    exec c s = .next t → p ∉ ps → p.same s t

/-- The frames of the commands of spec/07, 09, 13 and 14. -/
def Obligations.AttachmentCommandsKeepTheirFrames : Prop :=
  ∀ (c : Instr) (s t : State) (ps : List Part) (p : Part),
    touchesDma c = some ps ∨ touchesHost c = some ps ∨ touchesTeardown c = some ps ∨ touchesSpare c = some ps →
    exec c s = .next t → p ∉ ps → p.same s t

/-- The frames of the commands of spec/10 to 12, 15 and 16. -/
def Obligations.ManagementCommandsKeepTheirFrames : Prop :=
  ∀ (c : Instr) (s t : State) (ps : List Part) (p : Part),
    touchesMordant c = some ps ∨ touchesFirmware c = some ps ∨ touchesDebug c = some ps ∨ touchesPower c = some ps ∨ touchesBringup c = some ps →
    exec c s = .next t → p ∉ ps → p.same s t

/-- R98: the results of `ADD` to `MUL`. Shift amounts are B[4:0], comparisons give 1 or 0, latency is 1 and for `MUL` 3. R83, R98, R113: `NOP`, and the moves, broadcasts, descriptor and flag writes of the scalar slot. -/
def Obligations.ScalarResults : Prop :=
  (
  ∀ (s : State) (tid d a b : Nat),
    (issues s tid slotSC (encSC 0x01 d a b 0 0) = true →
      exec (.add tid d a b) s = .next (issueOn s tid slotSC fun t => t.pend 1 (.sreg d (t.sreg a + t.sreg b)))) ∧
    (issues s tid slotSC (encSC 0x02 d a b 0 0) = true →
      exec (.sub tid d a b) s = .next (issueOn s tid slotSC fun t => t.pend 1 (.sreg d (t.sreg a - t.sreg b)))) ∧
    (issues s tid slotSC (encSC 0x03 d a b 0 0) = true →
      exec (.and tid d a b) s = .next (issueOn s tid slotSC fun t => t.pend 1 (.sreg d (t.sreg a &&& t.sreg b)))) ∧
    (issues s tid slotSC (encSC 0x04 d a b 0 0) = true →
      exec (.or tid d a b) s = .next (issueOn s tid slotSC fun t => t.pend 1 (.sreg d (t.sreg a ||| t.sreg b)))) ∧
    (issues s tid slotSC (encSC 0x05 d a b 0 0) = true →
      exec (.xor tid d a b) s = .next (issueOn s tid slotSC fun t => t.pend 1 (.sreg d (t.sreg a ^^^ t.sreg b)))) ∧
    (issues s tid slotSC (encSC 0x06 d a b 0 0) = true →
      exec (.shl tid d a b) s = .next (issueOn s tid slotSC fun t => t.pend 1 (.sreg d (t.sreg a <<< ((t.sreg b).toNat % 32))))) ∧
    (issues s tid slotSC (encSC 0x07 d a b 0 0) = true →
      exec (.shr tid d a b) s = .next (issueOn s tid slotSC fun t => t.pend 1 (.sreg d (t.sreg a >>> ((t.sreg b).toNat % 32))))) ∧
    (issues s tid slotSC (encSC 0x08 d a b 0 0) = true →
      exec (.sra tid d a b) s = .next (issueOn s tid slotSC fun t => t.pend 1 (.sreg d ((t.sreg a).sshiftRight ((t.sreg b).toNat % 32))))) ∧
    (issues s tid slotSC (encSC 0x09 d a b 0 0) = true →
      exec (.cmpeq tid d a b) s = .next (issueOn s tid slotSC fun t => t.pend 1 (.sreg d (if t.sreg a = t.sreg b then 1#32 else 0#32)))) ∧
    (issues s tid slotSC (encSC 0x0A d a b 0 0) = true →
      exec (.cmplt tid d a b) s = .next (issueOn s tid slotSC fun t => t.pend 1 (.sreg d (if (t.sreg a).toInt < (t.sreg b).toInt then 1#32 else 0#32)))) ∧
    (issues s tid slotSC (encSC 0x0B d a b 0 0) = true →
      exec (.cmpltu tid d a b) s = .next (issueOn s tid slotSC fun t => t.pend 1 (.sreg d (if (t.sreg a).toNat < (t.sreg b).toNat then 1#32 else 0#32)))) ∧
    (issues s tid slotSC (encSC 0x10 d a b 0 0) = true →
      exec (.mul tid d a b) s = .next (issueOn s tid slotSC fun t => t.pend 3 (.sreg d (t.sreg a * t.sreg b))))
  ) ∧ (
  ∀ (s : State) (tid slot d a l lane word f pre : Nat) (imm : Word) (fv : BitVec 16), l < 4 → lane < 256 → pre < 2 →
    (issues s tid slot 0 = true → exec (.nop tid slot) s = .next (issueOn s tid slot fun t => t)) ∧
    (issues s tid slotSC (encSC 0x18 d a 0 0 imm.toNat) = true →
      exec (.addi tid d a imm) s = .next (issueOn s tid slotSC fun t => t.pend 1 (.sreg d (t.sreg a + imm)))) ∧
    (issues s tid slotSC (encSC 0x19 d 0 0 0 imm.toNat) = true →
      exec (.movi tid d imm) s = .next (issueOn s tid slotSC fun t => t.pend 1 (.sreg d imm))) ∧
    (issues s tid slotSC (encSC 0x1A d 0 0 l 0) = true →
      exec (.movl tid d l) s = .next (issueOn s tid slotSC fun t =>
        t.pend 1 (.sreg d (if (t.loop l).active then BitVec.ofNat 32 (t.loop l).remaining else 0#32)))) ∧
    (issues s tid slotSC (encSC 0x20 d a 0 0 0) = true →
      exec (.bcast tid d a) s = .next (issueOn s tid slotSC fun t => t.pend 2 (.vreg d ((List.range 256).map fun i => (i, t.sreg a))))) ∧
    (issues s tid slotSC (encSC 0x21 d a 0 lane 0) = true →
      exec (.ext tid d a lane) s = .next (issueOn s tid slotSC fun t => t.pend 3 (.sreg d (t.lane a lane)))) ∧
    (issues s tid slotSC (encSC 0x28 d a 0 word 0) = true →
      exec (.adw tid d word a) s = .next (issueOn s tid slotSC fun t => t.pend 2 (.dword d word (t.sreg a)))) ∧
    (issues s tid slotSC (encSC 0x29 d 0 0 word imm.toNat) = true →
      exec (.adwi tid d word imm) s = .next (issueOn s tid slotSC fun t => t.pend 2 (.dword d word imm))) ∧
    (issues s tid slotSC (encSC 0x30 0 0 0 f fv.toNat) = true →
      exec (.fset tid f fv) s = .next (issueOn s tid slotSC fun t => t.pend 1 (.flag f fv.toNat))) ∧
    (issues s tid slotSC (encSC 0x31 a 0 0 pre 0) = true →
      exec (.feed tid a pre) s = .next (issueOn s tid slotSC fun t =>
        { t with mx := { t.mx with feed := { t.mx.feed with newFeed := some (t.desc a, decide (pre = 1)) } } }))
  )

/-- R89, R91, R93: what each control syllable decides about the next bundle. -/
def Obligations.BranchesAndLoopsDecideTheNextBundle : Prop :=
  ∀ (s : State) (tid sr l count target : Nat),
    (issues s tid slotCT (encCTB 0x01 0 0 0 target) = true →
      exec (.br tid target) s = .next (issueOn s tid slotCT fun t => { t with iss := { t.iss with ct := .jump target } })) ∧
    (issues s tid slotCT (encCTB 0x02 sr 0 0 target) = true →
      exec (.brz tid sr target) s = .next (issueOn s tid slotCT fun t =>
        if t.sreg sr = 0#32 then { t with iss := { t.iss with ct := .jump target } } else t)) ∧
    (issues s tid slotCT (encCTB 0x03 sr 0 0 target) = true →
      exec (.brnz tid sr target) s = .next (issueOn s tid slotCT fun t =>
        if t.sreg sr ≠ 0#32 then { t with iss := { t.iss with ct := .jump target } } else t)) ∧
    (issues s tid slotCT (encCTB 0x04 sr 0 0 target) = true →
      exec (.call tid sr target) s = .next (issueOn s tid slotCT fun t =>
        effBr target (t.pend 1 (.sreg sr (BitVec.ofNat 32 (t.iss.pc + 1)))))) ∧
    (issues s tid slotCT (encCTB 0x05 sr 0 0 0) = true →
      exec (.ret tid sr) s = .next (issueOn s tid slotCT fun t => effBr ((t.sreg sr).toNat % 4096) t)) ∧
    (issues s tid slotCT (encCTB 0x08 0 l count target) = true →
      exec (.loopi tid l count target) s = .next (issueOn s tid slotCT fun t =>
        if count = 0 then { t with iss := { t.iss with ct := .loopSkip l (target + 1) } } else { t with iss := { t.iss with ct := .loopOn l count target } })) ∧
    (issues s tid slotCT (encCTB 0x09 sr l 0 target) = true →
      exec (.loops tid l sr target) s = .next (issueOn s tid slotCT fun t =>
        if (t.sreg sr).toNat % 2 ^ 20 = 0 then { t with iss := { t.iss with ct := .loopSkip l (target + 1) } }
        else { t with iss := { t.iss with ct := .loopOn l ((t.sreg sr).toNat % 2 ^ 20) target } })) ∧
    (issues s tid slotCT (encCTB 0x0A 0 l 0 0) = true →
      exec (.lexit tid l) s = .next (issueOn s tid slotCT fun t => { t with iss := { t.iss with ct := .loopOff l } }))

/-- R92: `before k l` says that loop k is handled before loop l. -/
def Obligations.LoopsThatEndTogetherGoInOrder : Prop :=
  ∀ (t : Tile),
    let pc := t.iss.pc
    let ended := fun (b u : Tile) =>
      let ends := fun (l : Nat) => l < 4 ∧ (b.loop l).active = true ∧ (b.loop l).endPc = pc
      let before := fun (k l : Nat) => (b.loop l).order < (b.loop k).order ∨ ((b.loop k).order = (b.loop l).order ∧ k < l)
      (∀ l, ends l → 1 < (b.loop l).remaining → (∀ k, ends k → before k l → (b.loop k).remaining ≤ 1) →
        u.iss.pc = (b.loop l).start ∧ u.loop l = { b.loop l with remaining := (b.loop l).remaining - 1 } ∧
        (∀ k, ends k → before k l → u.loop k = { b.loop k with active := false }) ∧
        (∀ k, ends k → before l k → u.loop k = b.loop k)) ∧
      ((∀ l, ends l → (b.loop l).remaining ≤ 1) → u.iss.pc = pc + 1 ∧ ∀ l, ends l → u.loop l = { b.loop l with active := false }) ∧
      (∀ k, ¬ ends k → u.loop k = b.loop k)
    let off := fun (l : Nat) => t.setLoop l { t.loop l with active := false }
    (t.iss.ct = .seq → ended t t.nextBundle) ∧
    (∀ l, t.iss.ct = .loopOff l → ended (off l) t.nextBundle) ∧
    (∀ l count endPc, t.iss.ct = .loopOn l count endPc → ∃ u, ended (off l) u ∧ t.nextBundle.iss.pc = u.iss.pc ∧
      (∀ k, k ≠ l → t.nextBundle.loop k = u.loop k) ∧ t.nextBundle.loop l = ⟨true, count, pc + 1, endPc, t.r.loopSeq + 1⟩)

/-- R100: words 0 and 3 to 6 have the reserved bits [31:24]. -/
def Obligations.DescriptorWritesTakeEffectWhole : Prop :=
  (∀ (t : Tile) (a w : Nat) (v : Word), w < 7 →
    let t' := t.applyWr (.dword a w v)
    let seen := if w = 1 ∨ w = 2 then v else v &&& 0x00FFFFFF#32
    (t'.desc a).word w = seen ∧ (t'.desc a).pos = 0 ∧
    (w = 0 → ∀ k, 1 ≤ k → k < 7 → (t'.desc a).word k = 0#32) ∧
    (w ≠ 0 → ∀ k, k < 7 → k ≠ w → (t'.desc a).word k = (t.desc a).word k) ∧
    t' = t.applyWr (.dword a w seen) ∧
    (∀ b, b ≠ a → t'.desc b = t.desc b)) ∧
  (∀ (d : Desc), let one := fun (n : Nat) => if n = 0 then 1 else n
    d.n0 = one (d.w1.toNat % 2 ^ 16) ∧ d.n1 = one (d.w1.toNat / 2 ^ 16) ∧ d.n2 = one (d.w2.toNat % 2 ^ 16) ∧ d.n3 = one (d.w2.toNat / 2 ^ 16))

/-- R33, R87, R95, R97: a met wait consumes its count, an unmet one holds its bundle, and a held one issues when it is met. R32, R34, R136: one increment, a held increment, and the watchdog. -/
def Obligations.WaitsFlagsAndWatchdog : Prop :=
  (
  ∀ (s : State) (tid f count sr : Nat),
    let t0 := s.ltile tid
    let run := s.runs (s.ptiOf tid)
    (issues s tid slotCT (encCTW 0x10 0 f count 0 0) = true →
      exec (.waitf tid f count) s = .next (issueOn s tid slotCT fun t =>
        { t with r := { t.r with flags := Tab.put 0 t.r.flags f (t.flag f - count) } })) ∧
    (issues s tid slotCT (encCTW 0x11 sr f 0 0 0) = true →
      exec (.waitfs tid f sr) s = .next (issueOn s tid slotCT fun t =>
        { t with r := { t.r with flags := Tab.put 0 t.r.flags f (t.flag f - (t.sreg sr).toNat % 2 ^ 16) } })) ∧
    (issues s tid slotCT (encCTW 0x1F 0 0 0 0 0) = true →
      exec (.stepEnd tid) s = .next (issueOn s tid slotCT fun t =>
        { t with iss := { t.iss with ct := .stop }, mx := { t.mx with blk := none } })) ∧
    (onTile s tid = true → t0.atIssue run = true → t0.iss.issued = 0 → t0.bundleFault = none → t0.iss.held = false →
      t0.syl slotCT = encCTW 0x10 0 f count 0 0 → t0.unheld (s.barOk t0) = false →
      exec (.waitf tid f count) s = .next (s.onTid tid fun t => { t with iss := { t.iss with held := true } })) ∧
    (onTile s tid = true → heldReady t0 run (s.barOk t0) = true → opOf (t0.syl slotCT) = 0x10 →
      exec (.waitfPass tid) s = .next (issueOn s tid slotCT fun t =>
        { t with r := { t.r with flags := Tab.put 0 t.r.flags (fld (t0.syl slotCT) 50 45) (t.flag (fld (t0.syl slotCT) 50 45) - fld (t0.syl slotCT) 44 29) }, iss := { t.iss with held := false } })) ∧
    (onTile s tid = true → heldReady t0 run (s.barOk t0) = true → opOf (t0.syl slotCT) = 0x1F →
      exec (.stepEndRelease tid) s = .next (issueOn s tid slotCT fun t =>
        { t with iss := { t.iss with ct := .stop, held := false }, mx := { t.mx with blk := none } }))
  ) ∧ (
  ∀ (s : State) (tid f : Nat), onTile s tid = true →
    let t := s.ltile tid
    (t.iss.xf.find? (fun o => o.flag == f && o.answers == 0 && !o.failed) = none → t.iss.arrive.contains f = true →
      Tab.get 0 t.r.regNow f < 4 →
      exec (.flagIncrement tid f) s = .next (s.onTid tid fun t =>
        { t with iss := { t.iss with arrive := dropFirst f t.iss.arrive },
                 r := { t.r with regNow := Tab.upd 0 t.r.regNow f (· + 1), flags := Tab.put 0 t.r.flags f (t.flag f + 1) } })) ∧
    (t.r.heldInc.any (fun e => e.1 == f) = true → Tab.get 0 t.r.regNow f < 4 →
      exec (.heldIncrementRegister tid f) s = .next (s.onTid tid fun t =>
        { t with r := { t.r with heldInc := dropHeld f t.r.heldInc, regNow := Tab.upd 0 t.r.regNow f (· + 1),
                                 flags := Tab.put 0 t.r.flags f (t.flag f + 1) } })) ∧
    (t.st.active = true → t.budgetLimit ≤ t.st.used → bitAt t.blk.fault 10 = false →
      exec (.watchdog tid) s = .next (s.onTid tid fun t => t.raise .watchdog slotCT t.st.endPc false))
  )

/-- R101, R102, R104: the address of a load or store is the descriptor's, aligned; a store goes to it and nowhere else. R13, R62, R105 to R107: fills and palette writes. -/
def Obligations.LoadsStoresAndPaletteWrites : Prop :=
  (
  ∀ (s : State) (tid u reg a q p : Nat), u < 2 →
    let t0 := s.ltile tid
    let d := t0.desc a
    let slot := u + 2
    let v := alignDown d.addr 64
    let w := alignDown d.addr 4
    let free := fun (ad : Int) (n : Nat) => inSpace d.space ad n = true ∧ t0.iss.acc.filter (bankMeet (u, d.space, ad.toNat, n)) = []
    let load := fun (ad : Int) (n : Nat) (mk : List Byte → Wr) => fun (t : Tile) =>
      let r := ({ t with iss := { t.iss with acc := (u, d.space, ad.toNat, n) :: t.iss.acc } }).readT d.space ad.toNat (n / 4) slot
      (r.1.pend (loadLat d.space) (mk r.2)).advance a 1
    let store := fun (n : Nat) (ad : Int) (ws : List Wr) => fun (t : Tile) =>
      (ws.foldl (fun (x : Tile) y => x.pend 1 y) { t with iss := { t.iss with acc := (u, d.space, ad.toNat, n) :: t.iss.acc } }).advance a 1
    (issues s tid slot (encLS 0x01 reg a q 0 0 0 0 0 0 0 0) = true → free v 256 →
      exec (.vld tid u reg a q) s = .next (issueOn s tid slot
        (load v 256 fun bs => .vreg reg ((List.range 64).map fun j => (64 * q + j, wordAt bs j))))) ∧
    (issues s tid slot (encLS 0x02 reg a 0 0 0 0 0 0 0 0 0) = true → free v 256 →
      exec (.vldx8 tid u reg a) s = .next (issueOn s tid slot
        (load v 256 fun bs => .vreg reg ((List.range 256).map fun i => (i, (bs.getD i 0#8).setWidth 32))))) ∧
    (issues s tid slot (encLS 0x03 reg a 0 0 0 0 0 0 0 0 0) = true → free v 128 →
      exec (.vldx4 tid u reg a) s = .next (issueOn s tid slot
        (load v 128 fun bs => .vreg reg ((List.range 256).map fun i =>
          (i, BitVec.ofNat 32 (((bs.getD (i / 2) 0#8).toNat / (if i % 2 = 0 then 1 else 16)) % 16)))))) ∧
    (issues s tid slot (encLS 0x04 reg a 0 0 0 0 0 0 0 0 0) = true → free w 4 →
      exec (.sld tid u reg a) s = .next (issueOn s tid slot (load w 4 fun bs => .sreg reg (wordAt bs 0)))) ∧
    (issues s tid slot (encLS 0x08 reg a q p 0 0 0 0 0 0 0) = true → free v 256 →
      exec (.vst tid u reg a q p) s = .next (issueOn s tid slot (store 256 v
        (((List.range 64).filter fun j => bitAt (t0.pred p) (64 * q + j)).map fun j =>
          .mem d.space (v.toNat + 4 * j) (leBytes 4 (t0.lane reg (64 * q + j)).toNat))))) ∧
    (issues s tid slot (encLS 0x09 reg a 0 0 0 0 0 0 0 0 0) = true → free w 4 →
      exec (.sst tid u reg a) s = .next (issueOn s tid slot (store 4 w [.mem d.space w.toNat (leBytes 4 (t0.sreg reg).toNat)])))
  ) ∧ (
  ∀ (s : State) (tid wb a off len pslot pcnt pt f : Nat),
    let t0 := s.ltile tid
    let d := t0.desc a
    let v := alignDown d.addr 64
    let w := alignDown d.addr 32
    let n := 32 * (pcnt + 1)
    (issues s tid slotLS1 (encLS 0x10 0 a 0 0 wb off len 0 0 0 0) = true → inSpace d.space v 64 = true →
      exec (.wbf tid wb a off len) s = .next (issueOn s tid slotLS1 fun t =>
        ({ t.endFill with mx := { t.endFill.mx with fill := some (Fill.mk wb (64 * off) (64 * len) d.space v.toNat (loadLat d.space) true t.iss.cyc) } }).advance a 1)) ∧
    (issues s tid slotLS1 (encLS 0x11 0 a 0 0 0 0 0 f pslot pcnt pt) = true → inSpace d.space w n = true →
      t0.iss.acc.filter (bankMeet (1, d.space, w.toNat, n)) = [] →
      exec (.palw tid a pslot pcnt pt f) s = .next (issueOn s tid slotLS1 fun t =>
        let r := ({ t with iss := { t.iss with acc := (1, d.space, w.toNat, n) :: t.iss.acc } }).readT d.space w.toNat (n / 4) slotLS1
        ({ r.1 with iss := { r.1.iss with palw := r.1.iss.palw ++ [PalWrite.mk pslot (palsOf r.2 (pcnt + 1) (pt == 1)) f t.iss.cyc] } }).advance a 1)) ∧
    (s.runs (s.ptiOf tid) = false ∨ t0.iss.dbgFreeze = true → exec (.palwComplete tid) s = .next (s.onTid tid fun t => t)) ∧
    (∀ w0 rest, onTile s tid = true → s.runs (s.ptiOf tid) = true → t0.iss.dbgFreeze = false → t0.iss.palw = w0 :: rest →
      exec (.palwComplete tid) s = .next (s.onTid tid fun t =>
        ((List.range w0.pals.length).foldl (fun (u : Tile) k => u.pend 1 (.pal (w0.slot + k) (w0.pals.getD k Palette.zero)))
          { t with iss := { t.iss with palw := rest } }).incFlag w0.flag false))
  )

/-- The commands of the matrix engine. That `M` advances only where it is another descriptor than `A` is the model's reading of an `MDRN` that names one register for both (log entry 28, DEDUCED). -/
def Obligations.MatrixCommandsComplete : Prop :=
  ∀ (s : State) (tid fa fb acc wb half sp last fmt cc a m elem : Nat) (delta : Int),
    let t0 := s.ltile tid
    (issues s tid slotMX (encMXK 0x01 fa fb acc wb half sp last) = true →
      exec (.mks tid fa fb acc wb half sp last) s = .next (issueOn s tid slotMX (effMks fa fb acc wb half sp last))) ∧
    (issues s tid slotMX (encMXD 0x02 acc 0 0 0 0) = true →
      exec (.mclr tid acc) s = .next (issueOn s tid slotMX fun t =>
        ({ t with mx := { t.mx with lastClear := Tab.set t.mx.lastClear acc t.iss.cyc } }).pend 1 (.macc acc))) ∧
    (issues s tid slotMX (encMXD 0x03 acc fmt cc a m) = true →
      exec (.mdrn tid acc fmt cc a m) s = .next (issueOn s tid slotMX fun t =>
        let t1 := ({ t with mx := { t.mx with drain := some (Drain.mk acc fmt cc (t.desc a) (t.desc m) t.iss.cyc t.mx.ctrDrain), drainFree := t.iss.cyc + 64,
                                              ctrDrain := if bitAt cc 0 ∧ fmt ≠ 0 then (t.mx.ctrDrain + 1) % 2 ^ 32 else t.mx.ctrDrain } }).advance a 64
        if isMx fmt = true ∧ a ≠ m then t1.advance m 64 else t1)) ∧
    (∀ b rest, onTile s tid = true → t0.mx.closed = b :: rest → b.closedAt + 8 < t0.iss.cyc → (Tab.has t0.mx.lastClear b.acc && Tab.get 0 t0.mx.lastClear b.acc == b.closedAt + 8) = false →
      exec (.blockCommit tid elem delta) s = .next (s.onTid tid fun t =>
        (List.range 64).foldl (fun u r => u.setAccRow b.acc r (blockRow b elem delta r (u.accRow b.acc r)))
          { t with mx := { t.mx with closed := rest, mxChecks := t.mx.mxChecks ++ [Chk.mk b.closedAt slotMX (decide (delta.emod 7 ≠ 0))] } })) ∧
    (∀ c rest, onTile s tid = true → t0.mx.mxChecks = c :: rest →
      exec (.residueMxCheck tid) s = .next (s.onTid tid fun t =>
        let t1 := { t with mx := { t.mx with mxChecks := rest } }
        if c.bad = true ∧ bitAt t.blk.chkEff 0 = true then t1.raise .residueMx slotMX t1.pcNow false else t1))

/-- R74, R49, R115: the floating-point lane operations; the model's lane arithmetic is `laneArith` over `FpFmt`. R115: the integer lane operations, the select and the permutation. -/
def Obligations.VectorArithmeticResults : Prop :=
  (
  ∀ (s : State) (tid u d a b c p ty elem : Nat) (delta : Int), u < 2 →
    let slot := u + 5
    let checked := fun (f : Tile → Nat → Word) => fun (t : Tile) =>
      let t1 := t.pend 6 (.vreg d (lanesOf (t.pred p) (f t)))
      { t1 with mx := { t1.mx with vxChecks := t1.mx.vxChecks ++ [⟨t.iss.cyc + 5, slot, decide (delta.emod 7 ≠ 0)⟩] } }
    let up := fun (k : Nat) => if k = elem then delta else 0
    (issues s tid slot (encVX 0x01 d a b c p ty 0 0 0 0 0 0 0) = true →
      exec (.vfma tid u d a b c p ty elem delta) s = .next (issueOn s tid slot (checked fun t i =>
        laneArith ty i (fun f k x y z => f.fma (up k) x y z) (t.lane a i) (t.lane b i) (t.lane c i)))) ∧
    (issues s tid slot (encVX 0x02 d a b 0 p ty 0 0 0 0 0 0 0) = true →
      exec (.vmul tid u d a b p ty elem delta) s = .next (issueOn s tid slot (checked fun t i =>
        laneArith ty i (fun f k x y _ => f.mulB (up k) x y) (t.lane a i) (t.lane b i) 0#32))) ∧
    (issues s tid slot (encVX 0x03 d a b 0 p ty 0 0 0 0 0 0 0) = true →
      exec (.vadd tid u d a b p ty elem delta) s = .next (issueOn s tid slot (checked fun t i =>
        laneArith ty i (fun f k x y _ => f.addB (up k) x y) (t.lane a i) (t.lane b i) 0#32))) ∧
    (issues s tid slot (encVX 0x04 d a b 0 p ty 0 0 0 0 0 0 0) = true →
      exec (.vsub tid u d a b p ty elem delta) s = .next (issueOn s tid slot (checked fun t i =>
        laneArith ty i (fun f k x y _ => f.subB (up k) x y) (t.lane a i) (t.lane b i) 0#32))) ∧
    (issues s tid slot (encVX 0x11 d a b 0 p ty 0 0 0 0 0 0 0) = true →
      exec (.vfmax tid u d a b p ty) s = .next (issueOn s tid slot fun t =>
        t.pend 2 (.vreg d (lanesOf (t.pred p) fun i => laneArith ty i (fun f _ x y _ => f.maxB x y) (t.lane a i) (t.lane b i) 0#32)))) ∧
    (issues s tid slot (encVX 0x12 d a b 0 p ty 0 0 0 0 0 0 0) = true →
      exec (.vfmin tid u d a b p ty) s = .next (issueOn s tid slot fun t =>
        t.pend 2 (.vreg d (lanesOf (t.pred p) fun i => laneArith ty i (fun f _ x y _ => f.minB x y) (t.lane a i) (t.lane b i) 0#32))))
  ) ∧ (
  ∀ (s : State) (tid u d a b p : Nat), u < 2 →
    let slot := u + 5
    let lanewise := fun (g : Word → Word → Word) => fun (t : Tile) => t.pend 2 (.vreg d (lanesOf (t.pred p) fun i => g (t.lane a i) (t.lane b i)))
    (issues s tid slot (encVX 0x08 d a b 0 p 6 0 0 0 0 0 0 0) = true →
      exec (.viadd tid u d a b p) s = .next (issueOn s tid slot (lanewise fun x y => x + y))) ∧
    (issues s tid slot (encVX 0x09 d a b 0 p 6 0 0 0 0 0 0 0) = true →
      exec (.visub tid u d a b p) s = .next (issueOn s tid slot (lanewise fun x y => x - y))) ∧
    (issues s tid slot (encVX 0x0A d a b 0 p 6 0 0 0 0 0 0 0) = true →
      exec (.vand tid u d a b p) s = .next (issueOn s tid slot (lanewise fun x y => x &&& y))) ∧
    (issues s tid slot (encVX 0x0B d a b 0 p 6 0 0 0 0 0 0 0) = true →
      exec (.vor tid u d a b p) s = .next (issueOn s tid slot (lanewise fun x y => x ||| y))) ∧
    (issues s tid slot (encVX 0x0C d a b 0 p 6 0 0 0 0 0 0 0) = true →
      exec (.vxor tid u d a b p) s = .next (issueOn s tid slot (lanewise fun x y => x ^^^ y))) ∧
    (issues s tid slot (encVX 0x0D d a b 0 p 6 0 0 0 0 0 0 0) = true →
      exec (.vshl tid u d a b p) s = .next (issueOn s tid slot (lanewise fun x y => x <<< (y.toNat % 32)))) ∧
    (issues s tid slot (encVX 0x0E d a b 0 p 6 0 0 0 0 0 0 0) = true →
      exec (.vshr tid u d a b p) s = .next (issueOn s tid slot (lanewise fun x y => x >>> (y.toNat % 32)))) ∧
    (issues s tid slot (encVX 0x0F d a b 0 p 6 0 0 0 0 0 0 0) = true →
      exec (.vsra tid u d a b p) s = .next (issueOn s tid slot (lanewise fun x y => x.sshiftRight (y.toNat % 32)))) ∧
    (issues s tid slot (encVX 0x10 d a b 0 p 0 0 0 0 0 0 0 0) = true →
      exec (.vsel tid u d a b p) s = .next (issueOn s tid slot fun t =>
        t.pend 2 (.vreg d (lanesOf (2 ^ 256 - 1) fun i => if bitAt (t.pred p) i = true then t.lane a i else t.lane b i)))) ∧
    (issues s tid slot (encVX 0x1C d a b 0 p 0 0 0 0 0 0 0 0) = true →
      exec (.vperm tid u d a b p) s = .next (issueOn s tid slot fun t =>
        t.pend 3 (.vreg d (lanesOf (t.pred p) fun i => t.lane a ((t.lane b i).toNat % 256)))))
  )

/-- R23, R24, R49, R63, R115 to R117: the vector operations that are not plain lane arithmetic. -/
def Obligations.VectorSpecialResults : Prop :=
  ∀ (s : State) (tid u d a b p ty t2 cc fn q pk sel imm8 : Nat), u < 2 →
    let slot := u + 5
    (issues s tid slot (encVX 0x18 d a b 0 p ty 0 0 fn 0 0 0 0) = true →
      exec (.vcmp tid u d a b p ty fn) s = .next (issueOn s tid slot fun t =>
        t.pend 2 (.preg d (t.pred p) (maskOf ((List.range 256).filter fun i => vcmpRel fn ty (t.lane a i) (t.lane b i)))))) ∧
    (issues s tid slot (encVX 0x20 d a 0 0 p ty t2 cc fn q pk 0 0) = true →
      exec (.vcvt tid u d a p ty t2 cc fn q pk) s = .next (issueOn s tid slot (effVcvt tid u d a p ty t2 cc fn q pk))) ∧
    (issues s tid slot (encVX 0x24 d a 0 0 p ty 0 0 fn 0 0 0 0) = true →
      exec (.vred tid u d a p ty fn) s = .next (issueOn s tid slot fun t =>
        let r := (treeFold (redOp fn ty) 8 ((List.range 256).map fun i => if bitAt (t.pred p) i = true then t.lane a i else redNeutral fn ty)).headD 0#32
        t.pend 8 (.vreg d (lanesOf (2 ^ 256 - 1) fun _ => r)))) ∧
    (issues s tid slot (encVX 0x28 d a 0 0 p 0 0 0 0 0 0 sel imm8) = true →
      exec (.vpal tid u d a p sel imm8) s = .next (issueOn s tid slot fun t =>
        t.pend 2 (.vreg d (lanesOf (t.pred p) fun i =>
          toF32 (palVal (t.pal (if sel = 0 then imm8 else fld (t.lane a i).toNat 11 4)) ((t.lane a i).toNat % 16)))))) ∧
    (issues s tid slotVX1 (encVX 0x30 d a 0 0 p 0 0 0 fn 0 0 0 0) = true →
      exec (.vtr tid d a p fn) s = .next (issueOn s tid slotVX1 fun t =>
        let t1 := t.pend 14 (.vreg d (lanesOf (t.pred p) fun i => transF fn (t.lane a i)))
        { t1 with mx := { t1.mx with trFree := t.iss.cyc + 4 } })) ∧
    (∀ c rest, onTile s tid = true → takeCheck slot (s.ltile tid).mx.vxChecks = some (c, rest) →
      exec (.residueVxCheck tid u) s = .next (s.onTid tid fun t =>
        let t1 := { t with mx := { t.mx with vxChecks := rest } }
        if c.bad = true ∧ bitAt t.blk.chkEff 1 = true then t1.raise .residueVx slot t1.pcNow false else t1))

/-- R118 to R120, R386: an `XF` operation in range is recorded and sends its requests. -/
def Obligations.TransfersSendTheirRequests : Prop :=
  ∀ (s : State) (tid f a sa sb fmt rop es len : Nat),
    let t0 := s.ltile tid
    let sent := fun (w : Nat) =>
      (issueOn s tid slotXF fun t =>
        let t1 := if xfKind w = .zero then t else t.advance (xfA w) 1
        ({ t1 with iss := { t1.iss with xf := t1.iss.xf ++ [XfOp.mk t.iss.xfSeq (xfKind w) (xfF w) t.blk.gen 0 true], xfSeq := t1.iss.xfSeq + 1 } }).count 259 (t.xfWords w)).sendXf
          (s.ptiOf tid) t0 w
    let runs := fun (w : Nat) => issues s tid slotXF w = true ∧ t0.xfInRange w = true
    (runs (encXF 0x01 f a sa 0 0 0 0 len) → exec (.xrd tid f a sa len) s = .next (sent (encXF 0x01 f a sa 0 0 0 0 len))) ∧
    (runs (encXF 0x02 f a sa 0 0 0 0 len) → exec (.xwr tid f a sa len) s = .next (sent (encXF 0x02 f a sa 0 0 0 0 len))) ∧
    (runs (encXF 0x03 f a sa sb 0 0 0 len) → exec (.xwrb tid f a sa sb len) s = .next (sent (encXF 0x03 f a sa sb 0 0 0 len))) ∧
    (runs (encXF 0x08 f a sa 0 fmt rop 0 len) → exec (.xred tid f a sa fmt rop len) s = .next (sent (encXF 0x08 f a sa 0 fmt rop 0 len))) ∧
    (runs (encXF 0x09 f a sa sb 0 0 es len) → exec (.xgath tid f a sa sb es len) s = .next (sent (encXF 0x09 f a sa sb 0 0 es len))) ∧
    (runs (encXF 0x0A f a sa sb fmt 0 es len) → exec (.xscat tid f a sa sb fmt es len) s = .next (sent (encXF 0x0A f a sa sb fmt 0 es len))) ∧
    (runs (encXF 0x0B f a sa sb fmt 0 0 len) → exec (.xpdec tid f a sa sb fmt len) s = .next (sent (encXF 0x0B f a sa sb fmt 0 0 len))) ∧
    (runs (encXF 0x0C f 0 sa 0 0 0 0 len) → exec (.xzero tid f sa len) s = .next (sent (encXF 0x0C f 0 sa 0 0 0 0 len))) ∧
    (onTile s tid = true → heldReady t0 (s.runs (s.ptiOf tid)) (s.barOk t0) = true → t0.syl slotXF ≠ 0 → t0.xfInRange (t0.syl slotXF) = true →
      exec (.xfLimitRelease tid) s = .next (
        (s.onTid tid fun t => effXf (t0.syl slotXF) (({ t with iss := { t.iss with held := false } }).mark slotXF)).sendXf (s.ptiOf tid) t0 (t0.syl slotXF)))

/-- R52, R84, R85, R487: a faulting bundle issues nothing, whatever effect its syllable has. -/
def Obligations.UndefinedBundleRaisesAndDoesNotIssue : Prop :=
  ∀ (s : State) (tid slot w : Nat) (eff : Tile → Tile) (f : TileFault) (n : Nat),
    let t := s.ltile tid
    let pc := if f = .pcRange then 4095 else t.iss.pc
    let seen := fun (u : Tile) => if f = .pcRange then u else { u with blk := { u.blk with sbe := u.blk.sbe + u.fetch.2.1 } }
    let t' := (seen t).raise f n pc true
    onTile s tid = true → t.atIssue (s.runs (s.ptiOf tid)) = true → t.iss.issued = 0 → t.bundleFault = some (f, n) →
      s.issue tid slot w eff = s.onTid tid (fun u => (seen u).raise f n pc true) ∧
      s.issueHold tid slot w eff = s.onTid tid (fun u => (seen u).raise f n pc true) ∧
      t'.blk.fault = t.blk.fault ||| 2 ^ f.bit ∧ t'.iss.stopped = true ∧ t'.r = t.r ∧ t'.mx = t.mx ∧ t'.mem = t.mem ∧ t'.iss.inflight = t.iss.inflight ∧
      (t.blk.infoSet = false → t'.blk.faultPc = pc % 4096 ∧ t'.blk.faultSlot = n ∧ t'.blk.precise = true ∧ t'.blk.faultGen = t.blk.gen)

/-- R82 to R118: no bit of a syllable is dropped, and no two commands spell one syllable of a slot. R83, R84: the commands cover the defined syllables, and each is the only spelling of its command in its slot. -/
def Obligations.SyllablesAndCommandsAgree : Prop :=
  (
  ∀ (i : Instr) (tid slot w : Nat), i.wf = true → upsetFree i = true → syllableOf i = some (tid, slot, w) →
    w < 2 ^ 64 ∧ (sylDefined slot w = true → syllableInstr tid slot w = some i)
  ) ∧ (
  ∀ (tid slot w : Nat), tid < 576 → slot < 8 → w < 2 ^ 64 → sylDefined slot w = true →
    ∃ i, syllableInstr tid slot w = some i ∧ i.wf = true ∧ upsetFree i = true ∧ syllableOf i = some (tid, slot, w)
  )

/-- R13, R34, R38, R135, R143: what a tile clock period does to the tile's counts, with and without an execution cycle. -/
def Obligations.PeriodEndAdvancesTheTile : Prop :=
  ∀ (s : State) (tid : Nat), onTile s tid = true →
    let t := s.ltile tid
    let run := s.runs (s.ptiOf tid)
    let t' := t.endPeriod tid run s.noticeLive
    let full := t.r.flags.any fun e => decide (65535 < e.2)
    exec (.fixedLatencyWriteback tid) s = .next (s.onTid tid fun u => u.endPeriod tid run s.noticeLive) ∧
    (run = true → t.iss.dbgFreeze = false → t.mayEnd = true →
      t'.iss.cyc = t.iss.cyc + 1 ∧ t'.iss.issued = 0 ∧ t'.iss.acc = [] ∧ t'.r.regNow = [] ∧
      t'.st.used = (if t.st.active = true ∧ t.st.used < t.budgetLimit ∧ t.barrierWait s.noticeLive = false then t.st.used + 1 else t.st.used)) ∧
    (run = false →
      t'.mx = t.mx ∧ t'.mem = t.mem.newPeriod ∧ t'.st = t.st ∧ t'.iss.cyc = t.iss.cyc ∧ t'.iss.inflight = t.iss.inflight ∧ t'.r.sregs = t.r.sregs ∧ t'.r.vregs = t.r.vregs ∧
      t'.blk.frozen = (if (t.st.active || t.st.startWait) = true then min 0xFFFFFFFF (t.blk.frozen + 1) else t.blk.frozen) ∧
      (full = false → t'.r = { t.r with regNow := [] } ∧ t'.iss = { t.iss with dbgFreeze := false } ∧ t'.blk.fault = t.blk.fault) ∧
      (full = true → t'.blk.fault = t.blk.fault ||| 2 ^ TileFault.flagOverflow.bit ∧ ∀ f, t'.flag f = min 65535 (t.flag f)))

/-- The result of the operation issued later is kept, the other is lost, and no fault is raised. That a masked write counts as a write of its whole register, and that the words of a descriptor and its position count as two registers, is the model's reading (log entry 20, DEDUCED); flags, palettes, `WB` and a descriptor with several due words are not covered. R13, R14: the frame of the write-back of one execution cycle. -/
def Obligations.WritebackKeepsTheLaterIssueAndTheRest : Prop :=
  (
  ∀ (t : Tile) (p : Pend), p ∈ t.iss.inflight → p.due ≤ t.iss.cyc →
    (∀ q ∈ t.iss.inflight, q.due ≤ t.iss.cyc → q.wr.reg = p.wr.reg → q = p ∨ q.at_ < p.at_) →
    let t' := t.writeback
    (∀ d v, p.wr = .sreg d v → t'.sreg d = v) ∧
    (∀ d ls, p.wr = .vreg d ls → t'.vreg d = setLanes (t.vreg d) ls) ∧
    (∀ d ls sc, p.wr = .vconv d ls sc → t'.vreg d = setScales (setLanes (t.vreg d) ls) sc) ∧
    (∀ d m b, p.wr = .preg d m b → d ≠ 0 → t'.pred d = (t.pred d &&& (2 ^ 256 - 1 - m)) ||| (b &&& m)) ∧
    (∀ a w v, p.wr = .dword a w v → (∀ q ∈ t.iss.inflight, q.due ≤ t.iss.cyc → q ≠ p → ∀ w' v', q.wr ≠ .dword a w' v') →
      (t'.desc a).word w = ((t.desc a).setWord w v).word w) ∧
    (∀ a x, p.wr = .dpos a x → (∀ q ∈ t.iss.inflight, q.due ≤ t.iss.cyc → ∀ w v, q.wr ≠ .dword a w v) → (t'.desc a).pos = x) ∧
    (∀ a r, p.wr = .macc a → r < 64 → t'.accRow a r = List.replicate 128 0#32) ∧
    t'.blk.fault = t.blk.fault
  ) ∧ (
  ∀ (t : Tile), let t' := t.writeback
    t'.r.loops = t.r.loops ∧ t'.r.heldInc = t.r.heldInc ∧ t'.mem.bundles = t.mem.bundles ∧ t'.st = t.st ∧
    (∀ d, (∀ q ∈ t.iss.inflight, q.due ≤ t.iss.cyc → q.wr.reg ≠ some (0, d)) → t'.sreg d = t.sreg d) ∧
    (∀ d, (∀ q ∈ t.iss.inflight, q.due ≤ t.iss.cyc → q.wr.reg ≠ some (1, d)) → t'.vreg d = t.vreg d) ∧
    (∀ d, (∀ q ∈ t.iss.inflight, q.due ≤ t.iss.cyc → q.wr.reg ≠ some (2, d)) → t'.pred d = t.pred d) ∧
    (∀ space a, space < 2 →
      (∀ q ∈ t.iss.inflight, q.due ≤ t.iss.cyc → ∀ sp ad bs, q.wr = .mem sp ad bs → (sp = 0 ↔ space = 0) → ¬ (ad ≤ a ∧ a < ad + bs.length)) →
      Mem.read (t'.memOf space) a = Mem.read (t.memOf space) a)
  )

/-- R36: when the bundle store is written, and what the source is told (channel 1: 0 accepted, 1 refused). -/
def Obligations.BundleStoreOnlyWrittenWithoutAStep : Prop :=
  ∀ (s : State) (pti addr : Nat) (data : BitVec 512), addr < 4096 →
    let t := s.tile pti
    let bs := leBytes 64 data.toNat
    (∀ a b, t.writeBundles a b = none ↔ t.st.active = true) ∧
    (t.st.active = false → ∃ u, exec (.bundleStoreWrite pti addr data) s = .next u ∧ u.out = s.out ++ [.value 1 0] ∧
      Mem.bytes (u.tile pti).mem.bundles (addr * 64) 64 = bs ∧
      (∀ a, a < addr * 64 ∨ addr * 64 + 64 ≤ a → Mem.read (u.tile pti).mem.bundles a = Mem.read t.mem.bundles a)) ∧
    (t.st.active = true → exec (.bundleStoreWrite pti addr data) s = .next { s with out := s.out ++ [.value 1 1] })

/-- R50, R51, R485, R488: one visit of the patrol scrub, whose order is the model's (log entry 111). -/
def Obligations.ScrubCorrectsAndReports : Prop :=
  ∀ (s : State) (pti space : Nat) (ups : List (Nat × Nat)),
    let t := s.tile pti
    let w := t.blk.scrubLs
    let fl := Tab.get 0 (strike t.mem.lsFlips ups) w
    let b := t.blk.scrubBs
    let bf := Tab.get 0 (strike t.mem.bundleFlips ups) b
    (bitAt t.blk.chkEff 2 = false ∨ (s.row (rowOf pti)).power = 3 → exec (.tileScrub pti space ups) s = .next s) ∧
    (bitAt t.blk.chkEff 2 = true → (s.row (rowOf pti)).power ≠ 3 → space ≠ 0 →
    ∃ u, exec (.tileScrub pti space ups) s = .next u ∧
      (u.tile pti).blk.scrubBs = (b + 1) % 2 ^ 16 ∧ (u.tile pti).mem.glaze = t.mem.glaze ∧ (u.tile pti).mem.ls = t.mem.ls ∧
      (popN 39 bf = 0 → (u.tile pti).blk.fault = t.blk.fault ∧ (u.tile pti).mem.bundles = t.mem.bundles) ∧
      (popN 39 bf = 1 → (u.tile pti).blk.fault = t.blk.fault ∧ (u.tile pti).blk.sbe = t.blk.sbe + 1 ∧ Tab.get 0 (u.tile pti).mem.bundleFlips b = 0) ∧
      (popN 39 bf = 2 → (u.tile pti).blk.fault = t.blk.fault ||| 2 ^ TileFault.dbeBundle.bit ∧ (u.tile pti).mem.bundles = t.mem.bundles)) ∧
    (bitAt t.blk.chkEff 2 = true → (s.row (rowOf pti)).power ≠ 3 → space = 0 →
    ∃ u, exec (.tileScrub pti space ups) s = .next u ∧
      (u.tile pti).blk.scrubLs = (w + 1) % 2 ^ 18 ∧ (u.tile pti).mem.glaze = t.mem.glaze ∧ (u.tile pti).mem.bundles = t.mem.bundles ∧
      (popN 39 fl = 0 → (u.tile pti).blk.fault = t.blk.fault ∧ (u.tile pti).mem.ls = t.mem.ls) ∧
      (popN 39 fl = 1 → (u.tile pti).blk.fault = t.blk.fault ∧ (u.tile pti).blk.sbe = t.blk.sbe + 1 ∧ Tab.get 0 (u.tile pti).mem.lsFlips w = 0) ∧
      (popN 39 fl = 2 → (u.tile pti).blk.fault = t.blk.fault ||| 2 ^ 6 ∧ (u.tile pti).mem.ls = t.mem.ls))

/-- R45, R96, R139, R140: a tile arrives at a barrier; rows are asked to wake. R139, R141: what a barrier slot does at the unit of its group. -/
def Obligations.BarrierCommandsComplete : Prop :=
  (
  ∀ (s : State) (tid f die rows : Nat),
    let t0 := s.ltile tid
    let run := s.runs (s.ptiOf tid)
    (issues s tid slotCT (encCTW 0x18 0 f 0 0 0) = true →
      exec (.barrier tid f) s = .next ((issueOn s tid slotCT fun t => t).barTile (s.ptiOf tid) f)) ∧
    (onTile s tid = true → t0.atIssue run = true → t0.iss.issued = 0 → t0.bundleFault = none → t0.iss.held = false →
      t0.syl slotCT = encCTW 0x18 0 f 0 0 0 → t0.unheld (s.barOk t0) = false →
      exec (.barrier tid f) s = .next (s.onTid tid fun t => { t with iss := { t.iss with held := true } })) ∧
    (onTile s tid = true → heldReady t0 run (s.barOk t0) = true → t0.syl slotCT = encCTW 0x18 0 f 0 0 0 → f < 64 →
      exec (.barrierLimitRelease tid) s = .next
        ((s.onTid tid fun t => ({ t with iss := { t.iss with held := false } }).mark slotCT).barTile (s.ptiOf tid) f)) ∧
    (issues s tid slotCT (encCTW 0x19 0 0 0 die rows) = true →
      exec (.wake tid die rows) s = .next ((issueOn s tid slotCT fun t => t).wakeMask die rows (s.ptStart 0))) ∧
    (∀ r extra, (s.row r).power ≠ 0 → (s.row r).wakeAt = none → s.rowHeld r = false → r % 13 ≠ (s.die (r / 13)).skipRow →
      s.wakeRow r extra = s.setRow r { s.row r with wakeAt := some (s.time.now + wakeTicks (s.row r).power + extra) })
  ) ∧ (
  ∀ (s u : State) (l t : Nat) (m : Mgt),
    let g := fld m.arg 7 0
    let b := u.bar g
    let i := instOf b.base (fld m.arg 23 8)
    u.spr.displaced = false → m.dlpn = u.lpn →
    ((s.advance t).takeRx l (isMgt 0x10) = some (.mgt m, u) → u.ctx.genLive = true → m.gen = u.ctx.gen → i - b.base < 4 → (u.treeKids g).contains m.slpn = true →
      (b.inst i).kids.contains m.slpn = false →
      exec (.barrierUp l t) s = .next ((u.setBar g (b.onInst i fun x => { x with kids := x.kids ++ [m.slpn] })).barProgress g 4)) ∧
    ((s.advance t).takeRx l (isMgt 0x11) = some (.mgt m, u) → u.ctx.genLive = true → m.gen = u.ctx.gen → i - b.base < 4 → (b.inst i).up = true → (b.inst i).done = false →
      exec (.barrierDone l t) s = .next (((u.barDown g i).setBar g (b.onInst i fun x => { x with done := true })).completeDone g 4)) ∧
    ((s.advance t).takeRx l (isMgt 0x10) = some (.mgt m, u) → m.gen ≠ u.ctx.gen → exec (.barrierUp l t) s = .next (u.linkGenDrop l)) ∧
    ((s.advance t).takeRx l (isMgt 0x11) = some (.mgt m, u) → m.gen ≠ u.ctx.gen → exec (.barrierDone l t) s = .next (u.linkGenDrop l))
  )

/-- R127, R130 to R134, R139: the life of a step. R46, R53, R94, R110, R113, R127: the state a step start sets, before and after a wait for the row. -/
def Obligations.StepsBeginAndEnd : Prop :=
  (
  ∀ (s : State) (t : Nat), let s0 := s.advance t
    (∀ ix h, s0.nextHdr = some (ix, h) → s0.mayLaunch h = true → ∃ u, exec (.stepLaunch t) s = .next u ∧
      u.seq.nextEntry = s0.seq.nextEntry + 1 ∧ (∀ tid ∈ hdrTids h, (u.ltile tid).st.startPending = true) ∧
      ∃ x, u.seq.steps = s0.seq.steps ++ [x] ∧ x.tblIdx = ix ∧ x.hdr = h ∧ x.runIdx = s0.seq.nextEntry ∧ x.phase = .waiting ∧
        x.late = (hdrTimed h && decide (hdrStart h ≤ s0.time.ft)) ∧
        x.woken = (!hdrTimed h || decide (hdrStart h ≤ s0.time.ft + hdrLeadTicks h)) ∧
        u.seq.lateStarts = if x.late = true then min 0xFFFFFFFF (s0.seq.lateStarts + 1) else s0.seq.lateStarts) ∧
    (∀ x, s0.seq.steps.find? (fun x => !x.woken && decide (hdrStart x.hdr ≤ s0.time.ft + hdrLeadTicks x.hdr)) = some x →
      exec (.timedWake t) s = .next (({ s0 with seq := { s0.seq with steps := s0.seq.steps.map fun (y : LStep) =>
        if y.runIdx = x.runIdx then { y with woken := true } else y } }).wakeStep x.hdr)) ∧
    (∀ x, s0.ctx.accepted = true → s0.ctx.killing = false → s0.ctx.killDue = 0 →
      s0.seq.steps.find? (fun x => x.phase == .waiting &&
        (if hdrTimed x.hdr then decide (hdrStart x.hdr ≤ s0.time.ft) else decide (x.launched + hdrLeadTicks x.hdr ≤ s0.time.now))) = some x →
      ∃ u, exec (.stepStart t) s = .next u ∧
        u.seq.steps = s0.seq.steps.map (fun (y : LStep) => if y.runIdx = x.runIdx then { y with phase := .started, base := (s0.bar x.key).pkgNext } else y)) ∧
    (∀ x, s0.seq.steps.find? s0.stepDone = some x → ∃ u, exec (.stepComplete t) s = .next u ∧
      u.seq.steps = s0.seq.steps.filter (fun y => decide (y.runIdx ≠ x.runIdx)) ∧
      u.seq.done = s0.seq.done ++ [⟨x.runIdx, hdrStepId x.hdr, x.late, s0.time.ft⟩] ∧
      (u.seq.runActive = false → s0.seq.runActive = true → u.seq.runState = 2))
  ) ∧ (
  ∀ (t : Tile) (x : LStep) (base : Nat),
    let h := x.hdr
    let a := t.arm x base
    let u := a.begin x base
    u.st.active = true ∧ u.st.startPending = false ∧ u.st.seed = BitVec.ofNat 64 (hdrSeed h) ∧ u.st.budget = hdrBudget h ∧ u.st.group = hdrGroup h ∧
    u.st.used = 0 ∧ u.st.arrivals = 0 ∧ u.st.stepId = hdrStepId h ∧ u.iss.pc = hdrEntry h ∧ u.iss.issued = 0 ∧ u.iss.held = false ∧ u.iss.cyc = t.iss.cyc ∧
    u.r.loops = [] ∧ (∀ n, (u.desc n).pos = 0) ∧ u.mx.blk = none ∧ u.mx.feed = FeedSt.zero ∧ u.mx.ctrDrain = 0 ∧ u.mx.ctrVx0 = 0 ∧ u.mx.ctrVx1 = 0 ∧
    u.blk.chkEff = t.blk.chk ∧ u.blk.frozen = 0 ∧ u.blk.stepCount = 0 ∧
    u.r.sregs = t.r.sregs ∧ u.r.vregs = t.r.vregs ∧ u.r.pregs = t.r.pregs ∧ u.r.flags = t.r.flags ∧ u.r.pals = t.r.pals ∧ u.mx.accs = t.mx.accs ∧ u.mem = t.mem ∧
    a.iss.pc = hdrEntry h ∧ a.st.startWait = true ∧ a.blk.chkEff = t.blk.chk ∧ a.blk.frozen = 0 ∧ a.blk.stepCount = 0 ∧ a.blk.fault = t.blk.fault ∧
    (t.iss.bundleValid = true → u.blk.fault = t.blk.fault ∧ u.iss.stopped = false) ∧
    (t.iss.bundleValid = false → u.blk.fault = t.blk.fault ||| 2 ^ 11 ∧ u.iss.stopped = true ∧ (t.blk.infoSet = false → u.blk.faultPc = hdrEntry h % 4096))
  )

/-- R42, R45, R143, R381, R417: rows and freeze notices. -/
def Obligations.RowsAndNoticesFollowTheirTimes : Prop :=
  ∀ (s : State) (t r d g l : Nat), let s0 := s.advance t
    (∀ a, (s0.row r).wakeAt = some a → a ≤ s0.time.now → ∃ u, exec (.rowWakeComplete r t) s = .next u ∧
      u.row r = { s0.row r with power := 0, wakeAt := none, deferred := false, idleSince := s0.time.now }) ∧
    ((s0.row r).power = 1 → (s0.row r).wakeAt = none → (s0.row r).deferred = false → s0.rowIdle r = true → (s0.row r).idleSince + 100 * us ≤ s0.time.now →
      exec (.rowRetain r t) s = .next (s0.setRow r { s0.row r with power := 2 })) ∧
    (∀ a rs root, g ≠ 0 → s0.seq.steps.any (fun x => x.phase == .started && hdrGroup x.hdr == g && (hdrTids x.hdr).any (fun tid => tid / 144 == d)) = true →
      Tab.find s0.pw.frozenAt d = some a → a + 50 * us ≤ s0.time.now → Tab.find s0.seq.noteSent (d * 256 + g) = none →
      s0.groupRanges g = some rs → rangeMember rs 0 = some root →
      let s1 := { s0 with seq := { s0.seq with noteSent := Tab.set s0.seq.noteSent (d * 256 + g) s0.time.now } }
      exec (.freezeNoteSend d g t) s = .next (if root = s1.lpn then s1.relayNote g else s1.sendNote g root)) ∧
    (∀ u m, s0.takeRx l (isMgt 0x12) = some (.mgt m, u) → m.dlpn = u.lpn → u.spr.displaced = false → u.ctx.genLive = true → m.gen = u.ctx.gen →
      (Tab.find u.seq.notices (fld m.arg 7 0)).any (fun e => watchCycle e == watchCycle u.time.now) = false →
      exec (.freezeNote l t) s = .next (u.relayNote (fld m.arg 7 0))) ∧
    (∀ e, Tab.find s0.seq.notices g = some e → watchCycle e < watchCycle s0.time.now →
      exec (.freezeNoteLapse g t) s = .next { s0 with seq := { s0.seq with notices := Tab.del s0.seq.notices g } }) ∧
    (∀ e, Tab.find s0.seq.notices g = some e → watchCycle s0.time.now ≤ watchCycle e → exec (.freezeNoteLapse g t) s = .next s0)

/-- R147, R148, R153, R257: the exchange on one link. Division is floor division (log entry 34). -/
def Obligations.TimSlotsMeasureTheLink : Prop :=
  ∀ (s u : State) (l t : Nat) (x : TimS), let h := u.timHeard l x
    ((h.timLink l).tstate = x.tstate ∧ (h.timLink l).hops = x.hops ∧ (h.timLink l).mlpn = x.mlpn ∧ (h.timLink l).tai = sext 64 x.tai ∧
      (h.timLink l).lastAt = u.time.now ∧ (h.timLink l).known = true) ∧
    ((s.advance t).takeRx l (isTim 0) = some (.tim x, u) →
      let w := h.setTim l { h.timLink l with t2 := x.rxFt.getD u.time.ft, seq := x.seq }
      ∃ v, exec (.sync l t) s = .next v ∧ v = (w.queueSlot l (w.timSlot 1 x.seq 0 0) none).timParent l ∧
        v.timLink l = { h.timLink l with t2 := x.rxFt.getD u.time.ft, seq := x.seq }) ∧
    ((s.advance t).takeRx l (isTim 1) = some (.tim x, u) →
      exec (.dreq l t) s = .next ((if u.time.listenEnd = none ∧ (u.timLink l).t1Seq = x.seq
        then h.queueSlot l (h.timSlot 2 x.seq ((u.timLink l).t1 % 2 ^ 64) (x.rxFt.getD u.time.ft % 2 ^ 64)) none else h).timParent l)) ∧
    ((s.advance t).takeRx l (isTim 2) = some (.tim x, u) →
      let r := h.timParent l
      let v := r.timLink l
      let asym := (r.link l).asym
      let delay := (((x.tb : Int) - x.ta) - ((v.t3 : Int) - v.t2)) / 2 - asym / 2
      let off := (((v.t2 : Int) - x.ta) - ((x.tb : Int) - v.t3)) / 2 - asym / 2
      let w := r.setTim l { v with delay := delay, off := off, measAt := some r.time.now }
      exec (.resp l t) s = .next (if v.seq ≠ x.seq then r else if w.time.parent = l ∧ w.isMaster = false then w.measured l delay off else w))

/-- R145 to R148, R153: the timers of fabric time. That a far end counts as silent from its last TIM on is the model's reading of R146 (log entry 12), and that an operand says which links other packages have chosen is its choice (log entry 127). R156 to R158, R473: the pulses. The steering of an accepted edge is a free value (log entry 12). R159 to R161: PTP and the reads of fabric time. -/
def Obligations.TimersPulsesAndTimeReads : Prop :=
  (
  ∀ (s : State) (l t : Nat) (child : Bool), let s0 := s.advance t
    let p := s0.time.parent
    let gap := if child = true ∨ p = l then timPeriod else ms
    ((s0.timLink l).sentAt ≠ 0 → s0.time.now < (s0.timLink l).sentAt + gap → exec (.timSyncSend l child t) s = .next s0) ∧
    ((s0.link l).state = 3 → (s0.link l).farTim = true → s0.time.listenEnd = none → ((s0.timLink l).sentAt = 0 ∨ (s0.timLink l).sentAt + gap ≤ s0.time.now) →
      ∃ u, exec (.timSyncSend l child t) s = .next u ∧ (u.timLink l).sentAt = s0.time.now ∧
        Tab.get 0 u.time.lastSync l = (Tab.get 0 s0.time.lastSync l + 1) % 256 ∧ u.time.ft = s0.time.ft) ∧
    (p ≠ 0x7F → s0.time.tstate ≠ 5 → (s0.timHeardLately p = false ∨ s0.timUsable p = false) →
      let since := if s0.timHeardLately p then s0.time.now else max (s0.timLink p).lastAt s0.time.parentAt
      let q := if s0.timHeardLately p then s0 else s0.setTim p { s0.timLink p with known := false }
      exec (.timParentTimeout t) s = .next (match q.bestParent with
        | some k => (q.takeParent k).holdCheck
        | none => State.holdCheck { q with time := { q.time with parent := 0x7F, noParent := some since, good := 0, bad := 0 } })) ∧
    (∀ a, p = 0x7F → s0.time.noParent = some a → (s0.time.tstate = 1 ∨ s0.time.tstate = 2 ∨ s0.time.tstate = 3) →
      exec (.timParentTimeout t) s = .next (if a + timTimeout ≤ s0.time.now then { s0 with time := { s0.time with tstate := 4, holdSince := s0.time.now } } else s0)) ∧
    (∀ e, s0.time.listenEnd = some e → e ≤ s0.time.now →
      let w := { s0 with time := { s0.time with listenEnd := none } }
      let gives := fun (k : Nat) => let v := s0.timLink k
        (s0.link k).state == 3 && v.known && v.tstate == 4 && some v.mlpn == s0.master && decide (e ≤ v.lastAt + 10 * ms) && v.measAt.any fun a => decide (e ≤ a + 10 * ms)
      (s0.ctx.accepted = true ∨ allLinks.find? gives = none → exec (.masterListenEnd t) s = .next w) ∧
      (∀ k, s0.ctx.accepted = false → allLinks.find? gives = some k →
        exec (.masterListenEnd t) s = .next (w.setFt ((s0.time.ft : Int) - (s0.timLink k).off).toNat)))
  ) ∧ (
  ∀ (s : State) (t : Nat), let s0 := s.advance t
    let x := s0.time
    (s0.isMaster = true → s0.timeEn 0 = true → (∀ p, x.ppsPrev = some p → p + ppsSecond ≤ x.ft + 400000 ∧ x.ft ≤ p + ppsSecond + 400000) →
      ∃ u, exec (.ppsInEdge t) s = .next u ∧ u.time.ppsPrev = some x.ft ∧ u.time.ppsBad = 0 ∧ -50000000 ≤ u.time.rate ∧ u.time.rate ≤ 50000000 ∧
        u.time.ft = x.ft) ∧
    (∀ p, s0.isMaster = true → s0.timeEn 0 = true → x.ppsPrev = some p → (x.ft + 400000 < p + ppsSecond ∨ p + ppsSecond + 400000 < x.ft) →
      exec (.ppsInEdge t) s = .next s0.ppsReject ∧ s0.ppsReject.time.ppsBad = x.ppsBad + 1 ∧ (2 ≤ x.ppsBad → s0.ppsReject.time.ppsLocked = false)) ∧
    (∀ p, s0.isMaster = true → s0.timeEn 0 = true → x.ppsPrev = some p → p + (x.ppsBad + 1) * ppsSecond + 400000 < x.ft → exec (.ppsInMissed t) s = .next s0.ppsReject) ∧
    (s0.pkg.under = psOff → exec (.ppsOutRise t) s = .next s0) ∧
    (x.ppsK < s0.ppsNow → s0.pkg.under ≠ psOff → ∃ u, exec (.ppsOutRise t) s = .next u ∧ u.time.ppsOut = !s0.gate ∧ u.time.ppsK = s0.ppsNow ∧
      u.time.ppsEdge = (s0.ppsNow * (ppsSecond : Int) - x.tai).toNat ∧ u.time.ppsRose = x.now - (x.ft - u.time.ppsEdge)) ∧
    (x.ppsOut = true → x.ppsRose + 400000 ≤ x.now → exec (.ppsOutFall t) s = .next { s0 with time := { x with ppsOut := false } }) ∧
    (x.ppsFrameDue = true → x.ppsRose + 800000 ≤ x.now → s0.timeEn 5 = true →
      exec (.syncAuxTimecode t) s = .next { s0 with
        time := { x with ppsFrameDue := false },
        out := s0.out ++ (if s0.gate = true then [] else [.value 5 (1 + 2 * (x.ppsEdge % 2 ^ 64) + place s0.ftState 8 65)]) })
  ) ∧ (
  ∀ (s : State) (domain t : Nat), let s0 := s.advance t
    (s0.timeEn 1 = true → s0.gate = false → s0.time.ptpSyncAt + logTicks (s0.ptpField 3) ≤ s0.time.now →
      ∃ u, exec (.ptpSyncSend t) s = .next u ∧ u.time.ptpSyncAt = s0.time.now ∧ u.time.ptpSyncTx = s0.time.ptpSyncTx + 1 ∧ u.out.length = s0.out.length + 2) ∧
    (s0.timeEn 1 = true → s0.gate = false → s0.time.ptpAnnAt + logTicks (s0.ptpField 4) ≤ s0.time.now →
      ∃ u, exec (.ptpAnnounceSend t) s = .next u ∧ u.time.ptpAnnAt = s0.time.now ∧ u.time.ptpAnnounceTx = s0.time.ptpAnnounceTx + 1 ∧ u.out.length = s0.out.length + 1) ∧
    (s0.timeEn 1 = true → domain = s0.ptpField 0 → s0.gate = false → ∃ u, exec (.delayReq domain t) s = .next u ∧
      u.time.ptpDelayResp = satInc 32 s0.time.ptpDelayResp ∧ u.out = s0.out ++ [.value 6 (9 + place 2 4 4 + place 1 4 8 + place (b2n (s0.timeEn 2)) 1 12 + place (s0.ptpField 0) 8 16 + place (s0.ptpField 5) 8 24 +
        2 ^ 32 * toBits 80 s0.ptpTime)]) ∧
    (s0.timeEn 1 = true → domain ≠ s0.ptpField 0 → exec (.delayReq domain t) s = .next { s0 with time := { s0.time with ptpDrop := satInc 32 s0.time.ptpDrop } }) ∧
    (s.timeEn 1 = true → domain = s.ptpField 0 →
      exec (.ptpMessageRx 11 domain) s = .next { s with time := { s.time with ptpAnnounceRx := satInc 32 s.time.ptpAnnounceRx } } ∧
      exec (.ptpMessageRx 0 domain) s = .next { s with time := { s.time with ptpSyncRx := satInc 32 s.time.ptpSyncRx } }) ∧
    exec (.ftSampleRead t) s = .next { s0 with out := s0.out ++ [.value 7 (s0.time.ft % 2 ^ 64)] } ∧
    exec (.ftLoRead t) s = .next { s0 with
      time := { s0.time with latchHi := s0.time.ft / 2 ^ 32 % 2 ^ 32 }, out := s0.out ++ [.value 7 (s0.time.ft % 2 ^ 32)] }
  )

/-- R167: the number of a grant, the wait of a request and who wins. A request is its rank, the cycle it registered in and its beats. -/
def Obligations.ArbiterFollowsItsRanks : Prop :=
  (Arb.zero.grants = 0 ∧ (∀ kind idx, State.reset.arb kind idx = Arb.zero) ∧ LinkTx.zero.arb = Arb.zero) ∧
  (∀ (a : Arb) (rank cycle beats : Nat), (a.register rank cycle beats).grants = a.grants ∧
    (a.register rank cycle beats).waiting = if (∃ w ∈ a.waiting, w.1 = rank) then a.waiting else a.waiting ++ [(rank, cycle, beats)]) ∧
  (∀ (a : Arb) (n : Nat), a.waiting = [] → (a.decide n).grants = a.grants ∧ (a.decide n).inUse = none) ∧
  (∀ (a : Arb) (n : Nat), 0 < n → a.waiting ≠ [] → ∃ w ∈ a.waiting,
    a.decide n = ⟨a.grants + 1, a.waiting.filter (fun x => decide (x.1 ≠ w.1)), some w.1, w.2.2⟩ ∧
    (a.grants % n = n - 1 → ∀ x ∈ a.waiting, w.2.1 < x.2.1 ∨ (w.2.1 = x.2.1 ∧ w.1 ≤ x.1)) ∧
    (a.grants % n ≠ n - 1 → ∀ x ∈ a.waiting, w.1 ≤ x.1))

/-- R169: no requester of a shared arbiter starves. -/
def Obligations.ArbiterGrantsWithinItsBound : Prop :=
  ∀ (a : Arb) (n m rank cycle beats : Nat) (batches : List (List (Nat × Nat × Nat))),
    0 < n → (rank, cycle, beats) ∈ a.waiting → (a.waiting.map Prod.fst).Nodup → (∀ x ∈ a.waiting, x.1 < m) →
    (∀ q ∈ batches, ∀ x ∈ q, x.1 < m ∧ cycle < x.2.1) → batches.length = n * m →
    ∃ k, 0 < k ∧ k ≤ n * m ∧ (arbRun n a (batches.take k)).inUse = some rank

/-- R166, R172, R175, R180, R182, R184: hops and bridge crossings, whatever bits flip on the way; `h` is what the check of the words finds. Beats are log entry 107 (DEDUCED); the number of credits is the free value of log entry 122 (DESIGN CHOICE). -/
def Obligations.PacketsCrossHopsAndBridges : Prop :=
  ∀ (s : State) (id : Nat) (p : Pkt) (errs : List (Nat × Nat)), s.pkt id = some p →
    let f := checkHop (s.freshSrc p) errs
    let h := checkHop p errs
    let n := if p.hops = 0 then (p.row, p.col, 4) else s.nextHop p
    let moved := { f.p with row := n.1, col := n.2.1, inp := n.2.2, hops := p.hops + 1, poisoned := p.poisoned || f.badData }
    let inMesh := p.inHub = false ∧ p.arrived = false
    let leaves := p.hops ≠ 0 ∧ p.row = p.trow ∧ p.col = p.tcol
    (inMesh → s.hopOpen p = false → exec (.packetHop id errs) s = .next s) ∧
    (inMesh → s.hopOpen p = true → s.hopGranted p = false → exec (.packetHop id errs) s = .next (s.askGrant 0 (s.portOf p) (p.rankFor (s.outOf p)))) ∧
    (inMesh → s.hopOpen p = true → s.hopGranted p = true → leaves →
      ∃ u, exec (.packetHop id errs) s = .next u ∧ u.pkt id = some { p with arrived := true, since := s.time.now }) ∧
    (inMesh → s.hopOpen p = true → s.hopGranted p = true → ¬ leaves → f.badHdr = false →
      ∃ v : State, v.pkt id = some moved ∧ exec (.packetHop id errs) s = .next (v.bcastTurn moved) ∧ (p.copyOf = none → v.bcastTurn moved = v)) ∧
    (inMesh → s.hopOpen p = true → s.hopGranted p = true → ¬ leaves → f.badHdr = true →
      ∃ u, exec (.packetHop id errs) s = .next u ∧ u.pkt id = none ∧ bitAt u.faults.sticky 1 = true) ∧
    (∀ w x, errs = [(w, x)] → w < 16 → popN 39 x = 2 → f.badHdr = true) ∧
    (∀ st, p.inHub = false → p.arrived = true → 0xD0 ≤ p.dstEp → p.kind ≠ 0x05 → h.badHdr = false → isRsp h.p.kind = false → p.dest = .lake st →
      let b := bridgeNo p.die p.dstEp
      let k := freeSlot b (s.bridge b) 512 0
      (s.bridge b).length < 512 →
      ∃ u q, exec (.bridgeCrossing id errs) s = .next u ∧ u.bridge b = s.bridge b ++ [⟨b * 512 + k, h.p.srcEp, h.p.tag, p.asker, p.via⟩] ∧
        q ∈ u.net.pkts ∧ q.tag = b * 512 + k ∧ q.inHub = true ∧ q.hub = b % 2 ∧ q.via = b :: p.via ∧ q.addr = h.p.addr ∧ q.data = h.p.data) ∧
    (∀ e pti seq b, p.inHub = true → p.arrived = false → isRsp p.kind = true → p.via.head? = some b → e.asker = .tile pti seq → h.badHdr = false → isRsp h.p.kind = true →
      (s.bridge b).find? (fun x => x.tag == h.p.tag) = some e →
      ∃ u q, exec (.bridgeCrossing id errs) s = .next u ∧ (u.bridge b).any (fun x => x.tag == h.p.tag) = false ∧
        q ∈ u.net.pkts ∧ q.tag = e.origTag ∧ q.asker = e.asker ∧ q.inHub = false ∧ q.data = h.p.data)

/-- R35, R163, R178 to R181, R185, R412: what a tile endpoint does with a request, and how a broadcast branches and its answers combine, in the form of log entry 39 (DEDUCED). `made` is what earlier beats of a glaze write have
written: none of a packet that has just arrived. The movement of an access beat by beat is log entry 107 (DEDUCED). R121 to R124, R163, R274, R412: what each kind of answer does at its tile. The location and detail of `REMOTE_UNREACH` are the model's choice (log entry 113, DESIGN CHOICE). The movement of an access beat by beat is log entry 107 (DEDUCED). -/
def Obligations.EndpointsAndAnswersComplete : Prop :=
  (
  ∀ (s : State) (id pti off tid : Nat) (p : Pkt), s.pkt id = some p → p.id = id →
    let bs := bytesOfWords (p.data.take p.words)
    let here := p.atTile = some pti ∧ (s.row (rowOf pti)).power = 0
    let live := s.tileGenBad pti p = false ∧ p.poisoned = false
    let fits := p.words ≤ 64 ∧ p.made = 0
    (here → live → p.kind = 0x03 → regionOf p.addr = .localStore tid off → ∃ u, exec (.wr id) s = .next u ∧
      (u.tile pti).mem.ls = Mem.store (s.tile pti).mem.ls off bs ∧
      (∀ a, a < off ∨ off + bs.length ≤ a → Mem.read (u.tile pti).mem.ls a = Mem.read (s.tile pti).mem.ls a) ∧
      (u.tile pti).mem.glaze = (s.tile pti).mem.glaze ∧ (u.tile pti).r = (s.tile pti).r) ∧
    (here → live → fits → p.kind = 0x03 → regionOf p.addr = .glaze tid off → s.bankFree pti off bs.length rankEject = true → ∃ u, exec (.wr id) s = .next u ∧
      (u.tile pti).mem.glaze = Mem.store (s.tile pti).mem.glaze off bs ∧
      (∀ a, a < off ∨ off + bs.length ≤ a → Mem.read (u.tile pti).mem.glaze a = Mem.read (s.tile pti).mem.glaze a) ∧
      (u.tile pti).mem.ls = (s.tile pti).mem.ls ∧ (u.tile pti).r = (s.tile pti).r) ∧
    (here → live → fits → p.kind = 0x03 → regionOf p.addr = .glaze tid off → bs ≠ [] → s.bankOpen pti off = false → ∃ u, exec (.wr id) s = .next u ∧
      (u.tile pti).mem.glaze = (s.tile pti).mem.glaze ∧ u.pkt id = some p) ∧
    (here → live → p.kind = 0x01 → regionOf p.addr = .glaze tid off →
      exec (.rdReq id) s = .next { s.delPkt id with net := { (s.delPkt id).net with glazeQ := (s.delPkt id).net.glazeQ ++ [⟨p, pti, off, []⟩] } }) ∧
    (∀ u bs', here → live → p.kind = 0x01 → regionOf p.addr = .localStore tid off → s.portRead pti 0 off p.words = (u, some bs') →
      exec (.rdReq id) s = .next ((u.delPkt id).reply p (pti / 156) (pti % 156) 0x02 [0, 0, 0, 0] (wordsOf bs'))) ∧
    (∀ g ups v bs', s.net.glazeQ.find? (fun x => x.pkt.id == g.pkt.id) = some g → g.got = [] → g.pkt.words ≤ 64 → s.bankFree g.pti g.off (4 * g.pkt.words) rankEject = true →
      let t := s.tile g.pti
      let s0 := { s with tiles := Tab.set s.tiles g.pti { t with mem := { t.mem with glazeFlips := strike t.mem.glazeFlips ups } } }
      (s0.glazeMove g.pti rankEject g.off (4 * g.pkt.words) 0).1.portRead g.pti 1 g.off g.pkt.words = (v, some bs') →
      exec (.glazeArbiterRead g.pkt.id ups) s = .next (({ v with net := { v.net with glazeQ := s.net.glazeQ.filter (fun x => decide (x.pkt.id ≠ g.pkt.id)) } }).reply
        g.pkt (g.pti / 156) (g.pti % 156) 0x02 [0, 0, 0, 0] (wordsOf bs'))) ∧
    (∀ g ups, s.net.glazeQ.find? (fun x => x.pkt.id == g.pkt.id) = some g → g.got = [] → g.pkt.words ≠ 0 → s.bankOpen g.pti g.off = false →
      ∃ u, exec (.glazeArbiterRead g.pkt.id ups) s = .next u ∧ g ∈ u.net.glazeQ) ∧
    (here → s.tileGenBad pti p = true → p.kind = 0x03 → exec (.wr id) s = .next (s.tileNack pti p)) ∧
    (p.kind = 0x05 → p.inHub = false → p.copyOf = none → exec (.bcastWr id) s = .next (s.bcastFork p)) ∧
    (∀ g, p.kind = 0x05 → here → p.copyOf = some g → p.poisoned = false → ∀ v, (∀ a, s.bcastOne (s.freshSrc p) pti = (v, some a) → exec (.bcastWr id) s = .next ((v.delPkt id).bcastGot g a 4)) ∧
      (s.bcastOne (s.freshSrc p) pti = (v, none) → exec (.bcastWr id) s = .next v)) ∧
    (s.tileGenBad pti p = false → bitAt (p.extWord 0) 25 = false → bitAt (p.extWord 0) 24 = false → p.addr + bs.length ≤ 2 ^ 20 →
      s.bcastOne p pti = (s.onTile pti fun t => t.writeX 0 p.addr bs, some (0x06, 0))) ∧
    (∀ as c, (0x21, c) ∈ as → (∀ a ∈ as, a.1 = 0x21 → c ≤ a.2) → combine as = (0x21, c)) ∧
    (∀ as w, (0x20, w) ∈ as → (∀ a ∈ as, a.1 ≠ 0x21) → ∃ v, combine as = (0x20, v) ∧ (0x20, v) ∈ as) ∧
    (∀ as, (∀ a ∈ as, a.1 = 0x06) → combine as = (0x06, (as.map Prod.snd).sum)) ∧
    (∀ g b a, s.net.bcasts.find? (fun x => x.pkt.id == g) = some b → b.left = 1 → b.pkt.copyOf = none →
      let done := combine (b.answers ++ [a])
      s.bcastGot g a 4 = ({ s with net := { s.net with bcasts := s.net.bcasts.filter (fun x => decide (x.pkt.id ≠ g)) } }).reply b.pkt b.pkt.die b.pkt.srcEp done.1 (ext4 done.2) [])
  ) ∧ (
  ∀ (s : State) (id pti : Nat) (p : Pkt) (c : XfPiece), s.tileGenBad pti p = false → p.poisoned = false →
    let u := s.delPkt id
    let awake := (s.row (rowOf pti)).power = 0
    let bs := (bytesOfWords p.data).take c.bytes
    let wrote := u.onTile pti fun t => (t.writeX c.space c.laddr bs).answered c
    let ended := u.onTile pti fun t => t.unanswered c
    let code := fld (p.extWord 0) 15 0
    let op := match (u.tile pti).iss.xf.find? (fun o => o.id == c.op) with
      | some o => o.kind.opcode
      | none => 0
    (s.answerAt id 0x02 = some (p, pti, c) → awake → c.space ≠ 1 → exec (.rdData id) s = .next wrote) ∧
    (s.answerAt id 0x11 = some (p, pti, c) → awake → c.space ≠ 1 → exec (.lakeDone id) s = .next wrote) ∧
    (∀ v, p.data ≠ [] → awake → c.space = 1 → s.glazePut p pti rankSu3 c.laddr bs = (v, true) →
      (s.answerAt id 0x02 = some (p, pti, c) → exec (.rdData id) s = .next ((v.delPkt id).onTile pti fun t => t.answered c)) ∧
      (s.answerAt id 0x11 = some (p, pti, c) → exec (.lakeDone id) s = .next ((v.delPkt id).onTile pti fun t => t.answered c))) ∧
    (∀ v, p.data ≠ [] → awake → c.space = 1 → s.glazePut p pti rankSu3 c.laddr bs = (v, false) → s.answerAt id 0x02 = some (p, pti, c) → exec (.rdData id) s = .next v) ∧
    (bs.length ≤ 256 → p.made = 0 → s.bankFree pti c.laddr bs.length rankSu3 = true → ∃ v, s.glazePut p pti rankSu3 c.laddr bs = (v, true) ∧
      (v.tile pti).mem.glaze = Mem.store (s.tile pti).mem.glaze c.laddr bs) ∧
    (p.data = [] → s.answerAt id 0x04 = some (p, pti, c) → exec (.wrAck id) s = .next (u.onTile pti fun t => t.answered c)) ∧
    (p.data = [] → s.answerAt id 0x06 = some (p, pti, c) → exec (.bcastAck id) s = .next (u.onTile pti fun t => t.answered c)) ∧
    (p.data = [] → s.answerAt id 0x20 = some (p, pti, c) →
      exec (.genNack id) s = .next (({ u with faults := { u.faults with nackRx := satInc 16 u.faults.nackRx } }).onTile pti fun t => t.unanswered c)) ∧
    (p.data = [] → s.answerAt id 0x21 = some (p, pti, c) → exec (.errResp id) s = .next (
      if code = 2 ∨ code = 3 then ended
      else if code = 4 then ended.recordFault 5 true (u.tile pti).st.stepId ((u.tidOf pti).getD 0x3FF) code
      else ended.recordFault 12 true (u.tile pti).st.stepId ((u.tidOf pti).getD 0x3FF) (code + op * 2 ^ 16)))
  )

/-- R166, R168, R171, R265: the two commands of the shared arbiters. The distance of 32 tile clock periods between two debug grants is counted from grant to grant for the whole package (log entry 41, DEDUCED). R163, R186, R272, R275, R280, R412: the package edge and the glaze scrub. The order of the scrub and the moment its enable is looked at are the model's reading (log entry 38, DEDUCED). -/
def Obligations.ArbitersPackageEdgeAndGlazeScrub : Prop :=
  (
  (∀ (s : State) (kind idx : Nat) (reqs : List (Nat × Nat × Nat)) (rsp : List (Nat × List (Nat × Nat))),
    let taken := fun (q : List (Nat × Nat × Nat)) =>
      let a := q.foldl (fun (u : Arb) r => u.register r.1 r.2.1 r.2.2) (s.arb kind idx)
      s.setArb kind idx (if (s.arb kind idx).beats ≤ 1 then a.decide (if kind = 3 then 16 else 8) else { a with beats := (s.arb kind idx).beats - 1 })
    (kind ≠ 2 → exec (.arbiterGrant kind idx reqs rsp) s = .next (taken reqs)) ∧
    (kind = 2 → exec (.arbiterGrant kind idx reqs rsp) s = .next ((taken (reqs.filter fun r => !s.queueBlocked (idx / 32) (idx % 32) r.1)).lakeRetry rsp))) ∧
  (∀ (s : State) (kind idx t : Nat), ∃ u, exec (.emergencyGrant kind idx t) s = .next u ∧ u.net.arbs = s.net.arbs ∧
    let awake := ∀ x, (s.advance t).jtag.access = some x → x.pti = idx / 40 → x.space = 1 → ((s.advance t).row (rowOf x.pti)).power = 0
    (kind = 1 → awake → (s.advance t).dbgMay = true → (u.tile (idx / 40)).iss.dbgFreeze = true ∧ u.net.dbgLast = some (s.advance t).time.now) ∧
    (kind = 1 → awake → (s.advance t).dbgMay = false → u = s.advance t) ∧
    (kind = 3 → let s1 := (s.advance t).flushTx idx
      let k := s1.link idx
      ∀ m r, s1.gate = false → k.usable = true → k.tx.curIns = 0 → k.tx.buf.length < 256 → k.tx.replayTo ≤ s1.time.now → k.handoff = none → k.tx.emq = m :: r →
        (u.link idx).tx.emq = r ∧ Out.slot idx (.mgt m) ∈ u.out) ∧
    (kind = 2 → ((u.stack (idx / 32)).chan (idx % 32)).refreshed = (s.advance t).time.now))
  ) ∧ (
  ∀ (s u : State) (l t d : Nat) (p : LPkt) (ups : List (Nat × Nat)) (wrote : Bool),
    let isPkt := fun (x : Slot) => match x with
      | .pkt _ => true
      | _ => false
    let k := u.link l
    let mis := u.setLink l { k with misroute := satInc 16 k.misroute }
    let drop := u.setLink l { k with genDrop := satInc 16 k.genDrop }
    let back := fun (v : State) (kind w4 : Nat) =>
      v.sendRsp { p with hops := 0, dlpn := p.slpn, slpn := v.lpn, words := 0, kind := kind, ext := ext4 w4, data := [] } l
    let taken := (s.advance t).takeRx l isPkt = some (.pkt p, u)
    let mine := u.carriesPkt = true ∧ p.dlpn = u.lpn ∧ u.spr.displaced = false
    let live := u.ctx.genLive = true ∧ p.gen = u.ctx.gen
    (taken → u.carriesPkt = false → exec (.pkt l t) s = .next mis) ∧
    (taken → u.carriesPkt = true → p.dlpn ≠ u.lpn → exec (.pkt l t) s = .next (if isRsp p.kind = true then mis else back mis 0x21 0x0004)) ∧
    (taken → mine → isRsp p.kind = true → p.mir = false → u.ctx.genLive = false → exec (.pkt l t) s = .next drop) ∧
    (taken → mine → isRsp p.kind = false → p.mir = false → p.gen ≠ u.ctx.gen → exec (.pkt l t) s = .next (back drop 0x20 (drop.nackWord 3))) ∧
    (taken → mine → live → isRsp p.kind = false → p.mir = false → ∃ q : Pkt, exec (.pkt l t) s = .next (u.hubIn q) ∧
      q.kind = p.kind ∧ q.addr = p.addr ∧ q.words = p.words ∧ q.gen = p.gen ∧ q.genChk = true ∧ q.data = p.data ∧ q.asker = .link l p.tag p.slpn p.tc false) ∧
    (∀ e, taken → mine → live → isRsp p.kind = true → p.mir = false → p.tag < 0x1000 → (u.bridge (p.tag / 512)).find? (fun x => x.tag == p.tag) = some e →
      ∃ v q, exec (.pkt l t) s = .next v ∧ q ∈ v.net.pkts ∧ q.asker = e.asker ∧ q.via = [p.tag / 512] ∧ q.data = p.data ∧ q.kind = p.kind) ∧
    (let r := s.die d
      let slice := r.scrubAt % 6240 / 40
      let pti := d * 156 + slice
      let a := r.scrubAt / 6240 / 2 * 5120 + r.scrubAt % 40 * 128 + r.scrubAt / 6240 % 2 * 64
      let may := s.mayUse 1 (bankIdx pti a) rankScrub
      (if r.scrubAt % 12480 = 0 then r.scrubEn else r.scrubNow) = true → r.zeroing = false →
      ((s.slices d).contains slice = true → s.bankOpen pti a = false → exec (.glazeScrubVisit d ups wrote) s = .next s) ∧
      ((s.slices d).contains slice = true → s.bankOpen pti a = true → may = false →
        exec (.glazeScrubVisit d ups wrote) s = .next (s.askGrant 1 (bankIdx pti a) rankScrub)) ∧
      ((s.slices d).contains slice = false ∨ (s.bankOpen pti a = true ∧ may = true) → ∃ v, exec (.glazeScrubVisit d ups wrote) s = .next v ∧
      (v.die d).scrubAt = (if 2048 * 6240 ≤ (s.die d).scrubAt + 1 then 0 else (s.die d).scrubAt + 1) ∧
      (v.die d).scrubPass = (if 2048 * 6240 ≤ (s.die d).scrubAt + 1 then min 0xFFFFFFFF ((s.die d).scrubPass + 1) else (s.die d).scrubPass)))
  )

/-- R192: the lake mapping, as the rule's code has it. -/
def Obligations.LakeAddressesMapToTheirPlaces : Prop :=
  (∀ (mode a : Nat), a < 0x06000000000 →
    let u := if mode = 0 then 4096 else 65536
    let stack := if mode = 2 then a / 0xC00000000 else a / u % 8
    let so := if mode = 2 then a % 0xC00000000 else a / (8 * u) * u + a % u
    let ca := so / 8192 * 256 + so % 256
    lakeStack mode a = stack ∧ lakeSo mode a = so ∧ soCh so = so / 256 % 32 ∧ soCa so = ca ∧ soBank so = ca / 2048 % 64 ∧ soRow so = ca / 131072 ∧
    soCol so = ca % 2048 ∧ stack < 8 ∧ soRow so < 12288 ∧ stackOf mode a = stack ∧ lakeUn mode stack so = a ∧ chSo (soCh so) (soCa so) = so) ∧
  (∀ (s : State) (a : Nat), s.chanOf a = (lakeStack s.lake.mode a, soCh (lakeSo s.lake.mode a)) ∧ s.rowOfAddr a = rowKey (lakeSo s.lake.mode a))

/-- R195 to R208, R211, R213, R215: a request takes effect at its registration, in one step. `a0` is the state with the upsets of the words applied. That a request is applied at its registration or waits in order is log entry 40 (DEDUCED). -/
def Obligations.LakeRequestsApplyAtRegistration : Prop :=
  ∀ (s : State) (id t k : Nat) (p : Pkt) (req rsp ups : List (Nat × Nat)),
    let h := pinCheck p req
    let found := fun (a0 : State) => (a0.pinFound k p h).setPkt h.p
    let need := fun (a0 : State) => (found a0).lakeNeeds k h.p
    let eff := fun (a0 : State) =>
      ((((found a0).lakeUse (need a0)).chanUse (need a0) h.p.lakeQueue).lakeCount ((found a0).lakeRanges k h.p)).lakeApply k h.p rsp
    let comes := fun (a0 : State) => let st := a0.stack k
      a0.atLake id = some (p, k) ∧ st.waitQ.contains id = false ∧ st.heldQ.contains id = false ∧ a0.lakeRoom k p = true ∧ a0.ptHeldBefore k p = false ∧ p.since + a0.ptLake k ≤ a0.time.now ∧
      h.badHdr = false ∧ h.badData = false ∧ p.poisoned = false
    let calm := fun (a0 : State) => comes a0 ∧ (h.p.genChk = false ∨ (a0.ctx.genLive = true ∧ h.p.gen = (a0.stack k).gen)) ∧ (a0.stack k).zeroing = false ∧
      h.p.addr < lakeEnd ∧ (found a0).lakeAsleep (need a0) = [] ∧ (found a0).lakeCopies (need a0) = false ∧ (found a0).waitsBefore k h.p = false
    let busy := fun (a0 : State) => (found a0).chanBusy (need a0) h.p.lakeQueue
    let free := fun (a0 : State) => calm a0 ∧ busy a0 = []
    let s0 := s.advance t
    let su := s0.lakeStrike ups
    (free su → p.kind = 0x01 → exec (.lakeRead id req rsp ups t) s = .next (eff su)) ∧
    (free s0 → p.kind = 0x03 → exec (.lakeWrite id req rsp t) s = .next (eff s0)) ∧
    (free su → p.lakeKind = 3 → exec (.lakeReduce id req rsp ups t) s = .next (eff su)) ∧
    (free su → p.lakeKind = 4 → exec (.lakeScatterAdd id req rsp ups t) s = .next (eff su)) ∧
    (free su → p.lakeKind = 5 → exec (.lakeGather id req rsp ups t) s = .next (eff su)) ∧
    (free su → p.lakeKind = 6 → exec (.lakePaletteDecode id req rsp ups t) s = .next (eff su)) ∧
    (free s0 → p.lakeKind = 7 → exec (.lakeRangeZero id req rsp t) s = .next (eff s0)) ∧
    (calm s0 → busy s0 ≠ [] → p.kind = 0x03 →
      exec (.lakeWrite id req rsp t) s = .next (((found s0).chanAsk (need s0) h.p.lakeQueue).lakeWait k h.p.id)) ∧
    (comes s0 → h.p.genChk = true → (s0.ctx.genLive = false ∨ h.p.gen ≠ (s0.stack k).gen) → p.kind = 0x03 → ∃ v, exec (.lakeWrite id req rsp t) s = .next v ∧
      v.lake.mem = s0.lake.mem ∧ (v.stack k).genDrop = satInc 16 (s0.stack k).genDrop)

/-- R195, R196, R204, R214: the frame of a lake request, with the address it stores to as `lakeApply` computes it. -/
def Obligations.LakeApplyStoresOnlyItsBytes : Prop :=
  ∀ (s : State) (k : Nat) (p : Pkt) (rsp : List (Nat × Nat)),
    let a := p.addr / 4 * 4
    let m := (s.lakeApply k p rsp).lake.mem
    (p.lakeKind = 1 → m = Mem.store s.lake.mem a (bytesOfWords (p.data.take p.words)) ∧
      (∀ x, x < a ∨ a + (bytesOfWords (p.data.take p.words)).length ≤ x → Mem.read m x = Mem.read s.lake.mem x)) ∧
    (p.lakeKind = 7 → ∀ x, Mem.read m x = if a ≤ x ∧ x < a + p.extent then 0#8 else Mem.read s.lake.mem x) ∧
    ((p.lakeKind = 3 ∨ p.lakeKind = 4) → (∀ x, x < a ∨ a + 4 * p.words ≤ x → Mem.read m x = Mem.read s.lake.mem x) ∧
      ((s.lakeWords a p.words).all Ecc.isDbe = true → m = s.lake.mem)) ∧
    ((p.lakeKind = 0 ∨ p.lakeKind = 5 ∨ p.lakeKind = 6) → m = s.lake.mem)

/-- R205, R208 to R210, R216, R217, R384: the channels of a stack. Where a request waits, and in which order, is log entry 40 (DEDUCED). -/
def Obligations.LakeChannelsAndScrub : Prop :=
  ∀ (s : State) (k c t : Nat) (ups : List (Nat × Nat)) (rsp : List (Nat × List (Nat × Nat))), let s0 := s.advance t
    let st := s0.stack k
    let v := st.chan c
    exec (.lakeRefresh k c t) s = .next (s0.setStack k (st.setChan c { v with refreshed := s0.time.now })) ∧
    (let a : Nat := lakeUn s0.lake.mode k (chSo c (64 * v.scrubAt));
      st.scrubEn = true → st.zeroing = false →
      (v.power = 1 → exec (.lakeScrubVisit k c ups t) s = .next ((s0.lakeStrike ups).askWake (k, c))) ∧
      (v.power = 0 → s0.lakeCopies [a] = false → s0.burstWaits a = false → s0.mayUse 2 (k * 32 + c) 2 = false →
        exec (.lakeScrubVisit k c ups t) s = .next ((s0.lakeStrike ups).askGrant 2 (k * 32 + c) 2)) ∧
      (v.power = 0 → s0.lakeCopies [a] = false → s0.burstWaits a = false → s0.mayUse 2 (k * 32 + c) 2 = true → ∃ u, exec (.lakeScrubVisit k c ups t) s = .next u ∧
        ((u.stack k).chan c).power = 0 ∧ ((u.stack k).chan c).scrubAt = (if 25165824 ≤ v.scrubAt + 1 then 0 else v.scrubAt + 1) ∧
        ((u.stack k).chan c).passes = (if 25165824 ≤ v.scrubAt + 1 then min 0xFFFFFFFF (v.passes + 1) else v.passes))) ∧
    (∀ row rest, (s.stack k).copying = row :: rest → (s.stack k).zeroing = false → s.mayUse 2 (k * 32 + row / 12288 / 64) 2 = true → ∃ u : State, exec (.lakeSpareCopyDone k rsp) s = .next (u.lakeRetry rsp) ∧
      Tab.get 0 (u.stack k).spares row = (s.stack k).bankUsed (row / 12288) - ((s.stack k).copying.filter (fun r => decide (r / 12288 = row / 12288))).length) ∧
    (v.power = 0 → v.wakeReq = none → v.lastUse + us ≤ s0.time.now → st.zeroing = false → s0.chanWaits k c = false →
      exec (.lakeChannelPdn k c t) s = .next (s0.setStack k (st.setChan c { v with power := 1 }))) ∧
    (v.power ≠ 2 → v.wakeReq = none → v.lastUse + 10 * ms ≤ s0.time.now → s0.ctx.accepted = false → st.zeroing = false → s0.chanWaits k c = false →
      exec (.lakeChannelSref k c t) s = .next (s0.setStack k (st.setChan c { v with power := 2 }))) ∧
    (∀ w, v.wakeReq = some w → w ≤ s0.time.now → exec (.lakeChannelWake k c rsp t) s = .next
      ((s0.setStack k (st.setChan c { v with power := 0, wakeReq := none, lastUse := s0.time.now })).lakeRetry rsp))

/-- R224, R228, R233, R236, R237: the three registers a channel is driven by. R226, R233, R234, R240, R244: how a channel comes to its descriptors. One request per command, in stream order, is log entry 46 (DEDUCED). -/
def Obligations.DmaChannelsRun : Prop :=
  (
  ∀ (s : State) (c v t : Nat) (byHost hi : Bool), let s0 := s.advance t
    let x := s0.ch c
    (s0.dmaReach c byHost = true → s0.dmaMay = true → (x.state = 0 ∨ x.state = 3) → ¬(c = 15 ∧ s0.spr.copying = true) → s0.nextOk x.next = true → s0.dmaRoom c = true →
      x.reqs.any (fun r => r.what == 1) = false →
      exec (.dmaDoorbell c byHost t) s = .next
        ((s0.setCh c { x with state := 1, fetchErr := false, lastStatus := 0, fetching := true, tagGen := s0.ctx.gen, stopReq := false }).dmaRead c 1 x.next 0 64 false)) ∧
    (s0.dmaReach c byHost = true → (s0.dmaMay = false ∨ x.state = 1) → exec (.dmaDoorbell c byHost t) s = .next (s0.setCh c { x with pend := true })) ∧
    (s0.dmaReach c byHost = true → x.cur ≠ none → (∀ a, x.okAt = some a → dmaCyc a ≠ dmaCyc s0.time.now) → exec (.dmaStop c byHost t) s = .next
      ((s0.setCh c { x with
        stopReq := true, stopAt := s0.time.now, shadow := none, pend := false, fetching := false, reqs := (x.reqs.map (DmaReq.cancel 1)).map (DmaReq.cancel 2) }).dmaCheck c)) ∧
    (s0.dmaReach c byHost = true → x.cur = none → exec (.dmaStop c byHost t) s = .next
      (s0.setCh c { x with
        stopReq := false, stopAt := s0.time.now, shadow := none, pend := false, fetching := false, state := 0, reqs := (x.reqs.map (DmaReq.cancel 1)).map (DmaReq.cancel 2) })) ∧
    (s.dmaReach c byHost = true → s.dmaPaused = false → (s.ch c).state = 0 ∨ (s.ch c).state = 3 → ∃ u, exec (.dmaNextWrite c byHost hi v) s = .next u ∧
      u = s.setCh c { s.ch c with next := (u.ch c).next } ∧
      (hi = true → (u.ch c).next = (s.ch c).next % 2 ^ 32 + v % 2 ^ 32 * 2 ^ 32) ∧ (hi = false → (u.ch c).next = (s.ch c).next / 2 ^ 32 * 2 ^ 32 + v % 2 ^ 32)) ∧
    (x.claim ≠ 1 → exec (.dmaDoorbell c true t) s = .next s0 ∧ exec (.dmaStop c true t) s = .next s0) ∧
    ((s.ch c).claim ≠ 1 → exec (.dmaNextWrite c true hi v) s = .next s)
  ) ∧ (
  ∀ (s : State) (c code t : Nat) (data : BitVec 2048) (r : DmaReq), let s0 := s.advance t
    ((s0.ch c).req (fun r => r.what == 1) = some r → s0.dmaInTime r = true →
      (∀ bs u, s0.dmaAnswer c r code data = some (0, bs, u) →
        let w := u.dmaTake c r
        let v := w.ch c
        let ws := descWords bs
        let d := DmaDesc.start ws v.next v.tagGen
        let begun := w.dmaBegin c ws v.next v.tagGen
        let begins := w.dmaMay = true ∨ w.dmaPaused = true ∨ v.tagGen ≠ w.ctx.gen
        (bitAt (ws.getD 0 0) 31 = false → v.pend = false → exec (.dmaDescFetch c code data t) s = .next ((w.setCh c { v with fetching := false, state := 2 }).dmaSettle c)) ∧
        (bitAt (ws.getD 0 0) 31 = true → begins → exec (.dmaDescFetch c code data t) s = .next (begun.dmaSettle c)) ∧
        (bitAt (ws.getD 0 0) 31 = true → ¬ begins → exec (.dmaDescFetch c code data t) s = .next ((w.dmaFetch c).dmaSettle c)) ∧
        (v.stopReq = false → (begun.ch c).state = 1 ∧ ∃ e, (begun.ch c).cur = some e ∧
          e = { d with fail := e.fail, failAt := e.failAt } ∧
          e.fail = (if v.tagGen ≠ w.ctx.gen then some 6 else if w.descBad c d = true then some 1
            else if bitAt (ws.getD 0 0) 27 = true ∧ fld (ws.getD 11 0) 15 0 ≠ w.ctx.gen then some 6 else none))) ∧
      (∀ st bs u, st ≠ 0 → s0.dmaAnswer c r code data = some (st, bs, u) →
        let w := (u.dmaTake c r).dmaFetchFail c st
        exec (.dmaDescFetch c code data t) s = .next (w.dmaSettle c) ∧ (w.ch c).state = 3 ∧ (w.ch c).lastStatus = st)) ∧
    (∀ d, (s0.ch c).cur = some d → d.peeked = true → exec (.dmaShadowRead c t) s = .next s0) ∧
    (∀ d, (s0.ch c).cur = some d → d.last = false → d.chain = false → d.peeked = false → (s0.ch c).shadow = none → (s0.ch c).reqs.any (fun r => r.what == 2) = false →
      (s0.ch c).stopReq = false → s0.dmaPaused = false → s0.dmaRoom c = true → s0.nextOk d.nextA = true → d.fail = none →
      exec (.dmaShadowRead c t) s = .next ((s0.setCh c { s0.ch c with cur := some { d with peeked := true } }).dmaRead c 2 d.nextA 0 64 false))
  )

/-- R228 to R232, R238 to R242: moving data. -/
def Obligations.DmaMovesItsBytes : Prop :=
  ∀ (s : State) (c tok code t : Nat) (wr : Bool) (data : BitVec 2048) (d : DmaDesc), let s0 := s.advance t
    ((s0.ch c).cur = some d → d.fail = none → d.stage = 0 → (s0.ch c).stopReq = false → s0.dmaPaused = false → s0.dmaRoom c = true →
      let rn := reqLen (d.srcA + d.readAt) (d.srcLen - d.readAt)
      let wn := reqLen (d.dstA + d.writeAt) (d.dstLen - d.writeAt)
      let reads := (s0.setCh c { s0.ch c with cur := some { d with readAt := d.readAt + rn } }).dmaRead c 0 (d.srcA + d.readAt) d.readAt rn d.mirror
      let writes := fun bs => ((s0.setCh c { s0.ch c with cur := some { d with writeAt := d.writeAt + wn } }).dmaWrite c 5 (d.dstA + d.writeAt) d.writeAt bs d.mirror).dmaCheck c
      let moves := fun (o : Host.Outcome State Fault Refusal) => (wr = false → d.readAt < d.srcLen → o = .next reads) ∧
        (∀ bs, wr = true → d.writeAt < d.dstLen → bytesFrom d.dstByte d.writeAt wn = some bs → o = .next (writes bs))
      (d.xform = 0 → moves (exec (.dmaCopy c wr t) s)) ∧ (d.xform = 1 → moves (exec (.dmaIlv c wr t) s)) ∧
      (d.xform = 2 → moves (exec (.dmaBpl c wr t) s)) ∧ (d.xform = 3 → moves (exec (.dmaMxs c wr t) s))) ∧
    (∃ v, exec (.dmaCopy c wr t) s = .next v) ∧ (∃ v, exec (.dmaIlv c wr t) s = .next v) ∧
    (∃ v, exec (.dmaBpl c wr t) s = .next v) ∧ (∃ v, exec (.dmaMxs c wr t) s = .next v) ∧
    (∀ r, (s0.ch c).req (fun r => r.tok == tok && r.what ≠ 1) = some r → s0.dmaInTime r = true → ∀ st bs u, s0.dmaAnswer c r code data = some (st, bs, u) →
      let w := u.dmaTake c r
      (w.ch c).cur = some d →
      (st = 0 → r.what = 0 → exec (.dmaRequestAnswer c tok code data t) s = .next ((w.setCh c { w.ch c with
        cur := some { d with src := (bs.foldl (fun (a : Tab Byte × Nat) b => (Tab.set a.1 a.2 b, a.2 + 1)) (d.src, r.off)).1 } }).dmaSettle c)) ∧
      (st = 0 → r.what = 5 → exec (.dmaRequestAnswer c tok code data t) s = .next ((w.setCh c { w.ch c with cur := some (d.wrote r.off r.len) }).dmaSettle c)) ∧
      (st = 0 → r.what = 2 → (w.ch c).stopReq = false →
        exec (.dmaRequestAnswer c tok code data t) s = .next ((w.setCh c { w.ch c with shadow := some (descWords bs) }).dmaSettle c)) ∧
      (st ≠ 0 → (r.what = 0 ∨ r.what = 5 ∨ r.what = 6 ∨ r.what = 7) → exec (.dmaRequestAnswer c tok code data t) s = .next ((w.dmaFail c st).dmaSettle c))) ∧
    ((s0.ch c).reqs.any (fun r => r.tok == tok) = false → exec (.dmaRequestAnswer c tok code data t) s = .next (s0.dmaLate c tok)) ∧
    (∀ r, (s0.ch c).req (fun r => r.tok == tok) = some r → s0.dmaInTime r = true → exec (.dmaRequestTimeout c tok t) s = .next s0) ∧
    (∀ r, (s0.ch c).req (fun r => r.tok == tok) = some r → s0.dmaInTime r = false → r.host = false →
      (r.what = 0 ∨ r.what = 5 ∨ r.what = 6 ∨ r.what = 7) →
      exec (.dmaRequestTimeout c tok t) s = .next
        (((s0.setCh c { s0.ch c with reqs := (s0.ch c).reqs.erase r, late := (s0.ch c).late ++ [(r.tok, r.host)] }).dmaFail c 4).dmaSettle c))

/-- R259 to R262, R285, R286, R417: frames, `ACK` and replay. How the model counts and packs frames is log entry 32 (DESIGN CHOICE). R250, R252, R254, R265, R278, R279, R282: what a link sends and what it learns of its far end. That a packet lies in one frame is the model's choice (log entry 32, DESIGN CHOICE). -/
def Obligations.LinkTrafficCompletes : Prop :=
  (
  ∀ (s : State) (l corrected t : Nat) (frame : BitVec 5140) (fecBad : Bool), let s0 := s.advance t
    let k := s0.link l
    let k1 := { k with fecCorr := min 0xFFFFFFFF (k.fecCorr + corrected) }
    let ins := fld frame.toNat 5138 5135
    (k.frames = true →
      (fecBad = true ∨ frameCrc frame.toNat ≠ fld frame.toNat 5134 5120 ∨ (11 ≤ ins ∧ ins ≤ 14) → ins ≠ 15 → k.rx.stopped = false → k.rx.nak = false →
        exec (.frameRx l frame fecBad corrected t) s = .next ((s0.setLink l { k1 with
          badFrames := satInc 16 k.badFrames, rx := { k.rx with nak := true, nakAt := s0.time.now } }).sendCtl l (.ack k.rx.lastSeq true k.rx.freed))) ∧
      (fecBad = false → frameCrc frame.toNat = fld frame.toNat 5134 5120 → ins ≤ 10 → k.rx.stopped = false → k.rx.nak = false → bitAt frame.toNat 5139 = false →
        exec (.frameRx l frame fecBad corrected t) s = .next (s0.setLink l ((({ k1 with
          rx := { k.rx with accepted := k.rx.accepted + 1, sinceAck := k.rx.sinceAck + 1 } }).frameIn frame.toNat ins).stampTim s0.time.ft))) ∧
      (k.rx.nak = true → k.rx.nakAt + us ≤ s0.time.now →
        exec (.nakRepeat l t) s = .next ((s0.setLink l { k with rx := { k.rx with nakAt := s0.time.now } }).sendCtl l (.ack k.rx.lastSeq true k.rx.freed))) ∧
      (k.rx.nak = false →
        exec (.ackSend l t) s = .next ((s0.setLink l { k with rx := { k.rx with sinceAck := 0, ackAt := s0.time.now } }).sendCtl l (.ack k.rx.lastSeq false k.rx.freed)))) ∧
    (let s1 := s0.flushTx l
      let x := (s1.link l).tx
      (s1.gate = true → exec (.replayExhaustion l t) s = .next s1) ∧
      (s1.gate = false → (s1.link l).frames = true → x.resentOut = true ∨ (0 < x.outstanding ∧ x.ackAt + 4 * us < s1.time.now) → exec (.replayExhaustion l t) s = .next (s1.fastStart l))) ∧
    (let f := s0.flushTx l
      ∀ q nak cr u, (if f.ackLate l = true then f.fastStart l else f).takeRx l (fun x => match x with
        | .ack _ _ _ => true
        | _ => false) = some (.ack q nak cr, u) →
      let x := (u.link l).tx
      let n := (q + 1 + 4096 - x.acked % 4096) % 4096
      0 < n → n ≤ x.buf.length → ∃ w, exec (.ack l t) s = .next (if nak = true ∧ (u.link l).frames = true then w.replay l else w) ∧ (w.link l).tx.acked = x.acked + n ∧ (w.link l).tx.credit = cr ∧
        (w.link l).tx.buf = x.buf.drop n ∧ (w.link l).tx.sent = x.sent.filter (fun e => decide (x.acked + n ≤ e.last)) ∧ (w.link l).tx.ackAt = u.time.now) ∧
    (∀ f r, s0.gate = false → k.tx.buf = (f, r) :: [] → (s0.replay l).out = s0.out ++ [.frame l (k.lane k.tx.acked) { f with rstart := true }] ∧
      ((s0.replay l).link l).tx.buf = [(f, r + 1)])
  ) ∧ (
  ∀ (s : State) (l t : Nat), let s0 := s.advance t
    let k := s0.link l
    (∀ w e, let s1 := s0.flushTx l
      let x := (s1.link l).tx
      s1.gate = false → (s1.link l).usable = true → x.ride e.slot ≠ none ∨ x.roomFor e.slot.flits = true → x.replayTo ≤ s1.time.now → (s1.link l).handoff = none →
      ({ x.arb with waiting := s1.egressHeads l } : Arb).winner 16 = some w → x.q.find? (fun e => e.rank == w.1) = some e →
      ∃ u, exec (.egressGrant l t) s = .next u ∧ (u.link l).tx.q = x.q.erase e ∧ Out.slot l e.slot ∈ u.out ∧
        (u.link l).tx.sent = x.sent ++ [⟨e, (u.link l).tx.lastFrame⟩] ∧
        (∀ h, x.ride e.slot = some h → (u.link l).tx.frames = x.frames ∧ (u.link l).tx.cur = x.cur.modify h (fun f => f + 2 ^ 256 * e.slot.bits)) ∧
        (x.cur.length ≤ 9 → x.ride e.slot = none →
          let start := if x.cur ≠ [] ∧ 10 < x.cur.length + e.slot.flits then 10 * (x.frames + 1) else 10 * x.frames + x.cur.length
          10 * (u.link l).tx.frames + (u.link l).tx.cur.length = start + e.slot.flits) ∧
        (e.slot.pool ≤ 5 → (u.link l).tx.used = x.used.set e.slot.pool ((nth x.used e.slot.pool + e.slot.flits) % 65536))) ∧
    (∀ b u, s0.takeRx l (fun x => match x with
        | .ident _ => true
        | _ => false) = some (.ident b, u) → u.cfg.image = none → ∃ v, exec (.ident l t) s = .next v ∧
      (v.link l).farId = fld b 18 0 ∧ (v.link l).farLpn = fld b 33 19 ∧ (v.link l).farPort = fld b 43 37 ∧ (v.link l).farTim = bitAt b 60 ∧
      (v.link l).farHandoff = bitAt b 61 ∧ (v.link l).farPlan = fld b 127 64 ∧ (v.link l).identGot = true ∧ (v.link l).state = (u.link l).state ∧
      ((u.link l).state = 2 → (u.link l).phase = 3 → (v.link l).phase = 4 ∧ Out.slot l (.ack (u.link l).rx.lastSeq false (u.link l).rx.freed) ∈ v.out)) ∧
    (∀ n, k.lane n = if k.state = 5 then (match k.solo with
        | some i => i
        | none => n % 2) else n % 2) ∧
    ((k.state = 2 ∧ k.identGot = false ∧ k.identAt + 10 * us ≤ s0.time.now) ∨ ((k.state = 3 ∨ k.state = 4) ∧ k.identAt + 1000 * ms ≤ s0.time.now) →
      exec (.identSend l t) s = .next ((s0.setLink l { k with identAt := s0.time.now }).sendCtl l (.ident (s0.identBlock l))))
  )

/-- R269, R270, R285: handoff between links. That no frame of the failed link is outstanding after the answer is the model's reading (log entry 110, DEDUCED). -/
def Obligations.HandoffMovesTheTraffic : Prop :=
  ∀ (s u : State) (l n e x t : Nat), let s0 := s.advance t
    ((s0.link l).frames = false → exec (.handoffReq l t) s = .next s0) ∧
    ((s0.link l).frames = true → s0.takeRx l (fun x => match x with
        | .handoffReq _ => true
        | _ => false) = some (.handoffReq n, u) → u.linkOfFar l n = some x → ∃ v, exec (.handoffReq l t) s = .next v ∧
      (v.link x).rx.stopped = true ∧ (v.link x).handoffs = satInc 8 (u.link x).handoffs ∧ Out.slot l (.handoffRsp n ((u.link x).rx.accepted % 4096)) ∈ v.out ∧
      (∀ sl, (u.link x).sch = some sl → x ≠ l → u.spareReady (x / 8) = true → l = 8 * (x / 8) + (u.octet (x / 8)).spareIdx →
        (v.link l).state = 3 ∧ (v.link l).sch = some sl ∧ (v.link x).sch = none)) ∧
    (s0.takeRx l (fun x => match x with
        | .handoffRsp _ _ => true
        | _ => false) = some (.handoffRsp n e, u) → ∀ at_, (u.link n).handoff = some (l, at_) → n ≠ l → u.gate = false → u.time.now ≤ at_ + 20 * us → ∃ v, exec (.handoffRsp l t) s = .next v ∧
      (let y := (u.link n).tx
       let exp := y.acked + (e + 4096 - y.acked % 4096) % 4096
       (v.link n).handoff = none ∧ (v.link n).tx.q = y.q.filter (fun e => e.rank == 0) ∧ (v.link n).tx.sent = [] ∧ (v.link n).tx.outstanding = 0 ∧
       (v.link l).tx.q = ((y.sent.filter (fun p => decide (exp ≤ p.last))).map (fun p => p.ent) ++ y.q).filter (fun e => e.rank != 0) ++ (u.link l).tx.q)) ∧
    (∀ g at_, (s0.link l).handoff = some (g, at_) → at_ + 20 * us < s0.time.now → exec (.handoffTimeout l t) s = .next (s0.handoffFail l)) ∧
    (∀ y, s0.takeRx l (fun x => x == .retrain) = some (y, u) → exec (.retrain l t) s = .next (u.fastStart l))

/-- R281 to R285: the life of a link. That loss of signal leaves a full training or `IDENT` to the bound of its phase is the model's reading (log entry 36, DEDUCED). The end of PMD start-up is an operand. -/
def Obligations.LinksTrain : Prop :=
  ∀ (s : State) (l lane t : Nat) (pmd : Option Nat) (asym : Int) (ok0 ok1 : Bool), let s0 := s.advance t
    let k := s0.link l
    (∀ r, k.state = 0 → k.retryAt = some r → r ≤ s0.time.now → s0.linkUnused l = false → s0.st.trainMode ≠ 1 → ∃ u, exec (.linkTrainStart l pmd t) s = .next u ∧ (u.link l).pmdEnd = pmd.map (max s0.time.now) ∧
      (u.link l).state = 1 ∧ (u.link l).phase = 1 ∧ (u.link l).fast = false ∧ (u.link l).identGot = false ∧ (u.link l).fullTrains = satInc 8 k.fullTrains) ∧
    (k.phase ≠ 0 → k.fast = false → (k.phaseNow s0.time.now).2 + phaseBound (k.phaseNow s0.time.now).1 < s0.time.now → exec (.trainPhaseTimeout l t) s = .next (s0.linkDown l (s0.time.now + 1000 * ms))) ∧
    (k.state = 1 → k.fast = false → (lane % 2 = 0 ∧ k.lane1 = true) ∨ (lane % 2 = 1 ∧ k.lane0 = true) → ∃ u, exec (.codewordLock l lane t) s = .next u ∧
      (u.link l).state = 2 ∧ (u.link l).lane0 = true ∧ (u.link l).lane1 = true ∧ (u.link l).phase = 3 ∧ (u.link l).identGot = false ∧
      (k.handoff = none → (u.link l).rx.freed = s0.pools l ∧ (u.link l).rx.accepted = 0 ∧ (u.link l).tx.frames = 0 ∧ (u.link l).tx.buf = [] ∧ (u.link l).tx.q = k.tx.q)) ∧
    (k.state = 2 → k.phase = 4 → k.tx.credit.any (fun c => c != 0) = true → s0.cfg.image = none → ∃ u, exec (.linkTrainComplete l asym t) s = .next u ∧
      (u.link l).state = 3 ∧ (u.link l).asym = asym ∧ (u.link l).phase = 0 ∧ (u.link l).rx = k.rx ∧ (u.link l).tx.credit = k.tx.credit ∧ (u.link l).tx.q = k.tx.q) ∧
    (k.tx.credit.any (fun c => c != 0) = false → exec (.linkTrainComplete l asym t) s = .next s0) ∧
    (k.state ≠ 0 → k.state ≠ 2 → (k.state ≠ 1 ∨ k.fast = true) → exec (.lossOfSignal l t) s = .next (s0.linkDown l s0.time.now)) ∧
    (k.state = 2 ∨ (k.state = 1 ∧ k.fast = false) → exec (.lossOfSignal l t) s = .next (s0.setLink l { k with lane0 := false, lane1 := false })) ∧
    (k.state ≠ 0 → lane % 2 = 0 → exec (.laneLockLoss l lane t) s = .next ((s0.setLink l { k with lane0 := false }).fastStart l)) ∧
    (k.state ≠ 0 → lane % 2 = 1 → exec (.laneLockLoss l lane t) s = .next ((s0.setLink l { k with lane1 := false }).fastStart l)) ∧
    (k.state = 1 → k.fast = true → s0.time.now ≤ k.fastAt + 100 * us →
      (ok0 = true → ok1 = true → ∃ u, exec (.fastRetrainEnd l ok0 ok1 t) s = .next u ∧ (u.link l).state = k.prev ∧ (u.link l).fast = false ∧ (u.link l).lastFast = some s0.time.now) ∧
      (ok0 ≠ ok1 → (k.sch = none ∨ k.prev = 5) → ∃ u, exec (.fastRetrainEnd l ok0 ok1 t) s = .next u ∧ (u.link l).state = 5 ∧
        (u.link l).degAt = (if k.prev = 5 then k.degAt else s0.time.now) ∧ (u.link l).solo = some (if ok0 then 0 else 1)) ∧
      (ok0 = false → ok1 = false → exec (.fastRetrainEnd l ok0 ok1 t) s = .next (s0.linkDown l s0.time.now))) ∧
    (k.state = 1 → k.fast = true → k.fastAt + 100 * us < s0.time.now → exec (.fastRetrainTimeout l t) s = .next (s0.linkDown l s0.time.now)) ∧
    (let oc := s0.octet (l / 8)
     let sp := s0.link (8 * (l / 8) + oc.spareIdx)
     k.state = 5 → k.degAt + 1000 * ms ≤ s0.time.now → oc.spare ≠ 0xFE → sp.state = 6 → sp.claim ≠ 2 → exec (.degradedTimeout l t) s = .next (s0.linkDown l s0.time.now))

/-- R10, R11, R161, R287 to R292: the port and its registers. The places of the AER status registers are log entry 60 (PRESUMED), what PERST_N and a hot reset leave of the link log
entry 71 (DEDUCED), and the operand `same`, the events of a read's own cycle, log entry 8. -/
def Obligations.HostPortComplete : Prop :=
  ∀ (s : State) (reg v rate width addr size same t : Nat) (cxl refclk : Bool), let s0 := s.advance t
    (s0.portUp = true →
      (reg / 4 ≠ 0x41 → reg / 4 ≠ 0x44 →
        exec (.configRequest true reg v t) s = .next (({ s0 with h := { s0.h with space := Tab.set s0.h.space (reg / 4 * 4) (v % 2 ^ 32) } }).emit 11 0)) ∧
      (reg / 4 = 0x41 ∨ reg / 4 = 0x44 → exec (.configRequest true reg v t) s = .next ((s0.cfgWrite (reg / 4 * 4) v).emit 11 0)) ∧
      exec (.configRequest false reg v t) s = .next (s0.emit 11 (s0.cfgValue (reg / 4 * 4) % 2 ^ 32))) ∧
    (s.cfgValue 0 % 2 ^ 32 / 2 ^ 16 = 0x0960 ∧ s.cfgValue 8 / 2 ^ 8 = 0x120000) ∧
    (∀ r w, s0.portUp = true → s0.h.perst = false → bestOf [128, 64, 32] rate = some r → bestOf [16, 8, 4] width = some w →
      exec (.cxlLinkTrain cxl rate width t) s = .next { s0 with h := { s0.h with linkUp := true, cxl := cxl, rate := r, width := w } }) ∧
    (∃ u, exec (.cxlLinkDown t) s = .next u ∧ u.h.linkUp = false ∧ u.h.mem = s0.h.mem ∧ u.h.ram = s0.h.ram) ∧
    (∃ u, exec (.perstN t) s = .next u ∧ u.h.perst = true ∧ u.h.cfgReady = false ∧ u.h.linkUp = false ∧ u.h.smEn = false ∧ u.h.hdmCommit = false) ∧
    (∃ u, exec (.hotReset t) s = .next u ∧ u.h.perst = s0.h.perst ∧ u.h.linkUp = false ∧ u.h.smEn = false ∧ u.h.hdmCommit = false ∧ u.h.space = []) ∧
    exec (.perstNDeassert refclk t) s = .next { s0 with h := { s0.h with perst := false, refclk := refclk, cfgReady := true } } ∧
    exec (.rcRead false addr 4 same t) s = .next ((s0.regClear addr same).emit 7 (s0.regShown addr same)) ∧
    s0.regShown addr 0 = s0.regValue addr ∧
    (s0.h.linkUp = true →
      (addr % 4 = 0 → addr < 0x10000 → addr ≠ 0x2000 → exec (.rcRead true addr 4 same t) s = .next ((s0.bar0Clear addr same).emit 7 (s0.bar0Shown addr same)) ∧
        s0.bar0Shown addr 0 = s0.bar0 addr) ∧
      exec (.rcRead true 0x2000 8 same t) s = .next (s0.emit 7 (s0.time.ft % 2 ^ 64)) ∧ exec (.rcRead true 0x2018 8 same t) s = .next (s0.emit 7 (toBits 64 s0.time.tai)) ∧
      exec (.rcRead true 0x2000 4 same t) s = .next s0.ftLoRead ∧
      (size ≠ 4 → size ≠ 8 → exec (.rcRead true addr size same t) s = .next s0.urRead ∧ exec (.registerWrite true addr v size t) s = .next s0.urWrite)) ∧
    exec (.registerWrite false addr v 4 t) s = .next (s0.regWrite addr (v % 2 ^ 32)) ∧
    (s0.h.linkUp = true → ∀ c, c < 16 → (s0.ch c).claim = 1 →
      exec (.registerWrite true (0x4014 + c * 0x100) v 4 t) s = .next (s0.setCh c { s0.ch c with timeoutUs := v % 2 ^ 24 })) ∧
    (∀ c, c < 16 → exec (.registerWrite false (0x1F070000014 + c * 0x1000) v 4 t) s = .next (s0.setCh c { s0.ch c with timeoutUs := v % 2 ^ 24 }))

/-- R293 to R306: what the host reads and writes in memory. -/
def Obligations.HostMemoryAndMirrorComplete : Prop :=
  ∀ (s : State) (addr len hpa tag n v r reg t : Nat) (data : BitVec 2048) (line : BitVec 512) (req rsp ups : List (Nat × Nat)), let s0 := s.advance t
    (s0.h.linkUp = true → 1 ≤ len → len ≤ 256 → addr + len ≤ 0x1000000 → addr / 256 = (addr + len - 1) / 256 → bar2Backed addr = true →
      ∃ u, exec (.bar2Access true addr len data false ups t) s = .next u ∧ u.h.ram = Mem.store s0.h.ram addr ((leBytes 256 data.toNat).take len)) ∧
    (s0.h.linkUp = true → 1 ≤ len → len ≤ 256 → addr + len ≤ 0x1000000 → addr / 256 = (addr + len - 1) / 256 → bar2Backed addr = false →
      ∃ u, exec (.bar2Access false addr len data false ups t) s = .next u ∧ u.out = s0.out ++ [.bytes 7 (zeros len)]) ∧
    (∀ a, s0.h.linkUp = true → s0.hdmAddr hpa = some a → s0.pkg.lakeTrained = true →
      exec (.hdmWrite hpa tag line false req rsp t) s = .next ((s0.addPkt (s0.hdmPkt a tag 0x03 (wordsOf (leBytes 64 line.toNat)))).lakeServe s0.net.seq (fun _ => true) req rsp)) ∧
    (∀ a, s0.h.linkUp = true → s0.hdmAddr hpa = some a → exec (.hdmWrite hpa tag line true req rsp t) s = .next (s0.aer aerPoisoned)) ∧
    (∀ a, let w := s0.lakeStrike ups
      w.h.linkUp = true → w.hdmAddr hpa = some a →
      (w.pkg.lakeTrained = true → exec (.hdmRead hpa tag req rsp ups t) s = .next ((w.addPkt (w.hdmPkt a tag 0x01 [])).lakeServe w.net.seq (fun _ => true) req rsp)) ∧
      (w.pkg.lakeTrained = false → exec (.hdmRead hpa tag req rsp ups t) s = .next (w.hdmPoison tag))) ∧
    (n < 4 → s0.h.linkUp = true → s0.booted = true →
      let m := s0.mbx n
      let d := (v % 65536 + 65536 - m.prod) % 65536
      (d ≤ (m.cons + 64 + 65536 - m.prod) % 65536 → exec (.prodWrite n v t) s = .next (s0.registerN n d)) ∧
      ((m.cons + 64 + 65536 - m.prod) % 65536 < d → exec (.prodWrite n v t) s = .next (s0.setMbx n { m with prodErr := true }))) ∧
    (s0.h.linkUp = true → s0.h.smEn = false →
      exec (.smAddrWrite true v t) s = .next { s0 with h := { s0.h with smAddr := s0.h.smAddr % 2 ^ 32 + place v 32 32 } } ∧
      exec (.smAddrWrite false v t) s = .next { s0 with h := { s0.h with smAddr := s0.h.smAddr / 2 ^ 32 * 2 ^ 32 + v % 2 ^ 32 / 4096 * 4096 } } ∧
      exec (.statusMirrorEnable t) s = .next (let w := ({ s0 with h := { s0.h with smEn := true } }).writePage
        { w with h := { w.h with smActive := true } })) ∧
    (s0.h.smEn = true → (r < 64 → exec (.statusRecordWrite r t) s = .next (s0.writeRecord r)) ∧ exec (.statusMirrorRefresh t) s = .next s0.writePage) ∧
    (s0.pkg.mordRuns = true → s0.booted = true → s0.fw.act < 3 ∨ s0.fw.act = 6 → s0.h.beatAt + ms ≤ s0.time.now →
      exec (.mirrorHeartbeat t) s = .next { s0 with
        h := { s0.h with heartbeat := (s0.h.heartbeat + 1) % 2 ^ 32, beatAt := s0.time.now },
        fw := { s0.fw with fail := if s0.beatStood = true ∧ s0.fw.fail = 0 then 3 else s0.fw.fail } }) ∧
    (∀ i, n < 6 → s0.headReg n = some (i, reg) → s0.mbxRuns = true → (s0.mbx n).handover = false → s0.expired n reg = true →
      let st := s0.headerStatus n reg (cmdOf (s0.slotF n 0 2)) (!opcodes.contains (s0.slotF n 0 2))
      1 ≤ st ∧ st ≤ 6 ∧ exec (.mailboxDeadlineExpiry n t) s = .next ((s0.slotErrors n).answer n (Resp.err st)))

/-- R315 to R319, R374: the parties' carriages. -/
def Obligations.DatagramsAndI3cComplete : Prop :=
  ∀ (s : State) (addr t : Nat) (b : List Byte), let s0 := s.advance t
    (s0.mmbOn = true → leAt b 5 1 ≠ 3 → s0.dgramBad b ≠ 0 → exec (.mmbDatagram b t) s = .next (s0.dgramDrop (s0.dgramBad b))) ∧
    (s0.mmbOn = true → leAt b 5 1 = 1 → s0.dgramBad b = 0 →
      let s1 := s0.dgramHeard b
      let m := s1.mbx 4
      let i := leAt b 20 2
      let n := leAt b 22 2
      i = m.prod → (m.prod + 65536 - m.cons) % 65536 < 64 → ∃ u, exec (.mmbDatagram b t) s = .next u ∧ (u.mbx 4).prod = (m.prod + 1) % 65536 ∧
        (u.mbx 4).regs = m.regs ++ [(m.prod, s1.time.now)] ∧ u.m.mgrHeard = some s0.time.now ∧
        u.h.ram = Mem.store (Mem.store s1.h.ram (slotAddr 4 i) ((b.drop 24).take 256)) (mmbReq + i % 64 * 1024) ((b.drop 280).take n)) ∧
    (s0.mmbOn = true → leAt b 5 1 = 3 → s0.dgramBad b = 0 →
      let s1 := s0.dgramHeard b
      exec (.indexQuery b t) s = .next (s1.sendDgram (s1.keySlot (leAt b 6 2)) (leAt b 6 2) 4 (s1.mbx 4).cons (s1.mbx 4).prod (zeros 256) [])) ∧
    (∀ im, s0.cfg.image = some im → im.mgr = true → s0.m.mgrFrom ≠ none → s0.m.mgrFired ≠ some s0.absentFrom → s0.pkg.watchStall = false →
      watchCycle s0.absentDue < watchCycle s0.time.now →
      exec (.managerAbsentTimeout t) s = .next { s0 with m := { s0.m with capMgr := im.orphanCap, orphan := true, mgrFired := some s0.absentFrom }, pw := { s0.pw with capMgrWas := im.orphanCap } }) ∧
    (s0.booted = true →
      exec (.entdaa addr t) s = .next (({ s0 with m := { s0.m with i3cAddr := some (addr % 128) } }).emit 9 s0.i3cId) ∧
      (s0.m.i3cAddr ≠ none →
        (s0.m.i3cPending = false → ∃ u, exec (.i3cPrivateWrite b t) s = .next u ∧ u.m.i3cPending = true ∧ u.m.i3cReady = false ∧ u.out = s0.out ++ [.value 9 1] ∧
          u.h.ram = Mem.store (Mem.zero s0.h.ram i3cSlot 256) i3cSlot (b.take 256) ∧ (u.mbx 5).regs = (s0.mbx 5).regs ++ [((s0.mbx 5).prod, s0.time.now)]) ∧
        (s0.m.i3cReady = true → exec (.i3cPrivateRead t) s = .next
          (({ s0 with m := { s0.m with i3cReady := false } }).emitBytes 9 (Mem.bytes s0.h.ram i3cSlot (16 + Mem.le s0.h.ram (i3cSlot + 8) 2)))))) ∧
    (s0.i3cPresent = false → exec (.i3cPresenceTimeout t) s = .next { s0 with m := { s0.m with i3cAt := none } })

/-- R320 to R323: identity and configuration. `begins` says when a command runs, `answered` how its answer is written. -/
def Obligations.ConfigurationCommandsAnswer : Prop :=
  ∀ (s u : State) (r : Req) (mb t : Nat),
    (begins s mb t (Cmd.fixed 0x0101 0 [1, 2, 3] false []) = some (u, r) → r.staged = false → exec (.idGet mb t) s = .next (answered u u mb
      (Resp.ok_ (leBytes 4 u.pidWord ++ leBytes 2 u.lpnWord ++ [0x09#8, 0xB0#8] ++ leBytes 4 (fwVersion u.fw.runImage) ++ leBytes 8 u.pkg.serial ++ ascii "TF9-LY-0576" ++ zeros 1)))) ∧
    (begins s mb t (Cmd.fixed 0x0102 0 [1, 2, 3] false []) = some (u, r) → r.staged = false → exec (.stateGet mb t) s = .next (answered u u mb
      (Resp.ok_ (leBytes 1 u.shown ++ leBytes 1 u.reasonShown ++ leBytes 2 u.ctx.gen ++ leBytes 4 u.ctxIdShown ++ leBytes 4 u.faults.sticky ++ leBytes 4 u.powerFlags ++ u.capBytes
        ++ u.tempBytes ++ u.coolantBytes ++ leBytes 4 u.ftState ++ leBytes 4 u.absentMs ++ leBytes 8 u.time.ft)))) ∧
    (begins s mb t (Cmd.fixed 0x0201 8 [1] true []) = some (u, r) →
      let b := if r.f 0 4 = 0 then r.data else u.cfg.buf ++ r.data
      r.f 0 4 = 0 ∨ (r.f 0 4 = u.cfg.buf.length ∧ r.f 4 4 = u.cfg.bufLen) → r.f 4 4 ≤ 0x400000 → r.f 0 4 + r.data.length ≤ r.f 4 4 →
      exec (.cfgPart mb t) s = .next (answered u { u with cfg := { u.cfg with buf := b, bufLen := r.f 4 4 } } mb (Resp.ok_ (leBytes 4 b.length)))) ∧
    (∀ im, begins s mb t (Cmd.fixed 0x0202 4 [1] false []) = some (u, r) → r.staged = false → u.ctx.accepted = false → r.f 0 4 ≤ u.cfg.buf.length → u.validate (r.f 0 4) = .inr im →
      exec (.cfgCommit mb t) s = .next (answered u (u.applyImage im) mb (Resp.ok_ im.digest))) ∧
    (begins s mb t (Cmd.fixed 0x0203 0 [1] false []) = some (u, r) → r.staged = false → exec (.cfgInfo mb t) s = .next (answered u u mb (match u.cfg.image with
      | none => Resp.ok_ (zeros 80)
      | some im => Resp.ok_ (im.digest ++ leBytes 4 im.len ++ zeros 4 ++ leBytes 8 im.ft)))) ∧
    (begins s mb t (Cmd.fixed 0x0204 0 [1] false []) = some (u, r) → r.staged = false → u.ctx.accepted = false →
      exec (.cfgClear mb t) s = .next (answered u u.clearImage mb (Resp.ok_ []))) ∧
    (∀ im, begins s mb t (Cmd.fixed 0x0205 8 [1] false [(6, 2)]) = some (u, r) → r.staged = false → u.cfg.image = some im → u.ctx.accepted = false → r.f 0 2 ≠ 1 → r.f 4 2 = 0 →
      resExists (r.f 0 2) (r.f 2 2) = true → exec (.claimSet mb t) s = .next (answered u
        (u.setClaims im (im.claims.filter (fun c => !(c.1 == r.f 0 2 && c.2.1 == r.f 2 2))) (r.f 0 2) (r.f 2 2)) mb (Resp.ok_ [])))

/-- R324 to R326, R363, R364, R411: the life of a context. -/
def Obligations.ContextCommandsAnswer : Prop :=
  ∀ (s u : State) (r : Req) (mb t : Nat),
    (begins s mb t (Cmd.fixed 0x0301 8 [1] false [(6, 2)]) = some (u, r) → r.staged = false → u.genBad r 4 = false → u.acceptStatus (r.f 0 4) = 0 →
      let v := u.accept (r.f 0 4)
      exec (.ctxAccept mb t) s = .next (answered u v mb (Resp.ok_ (leBytes 2 v.ctx.gen ++ allDies.flatMap (fun d => leBytes 1 (v.die d).skipRow) ++ leBytes 2 0 ++ leBytes 8 v.time.ft)))) ∧
    (s.ld.active = false → begins s mb t ⟨0x0302, fun _ p => p.length == 80, [1], true, fun p => decide (leAt p 4 4 < 2)⟩ = some (u, r) → u.genBad r 0 = false → u.ctxLive = true →
      r.data ≠ [] → r.data.length % 64 = 0 → r.f 2 2 + r.data.length / 64 ≤ 4096 → r.f 8 72 ≠ 0 → exec (.bundleLoad mb t) s = .next (u.loadBegin mb r).loadStep) ∧
    (begins s mb t (Cmd.fixed 0x0303 4 [1] true []) = some (u, r) → u.genBad r 0 = false → u.ctxLive = true → u.seq.runActive = false →
      r.data ≠ [] → r.data.length % 128 = 0 → r.f 2 2 + r.data.length / 128 ≤ 1024 →
      let n := r.data.length / 128
      let w := (List.range n).foldl (fun (a : State × List Nat) k => State.writeStep a (r.f 2 2 + k) ((r.data.drop (128 * k)).take 128)) (u, [])
      exec (.stepWrite mb t) s = .next (answered u w.1 mb ⟨if w.2.isEmpty then 0 else 0x030A, leBytes 2 (n - w.2.length) ++ leBytes 2 (w.2.headD 0xFFFF), []⟩)) ∧
    (begins s mb t ⟨0x0304, fun st p => if st then p.length == 4 else p.length == 4 + 2 * leAt p 2 2, [1], true, fun _ => true⟩ = some (u, r) → u.genBad r 0 = false → u.ctxLive = true →
      u.seq.runActive = false → u.shown ≠ psHold → 1 ≤ r.f 2 2 → r.f 2 2 ≤ 4096 → (r.staged = true → r.data.length = 2 * r.f 2 2) →
      (∀ i ∈ r.runList, i < 1024 ∧ Tab.has u.seq.table i = true) →
      exec (.runSubmit mb t) s = .next (answered u (u.submit r.runList) mb (Resp.ok_ (leBytes 4 (u.submit r.runList).seq.runNo)))) ∧
    (begins s mb t (Cmd.fixed 0x0305 4 [1] false [(2, 2)]) = some (u, r) → r.staged = false → u.genBad r 0 = false → u.seq.runActive = true →
      exec (.runStop mb t) s = .next (answered u ({ u with seq := { u.seq with stopReq := true } }).runEnd mb (Resp.ok_ (leBytes 2 u.seq.nextEntry ++ leBytes 2 0)))) ∧
    (begins s mb t (Cmd.fixed 0x0306 4 [1] false [(2, 2)]) = some (u, r) → u.genBad r 0 = false → u.ctxLive = true →
      exec (.ctxKill mb t) s = .next (u.beginKill 3 u.lpn u.ctx.id true)) ∧
    (begins s mb t (Cmd.fixed 0x0307 4 [1] false [(2, 2)]) = some (u, r) → u.genBad r 0 = false → u.ctxLive = true → u.seq.runActive = false →
      exec (.ctxEnd mb t) s = .next (u.beginKill 0 0 0 false)) ∧
    (begins s mb t (Cmd.fixed 0x0308 4 [1, 2] false [(2, 2)]) = some (u, r) → r.staged = false → u.genBad r 0 = false →
      exec (.warmReset mb t) s = .next (answered u (u.warmReset 1) mb (Resp.ok_ []))) ∧
    (∀ q, (s.advance t).takeLoad false = some (q, u) →
      (q.asker ≠ .loader → exec (.loaderPacket t) s = .next (u.loadPiece q).loadStep) ∧
      (q.asker = .loader → q.kind = 0x20 → q.tag < loaderTag 16 → q.tag ≠ loaderTag 8 → exec (.loaderPacket t) s = .next (u.loadLost (q.tag - loaderTag 0)).loadStep) ∧
      (q.asker = .loader → loaderTag 16 ≤ q.tag →
        exec (.loaderPacket t) s = .next (State.loadStep { u with ld := u.ld.castAnswered q.tag q.kind (q.extWord 0 % 2 ^ 16) }))) ∧
    ((s.advance t).takeLoad false = none → exec (.loaderPacket t) s = .next (s.advance t).loadStep) ∧
    (∀ q, (s.advance t).takeLoad true = some (q, u) →
      let w := u.hubAnswer (q.answer 0x04 [0, 0, 0, 0] [])
      let c := (q.addr - loaderBase - 0x40080) / 16
      let bs := bytesOfWords q.data
      w.ld.active = true → w.ld.waiting.contains c = true → leAt bs 0 4 = w.ld.f 0 4 → w.ld.written = false →
        exec (.loaderReport t) s = .next ({ w with
          ld := { w.ld with waiting := w.ld.waiting.erase c, refused := w.ld.refused + leAt bs 4 4, missing := w.ld.missing + leAt bs 8 4 } }).loadStep) ∧
    (let s0 := s.advance t
     s0.ld.active = true → s0.ld.written = true → watchCycle (s0.ld.wroteAt + 100 * ms) < watchCycle s0.time.now →
      exec (.loaderReportTimeout t) s = .next (s0.ld.waiting.foldl State.loadLost s0).loadStep)

/-- R327 to R330, R372 to R376: power and time. That CAP_SET of the rack manager clears the orphan flag also where the image declares no manager is log entry 112 (DEDUCED, unsafe). -/
def Obligations.PowerAndTimeCommandsAnswer : Prop :=
  ∀ (s u : State) (r : Req) (mb t : Nat), r.staged = false →
    (begins s mb t (Cmd.fixed 0x0401 4 [1, 2] false [(2, 2)]) = some (u, r) → 1200 ≤ r.f 0 2 → r.f 0 2 ≤ 2800 → ∃ v, exec (.capSet mb t) s = .next (answered u v mb (Resp.ok_ v.capBytes)) ∧
      v.m = (if r.party = 1 then { u.m with capHost := r.f 0 2, capBy := partyCode mb } else { u.m with capMgr := r.f 0 2, orphan := false }) ∧ v.pw = u.pw) ∧
    (begins s mb t (Cmd.fixed 0x0402 0 [1, 2, 3] false []) = some (u, r) → exec (.capGet mb t) s = .next (answered u u mb (Resp.ok_ u.capBytes))) ∧
    (begins s mb t (Cmd.fixed 0x0403 0 [2, 3] false []) = some (u, r) →
      exec (.holdSet mb t) s = .next (answered u (u.addHold (holdBit r.party)) mb (Resp.ok_ (leBytes 2 (u.addHold (holdBit r.party)).holdersMask)))) ∧
    (begins s mb t (Cmd.fixed 0x0404 0 [2, 3] false []) = some (u, r) → u.m.holders.contains (holdBit r.party) = true →
      exec (.holdRelease mb t) s = .next (answered u (u.dropHold (holdBit r.party)) mb (Resp.ok_ (leBytes 2 (u.dropHold (holdBit r.party)).holdersMask)))) ∧
    (begins s mb t (Cmd.fixed 0x0405 4 [1, 2] false [(1, 3)]) = some (u, r) → r.f 0 1 ≤ 1 → ∃ v, exec (.sprintSet mb t) s = .next (answered u v mb
        (Resp.ok_ (leBytes 2 (b2n v.m.sprintHost + 2 * b2n v.m.sprintMgr + 4 * b2n u.pw.sprintAt.isSome)))) ∧
      v = { u with m := if r.party = 1 then { u.m with sprintHost := r.f 0 1 == 1 } else { u.m with sprintMgr := r.f 0 1 == 1 } }) ∧
    (begins s mb t (Cmd.fixed 0x0406 0 [1, 2, 3] false []) = some (u, r) → exec (.powerGet mb t) s = .next (answered u u mb (Resp.ok_ (u.powerBytes ++ leBytes 8 u.time.ft)))) ∧
    (begins s mb t (Cmd.fixed 0x0501 0 [1, 2] false []) = some (u, r) → exec (.timeGet mb t) s = .next (answered u u mb
      (Resp.ok_ (leBytes 8 u.time.ft ++ leBytes 4 u.ftState ++ leBytes 4 (u.timeReg 0x200C) ++ leBytes 4 (u.timeReg 0x2010) ++ leBytes 4 (u.timeReg 0x2014)
        ++ leBytes 8 (toBits 64 u.time.tai) ++ leBytes 4 u.holdoverMs ++ zeros 4)))) ∧
    (begins s mb t (Cmd.fixed 0x0502 8 [1, 2] false []) = some (u, r) → u.time.tstate = 5 → ∃ v, exec (.taiSet mb t) s = .next (answered u v mb (Resp.ok_ [])) ∧
      v.time.tai = sext 64 (r.f 0 8) ∧ v.time.ft = u.time.ft ∧ v.m.taiBy = partyCode mb) ∧
    (∀ im, begins s mb t (Cmd.fixed 0x0503 4 [1] false [(2, 2)]) = some (u, r) → u.cfg.image = some im → r.f 0 2 < 32768 → u.ctx.accepted = false →
      exec (.masterSet mb t) s = .next (answered u (({ u with cfg := { u.cfg with image := some { im with timeMaster := r.f 0 2 } } }).timeConfigured true) mb (Resp.ok_ []))) ∧
    (begins s mb t (Cmd.fixed 0x0504 0 [1, 2] false []) = some (u, r) → exec (.ptpGet mb t) s = .next (answered u u mb
      (Resp.ok_ (leBytes 4 u.time.ptpAnnounceRx ++ leBytes 4 u.time.ptpSyncRx ++ leBytes 4 u.time.ptpDelayResp ++ leBytes 4 u.time.ptpDrop ++ leBytes 1 u.clockClass
        ++ leBytes 1 u.timeSource ++ leBytes 1 (b2n (u.timeEn 1)) ++ zeros 5))))

/-- R331, R332, R335 to R337: spares, reports, keys and logs. That a member's budget of 0 bounds nothing is the model's choice (log entry 81);
the operand `same` of REG_READ is log entry 8. -/
def Obligations.SpareAndReportCommandsAnswer : Prop :=
  ∀ (s u : State) (r : Req) (mb t : Nat) (same : List Nat),
    (begins s mb t ⟨0x0601, fun _ p => p.length == 8 + 8 * leAt p 2 2, [2], false,
        fun p => (List.range (leAt p 2 2)).all (fun j => zeroAt p (15 + 8 * j) 1) && (leAt p 1 1 != 0 || leAt p 4 4 == 0)⟩ = some (u, r) → r.staged = false → u.bindStatus r = 0 →
      exec (.spareBind mb t) s = .next (answered u (u.bind (r.f 0 1) (r.f 1 1) r.entries (r.f 4 4)) mb (Resp.ok_ []))) ∧
    (begins s mb t (Cmd.fixed 0x0602 4 [2] false [(1, 3)]) = some (u, r) → r.staged = false → u.spr.role ≠ 0 → r.f 0 1 = u.spr.group →
      exec (.spareUnbind mb t) s = .next (answered u u.unbind mb (Resp.ok_ []))) ∧
    (begins s mb t (Cmd.fixed 0x0603 0 [1, 2] false []) = some (u, r) → r.staged = false → exec (.spareGet mb t) s = .next (answered u u mb
      (Resp.ok_ (leBytes 1 u.spr.state ++ leBytes 1 u.spr.group ++ leBytes 2 u.spareLpn ++ leBytes 4 u.mirrorMib ++ leBytes 4 u.spr.budget ++ leBytes 4 u.pointShown
        ++ leBytes 1 u.pathsOk ++ zeros 7)))) ∧
    (begins s mb t ⟨0x0604, fun _ p => p.length == 4 + 16 * leAt p 2 2, [1], false, fun _ => true⟩ = some (u, r) → r.staged = false → u.genBad r 0 = false → u.spr.role = 1 →
      u.mirrorEn = true → u.spr.copying = false → r.regionList.length ≤ 14 → (∀ x ∈ r.regionList, regionOk x = true) → regionTotal r.regionList ≤ (if u.spr.budget = 0 then lakeEnd else u.spr.budget * 2 ^ 20) →
      exec (.mirrorRegions mb t) s = .next (answered u { u with spr := { u.spr with regions := r.regionList } } mb (Resp.ok_ (leBytes 4 (regionTotal r.regionList / 2 ^ 20))))) ∧
    (begins s mb t (Cmd.fixed 0x0605 4 [1] false [(2, 2)]) = some (u, r) → r.staged = false → u.genBad r 0 = false → u.spr.role = 1 → u.mirrorEn = true → u.spr.copying = false →
      exec (.mirrorPoint mb t) s = .next (answered u u.startPoint mb (Resp.ok_ (leBytes 4 u.startPoint.spr.txPoint)))) ∧
    (begins s mb t (Cmd.fixed 0x0801 40 [1, 2] true [(36, 4)]) = some (u, r) → r.f 32 4 < reportLen →
      let x := u.report mb (r.payload.take 32)
      exec (.attest mb t) s = .next (answered u x.1 mb ⟨0, leBytes 4 reportLen ++ leBytes 4 (r.f 32 4), ((reportOf x.2).drop (r.f 32 4)).take r.cap⟩)) ∧
    (begins s mb t (Cmd.fixed 0x0802 4 [1, 2] true []) = some (u, r) → r.f 0 4 < blobLen →
      exec (.identity mb t) s = .next (answered u u mb ⟨0, leBytes 4 blobLen ++ leBytes 4 (r.f 0 4), (u.identityBlob.drop (r.f 0 4)).take r.cap⟩)) ∧
    (begins s mb t (Cmd.fixed 0x0803 36 [1, 2] false [(1, 3)]) = some (u, r) → r.staged = false → r.f 0 1 ≤ 3 → r.party ≠ 1 ∨ Tab.has u.m.keys (r.f 0 1) = false →
      ∃ v, exec (.keySet mb t) s = .next (answered u v mb (Resp.ok_ [])) ∧ v.m.keys = Tab.set u.m.keys (r.f 0 1) ⟨(r.payload.drop 4).take 32, 0, 0⟩ ∧ v.h = (u.wipePayload mb 36).h) ∧
    (begins s mb t (Cmd.fixed 0x0804 4 [2] false [(1, 3)]) = some (u, r) → r.staged = false → r.f 0 1 ≤ 3 → Tab.has u.m.keys (r.f 0 1) = false ∨ u.m.keys.length ≠ 1 →
      exec (.keyClear mb t) s = .next (answered u { u with m := { u.m with keys := Tab.del u.m.keys (r.f 0 1) } } mb (Resp.ok_ []))) ∧
    (begins s mb t (Cmd.fixed 0x0901 12 [1, 2] true [(1, 3), (10, 2)]) = some (u, r) → r.f 0 1 ≤ 3 →
      let x := u.logEntries (r.f 0 1)
      let oldest := x.1.length - x.2
      (r.staged = false → exec (.logRead mb t) s = .next (answered u u mb
        (Resp.ok_ (leBytes 4 oldest ++ leBytes 4 x.1.length ++ ((x.1.drop (max oldest (r.f 4 4))).take (min 7 (r.f 8 2))).flatten)))) ∧
      (r.staged = true →
        let es := ((x.1.drop (max oldest (r.f 4 4))).take (r.f 8 2)).flatten
        es.length ≤ r.cap → exec (.logRead mb t) s = .next (answered u u mb ⟨0, leBytes 4 oldest ++ leBytes 4 x.1.length, es⟩))) ∧
    (begins s mb t (Cmd.fixed 0x0902 12 [1, 2] false [(10, 2)]) = some (u, r) → r.staged = false → r.f 0 8 % 4 = 0 → 1 ≤ r.f 8 2 → r.f 8 2 ≤ 56 →
      regRanges.any (fun x => decide (x.1 ≤ r.f 0 8 ∧ r.f 0 8 + 4 * r.f 8 2 ≤ x.2)) = true →
      let x := u.regRead (r.f 0 8) same (r.f 8 2)
      exec (.regRead mb same t) s = .next (answered u x.1 mb (Resp.ok_ (x.2.flatMap (leBytes 4)))))

/-- R333, R334, R444 to R449: staging and the request of an activation. -/
def Obligations.FirmwareStagingCompletes : Prop :=
  ∀ (s u : State) (r : Req) (mb t : Nat),
    (begins s mb t (Cmd.fixed 0x0701 72 [2] true []) = some (u, r) → u.fw.act = 0 → r.f 0 4 ≤ fwMax → r.f 4 4 = fwChunks (r.f 0 4) → r.data.length = 4 * fwChunks (r.f 0 4) →
      let digest := (r.payload.drop 8).take 64
      (u.fw.staging = true → u.fw.stageDigest = digest → exec (.fwStageBegin mb t) s = .next (answered u u mb (Resp.ok_ (leBytes 4 u.fw.chunks.length ++ u.fw.bitmap)))) ∧
      (u.fw.staging = false ∨ u.fw.stageDigest ≠ digest → exec (.fwStageBegin mb t) s = .next { u with fw := { u.fw with
        staging := true, erasing := true, stageLen := r.f 0 4, stageDigest := digest, manifest := r.data, chunks := [], parts := [], writing := none } })) ∧
    ((s.advance t).fw.erasing = true → let v : State := { s.advance t with fw := { (s.advance t).fw with erasing := false } }
      exec (.stagingEraseDone t) s = .next (v.answerOp 0x0701 (Resp.ok_ (leBytes 4 v.fw.chunks.length ++ v.fw.bitmap)))) ∧
    (begins s mb t (Cmd.fixed 0x0702 4 [2] true [(3, 1)]) = some (u, r) → u.fw.act = 0 → u.fw.staging = true → u.fw.erasing = false →
      let c := r.f 0 2
      let q := r.f 2 1
      let n := partCount u.fw.stageLen c
      let parts := Tab.set u.fw.parts (c * 64 + q) r.data
      let rest := parts.filter (fun (e : Nat × List Byte) => decide (e.1 / 64 ≠ c))
      let b := (List.range n).flatMap (fun i => Tab.get [] parts (c * 64 + i))
      c < fwChunks u.fw.stageLen → q ≤ 63 → 0 < partLen u.fw.stageLen c q → r.data.length = partLen u.fw.stageLen c q → Tab.has u.fw.chunks c = false →
      ((List.range n).any (fun i => !Tab.has parts (c * 64 + i)) = true →
        let v : State := { u with fw := { u.fw with parts := parts } }
        exec (.fwChunk mb t) s = .next (answered u v mb (v.chunkResp c))) ∧
      ((List.range n).any (fun i => !Tab.has parts (c * 64 + i)) = false → shake256 b 4 = (u.fw.manifest.drop (4 * c)).take 4 →
        exec (.fwChunk mb t) s = .next { u with fw := { u.fw with parts := rest, writing := some (c, b) } }) ∧
      ((List.range n).any (fun i => !Tab.has parts (c * 64 + i)) = false → shake256 b 4 ≠ (u.fw.manifest.drop (4 * c)).take 4 →
        exec (.fwChunk mb t) s = .next (answered u { u with fw := { u.fw with parts := rest } } mb (Resp.err 0x0702)))) ∧
    (∀ c b, (s.advance t).fw.writing = some (c, b) →
      let v : State := { s.advance t with fw := { (s.advance t).fw with writing := none, chunks := Tab.set (s.advance t).fw.chunks c b } }
      exec (.chunkWriteDone t) s = .next (v.answerOp 0x0702 (v.chunkResp c))) ∧
    (begins s mb t (Cmd.fixed 0x0703 0 [1, 2] false []) = some (u, r) → r.staged = false → exec (.fwStatus mb t) s = .next (answered u u mb
      (Resp.ok_ (leBytes 4 (fwVersion u.fw.runImage) ++ leBytes 4 (fwVersion (u.fw.slots.getD (1 - u.fw.run) [])) ++ leBytes 4 (if u.fw.whole then fwVersion u.fw.staged else 0)
        ++ leBytes 4 u.fw.chunks.length ++ leBytes 1 u.fw.arb ++ leBytes 1 u.fw.flags ++ zeros 2 ++ leBytes 4 u.leaseS ++ u.fw.bitmap)))) ∧
    (begins s mb t (Cmd.fixed 0x0704 0 [2] false []) = some (u, r) → r.staged = false → u.activateStatus = 0 → exec (.fwActivate mb t) s = .next (answered u
      { u with fw := { u.fw with act := 1, reqAt := u.time.now, reqSeq := r.seq, leaseEnd := none, leaseUsed := false, prepared := false, fail := 0 } } mb (Resp.ok_ (leBytes 4 0 ++ leBytes 4 60)))) ∧
    (begins s mb t (Cmd.fixed 0x0705 4 [1] false []) = some (u, r) → r.staged = false → u.fw.act = 1 → u.fw.leaseUsed = false → 1 ≤ r.f 0 4 → r.f 0 4 ≤ 86400 →
      exec (.fwDefer mb t) s = .next (answered u { u.addOrder 0x0704 2 (partyCode mb) u.fw.reqSeq 1 1 with fw := { u.fw with leaseEnd := some (u.time.now + r.f 0 4 * 1000 * ms), leaseUsed := true } } mb (Resp.ok_ (leBytes 4 (r.f 0 4)))))

/-- R441, R448 to R453: an activation from its preparation to its end. What a boot record and the handover record are made of in bytes is the model's choice (log entries 133, 134). The cause a failed self-check records is log entry 87 (DEDUCED). -/
def Obligations.FirmwareHandsOverAndRollsBack : Prop :=
  ∀ (s : State) (left : List Byte) (own cut : Bool) (t : Nat), let s0 := s.advance t
    let f := s0.fw
    (f.act = 1 → f.prepared = false → s0.fwValid f.staged = true → exec (.activationPrepDone true left t) s = .next { s0 with
      fw := { f with prepared := true, slots := f.slots.set (1 - f.run) f.staged, standby := fwPart f.staged 1, watchBank := fwPart f.staged 2 } }) ∧
    (f.act = 1 → f.prepared = false → ∃ u, exec (.activationPrepDone false left t) s = .next u ∧ u.fw.act = 0 ∧ u.fw.slots = f.slots.set (1 - f.run) left) ∧
    (f.act = 1 → f.prepared = true → watchCycle f.beginsAt < watchCycle s0.time.now → s0.shown ≠ psBoot → s0.shown ≠ psTrain → s0.shown ≠ psTear → s0.spr.state ≠ 3 → s0.ld.active = false →
      ∃ u, exec (.activationBegin t) s = .next u ∧ u.fw = { f with act := 2, leaseEnd := none } ∧ u.logs.events.length = s0.logs.events.length + 1) ∧
    (s0.handRecord.good = true) ∧
    (f.act = 2 → (∀ n, n < 6 → (s0.mbx n).busy = false ∧ (s0.mbx n).ghost = none) → ∃ u, exec (.handoverStart t) s = .next u ∧ (∀ n, n < 6 → (u.mbx n).handover = true) ∧
      u.fw = { f with
        act := 3, record := some s0.handRecord, run := 1 - f.run, prev := f.run, runImage := f.slots.getD (1 - f.run) [], region := f.standby, standby := f.region,
        prepared := false, runAt := s0.time.now }) ∧
    (∀ r, f.act = 3 → f.fail = 0 → f.record = some r → r.good = true → exec (.handoverImport true t) s = .next { s0 with fw := { f with act := 4 } }) ∧
    (f.act = 3 → f.fail = 0 → exec (.handoverImport false t) s = .next { s0 with fw := { f with fail := 1 } }) ∧
    (f.act = 4 → s0.pkg.watchStall = false → s0.atBoundary = true → exec (.watchBankSwitch t) s = .next { s0 with
      fw := { f with act := 5, watch := f.watchBank, watchBank := f.watch, watchNext := none } }) ∧
    (f.act = 5 → ∃ u, exec (.handoverEnd t) s = .next u ∧ (∀ n, n < 6 → (u.mbx n).handover = false) ∧ u.fw = { f with act := 6, selfAt := s0.time.now, record := none, fail := 0 }) ∧
    (f.act = 6 → f.fail = 0 → s0.beatStood = false → f.selfAt + 60000 * ms ≤ s0.time.now → ∃ u, exec (.selfCheckPass cut t) s = .next u ∧
      u.fw.recs = (f.writeBoot f.run cut).recs ∧ (cut = true → u.fw.act = 6) ∧
      (cut = false → u.fw.act = 0 ∧ u.fw.staging = false ∧ u.fw.chunks = [] ∧ u.fw.arb = min 64 (max f.arb (fwSvn f.runImage)))) ∧
    (∀ slot, f.bootSeq + 1 < 2 ^ 32 → f.recs.length = 2 → (f.writeBoot slot false).active = slot ∧ (f.writeBoot slot false).bootSeq = f.bootSeq + 1 ∧
      ((f.recs.getD 0 ⟨0, 0, []⟩).good = true → (f.recs.getD 1 ⟨0, 0, []⟩).good = true →
        (f.recs.getD 0 ⟨0, 0, []⟩).seq ≠ (f.recs.getD 1 ⟨0, 0, []⟩).seq → (f.writeBoot slot true).active = f.active)) ∧
    (f.act = 6 → f.fail ≠ 0 → ∃ u, exec (.rollback own t) s = .next u ∧ u.fw.act = 7 ∧ u.fw.run = f.prev ∧ u.fw.runImage = f.slots.getD f.prev [] ∧ u.fw.region = f.standby ∧
      u.fw.watchNext = some f.watchBank ∧ u.fw.rolled = true ∧
      (∀ n, n < 6 → (u.mbx n).handover = true)) ∧
    (s0.booted = true → s0.pkg.bootOk = true → f.act ≠ 6 → f.act ≠ 7 → f.run = f.active → f.runAt + 60000 * ms ≤ s0.time.now →
      exec (.arbRaise t) s = .next { s0 with fw := { f with arb := min 64 (max f.arb (fwSvn f.runImage)), revoked := f.revoked ||| (leAt f.runImage 13 1 % 16) } })

/-- R338, R339, R458 to R460, R464, R467: scopes and perturbations. The order of the checks of PERTURB_SET is log entry 93 (DEDUCED). -/
def Obligations.ScopesAndPerturbationsComplete : Prop :=
  ∀ (s u : State) (r : Req) (mb t : Nat), let s0 := s.advance t
    (begins s mb t ⟨0x0A01, fun _ p => p.length == 8, [1, 2], false, fun p => leAt p 0 1 / 4 == 0 && zeroAt p 1 3⟩ = some (u, r) → r.staged = false → u.pert.strapLow = true →
      r.f 0 1 = 1 → 1 ≤ r.f 4 4 → r.f 4 4 ≤ 86400 →
      let a := u.askScope (askParty r) 0 (r.f 4 4)
      let v := if a.2 then a.1.event 0x0030 5 (1 + 256 * partyCode mb) else a.1
      exec (.debugEnable mb t) s = .next (answered u v mb v.scopeResp) ∧
      (∀ o, u.askOf (1 - askParty r) 0 = some o → u.pert.pertEnd = none → v.pert.pertEnd = some (u.time.now + min (r.f 4 4) o.secs * 1000 * ms))) ∧
    (begins s mb t ⟨0x0A02, fun _ p => p.length == 4, [1, 2], false, fun p => leAt p 0 1 / 4 == 0 && zeroAt p 1 3⟩ = some (u, r) → r.staged = false → r.f 0 1 ≠ 0 →
      exec (.debugDisable mb t) s = .next (answered u (u.endScopes (r.f 0 1) 2) mb (u.endScopes (r.f 0 1) 2).scopeResp)) ∧
    (begins s mb t (Cmd.fixed 0x0A03 8 [1, 2] false [(2, 2)]) = some (u, r) → r.staged = false → 1 ≤ r.f 0 2 → r.f 0 2 ≤ 12 → u.pertScope (u.regTime mb) = true →
      u.pert.strapLow = true → u.pertValueOk (r.f 0 2) (r.f 4 4) = true → u.pertClash (r.f 0 2) (r.f 4 4) = none →
      ∃ v, exec (.perturbSet mb t) s = .next (answered u v mb (Resp.ok_ (leBytes 4 (r.f 4 4)))) ∧ v.pert.regs = Tab.set u.pert.regs (r.f 0 2) (r.f 4 4) ∧ v.pert.eff = u.pert.eff ∧
        v.logs.events = u.logs.events ++ [⟨u.time.ft, 0x0032, 5, r.f 0 2 % 256 + 256 * partyCode mb + 2 ^ 32 * r.f 4 4⟩]) ∧
    (begins s mb t (Cmd.fixed 0x0A04 4 [1, 2] false [(2, 2)]) = some (u, r) → r.staged = false → 1 ≤ r.f 0 2 → r.f 0 2 ≤ 12 →
      exec (.perturbGet mb t) s = .next (answered u u mb (Resp.ok_ (leBytes 4 (Tab.get 0 u.pert.regs (r.f 0 2)))))) ∧
    exec (.ptLinkDelay t) s = .next (s0.takeReg 1).showTrigger ∧ exec (.ptCreditHold t) s = .next ((s0.takeReg 2).settleCredits).showTrigger ∧
    exec (.ptLakeLat t) s = .next (s0.takeReg 3).showTrigger ∧ exec (.ptMbxDelay t) s = .next (s0.takeReg 4).showTrigger ∧
    exec (.ptClkStart t) s = .next (s0.takeReg 9).showTrigger ∧
    (s0.atBoundary = true →
      exec (.ptMeasOfs t) s = .next (s0.takeReg 5).showTrigger ∧ exec (.ptTempOfs t) s = .next (s0.takeReg 6).showTrigger ∧ exec (.ptFlowOfs t) s = .next (s0.takeReg 7).showTrigger ∧
      exec (.ptChecks t) s = .next (s0.takeReg 10).applyChecks ∧
      (let w := s0.takeReg 8
       let v : State := { w with pert := { w.pert with shedNew := false } }
       s0.pert.shedNew = true →
        (bitAt (Tab.get 0 s0.pert.regs 8) 0 = true → s0.timerEn = false → exec (.ptForceShed t) s = .next v.startShed.showTrigger) ∧
        (bitAt (Tab.get 0 s0.pert.regs 8) 0 = false → exec (.ptForceShed t) s = .next v.endShed.showTrigger)) ∧
      (s0.pert.shedNew = false → exec (.ptForceShed t) s = .next s0) ∧
      (bitAt (Tab.get 0 s0.pert.regs 11) 0 = true → exec (.ptTrigger t) s = .next (s0.takeReg 11).showTrigger) ∧
      (∃ v, exec (.ptTimer t) s = .next v ∧ v.pert.eff = (s0.takeReg 12).pert.eff ∧ v.pert.timerAt = s0.pert.timerSet)) ∧
    (∀ e, s0.pert.shedEnd = some e → e ≤ s0.time.now → exec (.forcedShedEnd t) s = .next (s0.endShed).showTrigger) ∧
    (s0.timerEn = true → exec (.ptTimerEdge t) s = .next (s0.setWindow s0.inWindow)) ∧
    (∀ e, s0.pert.pertEnd = some e → e ≤ s0.time.now → s0.pert.debugEnd = none → exec (.debugScopeExpiry t) s = .next (s0.endScopes 1 1)) ∧
    exec (.debugEnNAssert t) s = .next { s0 with pert := { s0.pert with strapLow := true } } ∧
    (∃ v, exec (.debugEnNDeassert t) s = .next v ∧ v.pert.strapLow = false ∧ v.pert.pertEnd = none ∧ v.pert.debugEnd = none)

/-- R465 to R467: the test port. Status 1 until an access is made is log entry 96 (DEDUCED). -/
def Obligations.JtagAndDebugAccessComplete : Prop :=
  ∀ (s : State) (lands shift a v same t : Nat) (req rsp : List (Nat × Nat)), let s0 := s.advance t
    (s.pkg.under = psOff → exec .idcode s = .next s ∧ exec (.samplePreload lands shift) s = .next s ∧ exec (.extest lands shift) s = .next s ∧ exec .clamp s = .next s ∧
      exec .highz s = .next s ∧ exec .bypass s = .next s ∧ exec .dap s = .next s) ∧
    (s.pkg.under ≠ psOff → exec .idcode s = .next ((s.setIr 1).emit 10 idcode) ∧
    exec (.samplePreload lands shift) s = .next ((s.setIr 2).boundaryScan lands shift) ∧
    (s.jtagFree = true → exec (.extest lands shift) s = .next ((s.setIr 3).boundaryScan lands shift)) ∧
    (s.jtagFree = false → exec (.extest lands shift) s = .next ((s.setIr 3).emit 10 0)) ∧
    exec .clamp s = .next ((s.setIr 4).emit 10 0) ∧ exec .highz s = .next ((s.setIr 5).emit 10 0) ∧ exec .bypass s = .next ((s.setIr 0xFF).emit 10 0) ∧
    (s.jtag.access = none → exec .dap s = .next ((s.setIr 0x10).emit 10 (place s.jtag.data 32 41 + place s.jtag.status 3 73)))) ∧
    (s0.pkg.under ≠ psOff → s0.jtag.ir = 0x10 → s0.jtag.access = none →
      let s1 := s0.emit 10 (place s0.jtag.data 32 41 + place s0.jtag.status 3 73)
      (s0.debugOn = false → exec (.dapRead a same req rsp t) s = .next (s1.dapEnd 3 none) ∧ exec (.dapWrite a v req rsp t) s = .next (s1.dapEnd 3 none)) ∧
      (s0.debugOn = true → regBase ≤ a % 2 ^ 39 * 4 →
        let b := a % 2 ^ 39 * 4
        exec (.dapRead a same req rsp t) s = .next ((s1.regClear b same).dapEnd 0 (some (s1.regShown b same % 2 ^ 32))) ∧
        (regWritable b = true → exec (.dapWrite a v req rsp t) s = .next ((s1.regWrite b (v % 2 ^ 32)).dapEnd 0 none)) ∧
        (regWritable b = false → exec (.dapWrite a v req rsp t) s = .next ((s1.event 0x0032 5 0).dapEnd 2 none))) ∧
      (s0.debugOn = true → a % 2 ^ 39 * 4 < lakeEnd →
        exec (.dapRead a same req rsp t) s = .next (s1.dapLake (a % 2 ^ 39 * 4) none req rsp) ∧
        exec (.dapWrite a v req rsp t) s = .next (s1.dapLake (a % 2 ^ 39 * 4) (some (v % 2 ^ 32)) req rsp)) ∧
      (∀ x, s0.debugOn = true → x.data = some (v % 2 ^ 32) → lakeEnd ≤ a % 2 ^ 39 * 4 → a % 2 ^ 39 * 4 < regBase → s1.dapWindow (a % 2 ^ 39 * 4) = some (x.pti, x.space, x.off) →
        exec (.dapWrite a v req rsp t) s = .next ({ s1 with jtag := { s1.jtag with access := some x } }.dapEnd 1 none).dapServe))

/-- R276, R345 to R348, R407 to R413: the kill and what follows. What becomes of a command that had begun is log entry 62 (DEDUCED). -/
def Obligations.KillsAndTeardownComplete : Prop :=
  ∀ (s : State) (l k core t : Nat) (rsp : List (Nat × List (Nat × Nat))), let s0 := s.advance t
    (s0.ctx.killDue ≠ 0 → exec (.contextKill t) s = .next (s0.beginKill 1 s0.lpn s0.ctx.id true) ∧
      (s0.ctx.accepted = true → s0.ctx.killing = false → (s0.beginKill 1 s0.lpn s0.ctx.id true).ctx.killing = true ∧ (s0.beginKill 1 s0.lpn s0.ctx.id true).ctx.phase = 1 ∧
        (s0.beginKill 1 s0.lpn s0.ctx.id true).ctx.killCause = 1 ∧ (s0.beginKill 1 s0.lpn s0.ctx.id true).pkg.under = psTear)) ∧
    (s0.ctx.killing = true → s0.ctx.phase = 1 → s0.ctx.warm = 0 → s0.ctx.gen + 1 < 0xFFFF → ∃ u, exec (.abortSend t) s = .next u ∧
      u.ctx.gen = s0.ctx.gen + 1 ∧ u.ctx.accepted = false ∧ u.ctx.genLive = false ∧ u.ctx.phase = 3 ∧ u.ctx.abortSent = true ∧ ∀ j, j < 8 → (u.stack j).gen = s0.ctx.gen + 1) ∧
    (∀ m u, s0.takeRx l (isMgt 2) = some (.mgt m, u) → u.ctx.relayed.contains (fld m.arg 31 0, m.gen, fld m.arg 50 32) = false →
      u.ctx.genLive = true → m.gen = u.ctx.gen → fld m.arg 31 0 = u.ctx.id → fld m.arg 50 32 ≠ u.pid → u.ctx.killDue = 0 →
      let v := ({ u with ctx := { u.ctx with relayed := u.ctx.relayed ++ [(fld m.arg 31 0, m.gen, fld m.arg 50 32)] } }).broadcast m (some l)
      exec (.abort l t) s = .next (v.beginKill 2 m.slpn (fld m.arg 31 0) true)) ∧
    (s0.ctx.killing = true → s0.ctx.phase = 3 → ∃ u, exec (.lakeDrainEnd rsp t) s = .next u ∧ u.ctx.phase = 4 ∧ u.ctx.lakeLeft = List.range 8 ∧
      ∀ j, j < 8 → (u.stack j).zeroing = true) ∧
    (s0.ctx.killing = true → s0.ctx.phase = 4 →
      (s0.ctx.glazeZeroed = false → exec (.glazeZeroDone t) s = .next (let w := s0.clearGlaze.setDieZeroing false
        { w with ctx := { w.ctx with glazeZeroed := true } }.tearCheck)) ∧
      (s0.ctx.tileZeroed = false → exec (.tileZeroDone t) s = .next
        ({ s0 with tiles := mapTiles Tile.cleared s0.tiles, seq := { s0.seq with table := [] }, ctx := { s0.ctx with tileZeroed := true } }).tearCheck) ∧
      (s0.ctx.lakeLeft.contains k = true → (s0.stack k).awake = true → exec (.lakeZeroDone k rsp t) s = .next (let w := s0.zeroEnd k rsp
        { w with ctx := { w.ctx with lakeLeft := w.ctx.lakeLeft.erase k } }.tearCheck))) ∧
    (s0.pkg.mordRuns = true → ∃ u, exec (.mordantRestart core t) s = .next u ∧ u.pkg.mordRuns = false ∧ u.pkg.mordBack = some (s0.time.now + 200 * ms) ∧
      u.faults.mordRestarts = satInc 8 s0.faults.mordRestarts ∧ bitAt u.faults.sticky 11 = true ∧ u.fw.parts = []) ∧
    (∀ b, s0.pkg.mordBack = some b → s0.pkg.bootOk = true → s0.booted = true →
      let v : State := { s0 with pkg := { s0.pkg with mordRuns := true, mordBack := none } }
      exec (.mordantRestartEnd [] t) s = .next v ∧
      (∀ n i reg, n < 6 → v.headReg n = some (i, reg) → reg + 200 * ms ≤ b → exec (.mordantRestartEnd [n] t) s = .next ((v.slotErrors n).answer n (Resp.err 5)))) ∧
    (∀ d r, s0.logs.pendingDefects = d :: r → s0.booted = true →
      (s0.logs.defects.any d.same = false → s0.logs.defects.length < 4096 → ∃ u, exec (.defectListWrite t) s = .next u ∧
        u.logs.pendingDefects = r ∧ u.logs.defects = s0.logs.defects ++ [{ d with ft := s0.time.ft }]) ∧
      (s0.logs.defects.any d.same = true → ∃ u, exec (.defectListWrite t) s = .next u ∧
        u.logs.pendingDefects = r ∧ u.logs.defects = markIn d s0.logs.defects ∧ u.logs.defects.length = s0.logs.defects.length)) ∧
    (∀ d e : Defect, d.same e = decide (e.kind = d.kind ∧ e.location = d.location))

/-- R366, R368 to R370, R373, R378, R382, R387, R392, R395, R398: the power manager's periodic work. How the limits are held is the model's choice (log entry 49), and so are the energy
coefficients and the static power, free values (log entry 147). -/
def Obligations.ControlPeriodSetsLimitAndFractions : Prop :=
  ∀ (s : State) (a b va vb d t : Nat) (ts : List (Nat × Nat)) (dem : List Nat), let s0 := s.advance t
    (s0.pw.periodAt + 100 * us ≤ s0.time.now → s0.pkg.watchStall = false → ∃ u, exec (.controlPeriod a b va vb ts dem t) s = .next u ∧
      u.pw.periodAt = s0.time.now ∧ u.pw.hwFreeze = [] ∧
      u.pw.limit = (if u.pw.sprintAt.isSome then 3400 else min u.m.capHost (min u.m.capMgr u.pw.capHw)) ∧
      u.pw.overAt = (if u.pw.limit < u.pw.p then some (s0.pw.overAt.getD s0.time.now) else none) ∧ u.pw.chipLimit = 300000 * 20 / (va + vb) ∧
      u.pw.est = (s0.sense ts).estimate ∧ u.pw.dieTemp = (s0.sense ts).pw.dieTemp ∧ u.net.flits = 0 ∧
      (let late : Bool := match u.pw.overAt with
          | some a => decide (a + 9900 * us ≤ s0.time.now)
          | none => false
        u.pw.run = allDies.map (fun d => u.pw.fraction dem (allot (if late then 0 else u.pw.limit - (u.pw.winP - u.pw.winL)) dem) d)) ∧ (∀ n ∈ u.pw.run, n ≤ 16) ∧
      u.m = s0.m ∧ u.lake.mem = s0.lake.mem) ∧
    (s0.pw.periodAt + 100 * us ≤ s0.time.now → s0.pkg.watchStall = true → ∃ u, exec (.controlPeriod a b va vb ts dem t) s = .next u ∧
      u.pw.periodAt = s0.time.now ∧ u.pw.hwFreeze = [] ∧ u.pw.run = s0.pw.run ∧ u.pw.limit = s0.pw.limit ∧ u.pw.capHw = s0.pw.capHw) ∧
    (exec (.dieFreeze d t) s = .next (s0.applyDuty (d % 4))) ∧
    (s0.pkg.watchStall = false → s0.pw.winAt + 100 * ms ≤ s0.time.now → ∃ u, exec (.calibrationWindow t) s = .next u ∧ 3072 ≤ u.pw.k ∧ u.pw.k ≤ 5447 ∧
      u.pw.winM = 0 ∧ u.pw.winE = 0 ∧ u.pw.winP = 0 ∧ u.pw.winL = 0 ∧ u.pw.winAt = s0.time.now) ∧
    (∀ lim, allot lim dem * (demand dem 5 + demand dem 6 + demand dem 7 + demand dem 8) ≤
      16 * (3200 - (demand dem 9 + demand dem 10 + demand dem 11 + demand dem 12 + demand dem 13 + demand dem 14))) ∧
    (∀ lim, s0.pw.safeCap = false → s0.pw.fraction dem (allot lim dem) d * demand dem (5 + d) ≤ 16 * (s0.pw.rated d - demand dem (11 + d))) ∧
    (∀ r, s0.pw.rampAt = some r → r ≠ 0 → r ≤ s0.time.now → s0.rampHeld = false → s0.pw.rampLow = false → s0.pkg.watchStall = false → ∃ u, exec (.capHwRamp t) s = .next u ∧
      u.pw.capHw = min s0.pw.termMin (s0.pw.capHw + min s0.m.capHost s0.m.capMgr / 5) ∧
      u.pw.rampAt = (if u.pw.capHw < s0.pw.termMin then some (s0.time.now + 10 * ms) else none)) ∧
    (s0.pkg.watchStall = false → s0.pw.binAt + 60000 * ms ≤ s0.time.now → ∃ u, exec (.sprintBinRoll t) s = .next u ∧
      u.pw.bins = (s0.sprintTick.pw.curBin :: s0.pw.bins).take 1439 ∧ u.pw.curBin = 0 ∧ u.pw.binAt = s0.time.now ∧ u.pw.flashBins = 0 :: u.pw.bins)

/-- R366 to R370, R388 to R393, R414: the responses. The terms are log entry 49 and the one freeze of two sheds is log entry 139 (both DEDUCED). -/
def Obligations.PowerResponsesComplete : Prop :=
  ∀ (s : State) (d reg phase location inlet outlet pressure t : Nat), let s0 := s.advance t
    let p := s0.pw
    (p.shedLow = false →
      let v : State := { s0 with pw := { p with shedLow := true, sheds := satInc 8 p.sheds } }
      exec (.shedNAssert t) s = .next (if s0.forced then v else v.hwFreeze allDies).respond) ∧
    exec (.shedNDeassert t) s = .next { s0 with pw := { p with shedLow := false } } ∧
    (p.leakLow = false → ∃ u, exec (.leakNAssert t) s = .next u ∧ u.pw.leakLow = true ∧ u.pw.leakResp = true ∧ u.pw.leaks = satInc 8 p.leaks ∧ u.pw.cstop.isSome = true ∧
      u.pw.sprintAt = none ∧ ∀ k, k < 4 → u.frozenDie k = true) ∧
    (p.leakLow = true → exec (.leakNDeassert t) s = .next { s0 with pw := { p with leakLow := false, leakHighAt := some s0.time.now } }) ∧
    (p.leakResp = true → p.leakFree s0.time.now = true → exec (.leakRelease t) s = .next { s0 with pw := { p with leakResp := false } }) ∧
    (bitAt (s0.ptReg 7) 8 = false → ∃ u, exec (.flowPulseEdge t) s = .next u ∧ u.pw.edges = (s0.time.now :: p.edges).take 17) ∧
    (s0.pkg.watchStall = false → p.flowResp = none → s0.flowBad = true → s0.booted = true → ∃ u, exec (.flowTimeout t) s = .next u ∧
      u.pw.flowResp = some s0.time.now ∧ u.pw.run = [0, 0, 0, 0] ∧ u.pw.flows = satInc 8 p.flows ∧ u.pw.sprintAt = none) ∧
    (∀ a, p.flowGood = some a → p.flowResp ≠ none → a + 1000 * ms ≤ s0.time.now → s0.flowBad = false → s0.pkg.watchStall = false →
      exec (.flowRelease t) s = .next { s0 with pw := { p with flowResp := none, stopFree := some s0.time.now } }) ∧
    (∀ a, p.flowResp = some a → a + 5000 * ms ≤ s0.time.now → s0.pkg.watchStall = false → p.cstop.any (fun c => bitAt c.cause 1) = false → exec (.flowStopTimeout t) s = .next (s0.startStop 2).respond) ∧
    (∀ c, p.cstop = some c → c.start + 100 * ms ≤ s0.time.now ∨ s0.busyDies = [] → ∃ u, exec (.controlledStopFreeze t) s = .next u ∧
      u.pw.cstop = some { c with held := s0.busyDies } ∧ u.pw.run = allDies.map (fun d => if s0.busyDies.contains d then 0 else p.run.getD d 16)) ∧
    (∀ c, p.cstop = some c → c.cause = 1 → p.leakFree s0.time.now = true → p.flowResp = none → exec (.controlledStopEnd t) s = .next { s0 with pw := { p with cstop := none } }) ∧
    exec (.holdNAssert t) s = .next (s0.addHold 1) ∧ (s0.addHold 1).m.holders.contains 1 = true ∧
    exec (.holdNDeassert t) s = .next (s0.dropHold 1) ∧
    exec (.stage1CurrentLimit t) s = .next ((s0.hwFreeze allDies).respond) ∧
    (d < 4 → exec (.regulatorCurrentLimit d t) s = .next ((s0.hwFreeze [d]).respond) ∧ ((s0.hwFreeze [d]).respond).frozenDie d = true) ∧
    s.respond.pw.sprintAt = none ∧ s.respond.pw.respNew = true ∧
    (reg < 6 → ∃ u, exec (.converterPhaseFail reg phase t) s = .next u ∧ u.pw.phases = p.phases.set reg (p.phases.getD reg 0 + 1) ∧ bitAt u.faults.sticky 8 = true) ∧
    exec (.regulatorOutOfRegulation reg) s = .next { s with pkg := { s.pkg with pgOut := false, hPower := s.pkg.hPower && reg != 4 } } ∧
    (∀ a, Tab.find p.sensorSince location = some a → a + 100 * ms ≤ s0.time.now → exec (.sensorDisagree location t) s = .next (s0.recordFault 9 false 0xFFFF location 0)) ∧
    exec (.coldPlateRead true inlet outlet pressure t) s = .next { s0 with pw := { p with
      inlet := s0.tempRead 6 (inlet, inlet), outlet := s0.tempRead 7 (outlet, outlet), pressure := pressure, coldFail := none, coldAbsent := false } } ∧
    (∀ a, p.coldFail = some a → a + 100 * ms ≤ s0.time.now → p.coldAbsent = false → ∃ u, exec (.coldPlateRead false inlet outlet pressure t) s = .next u ∧
      u.pw.coldAbsent = true ∧ u.pw.inlet = 160 ∧ bitAt u.faults.sticky 9 = true) ∧
    (∃ u, exec (.watchCoreStall t) s = .next u ∧ u.pkg.watchStall = true ∧ u.pw.safeCap = true ∧ u.pw.run = [4, 4, 4, 4] ∧ u.pw.sprintAt = none) ∧
    (s0.pkg.watchStall = true → ∃ u, exec (.watchCoreRestart t) s = .next u ∧ u.pkg.watchStall = false ∧ u.pw.safeCap = false ∧
      u.faults.watchRestarts = satInc 8 s0.faults.watchRestarts ∧ u.logs.faults.length = s0.logs.faults.length + 1)

/-- R340, R391, R418, R367, R430, R475 to R480, R483: the pins. The operating points of the cores are free (log entry 114, DESIGN CHOICE); that one row completes the passage to STANDBY is
log entry 116 (DEDUCED); the levels of the straps and who pulls THERMTRIP_N low are operands (log entry 143). -/
def Obligations.PinsMoveThePackage : Prop :=
  ∀ (s : State) (straps t : Nat) (thermLow : Bool), let s0 := s.advance t
    (s.pkg.blade = false → s.pkg.under = psOff → ∃ u, exec (.bladePowerUp straps thermLow) s = .next u ∧ u.pkg.blade = true ∧ u.pid = straps % 2 ^ 19 ∧ u.time.ft = 0 ∧
      (thermLow = true → u.pkg.under = psStandby)) ∧
    (s0.pkg.blade = true → exec (.bladePowerLoss t) s = .next { s0 with pkg := { s0.pkg with blade := false, bladeLow := some s0.time.now } }) ∧
    (∀ a, s0.pkg.bladeLow = some a → a + 10 * ms ≤ s0.time.now → ∃ u, exec (.holdUpExpiry t) s = .next u ∧ u.pkg.under = psOff ∧ u.pkg.pgOut = false ∧ u.pkg.bladeLow = none) ∧
    (s0.pkg.under = psStandby → s0.pkg.cycleNeeded = false → s0.pkg.mated = true → s0.pkg.therm = false → s0.pkg.thermExt = false →
      ∃ u, exec (.pwrEnHigh straps t) s = .next u ∧ u.pkg.under = psBoot ∧ u.pid = straps % 2 ^ 19 ∧ u.pkg.stage1 = true ∧ u.pkg.warm = false ∧ u.fw.boots = s0.fw.boots + 1 ∧ u.ctx.gen = 0 ∧ u.gate = s0.pkg.fenceLow ∧
        u.pw.coreV = (List.range 6).map coreVolts) ∧
    (s0.pkg.under = psStandby → s0.pkg.pwrEn = true → s0.pkg.cycleNeeded = false → s0.pkg.therm = false → s0.pkg.thermExt = false →
      ∃ u, exec (.prsntNAssert straps t) s = .next u ∧ u.pkg.under = psBoot ∧ u.pid = straps % 2 ^ 19 ∧ u.pkg.mated = true) ∧
    (s0.pkg.under = psStandby → s0.pkg.pwrEn = true → s0.pkg.cycleNeeded = false → s0.pkg.therm = false → s0.pkg.mated = true →
      ∃ u, exec (.thermtripNDeassert t) s = .next u ∧ u.pkg.under = psBoot ∧ u.pkg.thermExt = false) ∧
    (psBoot ≤ s0.pkg.under →
      (∃ u, exec (.pwrEnLow t) s = .next u ∧ u.pkg.under = psStandby ∧ u.gate = true ∧ u.pkg.pwrEn = false ∧ u.pkg.stage1 = false ∧ u.lake.mem = [] ∧ u.ctx.accepted = false) ∧
      (∃ u, exec (.prsntNBreak t) s = .next u ∧ u.pkg.under = psStandby ∧ u.gate = true ∧ u.pkg.mated = false ∧ u.pkg.unclean = true) ∧
      (∃ u, exec (.thermtrip false t) s = .next u ∧ u.pkg.under = psStandby ∧ u.gate = true ∧ u.pkg.therm = true) ∧
      (psOff ≠ s0.pkg.under → exec (.thermtrip true t) s = .next { s0 with pkg := { s0.pkg with thermExt := true } }) ∧
      (s0.pkg.stage1 = true →
        (∃ u, exec (.bladeUndervoltage t) s = .next u ∧ u.pkg.under = psStandby ∧ u.gate = true ∧ u.pkg.cycleNeeded = true) ∧
        (∃ u, exec (.bladeOvervoltage t) s = .next u ∧ u.pkg.under = psStandby ∧ u.gate = true ∧ u.pkg.cycleNeeded = true) ∧
        (∃ u, exec (.refclkLoss t) s = .next u ∧ u.pkg.under = psStandby ∧ u.gate = true ∧ u.pkg.refLost = true ∧ u.time.ft = (s.advance (t - 10 * us)).time.ft) ∧
        exec (.powerGood t) s = .next { s0 with pkg := { s0.pkg with pgOut := true, hPower := true } }) ∧
      (∃ u, exec (.fenceInAssert t) s = .next u ∧ u.pkg.fenceLow = true ∧ u.pkg.fenced = true ∧ u.gate = true) ∧
      (s0.pkg.fenced = true → s0.ctx.accepted = false → s0.ctx.killing = false → ∃ u, exec (.fenceRelease t) s = .next u ∧ u.pkg.under = psBoot ∧ u.pkg.fenced = false ∧ u.gate = false ∧
        u.pkg.warm = true ∧ u.faults.lastReset = 4)) ∧
    (∀ a, s0.pkg.pwrLowAt = some a → a + 1000 * ms ≤ s0.time.now → exec (.thermtripNRelease t) s = .next { s0 with pkg := { s0.pkg with therm := false } })

/-- R344 to R349, R447: from `BOOT` to the first configuration. -/
def Obligations.BootTestsAndTrainsThePackage : Prop :=
  ∀ (s : State) (t : Nat), let s0 := s.advance t
    let img := fun (k : Nat) => s0.fw.slots.getD k []
    (s0.pkg.under = psBoot → s0.pkg.bootOk = false →
      (s0.fwValid (img (s0.fw.active % 2)) = true → ∃ u, exec (.firmwareBootVerify t) s = .next u ∧ u.pkg.bootOk = true ∧ u.pkg.mordRuns = true ∧ u.fw.run = s0.fw.active % 2 ∧
        u.fw.runImage = img (s0.fw.active % 2) ∧ u.fw.rolled = false ∧ u.logs = s0.logs) ∧
      (s0.fwValid (img (s0.fw.active % 2)) = false → s0.fwValid (img (1 - s0.fw.active % 2)) = true → ∃ u, exec (.firmwareBootVerify t) s = .next u ∧ u.pkg.bootOk = true ∧
        u.fw.run = 1 - s0.fw.active % 2 ∧ u.fw.rolled = true ∧ u.logs.events = s0.logs.events ++ [⟨s0.time.ft, 0x0023, 5, 1 - s0.fw.active % 2⟩]) ∧
      (s0.fwValid (img 0) = false → s0.fwValid (img 1) = false → exec (.firmwareBootVerify t) s = .next (s0.setUnder psFailed))) ∧
    (s0.pkg.under = psBoot → s0.pkg.bootOk = true → s0.pkg.bistOk = false → s0.ctx.killing = false →
      (∀ results listOk, ∃ u, exec (.bistDone results false listOk t) s = .next u ∧ u.pkg.under = psFailed) ∧
      (∀ results, ∃ u, exec (.bistDone results true false t) s = .next u ∧ u.pkg.under = psNotReady ∧ u.pkg.reason = 4) ∧
      (s0.logs.digestOk = true → s0.logs.fuses = [] → s0.logs.defects = [] → s0.logs.pendingDefects = [] → ∃ u, exec (.bistDone [] true true t) s = .next u ∧ u.pkg.under = psTrain ∧
        u.pkg.bistOk = true ∧ ∀ l, l < 96 → (s0.link l).state = 0 → (s0.link l).retryAt = none → (u.link l).retryAt = some s0.time.now)) ∧
    (s0.pkg.under = psTrain →
      (s0.cfg.image = none → ∃ u, exec (.lakeTrainDone true t) s = .next u ∧ u.pkg.under = psAwait ∧ u.pkg.lakeTrained = true) ∧
      (s0.cfg.image ≠ none → ∃ u, exec (.lakeTrainDone true t) s = .next u ∧ u.pkg.under = psConf ∧ u.pkg.lakeTrained = true) ∧
      (s0.pkg.lakeTries = 0 → exec (.lakeTrainDone false t) s = .next { s0 with pkg := { s0.pkg with lakeTries := 1 } }) ∧
      (s0.pkg.lakeTries ≠ 0 → ∃ u, exec (.lakeTrainDone false t) s = .next u ∧ u.pkg.under = psNotReady ∧ u.pkg.reason = 3))

/-- R277, R427 to R438: a spare at work. MISROUTE and the own claim that comes back are log entry 83 (DEDUCED). -/
def Obligations.HeartbeatsAndTakeoversComplete : Prop :=
  ∀ (s : State) (l k id t : Nat) (high : Bool) (regions req rsp : List (Nat × Nat)) (errs : List (Nat × List (Nat × Nat))), let s0 := s.advance t
    let p := s0.spr
    (∀ m r, s0.hbRuns = true → p.role = 1 → p.hbAt + ms ≤ s0.time.now → p.members = m :: r → exec (.heartbeatSend t) s = .next
      (({ s0 with spr := { p with hbSeq := (p.hbSeq + 1) % 2 ^ 32, hbAt := s0.time.now } }).sendMgt ⟨1, false, 0, m.lpn, s0.lpn, s0.ctx.gen, (p.hbSeq + 1) % 2 ^ 32⟩)) ∧
    (∀ m u e, s0.takeRx l (isMgt 1) = some (.mgt m, u) → m.dlpn = u.lpn → u.spr.displaced = false → u.spr.watches = true → u.spr.members.find? (fun e => e.lpn == m.slpn) = some e →
      ∃ v, exec (.heartbeat l t) s = .next v ∧ (v.spr.line e.line).lastA = some u.time.now ∧ (v.spr.line e.line).aOk = true) ∧
    (k ≤ 17 → ∃ v, exec (.hbAckEdge k high t) s = .next v ∧ (v.spr.line k).lastB = some s0.time.now ∧ (v.spr.line k).level = high) ∧
    (p.watches = true → p.entryOf k ≠ none →
      (s0.pathExpired (p.line k).lastA = true → exec (.heartbeatPathASilent k t) s = .next ((s0.setLine k { p.line k with aOk := false }).judgeSilence k)) ∧
      (s0.pathExpired (p.line k).lastB = true → exec (.heartbeatPathBSilent k t) s = .next ((s0.setLine k { p.line k with bOk := false }).judgeSilence k))) ∧
    (s0.takeStep 1 = true → s0.pkg.watchStall = false →
      exec (.takeoverFence t) s = .next { s0 with spr := { p with fenceOut := p.fenceOut ||| 2 ^ p.takeLine, phase := 2, takeAt := s0.time.now } }) ∧
    (s0.takeStep 2 = true →
      (∀ a j m, s0.steadyFrom = some a → p.entryOf p.takeLine = some (j, m) → a + ms ≤ s0.time.now → a + ms ≤ p.takeAt + 20 * ms →
        (s0.claimLost m.lpn = true → ∃ v, exec (.takeoverProceed errs t) s = .next v ∧ v.spr.displaced = true ∧ v.pkg.lpnValid = false) ∧
        (s0.claimLost m.lpn = false → ∃ v, exec (.takeoverProceed errs t) s = .next v ∧
        v.lpn = m.lpn ∧ v.pkg.lpnValid = true ∧ v.spr.takenLpn = some m.lpn ∧ v.spr.phase = 3 ∧ v.st.claimAgain = some (s0.time.now + 2000 * ms) ∧
        ∀ n, n < 8 → (v.stack n).zeroing = true)) ∧
      (s0.steadyFrom = none → p.takeAt + 20 * ms ≤ s0.time.now → ∃ v, exec (.fenceFail t) s = .next v ∧ v.spr.state = 2 ∧ v.spr.phase = 0 ∧ v.spr.fenceFail = true ∧
        v.spr.fenceFails = satInc 8 p.fenceFails ∧ (v.spr.line p.takeLine).armed = false)) ∧
    (s0.takeStep 3 = true → (∀ n, n < 8 → (s0.stack n).awake = true) → ∃ v, exec (.mirrorRestoreDone regions t) s = .next v ∧ v.spr.phase = 4 ∧ v.spr.restored = (p.line p.takeLine).lastPoint ∧ v.lake = (s0.restore regions).lake) ∧
    (s0.takeStep 4 = true → ∃ v, exec (.takeoverDone errs t) s = .next v ∧ v.spr.state = 4 ∧ v.spr.phase = 0 ∧ v.spr.takeovers = satInc 8 p.takeovers ∧
      (s0.pkg.under = psWatch → v.pkg.under = psConf)) ∧
    (∀ m u, s0.takeRx l (isMgt 0x20) = some (.mgt m, u) →
      (u.pkg.lpnValid = true → m.slpn = u.lpn → fld m.arg 18 0 ≠ u.pid → ∃ v, exec (.lpnClaim l t) s = .next v ∧ v.spr.displaced = true ∧ v.pkg.lpnValid = false) ∧
      (u.pkg.lpnValid = false → u.st.claimsSeen = [] → exec (.lpnClaim l t) s = .next
        (({ u with st := { u.st with claimsSeen := [(m.slpn, fld m.arg 18 0, u.time.now)] } }).broadcast m (some l)))) ∧
    (∀ a, s0.st.claimAgain = some a → a ≤ s0.time.now → p.displaced = false → s0.pkg.lpnValid = true →
      let w : State := { s0 with st := { s0.st with claimAgain := none } }
      exec (.lpnClaimResend t) s = .next (w.broadcast w.claimSlot none)) ∧
    (∀ q slpn m, s0.mirrorPkt id = some (q, slpn) → p.members.find? (fun m => m.lpn == slpn) = some m → p.watches = true → q.kind = 0x03 →
      let x := p.line m.line
      let base := p.mirrorBase (((p.entryOf m.line).map Prod.fst).getD 0) (q.extWord 0) (q.extWord 1)
      x.curPoint ≤ q.extWord 0 → q.addr + 4 * q.words ≤ base.2 → exec (.mirrorWrite id req rsp t) s = .next (s0.mirrorStore q (base.1 + q.addr) req rsp
        (fun u => u.setLine m.line ((u.spr.line m.line).applied (q.extWord 0) (q.extWord 1) (4 * q.words) (p.double (q.extWord 1))))))

end
end

