-- ==== Sys2Proof/Laws/Tab.lean ====
section
/-!
SUPPORT. Laws of tables and byte memories: what a key reads after a write, and that every operation of a memory keeps its canonical form.
-/
namespace Sys2Proof

/-! ### Reading after writing -/

@[simp] theorem Tab.get_set_same {α : Type} (d : α) (t : Tab α) (a : Nat) (v : α) : Tab.get d (Tab.set t a v) a = v := by
  induction t with
  | nil => simp [Tab.set, Tab.get]
  | cons p r ih =>
    obtain ⟨k, w⟩ := p
    simp only [Tab.set]
    split
    · simp [Tab.get]
    · split
      · simp [Tab.get]
      · rename_i h _
        simp [Tab.get, h, ih]

theorem Tab.get_set_ne {α : Type} (d : α) (t : Tab α) (a b : Nat) (v : α) (h : b ≠ a) : Tab.get d (Tab.set t a v) b = Tab.get d t b := by
  induction t with
  | nil => simp [Tab.set, Tab.get, h]
  | cons p r ih =>
    obtain ⟨k, w⟩ := p
    simp only [Tab.set]
    split
    · rename_i e
      subst e
      simp [Tab.get, h]
    · split
      · simp [Tab.get, h]
      · simp only [Tab.get, ih]

/-- The two cases of a read after a write. -/
theorem Tab.get_set {α : Type} (d : α) (t : Tab α) (a b : Nat) (v : α) : Tab.get d (Tab.set t a v) b = if b = a then v else Tab.get d t b := by
  split
  · rename_i h
    subst h
    exact Tab.get_set_same ..
  · rename_i h
    exact Tab.get_set_ne _ _ _ _ _ h

@[simp] theorem Tab.get_nil {α : Type} (d : α) (a : Nat) : Tab.get d [] a = d := rfl

/-- A second write of a key replaces the first. -/
@[simp] theorem Tab.set_set {α : Type} (t : Tab α) (a : Nat) (v w : α) : Tab.set (Tab.set t a v) a w = Tab.set t a w := by
  induction t with
  | nil => simp [Tab.set]
  | cons p r ih =>
    obtain ⟨k, x⟩ := p
    simp only [Tab.set]
    split
    · simp [Tab.set]
    · split
      · simp [Tab.set]
      · rename_i h1 h2
        simp [Tab.set, h1, h2, ih]

@[simp] theorem Tab.get_del_same {α : Type} (d : α) (t : Tab α) (a : Nat) : Tab.get d (Tab.del t a) a = d := by
  induction t with
  | nil => rfl
  | cons p r ih =>
    obtain ⟨k, x⟩ := p
    simp only [Tab.del]
    split
    · exact ih
    · rename_i h
      simp [Tab.get, h, ih]

theorem Tab.get_del_ne {α : Type} (d : α) (t : Tab α) (a b : Nat) (h : b ≠ a) : Tab.get d (Tab.del t a) b = Tab.get d t b := by
  induction t with
  | nil => rfl
  | cons p r ih =>
    obtain ⟨k, x⟩ := p
    simp only [Tab.del]
    split
    · rename_i e
      subst e
      simp [Tab.get, h, ih]
    · simp only [Tab.get, ih]

@[simp] theorem Tab.get_put_same {α : Type} [DecidableEq α] (d : α) (t : Tab α) (a : Nat) (v : α) : Tab.get d (Tab.put d t a v) a = v := by
  unfold Tab.put
  split
  · rename_i h
    simp [h]
  · simp

theorem Tab.get_put_ne {α : Type} [DecidableEq α] (d : α) (t : Tab α) (a b : Nat) (v : α) (h : b ≠ a) : Tab.get d (Tab.put d t a v) b = Tab.get d t b := by
  unfold Tab.put
  split
  · exact Tab.get_del_ne _ _ _ _ h
  · exact Tab.get_set_ne _ _ _ _ _ h

/-! ### The canonical form -/

theorem Tab.risingFrom_mono {α : Type} (lo hi : Nat) (t : Tab α) (h : Tab.risingFrom hi t = true) (le : lo ≤ hi) : Tab.risingFrom lo t = true := by
  cases t with
  | nil => rfl
  | cons p r =>
    obtain ⟨k, w⟩ := p
    simp only [Tab.risingFrom, Bool.and_eq_true, decide_eq_true_eq] at h ⊢
    exact ⟨Nat.le_trans le h.1, h.2⟩

theorem Tab.risingFrom_set {α : Type} (t : Tab α) : ∀ (lo a : Nat) (v : α), Tab.risingFrom lo t = true → lo ≤ a → Tab.risingFrom lo (Tab.set t a v) = true := by
  induction t with
  | nil =>
    intro lo a v _ le
    simpa [Tab.set, Tab.risingFrom] using le
  | cons p r ih =>
    obtain ⟨k, w⟩ := p
    intro lo a v h le
    simp only [Tab.risingFrom, Bool.and_eq_true, decide_eq_true_eq] at h
    simp only [Tab.set]
    split
    · rename_i e
      subst e
      simp only [Tab.risingFrom, Bool.and_eq_true, decide_eq_true_eq]
      exact h
    · split
      · rename_i lt
        simp only [Tab.risingFrom, Bool.and_eq_true, decide_eq_true_eq]
        exact ⟨le, lt, h.2⟩
      · rename_i ne nlt
        simp only [Tab.risingFrom, Bool.and_eq_true, decide_eq_true_eq]
        refine ⟨h.1, ih _ _ _ h.2 ?_⟩
        omega

theorem Tab.risingFrom_del {α : Type} (t : Tab α) : ∀ (lo a : Nat), Tab.risingFrom lo t = true → Tab.risingFrom lo (Tab.del t a) = true := by
  induction t with
  | nil =>
    intro lo a h
    exact h
  | cons p r ih =>
    obtain ⟨k, w⟩ := p
    intro lo a h
    simp only [Tab.risingFrom, Bool.and_eq_true, decide_eq_true_eq] at h
    simp only [Tab.del]
    split
    · exact ih _ _ (Tab.risingFrom_mono _ _ _ h.2 (by omega))
    · simp only [Tab.risingFrom, Bool.and_eq_true, decide_eq_true_eq]
      exact ⟨h.1, ih _ _ h.2⟩

theorem Tab.risingFrom_filter {α : Type} (f : Nat × α → Bool) (t : Tab α) : ∀ lo : Nat, Tab.risingFrom lo t = true → Tab.risingFrom lo (t.filter f) = true := by
  induction t with
  | nil =>
    intro lo h
    exact h
  | cons p r ih =>
    obtain ⟨k, w⟩ := p
    intro lo h
    simp only [Tab.risingFrom, Bool.and_eq_true, decide_eq_true_eq] at h
    simp only [List.filter]
    split
    · simp only [Tab.risingFrom, Bool.and_eq_true, decide_eq_true_eq]
      exact ⟨h.1, ih _ h.2⟩
    · exact Tab.risingFrom_mono _ _ _ (ih _ h.2) (by omega)

theorem Tab.mem_set {α : Type} (t : Tab α) (a : Nat) (v : α) (p : Nat × α) (h : p ∈ Tab.set t a v) : p = (a, v) ∨ p ∈ t := by
  induction t with
  | nil => simpa [Tab.set] using h
  | cons q r ih =>
    obtain ⟨k, w⟩ := q
    simp only [Tab.set] at h
    split at h
    · simp only [List.mem_cons] at h ⊢
      rcases h with h | h
      · exact Or.inl h
      · exact Or.inr (Or.inr h)
    · split at h
      · simpa using h
      · simp only [List.mem_cons] at h ⊢
        rcases h with h | h
        · exact Or.inr (Or.inl h)
        · rcases ih h with e | e
          · exact Or.inl e
          · exact Or.inr (Or.inr e)

theorem Tab.mem_del {α : Type} (t : Tab α) (a : Nat) (p : Nat × α) (h : p ∈ Tab.del t a) : p ∈ t := by
  induction t with
  | nil => exact h
  | cons q r ih =>
    obtain ⟨k, w⟩ := q
    simp only [Tab.del] at h
    split at h
    · exact List.mem_cons_of_mem _ (ih h)
    · simp only [List.mem_cons] at h ⊢
      rcases h with h | h
      · exact Or.inl h
      · exact Or.inr (ih h)

/-- A table is in canonical form where its keys rise and no entry is the default. -/
theorem Tab.wf_iff {α : Type} [DecidableEq α] (d : α) (t : Tab α) : Tab.wf d t = true ↔ Tab.risingFrom 0 t = true ∧ ∀ p ∈ t, p.2 ≠ d := by
  simp [Tab.wf, List.all_eq_true]

/-- Writing in canonical form keeps it. -/
theorem Tab.put_wf {α : Type} [DecidableEq α] (d : α) (t : Tab α) (a : Nat) (v : α) (h : Tab.wf d t = true) : Tab.wf d (Tab.put d t a v) = true := by
  rw [Tab.wf_iff] at h ⊢
  unfold Tab.put
  split
  · exact ⟨Tab.risingFrom_del _ _ _ h.1, fun p m => h.2 p (Tab.mem_del _ _ _ m)⟩
  · rename_i ne
    refine ⟨Tab.risingFrom_set _ _ _ _ h.1 (Nat.zero_le _), fun p m => ?_⟩
    rcases Tab.mem_set _ _ _ _ m with e | e
    · subst e
      exact ne
    · exact h.2 p e

/-- Setting a key to a value that is not the default keeps the canonical form. -/
theorem Tab.set_wf {α : Type} [DecidableEq α] (d : α) (t : Tab α) (a : Nat) (v : α) (h : Tab.wf d t = true) (ne : v ≠ d) : Tab.wf d (Tab.set t a v) = true := by
  have e := Tab.put_wf d t a v h
  simpa [Tab.put, ne] using e

/-- Taking entries out keeps the canonical form. -/
theorem Tab.filter_wf {α : Type} [DecidableEq α] (d : α) (f : Nat × α → Bool) (t : Tab α) (h : Tab.wf d t = true) : Tab.wf d (t.filter f) = true := by
  rw [Tab.wf_iff] at h ⊢
  exact ⟨Tab.risingFrom_filter _ _ _ h.1, fun p m => h.2 p (List.mem_filter.mp m).1⟩

/-! ### Byte memories -/

@[simp] theorem Mem.wf_nil : Mem.wf [] = true := rfl

theorem Mem.write_wf (m : Mem) (a : Nat) (b : Byte) (h : m.wf = true) : (m.write a b).wf = true := Tab.put_wf _ _ _ _ h

theorem Mem.store_wf (bs : List Byte) : ∀ (m : Mem) (a : Nat), m.wf = true → (m.store a bs).wf = true := by
  induction bs with
  | nil =>
    intro m a h
    exact h
  | cons b r ih =>
    intro m a h
    exact ih _ _ (Mem.write_wf m a b h)

theorem Mem.zero_wf (m : Mem) (a n : Nat) (h : m.wf = true) : (m.zero a n).wf = true := Tab.filter_wf _ _ _ h

theorem Mem.filter_wf (m : Mem) (f : Nat × Byte → Bool) (h : m.wf = true) : Mem.wf (m.filter f) = true := Tab.filter_wf _ _ _ h

@[simp] theorem Mem.read_write_same (m : Mem) (a : Nat) (b : Byte) : (m.write a b).read a = b := Tab.get_put_same _ _ _ _

theorem Mem.read_write_ne (m : Mem) (a c : Nat) (b : Byte) (h : c ≠ a) : (m.write a b).read c = m.read c := Tab.get_put_ne _ _ _ _ _ h

/-- A byte outside the bytes stored reads as before. -/
theorem Mem.read_store_outside (bs : List Byte) : ∀ (m : Mem) (a c : Nat), c < a ∨ a + bs.length ≤ c → (m.store a bs).read c = m.read c := by
  induction bs with
  | nil =>
    intro m a c _
    rfl
  | cons b r ih =>
    intro m a c h
    simp only [List.length_cons] at h
    rw [Mem.store, ih _ _ _ (by omega), Mem.read_write_ne _ _ _ _ (by omega)]

/-- A stored byte reads as stored. -/
theorem Mem.read_store_inside (bs : List Byte) : ∀ (m : Mem) (a i : Nat) (h : i < bs.length), (m.store a bs).read (a + i) = bs[i] := by
  induction bs with
  | nil =>
    intro m a i h
    simp at h
  | cons b r ih =>
    intro m a i h
    cases i with
    | zero =>
      rw [Mem.store, Mem.read_store_outside _ _ _ _ (by omega)]
      simp
    | succ j =>
      rw [Mem.store, show a + (j + 1) = a + 1 + j by omega, ih _ _ j (by simpa using h)]
      rfl

/-- A fold keeps what each of its steps keeps. -/
theorem foldl_keeps {α β γ : Type} (f : α → β → α) (g : α → γ) (h : ∀ a b, g (f a b) = g a) (l : List β) : ∀ a : α, g (l.foldl f a) = g a := by
  induction l with
  | nil =>
    intro a
    rfl
  | cons b r ih =>
    intro a
    rw [List.foldl_cons, ih, h]

/-- A fold keeps a property that each of its steps keeps. -/
theorem foldl_inv {α β : Type} (f : α → β → α) (P : α → Prop) (h : ∀ a b, P a → P (f a b)) (l : List β) : ∀ a : α, P a → P (l.foldl f a) := by
  induction l with
  | nil =>
    intro a p
    exact p
  | cons b r ih =>
    intro a p
    exact ih _ (h _ _ p)

end Sys2Proof
end

