-- ==== Sys2Proof/Laws/Mailbox.lean ====
section
/-!
SUPPORT. What a command of a mailbox does once it begins: its body runs from the busy mailbox, and its answer is written where it has one.
-/
namespace Sys2Proof.Laws
open Sys2Proof.Machine Sys2Proof.Safety

/-- A command that begins runs its body from the state and the request that `begins` gives; an answer that does not fit its response area is replaced by `MBX_E_STAGING`. -/
theorem command_of_begins {s u : State} {mb t : Nat} {c : Cmd} {r : Req} (body : State → Req → State × Option Resp) (h : begins s mb t c = some (u, r)) :
    s.command mb t c body = match body u r with
      | (v, none) => v
      | (v, some a) => if r.staged = true ∧ r.cap < a.data.length then u.answer mb (Resp.err 7) else answered u v mb a := by
  unfold begins at h
  unfold State.command
  cases hr : (s.advance t).headReg mb with
  | none => simp [hr] at h
  | some p =>
    obtain ⟨i, reg⟩ := p
    simp only [hr, Option.ite_none_right_eq_some, Option.some.injEq, Prod.mk.injEq, Bool.and_eq_true, beq_iff_eq, decide_eq_true_eq] at h
    obtain ⟨⟨⟨⟨⟨⟨⟨h1, h2⟩, h3⟩, h4⟩, h5⟩, h6⟩, h7⟩, hu, hq⟩ := h
    subst hu
    subst hq
    have n2 : ¬ 5 < mb := by omega
    simp only [hr, h1, h3, h4, h6, h7, n2]
    simp only [h5, Bool.not_true, beq_self_eq_true, Bool.true_or, Bool.false_eq_true, or_false, if_false, reduceCtorEq, ne_eq, not_true_eq_false]
    have hc : ((busyState (s.advance t) mb reg).mbx mb).cons = ((s.advance t).mbx mb).cons := by simp [busyState, State.mbx, State.setMbx]
    simp only [answered, hc]
    unfold busyState
    cases hb : body (((s.advance t).requestErrors mb).setMbx mb _) ((s.advance t).request mb) with
    | mk v a => cases a <;> rfl

/-- A command whose body always answers. -/
theorem commandNow_of_begins {s u : State} {mb t : Nat} {c : Cmd} {r : Req} (body : State → Req → State × Resp) (h : begins s mb t c = some (u, r)) :
    s.commandNow mb t c body = if r.staged = true ∧ r.cap < (body u r).2.data.length then u.answer mb (Resp.err 7) else answered u (body u r).1 mb (body u r).2 := by
  unfold State.commandNow
  rw [command_of_begins _ h]

/-- A command that does not stage its response is always answered with what its body gives. -/
theorem commandNow_of_begins_unstaged {s u : State} {mb t : Nat} {c : Cmd} {r : Req} (body : State → Req → State × Resp) (h : begins s mb t c = some (u, r)) (n : r.staged = false) :
    s.commandNow mb t c body = answered u (body u r).1 mb (body u r).2 := by
  rw [commandNow_of_begins _ h, n]
  simp

end Sys2Proof.Laws
end

