-- ==== Sys2Proof/Laws/State.lean ====
section
/-!
SUPPORT. What the shared updates of the state leave as it was: one lemma for each update and each field it does not write, and what a table reads after one of its entries is written.
-/
namespace Sys2Proof.Machine

/-! ### `State.setCh` -/

section
variable (s : State) (c : Nat) (v : DmaCh)
@[simp] theorem State.setCh_pending : (s.setCh c v).pending = s.pending := rfl
@[simp] theorem State.setCh_tiles : (s.setCh c v).tiles = s.tiles := rfl
@[simp] theorem State.setCh_rows : (s.setCh c v).rows = s.rows := rfl
@[simp] theorem State.setCh_seq : (s.setCh c v).seq = s.seq := rfl
@[simp] theorem State.setCh_time : (s.setCh c v).time = s.time := rfl
@[simp] theorem State.setCh_net : (s.setCh c v).net = s.net := rfl
@[simp] theorem State.setCh_lake : (s.setCh c v).lake = s.lake := rfl
@[simp] theorem State.setCh_ctx : (s.setCh c v).ctx = s.ctx := rfl
@[simp] theorem State.setCh_faults : (s.setCh c v).faults = s.faults := rfl
@[simp] theorem State.setCh_logs : (s.setCh c v).logs = s.logs := rfl
@[simp] theorem State.setCh_dieFrozen : (s.setCh c v).dieFrozen = s.dieFrozen := rfl
@[simp] theorem State.setCh_st : (s.setCh c v).st = s.st := rfl
@[simp] theorem State.setCh_pkg : (s.setCh c v).pkg = s.pkg := rfl
@[simp] theorem State.setCh_lpn : (s.setCh c v).lpn = s.lpn := rfl
@[simp] theorem State.setCh_gate : (s.setCh c v).gate = s.gate := rfl
@[simp] theorem State.setCh_pert : (s.setCh c v).pert = s.pert := rfl
@[simp] theorem State.setCh_jtag : (s.setCh c v).jtag = s.jtag := rfl
@[simp] theorem State.setCh_cfg : (s.setCh c v).cfg = s.cfg := rfl
@[simp] theorem State.setCh_pid : (s.setCh c v).pid = s.pid := rfl
@[simp] theorem State.setCh_h : (s.setCh c v).h = s.h := rfl
@[simp] theorem State.setCh_m : (s.setCh c v).m = s.m := rfl
@[simp] theorem State.setCh_pw : (s.setCh c v).pw = s.pw := rfl
@[simp] theorem State.setCh_spr : (s.setCh c v).spr = s.spr := rfl
@[simp] theorem State.setCh_fw : (s.setCh c v).fw = s.fw := rfl
@[simp] theorem State.setCh_ld : (s.setCh c v).ld = s.ld := rfl
@[simp] theorem State.setCh_out : (s.setCh c v).out = s.out := rfl
end

/-! ### `State.setStack` -/

section
variable (s : State) (k : Nat) (v : Stack)
@[simp] theorem State.setStack_pending : (s.setStack k v).pending = s.pending := rfl
@[simp] theorem State.setStack_tiles : (s.setStack k v).tiles = s.tiles := rfl
@[simp] theorem State.setStack_rows : (s.setStack k v).rows = s.rows := rfl
@[simp] theorem State.setStack_seq : (s.setStack k v).seq = s.seq := rfl
@[simp] theorem State.setStack_time : (s.setStack k v).time = s.time := rfl
@[simp] theorem State.setStack_net : (s.setStack k v).net = s.net := rfl
@[simp] theorem State.setStack_ctx : (s.setStack k v).ctx = s.ctx := rfl
@[simp] theorem State.setStack_faults : (s.setStack k v).faults = s.faults := rfl
@[simp] theorem State.setStack_logs : (s.setStack k v).logs = s.logs := rfl
@[simp] theorem State.setStack_dieFrozen : (s.setStack k v).dieFrozen = s.dieFrozen := rfl
@[simp] theorem State.setStack_st : (s.setStack k v).st = s.st := rfl
@[simp] theorem State.setStack_dma : (s.setStack k v).dma = s.dma := rfl
@[simp] theorem State.setStack_pkg : (s.setStack k v).pkg = s.pkg := rfl
@[simp] theorem State.setStack_lpn : (s.setStack k v).lpn = s.lpn := rfl
@[simp] theorem State.setStack_gate : (s.setStack k v).gate = s.gate := rfl
@[simp] theorem State.setStack_pert : (s.setStack k v).pert = s.pert := rfl
@[simp] theorem State.setStack_jtag : (s.setStack k v).jtag = s.jtag := rfl
@[simp] theorem State.setStack_cfg : (s.setStack k v).cfg = s.cfg := rfl
@[simp] theorem State.setStack_pid : (s.setStack k v).pid = s.pid := rfl
@[simp] theorem State.setStack_h : (s.setStack k v).h = s.h := rfl
@[simp] theorem State.setStack_m : (s.setStack k v).m = s.m := rfl
@[simp] theorem State.setStack_pw : (s.setStack k v).pw = s.pw := rfl
@[simp] theorem State.setStack_spr : (s.setStack k v).spr = s.spr := rfl
@[simp] theorem State.setStack_fw : (s.setStack k v).fw = s.fw := rfl
@[simp] theorem State.setStack_ld : (s.setStack k v).ld = s.ld := rfl
@[simp] theorem State.setStack_out : (s.setStack k v).out = s.out := rfl
end

/-! ### `State.setLink` -/

section
variable (s : State) (l : Nat) (v : Link)
@[simp] theorem State.setLink_pending : (s.setLink l v).pending = s.pending := rfl
@[simp] theorem State.setLink_tiles : (s.setLink l v).tiles = s.tiles := rfl
@[simp] theorem State.setLink_rows : (s.setLink l v).rows = s.rows := rfl
@[simp] theorem State.setLink_seq : (s.setLink l v).seq = s.seq := rfl
@[simp] theorem State.setLink_time : (s.setLink l v).time = s.time := rfl
@[simp] theorem State.setLink_net : (s.setLink l v).net = s.net := rfl
@[simp] theorem State.setLink_lake : (s.setLink l v).lake = s.lake := rfl
@[simp] theorem State.setLink_ctx : (s.setLink l v).ctx = s.ctx := rfl
@[simp] theorem State.setLink_faults : (s.setLink l v).faults = s.faults := rfl
@[simp] theorem State.setLink_logs : (s.setLink l v).logs = s.logs := rfl
@[simp] theorem State.setLink_dieFrozen : (s.setLink l v).dieFrozen = s.dieFrozen := rfl
@[simp] theorem State.setLink_dma : (s.setLink l v).dma = s.dma := rfl
@[simp] theorem State.setLink_pkg : (s.setLink l v).pkg = s.pkg := rfl
@[simp] theorem State.setLink_lpn : (s.setLink l v).lpn = s.lpn := rfl
@[simp] theorem State.setLink_gate : (s.setLink l v).gate = s.gate := rfl
@[simp] theorem State.setLink_pert : (s.setLink l v).pert = s.pert := rfl
@[simp] theorem State.setLink_jtag : (s.setLink l v).jtag = s.jtag := rfl
@[simp] theorem State.setLink_cfg : (s.setLink l v).cfg = s.cfg := rfl
@[simp] theorem State.setLink_pid : (s.setLink l v).pid = s.pid := rfl
@[simp] theorem State.setLink_h : (s.setLink l v).h = s.h := rfl
@[simp] theorem State.setLink_m : (s.setLink l v).m = s.m := rfl
@[simp] theorem State.setLink_pw : (s.setLink l v).pw = s.pw := rfl
@[simp] theorem State.setLink_spr : (s.setLink l v).spr = s.spr := rfl
@[simp] theorem State.setLink_fw : (s.setLink l v).fw = s.fw := rfl
@[simp] theorem State.setLink_ld : (s.setLink l v).ld = s.ld := rfl
@[simp] theorem State.setLink_out : (s.setLink l v).out = s.out := rfl
end

/-! ### `State.setOctet` -/

section
variable (s : State) (o : Nat) (v : Octet)
@[simp] theorem State.setOctet_pending : (s.setOctet o v).pending = s.pending := rfl
@[simp] theorem State.setOctet_tiles : (s.setOctet o v).tiles = s.tiles := rfl
@[simp] theorem State.setOctet_rows : (s.setOctet o v).rows = s.rows := rfl
@[simp] theorem State.setOctet_seq : (s.setOctet o v).seq = s.seq := rfl
@[simp] theorem State.setOctet_time : (s.setOctet o v).time = s.time := rfl
@[simp] theorem State.setOctet_net : (s.setOctet o v).net = s.net := rfl
@[simp] theorem State.setOctet_lake : (s.setOctet o v).lake = s.lake := rfl
@[simp] theorem State.setOctet_ctx : (s.setOctet o v).ctx = s.ctx := rfl
@[simp] theorem State.setOctet_faults : (s.setOctet o v).faults = s.faults := rfl
@[simp] theorem State.setOctet_logs : (s.setOctet o v).logs = s.logs := rfl
@[simp] theorem State.setOctet_dieFrozen : (s.setOctet o v).dieFrozen = s.dieFrozen := rfl
@[simp] theorem State.setOctet_dma : (s.setOctet o v).dma = s.dma := rfl
@[simp] theorem State.setOctet_pkg : (s.setOctet o v).pkg = s.pkg := rfl
@[simp] theorem State.setOctet_lpn : (s.setOctet o v).lpn = s.lpn := rfl
@[simp] theorem State.setOctet_gate : (s.setOctet o v).gate = s.gate := rfl
@[simp] theorem State.setOctet_pert : (s.setOctet o v).pert = s.pert := rfl
@[simp] theorem State.setOctet_jtag : (s.setOctet o v).jtag = s.jtag := rfl
@[simp] theorem State.setOctet_cfg : (s.setOctet o v).cfg = s.cfg := rfl
@[simp] theorem State.setOctet_pid : (s.setOctet o v).pid = s.pid := rfl
@[simp] theorem State.setOctet_h : (s.setOctet o v).h = s.h := rfl
@[simp] theorem State.setOctet_m : (s.setOctet o v).m = s.m := rfl
@[simp] theorem State.setOctet_pw : (s.setOctet o v).pw = s.pw := rfl
@[simp] theorem State.setOctet_spr : (s.setOctet o v).spr = s.spr := rfl
@[simp] theorem State.setOctet_fw : (s.setOctet o v).fw = s.fw := rfl
@[simp] theorem State.setOctet_ld : (s.setOctet o v).ld = s.ld := rfl
@[simp] theorem State.setOctet_out : (s.setOctet o v).out = s.out := rfl
end

/-! ### `State.setMbx` -/

section
variable (s : State) (n : Nat) (v : Mbx)
@[simp] theorem State.setMbx_pending : (s.setMbx n v).pending = s.pending := rfl
@[simp] theorem State.setMbx_tiles : (s.setMbx n v).tiles = s.tiles := rfl
@[simp] theorem State.setMbx_rows : (s.setMbx n v).rows = s.rows := rfl
@[simp] theorem State.setMbx_seq : (s.setMbx n v).seq = s.seq := rfl
@[simp] theorem State.setMbx_time : (s.setMbx n v).time = s.time := rfl
@[simp] theorem State.setMbx_net : (s.setMbx n v).net = s.net := rfl
@[simp] theorem State.setMbx_lake : (s.setMbx n v).lake = s.lake := rfl
@[simp] theorem State.setMbx_ctx : (s.setMbx n v).ctx = s.ctx := rfl
@[simp] theorem State.setMbx_faults : (s.setMbx n v).faults = s.faults := rfl
@[simp] theorem State.setMbx_logs : (s.setMbx n v).logs = s.logs := rfl
@[simp] theorem State.setMbx_dieFrozen : (s.setMbx n v).dieFrozen = s.dieFrozen := rfl
@[simp] theorem State.setMbx_st : (s.setMbx n v).st = s.st := rfl
@[simp] theorem State.setMbx_dma : (s.setMbx n v).dma = s.dma := rfl
@[simp] theorem State.setMbx_pkg : (s.setMbx n v).pkg = s.pkg := rfl
@[simp] theorem State.setMbx_lpn : (s.setMbx n v).lpn = s.lpn := rfl
@[simp] theorem State.setMbx_gate : (s.setMbx n v).gate = s.gate := rfl
@[simp] theorem State.setMbx_pert : (s.setMbx n v).pert = s.pert := rfl
@[simp] theorem State.setMbx_jtag : (s.setMbx n v).jtag = s.jtag := rfl
@[simp] theorem State.setMbx_cfg : (s.setMbx n v).cfg = s.cfg := rfl
@[simp] theorem State.setMbx_pid : (s.setMbx n v).pid = s.pid := rfl
@[simp] theorem State.setMbx_m : (s.setMbx n v).m = s.m := rfl
@[simp] theorem State.setMbx_pw : (s.setMbx n v).pw = s.pw := rfl
@[simp] theorem State.setMbx_spr : (s.setMbx n v).spr = s.spr := rfl
@[simp] theorem State.setMbx_fw : (s.setMbx n v).fw = s.fw := rfl
@[simp] theorem State.setMbx_ld : (s.setMbx n v).ld = s.ld := rfl
@[simp] theorem State.setMbx_out : (s.setMbx n v).out = s.out := rfl
end

/-! ### `State.setDie` -/

section
variable (s : State) (d : Nat) (v : DieReg)
@[simp] theorem State.setDie_pending : (s.setDie d v).pending = s.pending := rfl
@[simp] theorem State.setDie_tiles : (s.setDie d v).tiles = s.tiles := rfl
@[simp] theorem State.setDie_rows : (s.setDie d v).rows = s.rows := rfl
@[simp] theorem State.setDie_seq : (s.setDie d v).seq = s.seq := rfl
@[simp] theorem State.setDie_time : (s.setDie d v).time = s.time := rfl
@[simp] theorem State.setDie_lake : (s.setDie d v).lake = s.lake := rfl
@[simp] theorem State.setDie_ctx : (s.setDie d v).ctx = s.ctx := rfl
@[simp] theorem State.setDie_faults : (s.setDie d v).faults = s.faults := rfl
@[simp] theorem State.setDie_logs : (s.setDie d v).logs = s.logs := rfl
@[simp] theorem State.setDie_dieFrozen : (s.setDie d v).dieFrozen = s.dieFrozen := rfl
@[simp] theorem State.setDie_st : (s.setDie d v).st = s.st := rfl
@[simp] theorem State.setDie_dma : (s.setDie d v).dma = s.dma := rfl
@[simp] theorem State.setDie_pkg : (s.setDie d v).pkg = s.pkg := rfl
@[simp] theorem State.setDie_lpn : (s.setDie d v).lpn = s.lpn := rfl
@[simp] theorem State.setDie_gate : (s.setDie d v).gate = s.gate := rfl
@[simp] theorem State.setDie_pert : (s.setDie d v).pert = s.pert := rfl
@[simp] theorem State.setDie_jtag : (s.setDie d v).jtag = s.jtag := rfl
@[simp] theorem State.setDie_cfg : (s.setDie d v).cfg = s.cfg := rfl
@[simp] theorem State.setDie_pid : (s.setDie d v).pid = s.pid := rfl
@[simp] theorem State.setDie_h : (s.setDie d v).h = s.h := rfl
@[simp] theorem State.setDie_m : (s.setDie d v).m = s.m := rfl
@[simp] theorem State.setDie_pw : (s.setDie d v).pw = s.pw := rfl
@[simp] theorem State.setDie_spr : (s.setDie d v).spr = s.spr := rfl
@[simp] theorem State.setDie_fw : (s.setDie d v).fw = s.fw := rfl
@[simp] theorem State.setDie_ld : (s.setDie d v).ld = s.ld := rfl
@[simp] theorem State.setDie_out : (s.setDie d v).out = s.out := rfl
end

/-! ### `State.setRow` -/

section
variable (s : State) (r : Nat) (v : Row)
@[simp] theorem State.setRow_pending : (s.setRow r v).pending = s.pending := rfl
@[simp] theorem State.setRow_tiles : (s.setRow r v).tiles = s.tiles := rfl
@[simp] theorem State.setRow_seq : (s.setRow r v).seq = s.seq := rfl
@[simp] theorem State.setRow_time : (s.setRow r v).time = s.time := rfl
@[simp] theorem State.setRow_net : (s.setRow r v).net = s.net := rfl
@[simp] theorem State.setRow_lake : (s.setRow r v).lake = s.lake := rfl
@[simp] theorem State.setRow_ctx : (s.setRow r v).ctx = s.ctx := rfl
@[simp] theorem State.setRow_faults : (s.setRow r v).faults = s.faults := rfl
@[simp] theorem State.setRow_logs : (s.setRow r v).logs = s.logs := rfl
@[simp] theorem State.setRow_dieFrozen : (s.setRow r v).dieFrozen = s.dieFrozen := rfl
@[simp] theorem State.setRow_st : (s.setRow r v).st = s.st := rfl
@[simp] theorem State.setRow_dma : (s.setRow r v).dma = s.dma := rfl
@[simp] theorem State.setRow_pkg : (s.setRow r v).pkg = s.pkg := rfl
@[simp] theorem State.setRow_lpn : (s.setRow r v).lpn = s.lpn := rfl
@[simp] theorem State.setRow_gate : (s.setRow r v).gate = s.gate := rfl
@[simp] theorem State.setRow_pert : (s.setRow r v).pert = s.pert := rfl
@[simp] theorem State.setRow_jtag : (s.setRow r v).jtag = s.jtag := rfl
@[simp] theorem State.setRow_cfg : (s.setRow r v).cfg = s.cfg := rfl
@[simp] theorem State.setRow_pid : (s.setRow r v).pid = s.pid := rfl
@[simp] theorem State.setRow_h : (s.setRow r v).h = s.h := rfl
@[simp] theorem State.setRow_m : (s.setRow r v).m = s.m := rfl
@[simp] theorem State.setRow_pw : (s.setRow r v).pw = s.pw := rfl
@[simp] theorem State.setRow_spr : (s.setRow r v).spr = s.spr := rfl
@[simp] theorem State.setRow_fw : (s.setRow r v).fw = s.fw := rfl
@[simp] theorem State.setRow_ld : (s.setRow r v).ld = s.ld := rfl
@[simp] theorem State.setRow_out : (s.setRow r v).out = s.out := rfl
end

/-! ### `State.setUnder` -/

section
variable (s : State) (u : Nat)
@[simp] theorem State.setUnder_pending : (s.setUnder u).pending = s.pending := rfl
@[simp] theorem State.setUnder_tiles : (s.setUnder u).tiles = s.tiles := rfl
@[simp] theorem State.setUnder_rows : (s.setUnder u).rows = s.rows := rfl
@[simp] theorem State.setUnder_seq : (s.setUnder u).seq = s.seq := rfl
@[simp] theorem State.setUnder_time : (s.setUnder u).time = s.time := rfl
@[simp] theorem State.setUnder_net : (s.setUnder u).net = s.net := rfl
@[simp] theorem State.setUnder_lake : (s.setUnder u).lake = s.lake := rfl
@[simp] theorem State.setUnder_ctx : (s.setUnder u).ctx = s.ctx := rfl
@[simp] theorem State.setUnder_faults : (s.setUnder u).faults = s.faults := rfl
@[simp] theorem State.setUnder_logs : (s.setUnder u).logs = s.logs := rfl
@[simp] theorem State.setUnder_dieFrozen : (s.setUnder u).dieFrozen = s.dieFrozen := rfl
@[simp] theorem State.setUnder_st : (s.setUnder u).st = s.st := rfl
@[simp] theorem State.setUnder_dma : (s.setUnder u).dma = s.dma := rfl
@[simp] theorem State.setUnder_lpn : (s.setUnder u).lpn = s.lpn := rfl
@[simp] theorem State.setUnder_gate : (s.setUnder u).gate = s.gate := rfl
@[simp] theorem State.setUnder_pert : (s.setUnder u).pert = s.pert := rfl
@[simp] theorem State.setUnder_jtag : (s.setUnder u).jtag = s.jtag := rfl
@[simp] theorem State.setUnder_cfg : (s.setUnder u).cfg = s.cfg := rfl
@[simp] theorem State.setUnder_pid : (s.setUnder u).pid = s.pid := rfl
@[simp] theorem State.setUnder_h : (s.setUnder u).h = s.h := rfl
@[simp] theorem State.setUnder_m : (s.setUnder u).m = s.m := rfl
@[simp] theorem State.setUnder_pw : (s.setUnder u).pw = s.pw := rfl
@[simp] theorem State.setUnder_spr : (s.setUnder u).spr = s.spr := rfl
@[simp] theorem State.setUnder_fw : (s.setUnder u).fw = s.fw := rfl
@[simp] theorem State.setUnder_ld : (s.setUnder u).ld = s.ld := rfl
@[simp] theorem State.setUnder_out : (s.setUnder u).out = s.out := rfl
end

/-! ### `State.setLine` -/

section
variable (s : State) (k : Nat) (v : SprLine)
@[simp] theorem State.setLine_pending : (s.setLine k v).pending = s.pending := rfl
@[simp] theorem State.setLine_tiles : (s.setLine k v).tiles = s.tiles := rfl
@[simp] theorem State.setLine_rows : (s.setLine k v).rows = s.rows := rfl
@[simp] theorem State.setLine_seq : (s.setLine k v).seq = s.seq := rfl
@[simp] theorem State.setLine_time : (s.setLine k v).time = s.time := rfl
@[simp] theorem State.setLine_net : (s.setLine k v).net = s.net := rfl
@[simp] theorem State.setLine_lake : (s.setLine k v).lake = s.lake := rfl
@[simp] theorem State.setLine_ctx : (s.setLine k v).ctx = s.ctx := rfl
@[simp] theorem State.setLine_faults : (s.setLine k v).faults = s.faults := rfl
@[simp] theorem State.setLine_logs : (s.setLine k v).logs = s.logs := rfl
@[simp] theorem State.setLine_dieFrozen : (s.setLine k v).dieFrozen = s.dieFrozen := rfl
@[simp] theorem State.setLine_st : (s.setLine k v).st = s.st := rfl
@[simp] theorem State.setLine_dma : (s.setLine k v).dma = s.dma := rfl
@[simp] theorem State.setLine_pkg : (s.setLine k v).pkg = s.pkg := rfl
@[simp] theorem State.setLine_lpn : (s.setLine k v).lpn = s.lpn := rfl
@[simp] theorem State.setLine_gate : (s.setLine k v).gate = s.gate := rfl
@[simp] theorem State.setLine_pert : (s.setLine k v).pert = s.pert := rfl
@[simp] theorem State.setLine_jtag : (s.setLine k v).jtag = s.jtag := rfl
@[simp] theorem State.setLine_cfg : (s.setLine k v).cfg = s.cfg := rfl
@[simp] theorem State.setLine_pid : (s.setLine k v).pid = s.pid := rfl
@[simp] theorem State.setLine_h : (s.setLine k v).h = s.h := rfl
@[simp] theorem State.setLine_m : (s.setLine k v).m = s.m := rfl
@[simp] theorem State.setLine_pw : (s.setLine k v).pw = s.pw := rfl
@[simp] theorem State.setLine_fw : (s.setLine k v).fw = s.fw := rfl
@[simp] theorem State.setLine_ld : (s.setLine k v).ld = s.ld := rfl
@[simp] theorem State.setLine_out : (s.setLine k v).out = s.out := rfl
end

/-! ### `State.setBar` -/

section
variable (s : State) (k : Nat) (u : BarUnit)
@[simp] theorem State.setBar_pending : (s.setBar k u).pending = s.pending := rfl
@[simp] theorem State.setBar_tiles : (s.setBar k u).tiles = s.tiles := rfl
@[simp] theorem State.setBar_rows : (s.setBar k u).rows = s.rows := rfl
@[simp] theorem State.setBar_time : (s.setBar k u).time = s.time := rfl
@[simp] theorem State.setBar_net : (s.setBar k u).net = s.net := rfl
@[simp] theorem State.setBar_lake : (s.setBar k u).lake = s.lake := rfl
@[simp] theorem State.setBar_ctx : (s.setBar k u).ctx = s.ctx := rfl
@[simp] theorem State.setBar_faults : (s.setBar k u).faults = s.faults := rfl
@[simp] theorem State.setBar_logs : (s.setBar k u).logs = s.logs := rfl
@[simp] theorem State.setBar_dieFrozen : (s.setBar k u).dieFrozen = s.dieFrozen := rfl
@[simp] theorem State.setBar_st : (s.setBar k u).st = s.st := rfl
@[simp] theorem State.setBar_dma : (s.setBar k u).dma = s.dma := rfl
@[simp] theorem State.setBar_pkg : (s.setBar k u).pkg = s.pkg := rfl
@[simp] theorem State.setBar_lpn : (s.setBar k u).lpn = s.lpn := rfl
@[simp] theorem State.setBar_gate : (s.setBar k u).gate = s.gate := rfl
@[simp] theorem State.setBar_pert : (s.setBar k u).pert = s.pert := rfl
@[simp] theorem State.setBar_jtag : (s.setBar k u).jtag = s.jtag := rfl
@[simp] theorem State.setBar_cfg : (s.setBar k u).cfg = s.cfg := rfl
@[simp] theorem State.setBar_pid : (s.setBar k u).pid = s.pid := rfl
@[simp] theorem State.setBar_h : (s.setBar k u).h = s.h := rfl
@[simp] theorem State.setBar_m : (s.setBar k u).m = s.m := rfl
@[simp] theorem State.setBar_pw : (s.setBar k u).pw = s.pw := rfl
@[simp] theorem State.setBar_spr : (s.setBar k u).spr = s.spr := rfl
@[simp] theorem State.setBar_fw : (s.setBar k u).fw = s.fw := rfl
@[simp] theorem State.setBar_ld : (s.setBar k u).ld = s.ld := rfl
@[simp] theorem State.setBar_out : (s.setBar k u).out = s.out := rfl
end

/-! ### `State.setTim` -/

section
variable (s : State) (l : Nat) (v : TimLink)
@[simp] theorem State.setTim_pending : (s.setTim l v).pending = s.pending := rfl
@[simp] theorem State.setTim_tiles : (s.setTim l v).tiles = s.tiles := rfl
@[simp] theorem State.setTim_rows : (s.setTim l v).rows = s.rows := rfl
@[simp] theorem State.setTim_seq : (s.setTim l v).seq = s.seq := rfl
@[simp] theorem State.setTim_net : (s.setTim l v).net = s.net := rfl
@[simp] theorem State.setTim_lake : (s.setTim l v).lake = s.lake := rfl
@[simp] theorem State.setTim_ctx : (s.setTim l v).ctx = s.ctx := rfl
@[simp] theorem State.setTim_faults : (s.setTim l v).faults = s.faults := rfl
@[simp] theorem State.setTim_logs : (s.setTim l v).logs = s.logs := rfl
@[simp] theorem State.setTim_dieFrozen : (s.setTim l v).dieFrozen = s.dieFrozen := rfl
@[simp] theorem State.setTim_st : (s.setTim l v).st = s.st := rfl
@[simp] theorem State.setTim_dma : (s.setTim l v).dma = s.dma := rfl
@[simp] theorem State.setTim_pkg : (s.setTim l v).pkg = s.pkg := rfl
@[simp] theorem State.setTim_lpn : (s.setTim l v).lpn = s.lpn := rfl
@[simp] theorem State.setTim_gate : (s.setTim l v).gate = s.gate := rfl
@[simp] theorem State.setTim_pert : (s.setTim l v).pert = s.pert := rfl
@[simp] theorem State.setTim_jtag : (s.setTim l v).jtag = s.jtag := rfl
@[simp] theorem State.setTim_cfg : (s.setTim l v).cfg = s.cfg := rfl
@[simp] theorem State.setTim_pid : (s.setTim l v).pid = s.pid := rfl
@[simp] theorem State.setTim_h : (s.setTim l v).h = s.h := rfl
@[simp] theorem State.setTim_m : (s.setTim l v).m = s.m := rfl
@[simp] theorem State.setTim_pw : (s.setTim l v).pw = s.pw := rfl
@[simp] theorem State.setTim_spr : (s.setTim l v).spr = s.spr := rfl
@[simp] theorem State.setTim_fw : (s.setTim l v).fw = s.fw := rfl
@[simp] theorem State.setTim_ld : (s.setTim l v).ld = s.ld := rfl
@[simp] theorem State.setTim_out : (s.setTim l v).out = s.out := rfl
end

/-! ### `State.addPkt` -/

section
variable (s : State) (p : Pkt)
@[simp] theorem State.addPkt_pending : (s.addPkt p).pending = s.pending := rfl
@[simp] theorem State.addPkt_tiles : (s.addPkt p).tiles = s.tiles := rfl
@[simp] theorem State.addPkt_rows : (s.addPkt p).rows = s.rows := rfl
@[simp] theorem State.addPkt_seq : (s.addPkt p).seq = s.seq := rfl
@[simp] theorem State.addPkt_time : (s.addPkt p).time = s.time := rfl
@[simp] theorem State.addPkt_lake : (s.addPkt p).lake = s.lake := rfl
@[simp] theorem State.addPkt_ctx : (s.addPkt p).ctx = s.ctx := rfl
@[simp] theorem State.addPkt_faults : (s.addPkt p).faults = s.faults := rfl
@[simp] theorem State.addPkt_logs : (s.addPkt p).logs = s.logs := rfl
@[simp] theorem State.addPkt_dieFrozen : (s.addPkt p).dieFrozen = s.dieFrozen := rfl
@[simp] theorem State.addPkt_st : (s.addPkt p).st = s.st := rfl
@[simp] theorem State.addPkt_dma : (s.addPkt p).dma = s.dma := rfl
@[simp] theorem State.addPkt_pkg : (s.addPkt p).pkg = s.pkg := rfl
@[simp] theorem State.addPkt_lpn : (s.addPkt p).lpn = s.lpn := rfl
@[simp] theorem State.addPkt_gate : (s.addPkt p).gate = s.gate := rfl
@[simp] theorem State.addPkt_pert : (s.addPkt p).pert = s.pert := rfl
@[simp] theorem State.addPkt_jtag : (s.addPkt p).jtag = s.jtag := rfl
@[simp] theorem State.addPkt_cfg : (s.addPkt p).cfg = s.cfg := rfl
@[simp] theorem State.addPkt_pid : (s.addPkt p).pid = s.pid := rfl
@[simp] theorem State.addPkt_h : (s.addPkt p).h = s.h := rfl
@[simp] theorem State.addPkt_m : (s.addPkt p).m = s.m := rfl
@[simp] theorem State.addPkt_pw : (s.addPkt p).pw = s.pw := rfl
@[simp] theorem State.addPkt_spr : (s.addPkt p).spr = s.spr := rfl
@[simp] theorem State.addPkt_fw : (s.addPkt p).fw = s.fw := rfl
@[simp] theorem State.addPkt_ld : (s.addPkt p).ld = s.ld := rfl
@[simp] theorem State.addPkt_out : (s.addPkt p).out = s.out := rfl
end

/-! ### `State.setPkt` -/

section
variable (s : State) (p : Pkt)
@[simp] theorem State.setPkt_pending : (s.setPkt p).pending = s.pending := rfl
@[simp] theorem State.setPkt_tiles : (s.setPkt p).tiles = s.tiles := rfl
@[simp] theorem State.setPkt_rows : (s.setPkt p).rows = s.rows := rfl
@[simp] theorem State.setPkt_seq : (s.setPkt p).seq = s.seq := rfl
@[simp] theorem State.setPkt_time : (s.setPkt p).time = s.time := rfl
@[simp] theorem State.setPkt_lake : (s.setPkt p).lake = s.lake := rfl
@[simp] theorem State.setPkt_ctx : (s.setPkt p).ctx = s.ctx := rfl
@[simp] theorem State.setPkt_faults : (s.setPkt p).faults = s.faults := rfl
@[simp] theorem State.setPkt_logs : (s.setPkt p).logs = s.logs := rfl
@[simp] theorem State.setPkt_dieFrozen : (s.setPkt p).dieFrozen = s.dieFrozen := rfl
@[simp] theorem State.setPkt_st : (s.setPkt p).st = s.st := rfl
@[simp] theorem State.setPkt_dma : (s.setPkt p).dma = s.dma := rfl
@[simp] theorem State.setPkt_pkg : (s.setPkt p).pkg = s.pkg := rfl
@[simp] theorem State.setPkt_lpn : (s.setPkt p).lpn = s.lpn := rfl
@[simp] theorem State.setPkt_gate : (s.setPkt p).gate = s.gate := rfl
@[simp] theorem State.setPkt_pert : (s.setPkt p).pert = s.pert := rfl
@[simp] theorem State.setPkt_jtag : (s.setPkt p).jtag = s.jtag := rfl
@[simp] theorem State.setPkt_cfg : (s.setPkt p).cfg = s.cfg := rfl
@[simp] theorem State.setPkt_pid : (s.setPkt p).pid = s.pid := rfl
@[simp] theorem State.setPkt_h : (s.setPkt p).h = s.h := rfl
@[simp] theorem State.setPkt_m : (s.setPkt p).m = s.m := rfl
@[simp] theorem State.setPkt_pw : (s.setPkt p).pw = s.pw := rfl
@[simp] theorem State.setPkt_spr : (s.setPkt p).spr = s.spr := rfl
@[simp] theorem State.setPkt_fw : (s.setPkt p).fw = s.fw := rfl
@[simp] theorem State.setPkt_ld : (s.setPkt p).ld = s.ld := rfl
@[simp] theorem State.setPkt_out : (s.setPkt p).out = s.out := rfl
end

/-! ### `State.delPkt` -/

section
variable (s : State) (i : Nat)
@[simp] theorem State.delPkt_pending : (s.delPkt i).pending = s.pending := rfl
@[simp] theorem State.delPkt_tiles : (s.delPkt i).tiles = s.tiles := rfl
@[simp] theorem State.delPkt_rows : (s.delPkt i).rows = s.rows := rfl
@[simp] theorem State.delPkt_seq : (s.delPkt i).seq = s.seq := rfl
@[simp] theorem State.delPkt_time : (s.delPkt i).time = s.time := rfl
@[simp] theorem State.delPkt_lake : (s.delPkt i).lake = s.lake := rfl
@[simp] theorem State.delPkt_ctx : (s.delPkt i).ctx = s.ctx := rfl
@[simp] theorem State.delPkt_faults : (s.delPkt i).faults = s.faults := rfl
@[simp] theorem State.delPkt_logs : (s.delPkt i).logs = s.logs := rfl
@[simp] theorem State.delPkt_dieFrozen : (s.delPkt i).dieFrozen = s.dieFrozen := rfl
@[simp] theorem State.delPkt_st : (s.delPkt i).st = s.st := rfl
@[simp] theorem State.delPkt_dma : (s.delPkt i).dma = s.dma := rfl
@[simp] theorem State.delPkt_pkg : (s.delPkt i).pkg = s.pkg := rfl
@[simp] theorem State.delPkt_lpn : (s.delPkt i).lpn = s.lpn := rfl
@[simp] theorem State.delPkt_gate : (s.delPkt i).gate = s.gate := rfl
@[simp] theorem State.delPkt_pert : (s.delPkt i).pert = s.pert := rfl
@[simp] theorem State.delPkt_jtag : (s.delPkt i).jtag = s.jtag := rfl
@[simp] theorem State.delPkt_cfg : (s.delPkt i).cfg = s.cfg := rfl
@[simp] theorem State.delPkt_pid : (s.delPkt i).pid = s.pid := rfl
@[simp] theorem State.delPkt_h : (s.delPkt i).h = s.h := rfl
@[simp] theorem State.delPkt_m : (s.delPkt i).m = s.m := rfl
@[simp] theorem State.delPkt_pw : (s.delPkt i).pw = s.pw := rfl
@[simp] theorem State.delPkt_spr : (s.delPkt i).spr = s.spr := rfl
@[simp] theorem State.delPkt_fw : (s.delPkt i).fw = s.fw := rfl
@[simp] theorem State.delPkt_ld : (s.delPkt i).ld = s.ld := rfl
@[simp] theorem State.delPkt_out : (s.delPkt i).out = s.out := rfl
end

/-! ### `State.emit` -/

section
variable (s : State) (c v : Nat)
@[simp] theorem State.emit_pending : (s.emit c v).pending = s.pending := rfl
@[simp] theorem State.emit_tiles : (s.emit c v).tiles = s.tiles := rfl
@[simp] theorem State.emit_rows : (s.emit c v).rows = s.rows := rfl
@[simp] theorem State.emit_seq : (s.emit c v).seq = s.seq := rfl
@[simp] theorem State.emit_time : (s.emit c v).time = s.time := rfl
@[simp] theorem State.emit_net : (s.emit c v).net = s.net := rfl
@[simp] theorem State.emit_lake : (s.emit c v).lake = s.lake := rfl
@[simp] theorem State.emit_ctx : (s.emit c v).ctx = s.ctx := rfl
@[simp] theorem State.emit_faults : (s.emit c v).faults = s.faults := rfl
@[simp] theorem State.emit_logs : (s.emit c v).logs = s.logs := rfl
@[simp] theorem State.emit_dieFrozen : (s.emit c v).dieFrozen = s.dieFrozen := rfl
@[simp] theorem State.emit_st : (s.emit c v).st = s.st := rfl
@[simp] theorem State.emit_dma : (s.emit c v).dma = s.dma := rfl
@[simp] theorem State.emit_pkg : (s.emit c v).pkg = s.pkg := rfl
@[simp] theorem State.emit_lpn : (s.emit c v).lpn = s.lpn := rfl
@[simp] theorem State.emit_gate : (s.emit c v).gate = s.gate := rfl
@[simp] theorem State.emit_pert : (s.emit c v).pert = s.pert := rfl
@[simp] theorem State.emit_jtag : (s.emit c v).jtag = s.jtag := rfl
@[simp] theorem State.emit_cfg : (s.emit c v).cfg = s.cfg := rfl
@[simp] theorem State.emit_pid : (s.emit c v).pid = s.pid := rfl
@[simp] theorem State.emit_h : (s.emit c v).h = s.h := rfl
@[simp] theorem State.emit_m : (s.emit c v).m = s.m := rfl
@[simp] theorem State.emit_pw : (s.emit c v).pw = s.pw := rfl
@[simp] theorem State.emit_spr : (s.emit c v).spr = s.spr := rfl
@[simp] theorem State.emit_fw : (s.emit c v).fw = s.fw := rfl
@[simp] theorem State.emit_ld : (s.emit c v).ld = s.ld := rfl
end

/-! ### `State.emitBytes` -/

section
variable (s : State) (c : Nat) (b : List Byte)
@[simp] theorem State.emitBytes_pending : (s.emitBytes c b).pending = s.pending := rfl
@[simp] theorem State.emitBytes_tiles : (s.emitBytes c b).tiles = s.tiles := rfl
@[simp] theorem State.emitBytes_rows : (s.emitBytes c b).rows = s.rows := rfl
@[simp] theorem State.emitBytes_seq : (s.emitBytes c b).seq = s.seq := rfl
@[simp] theorem State.emitBytes_time : (s.emitBytes c b).time = s.time := rfl
@[simp] theorem State.emitBytes_net : (s.emitBytes c b).net = s.net := rfl
@[simp] theorem State.emitBytes_lake : (s.emitBytes c b).lake = s.lake := rfl
@[simp] theorem State.emitBytes_ctx : (s.emitBytes c b).ctx = s.ctx := rfl
@[simp] theorem State.emitBytes_faults : (s.emitBytes c b).faults = s.faults := rfl
@[simp] theorem State.emitBytes_logs : (s.emitBytes c b).logs = s.logs := rfl
@[simp] theorem State.emitBytes_dieFrozen : (s.emitBytes c b).dieFrozen = s.dieFrozen := rfl
@[simp] theorem State.emitBytes_st : (s.emitBytes c b).st = s.st := rfl
@[simp] theorem State.emitBytes_dma : (s.emitBytes c b).dma = s.dma := rfl
@[simp] theorem State.emitBytes_pkg : (s.emitBytes c b).pkg = s.pkg := rfl
@[simp] theorem State.emitBytes_lpn : (s.emitBytes c b).lpn = s.lpn := rfl
@[simp] theorem State.emitBytes_gate : (s.emitBytes c b).gate = s.gate := rfl
@[simp] theorem State.emitBytes_pert : (s.emitBytes c b).pert = s.pert := rfl
@[simp] theorem State.emitBytes_jtag : (s.emitBytes c b).jtag = s.jtag := rfl
@[simp] theorem State.emitBytes_cfg : (s.emitBytes c b).cfg = s.cfg := rfl
@[simp] theorem State.emitBytes_pid : (s.emitBytes c b).pid = s.pid := rfl
@[simp] theorem State.emitBytes_h : (s.emitBytes c b).h = s.h := rfl
@[simp] theorem State.emitBytes_m : (s.emitBytes c b).m = s.m := rfl
@[simp] theorem State.emitBytes_pw : (s.emitBytes c b).pw = s.pw := rfl
@[simp] theorem State.emitBytes_spr : (s.emitBytes c b).spr = s.spr := rfl
@[simp] theorem State.emitBytes_fw : (s.emitBytes c b).fw = s.fw := rfl
@[simp] theorem State.emitBytes_ld : (s.emitBytes c b).ld = s.ld := rfl
end

/-! ### `State.sendCtl` -/

section
variable (s : State) (l : Nat) (x : Slot)
@[simp] theorem State.sendCtl_pending : (s.sendCtl l x).pending = s.pending := by unfold State.sendCtl; split <;> rfl
@[simp] theorem State.sendCtl_tiles : (s.sendCtl l x).tiles = s.tiles := by unfold State.sendCtl; split <;> rfl
@[simp] theorem State.sendCtl_rows : (s.sendCtl l x).rows = s.rows := by unfold State.sendCtl; split <;> rfl
@[simp] theorem State.sendCtl_seq : (s.sendCtl l x).seq = s.seq := by unfold State.sendCtl; split <;> rfl
@[simp] theorem State.sendCtl_time : (s.sendCtl l x).time = s.time := by unfold State.sendCtl; split <;> rfl
@[simp] theorem State.sendCtl_net : (s.sendCtl l x).net = s.net := by unfold State.sendCtl; split <;> rfl
@[simp] theorem State.sendCtl_lake : (s.sendCtl l x).lake = s.lake := by unfold State.sendCtl; split <;> rfl
@[simp] theorem State.sendCtl_ctx : (s.sendCtl l x).ctx = s.ctx := by unfold State.sendCtl; split <;> rfl
@[simp] theorem State.sendCtl_faults : (s.sendCtl l x).faults = s.faults := by unfold State.sendCtl; split <;> rfl
@[simp] theorem State.sendCtl_logs : (s.sendCtl l x).logs = s.logs := by unfold State.sendCtl; split <;> rfl
@[simp] theorem State.sendCtl_dieFrozen : (s.sendCtl l x).dieFrozen = s.dieFrozen := by unfold State.sendCtl; split <;> rfl
@[simp] theorem State.sendCtl_st : (s.sendCtl l x).st = s.st := by unfold State.sendCtl; split <;> rfl
@[simp] theorem State.sendCtl_dma : (s.sendCtl l x).dma = s.dma := by unfold State.sendCtl; split <;> rfl
@[simp] theorem State.sendCtl_pkg : (s.sendCtl l x).pkg = s.pkg := by unfold State.sendCtl; split <;> rfl
@[simp] theorem State.sendCtl_lpn : (s.sendCtl l x).lpn = s.lpn := by unfold State.sendCtl; split <;> rfl
@[simp] theorem State.sendCtl_gate : (s.sendCtl l x).gate = s.gate := by unfold State.sendCtl; split <;> rfl
@[simp] theorem State.sendCtl_pert : (s.sendCtl l x).pert = s.pert := by unfold State.sendCtl; split <;> rfl
@[simp] theorem State.sendCtl_jtag : (s.sendCtl l x).jtag = s.jtag := by unfold State.sendCtl; split <;> rfl
@[simp] theorem State.sendCtl_cfg : (s.sendCtl l x).cfg = s.cfg := by unfold State.sendCtl; split <;> rfl
@[simp] theorem State.sendCtl_pid : (s.sendCtl l x).pid = s.pid := by unfold State.sendCtl; split <;> rfl
@[simp] theorem State.sendCtl_h : (s.sendCtl l x).h = s.h := by unfold State.sendCtl; split <;> rfl
@[simp] theorem State.sendCtl_m : (s.sendCtl l x).m = s.m := by unfold State.sendCtl; split <;> rfl
@[simp] theorem State.sendCtl_pw : (s.sendCtl l x).pw = s.pw := by unfold State.sendCtl; split <;> rfl
@[simp] theorem State.sendCtl_spr : (s.sendCtl l x).spr = s.spr := by unfold State.sendCtl; split <;> rfl
@[simp] theorem State.sendCtl_fw : (s.sendCtl l x).fw = s.fw := by unfold State.sendCtl; split <;> rfl
@[simp] theorem State.sendCtl_ld : (s.sendCtl l x).ld = s.ld := by unfold State.sendCtl; split <;> rfl
end

/-! ### `State.setArb` -/

section
variable (s : State) (k i : Nat) (v : Arb)
@[simp] theorem State.setArb_pending : (s.setArb k i v).pending = s.pending := rfl
@[simp] theorem State.setArb_tiles : (s.setArb k i v).tiles = s.tiles := rfl
@[simp] theorem State.setArb_rows : (s.setArb k i v).rows = s.rows := rfl
@[simp] theorem State.setArb_seq : (s.setArb k i v).seq = s.seq := rfl
@[simp] theorem State.setArb_time : (s.setArb k i v).time = s.time := rfl
@[simp] theorem State.setArb_lake : (s.setArb k i v).lake = s.lake := rfl
@[simp] theorem State.setArb_ctx : (s.setArb k i v).ctx = s.ctx := rfl
@[simp] theorem State.setArb_faults : (s.setArb k i v).faults = s.faults := rfl
@[simp] theorem State.setArb_logs : (s.setArb k i v).logs = s.logs := rfl
@[simp] theorem State.setArb_dieFrozen : (s.setArb k i v).dieFrozen = s.dieFrozen := rfl
@[simp] theorem State.setArb_st : (s.setArb k i v).st = s.st := rfl
@[simp] theorem State.setArb_dma : (s.setArb k i v).dma = s.dma := rfl
@[simp] theorem State.setArb_pkg : (s.setArb k i v).pkg = s.pkg := rfl
@[simp] theorem State.setArb_lpn : (s.setArb k i v).lpn = s.lpn := rfl
@[simp] theorem State.setArb_gate : (s.setArb k i v).gate = s.gate := rfl
@[simp] theorem State.setArb_pert : (s.setArb k i v).pert = s.pert := rfl
@[simp] theorem State.setArb_jtag : (s.setArb k i v).jtag = s.jtag := rfl
@[simp] theorem State.setArb_cfg : (s.setArb k i v).cfg = s.cfg := rfl
@[simp] theorem State.setArb_pid : (s.setArb k i v).pid = s.pid := rfl
@[simp] theorem State.setArb_h : (s.setArb k i v).h = s.h := rfl
@[simp] theorem State.setArb_m : (s.setArb k i v).m = s.m := rfl
@[simp] theorem State.setArb_pw : (s.setArb k i v).pw = s.pw := rfl
@[simp] theorem State.setArb_spr : (s.setArb k i v).spr = s.spr := rfl
@[simp] theorem State.setArb_fw : (s.setArb k i v).fw = s.fw := rfl
@[simp] theorem State.setArb_ld : (s.setArb k i v).ld = s.ld := rfl
@[simp] theorem State.setArb_out : (s.setArb k i v).out = s.out := rfl
end

/-! ### `State.lakeCount` -/

section
variable (s : State) (rs : List (Nat × Nat))
@[simp] theorem State.lakeCount_pending : (s.lakeCount rs).pending = s.pending := rfl
@[simp] theorem State.lakeCount_tiles : (s.lakeCount rs).tiles = s.tiles := rfl
@[simp] theorem State.lakeCount_rows : (s.lakeCount rs).rows = s.rows := rfl
@[simp] theorem State.lakeCount_seq : (s.lakeCount rs).seq = s.seq := rfl
@[simp] theorem State.lakeCount_time : (s.lakeCount rs).time = s.time := rfl
@[simp] theorem State.lakeCount_net : (s.lakeCount rs).net = s.net := rfl
@[simp] theorem State.lakeCount_ctx : (s.lakeCount rs).ctx = s.ctx := rfl
@[simp] theorem State.lakeCount_faults : (s.lakeCount rs).faults = s.faults := rfl
@[simp] theorem State.lakeCount_logs : (s.lakeCount rs).logs = s.logs := rfl
@[simp] theorem State.lakeCount_dieFrozen : (s.lakeCount rs).dieFrozen = s.dieFrozen := rfl
@[simp] theorem State.lakeCount_st : (s.lakeCount rs).st = s.st := rfl
@[simp] theorem State.lakeCount_dma : (s.lakeCount rs).dma = s.dma := rfl
@[simp] theorem State.lakeCount_pkg : (s.lakeCount rs).pkg = s.pkg := rfl
@[simp] theorem State.lakeCount_lpn : (s.lakeCount rs).lpn = s.lpn := rfl
@[simp] theorem State.lakeCount_gate : (s.lakeCount rs).gate = s.gate := rfl
@[simp] theorem State.lakeCount_pert : (s.lakeCount rs).pert = s.pert := rfl
@[simp] theorem State.lakeCount_jtag : (s.lakeCount rs).jtag = s.jtag := rfl
@[simp] theorem State.lakeCount_cfg : (s.lakeCount rs).cfg = s.cfg := rfl
@[simp] theorem State.lakeCount_pid : (s.lakeCount rs).pid = s.pid := rfl
@[simp] theorem State.lakeCount_h : (s.lakeCount rs).h = s.h := rfl
@[simp] theorem State.lakeCount_m : (s.lakeCount rs).m = s.m := rfl
@[simp] theorem State.lakeCount_pw : (s.lakeCount rs).pw = s.pw := rfl
@[simp] theorem State.lakeCount_spr : (s.lakeCount rs).spr = s.spr := rfl
@[simp] theorem State.lakeCount_fw : (s.lakeCount rs).fw = s.fw := rfl
@[simp] theorem State.lakeCount_ld : (s.lakeCount rs).ld = s.ld := rfl
@[simp] theorem State.lakeCount_out : (s.lakeCount rs).out = s.out := rfl
end

/-! ### `State.sense` -/

section
variable (s : State) (ts : List (Nat × Nat))
@[simp] theorem State.sense_pending : (s.sense ts).pending = s.pending := rfl
@[simp] theorem State.sense_tiles : (s.sense ts).tiles = s.tiles := rfl
@[simp] theorem State.sense_rows : (s.sense ts).rows = s.rows := rfl
@[simp] theorem State.sense_seq : (s.sense ts).seq = s.seq := rfl
@[simp] theorem State.sense_time : (s.sense ts).time = s.time := rfl
@[simp] theorem State.sense_net : (s.sense ts).net = s.net := rfl
@[simp] theorem State.sense_lake : (s.sense ts).lake = s.lake := rfl
@[simp] theorem State.sense_ctx : (s.sense ts).ctx = s.ctx := rfl
@[simp] theorem State.sense_faults : (s.sense ts).faults = s.faults := rfl
@[simp] theorem State.sense_logs : (s.sense ts).logs = s.logs := rfl
@[simp] theorem State.sense_dieFrozen : (s.sense ts).dieFrozen = s.dieFrozen := rfl
@[simp] theorem State.sense_st : (s.sense ts).st = s.st := rfl
@[simp] theorem State.sense_dma : (s.sense ts).dma = s.dma := rfl
@[simp] theorem State.sense_pkg : (s.sense ts).pkg = s.pkg := rfl
@[simp] theorem State.sense_lpn : (s.sense ts).lpn = s.lpn := rfl
@[simp] theorem State.sense_gate : (s.sense ts).gate = s.gate := rfl
@[simp] theorem State.sense_pert : (s.sense ts).pert = s.pert := rfl
@[simp] theorem State.sense_jtag : (s.sense ts).jtag = s.jtag := rfl
@[simp] theorem State.sense_cfg : (s.sense ts).cfg = s.cfg := rfl
@[simp] theorem State.sense_pid : (s.sense ts).pid = s.pid := rfl
@[simp] theorem State.sense_h : (s.sense ts).h = s.h := rfl
@[simp] theorem State.sense_m : (s.sense ts).m = s.m := rfl
@[simp] theorem State.sense_spr : (s.sense ts).spr = s.spr := rfl
@[simp] theorem State.sense_fw : (s.sense ts).fw = s.fw := rfl
@[simp] theorem State.sense_ld : (s.sense ts).ld = s.ld := rfl
@[simp] theorem State.sense_out : (s.sense ts).out = s.out := rfl
end

/-! ### `State.clearCounts` -/

section
variable (s : State) 
@[simp] theorem State.clearCounts_pending : s.clearCounts.pending = s.pending := rfl
@[simp] theorem State.clearCounts_rows : s.clearCounts.rows = s.rows := rfl
@[simp] theorem State.clearCounts_seq : s.clearCounts.seq = s.seq := rfl
@[simp] theorem State.clearCounts_time : s.clearCounts.time = s.time := rfl
@[simp] theorem State.clearCounts_ctx : s.clearCounts.ctx = s.ctx := rfl
@[simp] theorem State.clearCounts_faults : s.clearCounts.faults = s.faults := rfl
@[simp] theorem State.clearCounts_logs : s.clearCounts.logs = s.logs := rfl
@[simp] theorem State.clearCounts_dieFrozen : s.clearCounts.dieFrozen = s.dieFrozen := rfl
@[simp] theorem State.clearCounts_dma : s.clearCounts.dma = s.dma := rfl
@[simp] theorem State.clearCounts_pkg : s.clearCounts.pkg = s.pkg := rfl
@[simp] theorem State.clearCounts_lpn : s.clearCounts.lpn = s.lpn := rfl
@[simp] theorem State.clearCounts_gate : s.clearCounts.gate = s.gate := rfl
@[simp] theorem State.clearCounts_pert : s.clearCounts.pert = s.pert := rfl
@[simp] theorem State.clearCounts_jtag : s.clearCounts.jtag = s.jtag := rfl
@[simp] theorem State.clearCounts_cfg : s.clearCounts.cfg = s.cfg := rfl
@[simp] theorem State.clearCounts_pid : s.clearCounts.pid = s.pid := rfl
@[simp] theorem State.clearCounts_h : s.clearCounts.h = s.h := rfl
@[simp] theorem State.clearCounts_m : s.clearCounts.m = s.m := rfl
@[simp] theorem State.clearCounts_spr : s.clearCounts.spr = s.spr := rfl
@[simp] theorem State.clearCounts_fw : s.clearCounts.fw = s.fw := rfl
@[simp] theorem State.clearCounts_ld : s.clearCounts.ld = s.ld := rfl
@[simp] theorem State.clearCounts_out : s.clearCounts.out = s.out := rfl
end

/-! ### `State.sprintTick` -/

section
variable (s : State) 
@[simp] theorem State.sprintTick_pending : s.sprintTick.pending = s.pending := by unfold State.sprintTick; split <;> rfl
@[simp] theorem State.sprintTick_tiles : s.sprintTick.tiles = s.tiles := by unfold State.sprintTick; split <;> rfl
@[simp] theorem State.sprintTick_rows : s.sprintTick.rows = s.rows := by unfold State.sprintTick; split <;> rfl
@[simp] theorem State.sprintTick_seq : s.sprintTick.seq = s.seq := by unfold State.sprintTick; split <;> rfl
@[simp] theorem State.sprintTick_time : s.sprintTick.time = s.time := by unfold State.sprintTick; split <;> rfl
@[simp] theorem State.sprintTick_net : s.sprintTick.net = s.net := by unfold State.sprintTick; split <;> rfl
@[simp] theorem State.sprintTick_lake : s.sprintTick.lake = s.lake := by unfold State.sprintTick; split <;> rfl
@[simp] theorem State.sprintTick_ctx : s.sprintTick.ctx = s.ctx := by unfold State.sprintTick; split <;> rfl
@[simp] theorem State.sprintTick_faults : s.sprintTick.faults = s.faults := by unfold State.sprintTick; split <;> rfl
@[simp] theorem State.sprintTick_logs : s.sprintTick.logs = s.logs := by unfold State.sprintTick; split <;> rfl
@[simp] theorem State.sprintTick_dieFrozen : s.sprintTick.dieFrozen = s.dieFrozen := by unfold State.sprintTick; split <;> rfl
@[simp] theorem State.sprintTick_st : s.sprintTick.st = s.st := by unfold State.sprintTick; split <;> rfl
@[simp] theorem State.sprintTick_dma : s.sprintTick.dma = s.dma := by unfold State.sprintTick; split <;> rfl
@[simp] theorem State.sprintTick_pkg : s.sprintTick.pkg = s.pkg := by unfold State.sprintTick; split <;> rfl
@[simp] theorem State.sprintTick_lpn : s.sprintTick.lpn = s.lpn := by unfold State.sprintTick; split <;> rfl
@[simp] theorem State.sprintTick_gate : s.sprintTick.gate = s.gate := by unfold State.sprintTick; split <;> rfl
@[simp] theorem State.sprintTick_pert : s.sprintTick.pert = s.pert := by unfold State.sprintTick; split <;> rfl
@[simp] theorem State.sprintTick_jtag : s.sprintTick.jtag = s.jtag := by unfold State.sprintTick; split <;> rfl
@[simp] theorem State.sprintTick_cfg : s.sprintTick.cfg = s.cfg := by unfold State.sprintTick; split <;> rfl
@[simp] theorem State.sprintTick_pid : s.sprintTick.pid = s.pid := by unfold State.sprintTick; split <;> rfl
@[simp] theorem State.sprintTick_h : s.sprintTick.h = s.h := by unfold State.sprintTick; split <;> rfl
@[simp] theorem State.sprintTick_m : s.sprintTick.m = s.m := by unfold State.sprintTick; split <;> rfl
@[simp] theorem State.sprintTick_spr : s.sprintTick.spr = s.spr := by unfold State.sprintTick; split <;> rfl
@[simp] theorem State.sprintTick_fw : s.sprintTick.fw = s.fw := by unfold State.sprintTick; split <;> rfl
@[simp] theorem State.sprintTick_ld : s.sprintTick.ld = s.ld := by unfold State.sprintTick; split <;> rfl
@[simp] theorem State.sprintTick_out : s.sprintTick.out = s.out := by unfold State.sprintTick; split <;> rfl
end

/-! ### `State.endSprint` -/

section
variable (s : State) 
@[simp] theorem State.endSprint_pending : s.endSprint.pending = s.pending := by unfold State.endSprint; split <;> simp
@[simp] theorem State.endSprint_tiles : s.endSprint.tiles = s.tiles := by unfold State.endSprint; split <;> simp
@[simp] theorem State.endSprint_rows : s.endSprint.rows = s.rows := by unfold State.endSprint; split <;> simp
@[simp] theorem State.endSprint_seq : s.endSprint.seq = s.seq := by unfold State.endSprint; split <;> simp
@[simp] theorem State.endSprint_time : s.endSprint.time = s.time := by unfold State.endSprint; split <;> simp
@[simp] theorem State.endSprint_net : s.endSprint.net = s.net := by unfold State.endSprint; split <;> simp
@[simp] theorem State.endSprint_lake : s.endSprint.lake = s.lake := by unfold State.endSprint; split <;> simp
@[simp] theorem State.endSprint_ctx : s.endSprint.ctx = s.ctx := by unfold State.endSprint; split <;> simp
@[simp] theorem State.endSprint_faults : s.endSprint.faults = s.faults := by unfold State.endSprint; split <;> simp
@[simp] theorem State.endSprint_logs : s.endSprint.logs = s.logs := by unfold State.endSprint; split <;> simp
@[simp] theorem State.endSprint_dieFrozen : s.endSprint.dieFrozen = s.dieFrozen := by unfold State.endSprint; split <;> simp
@[simp] theorem State.endSprint_st : s.endSprint.st = s.st := by unfold State.endSprint; split <;> simp
@[simp] theorem State.endSprint_dma : s.endSprint.dma = s.dma := by unfold State.endSprint; split <;> simp
@[simp] theorem State.endSprint_pkg : s.endSprint.pkg = s.pkg := by unfold State.endSprint; split <;> simp
@[simp] theorem State.endSprint_lpn : s.endSprint.lpn = s.lpn := by unfold State.endSprint; split <;> simp
@[simp] theorem State.endSprint_gate : s.endSprint.gate = s.gate := by unfold State.endSprint; split <;> simp
@[simp] theorem State.endSprint_pert : s.endSprint.pert = s.pert := by unfold State.endSprint; split <;> simp
@[simp] theorem State.endSprint_jtag : s.endSprint.jtag = s.jtag := by unfold State.endSprint; split <;> simp
@[simp] theorem State.endSprint_cfg : s.endSprint.cfg = s.cfg := by unfold State.endSprint; split <;> simp
@[simp] theorem State.endSprint_pid : s.endSprint.pid = s.pid := by unfold State.endSprint; split <;> simp
@[simp] theorem State.endSprint_h : s.endSprint.h = s.h := by unfold State.endSprint; split <;> simp
@[simp] theorem State.endSprint_m : s.endSprint.m = s.m := by unfold State.endSprint; split <;> simp
@[simp] theorem State.endSprint_spr : s.endSprint.spr = s.spr := by unfold State.endSprint; split <;> simp
@[simp] theorem State.endSprint_fw : s.endSprint.fw = s.fw := by unfold State.endSprint; split <;> simp
@[simp] theorem State.endSprint_ld : s.endSprint.ld = s.ld := by unfold State.endSprint; split <;> simp
@[simp] theorem State.endSprint_out : s.endSprint.out = s.out := by unfold State.endSprint; split <;> simp
end

/-! ### `State.respond` -/

section
variable (s : State) 
@[simp] theorem State.respond_pending : s.respond.pending = s.pending := by unfold State.respond; simp
@[simp] theorem State.respond_tiles : s.respond.tiles = s.tiles := by unfold State.respond; simp
@[simp] theorem State.respond_rows : s.respond.rows = s.rows := by unfold State.respond; simp
@[simp] theorem State.respond_seq : s.respond.seq = s.seq := by unfold State.respond; simp
@[simp] theorem State.respond_time : s.respond.time = s.time := by unfold State.respond; simp
@[simp] theorem State.respond_net : s.respond.net = s.net := by unfold State.respond; simp
@[simp] theorem State.respond_lake : s.respond.lake = s.lake := by unfold State.respond; simp
@[simp] theorem State.respond_ctx : s.respond.ctx = s.ctx := by unfold State.respond; simp
@[simp] theorem State.respond_faults : s.respond.faults = s.faults := by unfold State.respond; simp
@[simp] theorem State.respond_logs : s.respond.logs = s.logs := by unfold State.respond; simp
@[simp] theorem State.respond_dieFrozen : s.respond.dieFrozen = s.dieFrozen := by unfold State.respond; simp
@[simp] theorem State.respond_st : s.respond.st = s.st := by unfold State.respond; simp
@[simp] theorem State.respond_dma : s.respond.dma = s.dma := by unfold State.respond; simp
@[simp] theorem State.respond_pkg : s.respond.pkg = s.pkg := by unfold State.respond; simp
@[simp] theorem State.respond_lpn : s.respond.lpn = s.lpn := by unfold State.respond; simp
@[simp] theorem State.respond_gate : s.respond.gate = s.gate := by unfold State.respond; simp
@[simp] theorem State.respond_pert : s.respond.pert = s.pert := by unfold State.respond; simp
@[simp] theorem State.respond_jtag : s.respond.jtag = s.jtag := by unfold State.respond; simp
@[simp] theorem State.respond_cfg : s.respond.cfg = s.cfg := by unfold State.respond; simp
@[simp] theorem State.respond_pid : s.respond.pid = s.pid := by unfold State.respond; simp
@[simp] theorem State.respond_h : s.respond.h = s.h := by unfold State.respond; simp
@[simp] theorem State.respond_m : s.respond.m = s.m := by unfold State.respond; simp
@[simp] theorem State.respond_spr : s.respond.spr = s.spr := by unfold State.respond; simp
@[simp] theorem State.respond_fw : s.respond.fw = s.fw := by unfold State.respond; simp
@[simp] theorem State.respond_ld : s.respond.ld = s.ld := by unfold State.respond; simp
@[simp] theorem State.respond_out : s.respond.out = s.out := by unfold State.respond; simp
end

/-! ### `State.event` -/

section
variable (s : State) (c o d : Nat)
@[simp] theorem State.event_pending : (s.event c o d).pending = s.pending := rfl
@[simp] theorem State.event_tiles : (s.event c o d).tiles = s.tiles := rfl
@[simp] theorem State.event_rows : (s.event c o d).rows = s.rows := rfl
@[simp] theorem State.event_seq : (s.event c o d).seq = s.seq := rfl
@[simp] theorem State.event_time : (s.event c o d).time = s.time := rfl
@[simp] theorem State.event_net : (s.event c o d).net = s.net := rfl
@[simp] theorem State.event_lake : (s.event c o d).lake = s.lake := rfl
@[simp] theorem State.event_ctx : (s.event c o d).ctx = s.ctx := rfl
@[simp] theorem State.event_faults : (s.event c o d).faults = s.faults := rfl
@[simp] theorem State.event_dieFrozen : (s.event c o d).dieFrozen = s.dieFrozen := rfl
@[simp] theorem State.event_st : (s.event c o d).st = s.st := rfl
@[simp] theorem State.event_dma : (s.event c o d).dma = s.dma := rfl
@[simp] theorem State.event_pkg : (s.event c o d).pkg = s.pkg := rfl
@[simp] theorem State.event_lpn : (s.event c o d).lpn = s.lpn := rfl
@[simp] theorem State.event_gate : (s.event c o d).gate = s.gate := rfl
@[simp] theorem State.event_pert : (s.event c o d).pert = s.pert := rfl
@[simp] theorem State.event_jtag : (s.event c o d).jtag = s.jtag := rfl
@[simp] theorem State.event_cfg : (s.event c o d).cfg = s.cfg := rfl
@[simp] theorem State.event_pid : (s.event c o d).pid = s.pid := rfl
@[simp] theorem State.event_h : (s.event c o d).h = s.h := rfl
@[simp] theorem State.event_m : (s.event c o d).m = s.m := rfl
@[simp] theorem State.event_pw : (s.event c o d).pw = s.pw := rfl
@[simp] theorem State.event_spr : (s.event c o d).spr = s.spr := rfl
@[simp] theorem State.event_fw : (s.event c o d).fw = s.fw := rfl
@[simp] theorem State.event_ld : (s.event c o d).ld = s.ld := rfl
@[simp] theorem State.event_out : (s.event c o d).out = s.out := rfl
end

/-! ### `State.addOrder` -/

section
variable (s : State) (c p o q v w : Nat)
@[simp] theorem State.addOrder_pending : (s.addOrder c p o q v w).pending = s.pending := rfl
@[simp] theorem State.addOrder_tiles : (s.addOrder c p o q v w).tiles = s.tiles := rfl
@[simp] theorem State.addOrder_rows : (s.addOrder c p o q v w).rows = s.rows := rfl
@[simp] theorem State.addOrder_seq : (s.addOrder c p o q v w).seq = s.seq := rfl
@[simp] theorem State.addOrder_time : (s.addOrder c p o q v w).time = s.time := rfl
@[simp] theorem State.addOrder_net : (s.addOrder c p o q v w).net = s.net := rfl
@[simp] theorem State.addOrder_lake : (s.addOrder c p o q v w).lake = s.lake := rfl
@[simp] theorem State.addOrder_ctx : (s.addOrder c p o q v w).ctx = s.ctx := rfl
@[simp] theorem State.addOrder_faults : (s.addOrder c p o q v w).faults = s.faults := rfl
@[simp] theorem State.addOrder_dieFrozen : (s.addOrder c p o q v w).dieFrozen = s.dieFrozen := rfl
@[simp] theorem State.addOrder_st : (s.addOrder c p o q v w).st = s.st := rfl
@[simp] theorem State.addOrder_dma : (s.addOrder c p o q v w).dma = s.dma := rfl
@[simp] theorem State.addOrder_pkg : (s.addOrder c p o q v w).pkg = s.pkg := rfl
@[simp] theorem State.addOrder_lpn : (s.addOrder c p o q v w).lpn = s.lpn := rfl
@[simp] theorem State.addOrder_gate : (s.addOrder c p o q v w).gate = s.gate := rfl
@[simp] theorem State.addOrder_pert : (s.addOrder c p o q v w).pert = s.pert := rfl
@[simp] theorem State.addOrder_jtag : (s.addOrder c p o q v w).jtag = s.jtag := rfl
@[simp] theorem State.addOrder_cfg : (s.addOrder c p o q v w).cfg = s.cfg := rfl
@[simp] theorem State.addOrder_pid : (s.addOrder c p o q v w).pid = s.pid := rfl
@[simp] theorem State.addOrder_h : (s.addOrder c p o q v w).h = s.h := rfl
@[simp] theorem State.addOrder_m : (s.addOrder c p o q v w).m = s.m := rfl
@[simp] theorem State.addOrder_pw : (s.addOrder c p o q v w).pw = s.pw := rfl
@[simp] theorem State.addOrder_spr : (s.addOrder c p o q v w).spr = s.spr := rfl
@[simp] theorem State.addOrder_fw : (s.addOrder c p o q v w).fw = s.fw := rfl
@[simp] theorem State.addOrder_ld : (s.addOrder c p o q v w).ld = s.ld := rfl
@[simp] theorem State.addOrder_out : (s.addOrder c p o q v w).out = s.out := rfl
end

/-! ### `State.setIr` -/

section
variable (s : State) (i : Nat)
@[simp] theorem State.setIr_pending : (s.setIr i).pending = s.pending := rfl
@[simp] theorem State.setIr_tiles : (s.setIr i).tiles = s.tiles := rfl
@[simp] theorem State.setIr_rows : (s.setIr i).rows = s.rows := rfl
@[simp] theorem State.setIr_seq : (s.setIr i).seq = s.seq := rfl
@[simp] theorem State.setIr_time : (s.setIr i).time = s.time := rfl
@[simp] theorem State.setIr_net : (s.setIr i).net = s.net := rfl
@[simp] theorem State.setIr_lake : (s.setIr i).lake = s.lake := rfl
@[simp] theorem State.setIr_ctx : (s.setIr i).ctx = s.ctx := rfl
@[simp] theorem State.setIr_faults : (s.setIr i).faults = s.faults := rfl
@[simp] theorem State.setIr_logs : (s.setIr i).logs = s.logs := rfl
@[simp] theorem State.setIr_dieFrozen : (s.setIr i).dieFrozen = s.dieFrozen := rfl
@[simp] theorem State.setIr_st : (s.setIr i).st = s.st := rfl
@[simp] theorem State.setIr_dma : (s.setIr i).dma = s.dma := rfl
@[simp] theorem State.setIr_pkg : (s.setIr i).pkg = s.pkg := rfl
@[simp] theorem State.setIr_lpn : (s.setIr i).lpn = s.lpn := rfl
@[simp] theorem State.setIr_gate : (s.setIr i).gate = s.gate := rfl
@[simp] theorem State.setIr_pert : (s.setIr i).pert = s.pert := rfl
@[simp] theorem State.setIr_cfg : (s.setIr i).cfg = s.cfg := rfl
@[simp] theorem State.setIr_pid : (s.setIr i).pid = s.pid := rfl
@[simp] theorem State.setIr_h : (s.setIr i).h = s.h := rfl
@[simp] theorem State.setIr_m : (s.setIr i).m = s.m := rfl
@[simp] theorem State.setIr_pw : (s.setIr i).pw = s.pw := rfl
@[simp] theorem State.setIr_spr : (s.setIr i).spr = s.spr := rfl
@[simp] theorem State.setIr_fw : (s.setIr i).fw = s.fw := rfl
@[simp] theorem State.setIr_ld : (s.setIr i).ld = s.ld := rfl
@[simp] theorem State.setIr_out : (s.setIr i).out = s.out := rfl
end

/-! ### `State.recordFault` -/

section
variable (s : State) (b : Nat) (k : Bool) (i l d : Nat)
@[simp] theorem State.recordFault_pending : (s.recordFault b k i l d).pending = s.pending := rfl
@[simp] theorem State.recordFault_tiles : (s.recordFault b k i l d).tiles = s.tiles := rfl
@[simp] theorem State.recordFault_rows : (s.recordFault b k i l d).rows = s.rows := rfl
@[simp] theorem State.recordFault_seq : (s.recordFault b k i l d).seq = s.seq := rfl
@[simp] theorem State.recordFault_time : (s.recordFault b k i l d).time = s.time := rfl
@[simp] theorem State.recordFault_net : (s.recordFault b k i l d).net = s.net := rfl
@[simp] theorem State.recordFault_lake : (s.recordFault b k i l d).lake = s.lake := rfl
@[simp] theorem State.recordFault_dieFrozen : (s.recordFault b k i l d).dieFrozen = s.dieFrozen := rfl
@[simp] theorem State.recordFault_st : (s.recordFault b k i l d).st = s.st := rfl
@[simp] theorem State.recordFault_dma : (s.recordFault b k i l d).dma = s.dma := rfl
@[simp] theorem State.recordFault_pkg : (s.recordFault b k i l d).pkg = s.pkg := rfl
@[simp] theorem State.recordFault_lpn : (s.recordFault b k i l d).lpn = s.lpn := rfl
@[simp] theorem State.recordFault_gate : (s.recordFault b k i l d).gate = s.gate := rfl
@[simp] theorem State.recordFault_pert : (s.recordFault b k i l d).pert = s.pert := rfl
@[simp] theorem State.recordFault_jtag : (s.recordFault b k i l d).jtag = s.jtag := rfl
@[simp] theorem State.recordFault_cfg : (s.recordFault b k i l d).cfg = s.cfg := rfl
@[simp] theorem State.recordFault_pid : (s.recordFault b k i l d).pid = s.pid := rfl
@[simp] theorem State.recordFault_h : (s.recordFault b k i l d).h = s.h := rfl
@[simp] theorem State.recordFault_m : (s.recordFault b k i l d).m = s.m := rfl
@[simp] theorem State.recordFault_pw : (s.recordFault b k i l d).pw = s.pw := rfl
@[simp] theorem State.recordFault_spr : (s.recordFault b k i l d).spr = s.spr := rfl
@[simp] theorem State.recordFault_fw : (s.recordFault b k i l d).fw = s.fw := rfl
@[simp] theorem State.recordFault_ld : (s.recordFault b k i l d).ld = s.ld := rfl
@[simp] theorem State.recordFault_out : (s.recordFault b k i l d).out = s.out := rfl
end

/-! ### `State.advance` -/

section
variable (s : State) (t : Nat)
@[simp] theorem State.advance_pending : (s.advance t).pending = s.pending := by unfold State.advance; split; rfl; split <;> rfl
@[simp] theorem State.advance_tiles : (s.advance t).tiles = s.tiles := by unfold State.advance; split; rfl; split <;> rfl
@[simp] theorem State.advance_rows : (s.advance t).rows = s.rows := by unfold State.advance; split; rfl; split <;> rfl
@[simp] theorem State.advance_seq : (s.advance t).seq = s.seq := by unfold State.advance; split; rfl; split <;> rfl
@[simp] theorem State.advance_net : (s.advance t).net = s.net := by unfold State.advance; split; rfl; split <;> rfl
@[simp] theorem State.advance_lake : (s.advance t).lake = s.lake := by unfold State.advance; split; rfl; split <;> rfl
@[simp] theorem State.advance_ctx : (s.advance t).ctx = s.ctx := by unfold State.advance; split; rfl; split <;> rfl
@[simp] theorem State.advance_faults : (s.advance t).faults = s.faults := by unfold State.advance; split; rfl; split <;> rfl
@[simp] theorem State.advance_logs : (s.advance t).logs = s.logs := by unfold State.advance; split; rfl; split <;> rfl
@[simp] theorem State.advance_dieFrozen : (s.advance t).dieFrozen = s.dieFrozen := by unfold State.advance; split; rfl; split <;> rfl
@[simp] theorem State.advance_st : (s.advance t).st = s.st := by unfold State.advance; split; rfl; split <;> rfl
@[simp] theorem State.advance_dma : (s.advance t).dma = s.dma := by unfold State.advance; split; rfl; split <;> rfl
@[simp] theorem State.advance_pkg : (s.advance t).pkg = s.pkg := by unfold State.advance; split; rfl; split <;> rfl
@[simp] theorem State.advance_lpn : (s.advance t).lpn = s.lpn := by unfold State.advance; split; rfl; split <;> rfl
@[simp] theorem State.advance_gate : (s.advance t).gate = s.gate := by unfold State.advance; split; rfl; split <;> rfl
@[simp] theorem State.advance_pert : (s.advance t).pert = s.pert := by unfold State.advance; split; rfl; split <;> rfl
@[simp] theorem State.advance_jtag : (s.advance t).jtag = s.jtag := by unfold State.advance; split; rfl; split <;> rfl
@[simp] theorem State.advance_cfg : (s.advance t).cfg = s.cfg := by unfold State.advance; split; rfl; split <;> rfl
@[simp] theorem State.advance_pid : (s.advance t).pid = s.pid := by unfold State.advance; split; rfl; split <;> rfl
@[simp] theorem State.advance_h : (s.advance t).h = s.h := by unfold State.advance; split; rfl; split <;> rfl
@[simp] theorem State.advance_m : (s.advance t).m = s.m := by unfold State.advance; split; rfl; split <;> rfl
@[simp] theorem State.advance_pw : (s.advance t).pw = s.pw := by unfold State.advance; split; rfl; split <;> rfl
@[simp] theorem State.advance_spr : (s.advance t).spr = s.spr := by unfold State.advance; split; rfl; split <;> rfl
@[simp] theorem State.advance_fw : (s.advance t).fw = s.fw := by unfold State.advance; split; rfl; split <;> rfl
@[simp] theorem State.advance_ld : (s.advance t).ld = s.ld := by unfold State.advance; split; rfl; split <;> rfl
@[simp] theorem State.advance_out : (s.advance t).out = s.out := by unfold State.advance; split; rfl; split <;> rfl
end

/-! ### A tile operation lifted to the state -/

section
variable (s : State) (p tid slot w : Nat) (a : Tile) (f : Tile → Tile) (g : Nat → Bool) (e : Nat → Tile → Tile)
theorem State.markDefect_pending (k l x : Nat) : (s.markDefect k l x).pending = s.pending := by unfold State.markDefect; dsimp only; split <;> rfl
theorem State.recordTile_pending : (s.recordTile p a).pending = s.pending := by
  refine foldl_keeps _ (fun (u : State) => u.pending) (fun u k => ?_) _ _
  dsimp only
  split <;> (try rw [State.markDefect_pending]) <;> (rw [apply_ite (fun (x : State) => x.pending)]; exact ite_self _)
@[simp] theorem State.onTile_pending : (s.onTile p f).pending = s.pending := State.recordTile_pending _ _ _
@[simp] theorem State.onTid_pending : (s.onTid tid f).pending = s.pending := by unfold State.onTid; split <;> simp
@[simp] theorem State.issue_pending : (s.issue tid slot w f).pending = s.pending := State.onTid_pending _ _ _
@[simp] theorem State.issueHold_pending : (s.issueHold tid slot w f).pending = s.pending := State.onTid_pending _ _ _
@[simp] theorem State.release_pending : (s.release tid slot g e).pending = s.pending := State.onTid_pending _ _ _
theorem State.markDefect_rows (k l x : Nat) : (s.markDefect k l x).rows = s.rows := by unfold State.markDefect; dsimp only; split <;> rfl
theorem State.recordTile_rows : (s.recordTile p a).rows = s.rows := by
  refine foldl_keeps _ (fun (u : State) => u.rows) (fun u k => ?_) _ _
  dsimp only
  split <;> (try rw [State.markDefect_rows]) <;> (rw [apply_ite (fun (x : State) => x.rows)]; exact ite_self _)
@[simp] theorem State.onTile_rows : (s.onTile p f).rows = s.rows := State.recordTile_rows _ _ _
@[simp] theorem State.onTid_rows : (s.onTid tid f).rows = s.rows := by unfold State.onTid; split <;> simp
@[simp] theorem State.issue_rows : (s.issue tid slot w f).rows = s.rows := State.onTid_rows _ _ _
@[simp] theorem State.issueHold_rows : (s.issueHold tid slot w f).rows = s.rows := State.onTid_rows _ _ _
@[simp] theorem State.release_rows : (s.release tid slot g e).rows = s.rows := State.onTid_rows _ _ _
theorem State.markDefect_seq (k l x : Nat) : (s.markDefect k l x).seq = s.seq := by unfold State.markDefect; dsimp only; split <;> rfl
theorem State.recordTile_seq : (s.recordTile p a).seq = s.seq := by
  refine foldl_keeps _ (fun (u : State) => u.seq) (fun u k => ?_) _ _
  dsimp only
  split <;> (try rw [State.markDefect_seq]) <;> (rw [apply_ite (fun (x : State) => x.seq)]; exact ite_self _)
@[simp] theorem State.onTile_seq : (s.onTile p f).seq = s.seq := State.recordTile_seq _ _ _
@[simp] theorem State.onTid_seq : (s.onTid tid f).seq = s.seq := by unfold State.onTid; split <;> simp
@[simp] theorem State.issue_seq : (s.issue tid slot w f).seq = s.seq := State.onTid_seq _ _ _
@[simp] theorem State.issueHold_seq : (s.issueHold tid slot w f).seq = s.seq := State.onTid_seq _ _ _
@[simp] theorem State.release_seq : (s.release tid slot g e).seq = s.seq := State.onTid_seq _ _ _
theorem State.markDefect_time (k l x : Nat) : (s.markDefect k l x).time = s.time := by unfold State.markDefect; dsimp only; split <;> rfl
theorem State.recordTile_time : (s.recordTile p a).time = s.time := by
  refine foldl_keeps _ (fun (u : State) => u.time) (fun u k => ?_) _ _
  dsimp only
  split <;> (try rw [State.markDefect_time]) <;> (rw [apply_ite (fun (x : State) => x.time)]; exact ite_self _)
@[simp] theorem State.onTile_time : (s.onTile p f).time = s.time := State.recordTile_time _ _ _
@[simp] theorem State.onTid_time : (s.onTid tid f).time = s.time := by unfold State.onTid; split <;> simp
@[simp] theorem State.issue_time : (s.issue tid slot w f).time = s.time := State.onTid_time _ _ _
@[simp] theorem State.issueHold_time : (s.issueHold tid slot w f).time = s.time := State.onTid_time _ _ _
@[simp] theorem State.release_time : (s.release tid slot g e).time = s.time := State.onTid_time _ _ _
theorem State.markDefect_net (k l x : Nat) : (s.markDefect k l x).net = s.net := by unfold State.markDefect; dsimp only; split <;> rfl
theorem State.recordTile_net : (s.recordTile p a).net = s.net := by
  refine foldl_keeps _ (fun (u : State) => u.net) (fun u k => ?_) _ _
  dsimp only
  split <;> (try rw [State.markDefect_net]) <;> (rw [apply_ite (fun (x : State) => x.net)]; exact ite_self _)
@[simp] theorem State.onTile_net : (s.onTile p f).net = s.net := State.recordTile_net _ _ _
@[simp] theorem State.onTid_net : (s.onTid tid f).net = s.net := by unfold State.onTid; split <;> simp
@[simp] theorem State.issue_net : (s.issue tid slot w f).net = s.net := State.onTid_net _ _ _
@[simp] theorem State.issueHold_net : (s.issueHold tid slot w f).net = s.net := State.onTid_net _ _ _
@[simp] theorem State.release_net : (s.release tid slot g e).net = s.net := State.onTid_net _ _ _
theorem State.markDefect_lake (k l x : Nat) : (s.markDefect k l x).lake = s.lake := by unfold State.markDefect; dsimp only; split <;> rfl
theorem State.recordTile_lake : (s.recordTile p a).lake = s.lake := by
  refine foldl_keeps _ (fun (u : State) => u.lake) (fun u k => ?_) _ _
  dsimp only
  split <;> (try rw [State.markDefect_lake]) <;> (rw [apply_ite (fun (x : State) => x.lake)]; exact ite_self _)
@[simp] theorem State.onTile_lake : (s.onTile p f).lake = s.lake := State.recordTile_lake _ _ _
@[simp] theorem State.onTid_lake : (s.onTid tid f).lake = s.lake := by unfold State.onTid; split <;> simp
@[simp] theorem State.issue_lake : (s.issue tid slot w f).lake = s.lake := State.onTid_lake _ _ _
@[simp] theorem State.issueHold_lake : (s.issueHold tid slot w f).lake = s.lake := State.onTid_lake _ _ _
@[simp] theorem State.release_lake : (s.release tid slot g e).lake = s.lake := State.onTid_lake _ _ _
theorem State.markDefect_dieFrozen (k l x : Nat) : (s.markDefect k l x).dieFrozen = s.dieFrozen := by unfold State.markDefect; dsimp only; split <;> rfl
theorem State.recordTile_dieFrozen : (s.recordTile p a).dieFrozen = s.dieFrozen := by
  refine foldl_keeps _ (fun (u : State) => u.dieFrozen) (fun u k => ?_) _ _
  dsimp only
  split <;> (try rw [State.markDefect_dieFrozen]) <;> (rw [apply_ite (fun (x : State) => x.dieFrozen)]; exact ite_self _)
@[simp] theorem State.onTile_dieFrozen : (s.onTile p f).dieFrozen = s.dieFrozen := State.recordTile_dieFrozen _ _ _
@[simp] theorem State.onTid_dieFrozen : (s.onTid tid f).dieFrozen = s.dieFrozen := by unfold State.onTid; split <;> simp
@[simp] theorem State.issue_dieFrozen : (s.issue tid slot w f).dieFrozen = s.dieFrozen := State.onTid_dieFrozen _ _ _
@[simp] theorem State.issueHold_dieFrozen : (s.issueHold tid slot w f).dieFrozen = s.dieFrozen := State.onTid_dieFrozen _ _ _
@[simp] theorem State.release_dieFrozen : (s.release tid slot g e).dieFrozen = s.dieFrozen := State.onTid_dieFrozen _ _ _
theorem State.markDefect_st (k l x : Nat) : (s.markDefect k l x).st = s.st := by unfold State.markDefect; dsimp only; split <;> rfl
theorem State.recordTile_st : (s.recordTile p a).st = s.st := by
  refine foldl_keeps _ (fun (u : State) => u.st) (fun u k => ?_) _ _
  dsimp only
  split <;> (try rw [State.markDefect_st]) <;> (rw [apply_ite (fun (x : State) => x.st)]; exact ite_self _)
@[simp] theorem State.onTile_st : (s.onTile p f).st = s.st := State.recordTile_st _ _ _
@[simp] theorem State.onTid_st : (s.onTid tid f).st = s.st := by unfold State.onTid; split <;> simp
@[simp] theorem State.issue_st : (s.issue tid slot w f).st = s.st := State.onTid_st _ _ _
@[simp] theorem State.issueHold_st : (s.issueHold tid slot w f).st = s.st := State.onTid_st _ _ _
@[simp] theorem State.release_st : (s.release tid slot g e).st = s.st := State.onTid_st _ _ _
theorem State.markDefect_dma (k l x : Nat) : (s.markDefect k l x).dma = s.dma := by unfold State.markDefect; dsimp only; split <;> rfl
theorem State.recordTile_dma : (s.recordTile p a).dma = s.dma := by
  refine foldl_keeps _ (fun (u : State) => u.dma) (fun u k => ?_) _ _
  dsimp only
  split <;> (try rw [State.markDefect_dma]) <;> (rw [apply_ite (fun (x : State) => x.dma)]; exact ite_self _)
@[simp] theorem State.onTile_dma : (s.onTile p f).dma = s.dma := State.recordTile_dma _ _ _
@[simp] theorem State.onTid_dma : (s.onTid tid f).dma = s.dma := by unfold State.onTid; split <;> simp
@[simp] theorem State.issue_dma : (s.issue tid slot w f).dma = s.dma := State.onTid_dma _ _ _
@[simp] theorem State.issueHold_dma : (s.issueHold tid slot w f).dma = s.dma := State.onTid_dma _ _ _
@[simp] theorem State.release_dma : (s.release tid slot g e).dma = s.dma := State.onTid_dma _ _ _
theorem State.markDefect_pkg (k l x : Nat) : (s.markDefect k l x).pkg = s.pkg := by unfold State.markDefect; dsimp only; split <;> rfl
theorem State.recordTile_pkg : (s.recordTile p a).pkg = s.pkg := by
  refine foldl_keeps _ (fun (u : State) => u.pkg) (fun u k => ?_) _ _
  dsimp only
  split <;> (try rw [State.markDefect_pkg]) <;> (rw [apply_ite (fun (x : State) => x.pkg)]; exact ite_self _)
@[simp] theorem State.onTile_pkg : (s.onTile p f).pkg = s.pkg := State.recordTile_pkg _ _ _
@[simp] theorem State.onTid_pkg : (s.onTid tid f).pkg = s.pkg := by unfold State.onTid; split <;> simp
@[simp] theorem State.issue_pkg : (s.issue tid slot w f).pkg = s.pkg := State.onTid_pkg _ _ _
@[simp] theorem State.issueHold_pkg : (s.issueHold tid slot w f).pkg = s.pkg := State.onTid_pkg _ _ _
@[simp] theorem State.release_pkg : (s.release tid slot g e).pkg = s.pkg := State.onTid_pkg _ _ _
theorem State.markDefect_lpn (k l x : Nat) : (s.markDefect k l x).lpn = s.lpn := by unfold State.markDefect; dsimp only; split <;> rfl
theorem State.recordTile_lpn : (s.recordTile p a).lpn = s.lpn := by
  refine foldl_keeps _ (fun (u : State) => u.lpn) (fun u k => ?_) _ _
  dsimp only
  split <;> (try rw [State.markDefect_lpn]) <;> (rw [apply_ite (fun (x : State) => x.lpn)]; exact ite_self _)
@[simp] theorem State.onTile_lpn : (s.onTile p f).lpn = s.lpn := State.recordTile_lpn _ _ _
@[simp] theorem State.onTid_lpn : (s.onTid tid f).lpn = s.lpn := by unfold State.onTid; split <;> simp
@[simp] theorem State.issue_lpn : (s.issue tid slot w f).lpn = s.lpn := State.onTid_lpn _ _ _
@[simp] theorem State.issueHold_lpn : (s.issueHold tid slot w f).lpn = s.lpn := State.onTid_lpn _ _ _
@[simp] theorem State.release_lpn : (s.release tid slot g e).lpn = s.lpn := State.onTid_lpn _ _ _
theorem State.markDefect_gate (k l x : Nat) : (s.markDefect k l x).gate = s.gate := by unfold State.markDefect; dsimp only; split <;> rfl
theorem State.recordTile_gate : (s.recordTile p a).gate = s.gate := by
  refine foldl_keeps _ (fun (u : State) => u.gate) (fun u k => ?_) _ _
  dsimp only
  split <;> (try rw [State.markDefect_gate]) <;> (rw [apply_ite (fun (x : State) => x.gate)]; exact ite_self _)
@[simp] theorem State.onTile_gate : (s.onTile p f).gate = s.gate := State.recordTile_gate _ _ _
@[simp] theorem State.onTid_gate : (s.onTid tid f).gate = s.gate := by unfold State.onTid; split <;> simp
@[simp] theorem State.issue_gate : (s.issue tid slot w f).gate = s.gate := State.onTid_gate _ _ _
@[simp] theorem State.issueHold_gate : (s.issueHold tid slot w f).gate = s.gate := State.onTid_gate _ _ _
@[simp] theorem State.release_gate : (s.release tid slot g e).gate = s.gate := State.onTid_gate _ _ _
theorem State.markDefect_pert (k l x : Nat) : (s.markDefect k l x).pert = s.pert := by unfold State.markDefect; dsimp only; split <;> rfl
theorem State.recordTile_pert : (s.recordTile p a).pert = s.pert := by
  refine foldl_keeps _ (fun (u : State) => u.pert) (fun u k => ?_) _ _
  dsimp only
  split <;> (try rw [State.markDefect_pert]) <;> (rw [apply_ite (fun (x : State) => x.pert)]; exact ite_self _)
@[simp] theorem State.onTile_pert : (s.onTile p f).pert = s.pert := State.recordTile_pert _ _ _
@[simp] theorem State.onTid_pert : (s.onTid tid f).pert = s.pert := by unfold State.onTid; split <;> simp
@[simp] theorem State.issue_pert : (s.issue tid slot w f).pert = s.pert := State.onTid_pert _ _ _
@[simp] theorem State.issueHold_pert : (s.issueHold tid slot w f).pert = s.pert := State.onTid_pert _ _ _
@[simp] theorem State.release_pert : (s.release tid slot g e).pert = s.pert := State.onTid_pert _ _ _
theorem State.markDefect_jtag (k l x : Nat) : (s.markDefect k l x).jtag = s.jtag := by unfold State.markDefect; dsimp only; split <;> rfl
theorem State.recordTile_jtag : (s.recordTile p a).jtag = s.jtag := by
  refine foldl_keeps _ (fun (u : State) => u.jtag) (fun u k => ?_) _ _
  dsimp only
  split <;> (try rw [State.markDefect_jtag]) <;> (rw [apply_ite (fun (x : State) => x.jtag)]; exact ite_self _)
@[simp] theorem State.onTile_jtag : (s.onTile p f).jtag = s.jtag := State.recordTile_jtag _ _ _
@[simp] theorem State.onTid_jtag : (s.onTid tid f).jtag = s.jtag := by unfold State.onTid; split <;> simp
@[simp] theorem State.issue_jtag : (s.issue tid slot w f).jtag = s.jtag := State.onTid_jtag _ _ _
@[simp] theorem State.issueHold_jtag : (s.issueHold tid slot w f).jtag = s.jtag := State.onTid_jtag _ _ _
@[simp] theorem State.release_jtag : (s.release tid slot g e).jtag = s.jtag := State.onTid_jtag _ _ _
theorem State.markDefect_cfg (k l x : Nat) : (s.markDefect k l x).cfg = s.cfg := by unfold State.markDefect; dsimp only; split <;> rfl
theorem State.recordTile_cfg : (s.recordTile p a).cfg = s.cfg := by
  refine foldl_keeps _ (fun (u : State) => u.cfg) (fun u k => ?_) _ _
  dsimp only
  split <;> (try rw [State.markDefect_cfg]) <;> (rw [apply_ite (fun (x : State) => x.cfg)]; exact ite_self _)
@[simp] theorem State.onTile_cfg : (s.onTile p f).cfg = s.cfg := State.recordTile_cfg _ _ _
@[simp] theorem State.onTid_cfg : (s.onTid tid f).cfg = s.cfg := by unfold State.onTid; split <;> simp
@[simp] theorem State.issue_cfg : (s.issue tid slot w f).cfg = s.cfg := State.onTid_cfg _ _ _
@[simp] theorem State.issueHold_cfg : (s.issueHold tid slot w f).cfg = s.cfg := State.onTid_cfg _ _ _
@[simp] theorem State.release_cfg : (s.release tid slot g e).cfg = s.cfg := State.onTid_cfg _ _ _
theorem State.markDefect_pid (k l x : Nat) : (s.markDefect k l x).pid = s.pid := by unfold State.markDefect; dsimp only; split <;> rfl
theorem State.recordTile_pid : (s.recordTile p a).pid = s.pid := by
  refine foldl_keeps _ (fun (u : State) => u.pid) (fun u k => ?_) _ _
  dsimp only
  split <;> (try rw [State.markDefect_pid]) <;> (rw [apply_ite (fun (x : State) => x.pid)]; exact ite_self _)
@[simp] theorem State.onTile_pid : (s.onTile p f).pid = s.pid := State.recordTile_pid _ _ _
@[simp] theorem State.onTid_pid : (s.onTid tid f).pid = s.pid := by unfold State.onTid; split <;> simp
@[simp] theorem State.issue_pid : (s.issue tid slot w f).pid = s.pid := State.onTid_pid _ _ _
@[simp] theorem State.issueHold_pid : (s.issueHold tid slot w f).pid = s.pid := State.onTid_pid _ _ _
@[simp] theorem State.release_pid : (s.release tid slot g e).pid = s.pid := State.onTid_pid _ _ _
theorem State.markDefect_h (k l x : Nat) : (s.markDefect k l x).h = s.h := by unfold State.markDefect; dsimp only; split <;> rfl
theorem State.recordTile_h : (s.recordTile p a).h = s.h := by
  refine foldl_keeps _ (fun (u : State) => u.h) (fun u k => ?_) _ _
  dsimp only
  split <;> (try rw [State.markDefect_h]) <;> (rw [apply_ite (fun (x : State) => x.h)]; exact ite_self _)
@[simp] theorem State.onTile_h : (s.onTile p f).h = s.h := State.recordTile_h _ _ _
@[simp] theorem State.onTid_h : (s.onTid tid f).h = s.h := by unfold State.onTid; split <;> simp
@[simp] theorem State.issue_h : (s.issue tid slot w f).h = s.h := State.onTid_h _ _ _
@[simp] theorem State.issueHold_h : (s.issueHold tid slot w f).h = s.h := State.onTid_h _ _ _
@[simp] theorem State.release_h : (s.release tid slot g e).h = s.h := State.onTid_h _ _ _
theorem State.markDefect_m (k l x : Nat) : (s.markDefect k l x).m = s.m := by unfold State.markDefect; dsimp only; split <;> rfl
theorem State.recordTile_m : (s.recordTile p a).m = s.m := by
  refine foldl_keeps _ (fun (u : State) => u.m) (fun u k => ?_) _ _
  dsimp only
  split <;> (try rw [State.markDefect_m]) <;> (rw [apply_ite (fun (x : State) => x.m)]; exact ite_self _)
@[simp] theorem State.onTile_m : (s.onTile p f).m = s.m := State.recordTile_m _ _ _
@[simp] theorem State.onTid_m : (s.onTid tid f).m = s.m := by unfold State.onTid; split <;> simp
@[simp] theorem State.issue_m : (s.issue tid slot w f).m = s.m := State.onTid_m _ _ _
@[simp] theorem State.issueHold_m : (s.issueHold tid slot w f).m = s.m := State.onTid_m _ _ _
@[simp] theorem State.release_m : (s.release tid slot g e).m = s.m := State.onTid_m _ _ _
theorem State.markDefect_pw (k l x : Nat) : (s.markDefect k l x).pw = s.pw := by unfold State.markDefect; dsimp only; split <;> rfl
theorem State.recordTile_pw : (s.recordTile p a).pw = s.pw := by
  refine foldl_keeps _ (fun (u : State) => u.pw) (fun u k => ?_) _ _
  dsimp only
  split <;> (try rw [State.markDefect_pw]) <;> (rw [apply_ite (fun (x : State) => x.pw)]; exact ite_self _)
@[simp] theorem State.onTile_pw : (s.onTile p f).pw = s.pw := State.recordTile_pw _ _ _
@[simp] theorem State.onTid_pw : (s.onTid tid f).pw = s.pw := by unfold State.onTid; split <;> simp
@[simp] theorem State.issue_pw : (s.issue tid slot w f).pw = s.pw := State.onTid_pw _ _ _
@[simp] theorem State.issueHold_pw : (s.issueHold tid slot w f).pw = s.pw := State.onTid_pw _ _ _
@[simp] theorem State.release_pw : (s.release tid slot g e).pw = s.pw := State.onTid_pw _ _ _
theorem State.markDefect_spr (k l x : Nat) : (s.markDefect k l x).spr = s.spr := by unfold State.markDefect; dsimp only; split <;> rfl
theorem State.recordTile_spr : (s.recordTile p a).spr = s.spr := by
  refine foldl_keeps _ (fun (u : State) => u.spr) (fun u k => ?_) _ _
  dsimp only
  split <;> (try rw [State.markDefect_spr]) <;> (rw [apply_ite (fun (x : State) => x.spr)]; exact ite_self _)
@[simp] theorem State.onTile_spr : (s.onTile p f).spr = s.spr := State.recordTile_spr _ _ _
@[simp] theorem State.onTid_spr : (s.onTid tid f).spr = s.spr := by unfold State.onTid; split <;> simp
@[simp] theorem State.issue_spr : (s.issue tid slot w f).spr = s.spr := State.onTid_spr _ _ _
@[simp] theorem State.issueHold_spr : (s.issueHold tid slot w f).spr = s.spr := State.onTid_spr _ _ _
@[simp] theorem State.release_spr : (s.release tid slot g e).spr = s.spr := State.onTid_spr _ _ _
theorem State.markDefect_fw (k l x : Nat) : (s.markDefect k l x).fw = s.fw := by unfold State.markDefect; dsimp only; split <;> rfl
theorem State.recordTile_fw : (s.recordTile p a).fw = s.fw := by
  refine foldl_keeps _ (fun (u : State) => u.fw) (fun u k => ?_) _ _
  dsimp only
  split <;> (try rw [State.markDefect_fw]) <;> (rw [apply_ite (fun (x : State) => x.fw)]; exact ite_self _)
@[simp] theorem State.onTile_fw : (s.onTile p f).fw = s.fw := State.recordTile_fw _ _ _
@[simp] theorem State.onTid_fw : (s.onTid tid f).fw = s.fw := by unfold State.onTid; split <;> simp
@[simp] theorem State.issue_fw : (s.issue tid slot w f).fw = s.fw := State.onTid_fw _ _ _
@[simp] theorem State.issueHold_fw : (s.issueHold tid slot w f).fw = s.fw := State.onTid_fw _ _ _
@[simp] theorem State.release_fw : (s.release tid slot g e).fw = s.fw := State.onTid_fw _ _ _
theorem State.markDefect_ld (k l x : Nat) : (s.markDefect k l x).ld = s.ld := by unfold State.markDefect; dsimp only; split <;> rfl
theorem State.recordTile_ld : (s.recordTile p a).ld = s.ld := by
  refine foldl_keeps _ (fun (u : State) => u.ld) (fun u k => ?_) _ _
  dsimp only
  split <;> (try rw [State.markDefect_ld]) <;> (rw [apply_ite (fun (x : State) => x.ld)]; exact ite_self _)
@[simp] theorem State.onTile_ld : (s.onTile p f).ld = s.ld := State.recordTile_ld _ _ _
@[simp] theorem State.onTid_ld : (s.onTid tid f).ld = s.ld := by unfold State.onTid; split <;> simp
@[simp] theorem State.issue_ld : (s.issue tid slot w f).ld = s.ld := State.onTid_ld _ _ _
@[simp] theorem State.issueHold_ld : (s.issueHold tid slot w f).ld = s.ld := State.onTid_ld _ _ _
@[simp] theorem State.release_ld : (s.release tid slot g e).ld = s.ld := State.onTid_ld _ _ _
theorem State.markDefect_out (k l x : Nat) : (s.markDefect k l x).out = s.out := by unfold State.markDefect; dsimp only; split <;> rfl
theorem State.recordTile_out : (s.recordTile p a).out = s.out := by
  refine foldl_keeps _ (fun (u : State) => u.out) (fun u k => ?_) _ _
  dsimp only
  split <;> (try rw [State.markDefect_out]) <;> (rw [apply_ite (fun (x : State) => x.out)]; exact ite_self _)
@[simp] theorem State.onTile_out : (s.onTile p f).out = s.out := State.recordTile_out _ _ _
@[simp] theorem State.onTid_out : (s.onTid tid f).out = s.out := by unfold State.onTid; split <;> simp
@[simp] theorem State.issue_out : (s.issue tid slot w f).out = s.out := State.onTid_out _ _ _
@[simp] theorem State.issueHold_out : (s.issueHold tid slot w f).out = s.out := State.onTid_out _ _ _
@[simp] theorem State.release_out : (s.release tid slot g e).out = s.out := State.onTid_out _ _ _
end

/-! ### Entries read after a write -/

@[simp] theorem State.ch_setCh (s : State) (k : Nat) (v : DmaCh) : (s.setCh k v).ch k = v := Tab.get_set_same _ _ _ _
theorem State.ch_setCh_ne (s : State) (k j : Nat) (v : DmaCh) (h : j ≠ k) : (s.setCh k v).ch j = s.ch j := Tab.get_set_ne _ _ _ _ _ h
@[simp] theorem State.stack_setStack (s : State) (k : Nat) (v : Stack) : (s.setStack k v).stack k = v := Tab.get_set_same _ _ _ _
theorem State.stack_setStack_ne (s : State) (k j : Nat) (v : Stack) (h : j ≠ k) : (s.setStack k v).stack j = s.stack j := Tab.get_set_ne _ _ _ _ _ h
@[simp] theorem State.link_setLink (s : State) (k : Nat) (v : Link) : (s.setLink k v).link k = v := Tab.get_set_same _ _ _ _
theorem State.link_setLink_ne (s : State) (k j : Nat) (v : Link) (h : j ≠ k) : (s.setLink k v).link j = s.link j := Tab.get_set_ne _ _ _ _ _ h
@[simp] theorem State.octet_setOctet (s : State) (k : Nat) (v : Octet) : (s.setOctet k v).octet k = v := Tab.get_set_same _ _ _ _
theorem State.octet_setOctet_ne (s : State) (k j : Nat) (v : Octet) (h : j ≠ k) : (s.setOctet k v).octet j = s.octet j := Tab.get_set_ne _ _ _ _ _ h
@[simp] theorem State.mbx_setMbx (s : State) (k : Nat) (v : Mbx) : (s.setMbx k v).mbx k = v := Tab.get_set_same _ _ _ _
theorem State.mbx_setMbx_ne (s : State) (k j : Nat) (v : Mbx) (h : j ≠ k) : (s.setMbx k v).mbx j = s.mbx j := Tab.get_set_ne _ _ _ _ _ h
@[simp] theorem State.die_setDie (s : State) (k : Nat) (v : DieReg) : (s.setDie k v).die k = v := Tab.get_set_same _ _ _ _
theorem State.die_setDie_ne (s : State) (k j : Nat) (v : DieReg) (h : j ≠ k) : (s.setDie k v).die j = s.die j := Tab.get_set_ne _ _ _ _ _ h
@[simp] theorem State.row_setRow (s : State) (k : Nat) (v : Row) : (s.setRow k v).row k = v := Tab.get_set_same _ _ _ _
theorem State.row_setRow_ne (s : State) (k j : Nat) (v : Row) (h : j ≠ k) : (s.setRow k v).row j = s.row j := Tab.get_set_ne _ _ _ _ _ h
@[simp] theorem State.bar_setBar (s : State) (k : Nat) (v : BarUnit) : (s.setBar k v).bar k = v := Tab.get_set_same _ _ _ _
theorem State.bar_setBar_ne (s : State) (k j : Nat) (v : BarUnit) (h : j ≠ k) : (s.setBar k v).bar j = s.bar j := Tab.get_set_ne _ _ _ _ _ h
@[simp] theorem State.timLink_setTim (s : State) (k : Nat) (v : TimLink) : (s.setTim k v).timLink k = v := Tab.get_set_same _ _ _ _
theorem State.timLink_setTim_ne (s : State) (k j : Nat) (v : TimLink) (h : j ≠ k) : (s.setTim k v).timLink j = s.timLink j := Tab.get_set_ne _ _ _ _ _ h
@[simp] theorem State.line_setLine (s : State) (k : Nat) (v : SprLine) : (s.setLine k v).spr.line k = v := Tab.get_set_same _ _ _ _
theorem State.line_setLine_ne (s : State) (k j : Nat) (v : SprLine) (h : j ≠ k) : (s.setLine k v).spr.line j = s.spr.line j := Tab.get_set_ne _ _ _ _ _ h

end Sys2Proof.Machine
end

