-- ==== Sys2Proof/Laws/Tile.lean ====
section
/-!
SUPPORT. What the shared tile operations can do: the lift of a tile operation to the state, the issue, the hold and the release of a syllable.
-/
namespace Sys2Proof.Laws
open Sys2Proof.Machine Sys2Proof.Safety

/-- On a logical tile of an accepted context an operation acts on its physical tile; elsewhere nothing happens. -/
theorem onTid_eq (s : State) (tid : Nat) (f : Tile → Tile) :
    s.onTid tid f = if onTile s tid = true then s.onTile (s.ptiOf tid) f else s := by
  simp [State.onTid, onTile]

theorem onTid_congr {s : State} {tid : Nat} {f g : Tile → Tile} (h : onTile s tid = true → f (s.ltile tid) = g (s.ltile tid)) :
    s.onTid tid f = s.onTid tid g := by
  rw [onTid_eq, onTid_eq]
  split
  · next c => simp only [State.onTile]; rw [show f (s.tile (s.ptiOf tid)) = g (s.tile (s.ptiOf tid)) from h c]
  · rfl

theorem issue_of_tileIssues {t : Tile} {run barOk : Bool} {slot w : Nat} (eff : Tile → Tile) (h : tileIssues t run barOk slot w = true) :
    t.issue run barOk slot w eff = eff (t.mark slot) := by
  simp only [tileIssues, Bool.and_eq_true, Bool.or_eq_true, Bool.not_eq_true', beq_iff_eq, decide_eq_true_eq, Option.isNone_iff_eq_none] at h
  obtain ⟨⟨⟨⟨⟨h1, h2⟩, h3⟩, h4⟩, h5⟩, h6⟩ := h
  have e : (if t.iss.issued = 0 then t.bundleFault else none) = none := by
    rcases h2 with h2 | h2 <;> simp [h2]
  simp [Tile.issue, h1, e, h3, h4, h5, h6]

theorem issueHold_of_tileIssues {t : Tile} {run barOk : Bool} {slot w : Nat} (eff : Tile → Tile) (h : tileIssues t run barOk slot w = true) :
    t.issueHold run barOk slot w eff = eff (t.mark slot) := by
  have h' := h
  simp only [tileIssues, Bool.and_eq_true, Bool.or_eq_true, Bool.not_eq_true', beq_iff_eq, decide_eq_true_eq, Option.isNone_iff_eq_none] at h'
  obtain ⟨⟨⟨⟨⟨h1, h2⟩, h3⟩, h4⟩, h5⟩, h6⟩ := h'
  simp [Tile.issueHold, h6, issue_of_tileIssues eff h]

theorem issues_onTile {s : State} {tid slot w : Nat} (h : issues s tid slot w = true) : onTile s tid = true := by
  simp only [issues, onTile, Bool.and_eq_true] at h ⊢
  exact h.1

theorem issues_tile {s : State} {tid slot w : Nat} (h : issues s tid slot w = true) :
    tileIssues (s.ltile tid) (s.runs (s.ptiOf tid)) (s.barOk (s.ltile tid)) slot w = true := by
  simp only [issues, Bool.and_eq_true] at h
  exact h.2

/-- Where a syllable issues, it has its effect on its tile. -/
theorem issue_of_issues {s : State} {tid slot w : Nat} (eff : Tile → Tile) (h : issues s tid slot w = true) :
    s.issue tid slot w eff = issueOn s tid slot eff := by
  rw [State.issue, issueOn]
  exact onTid_congr fun _ => issue_of_tileIssues eff (issues_tile h)

theorem issueHold_of_issues {s : State} {tid slot w : Nat} (eff : Tile → Tile) (h : issues s tid slot w = true) :
    s.issueHold tid slot w eff = issueOn s tid slot eff := by
  rw [State.issueHold, issueOn]
  exact onTid_congr fun _ => issueHold_of_tileIssues eff (issues_tile h)

/-- A bundle that only a wait or a limit keeps from issuing is held. -/
theorem issueHold_holds {s : State} {tid slot w : Nat} (eff : Tile → Tile)
    (h1 : (s.ltile tid).atIssue (s.runs (s.ptiOf tid)) = true) (h2 : (s.ltile tid).iss.issued = 0) (h3 : (s.ltile tid).bundleFault = none)
    (h4 : (s.ltile tid).iss.held = false) (h5 : (s.ltile tid).syl slot = w) (h6 : (s.ltile tid).unheld (s.barOk (s.ltile tid)) = false) :
    s.issueHold tid slot w eff = s.onTid tid fun t => { t with iss := { t.iss with held := true } } := by
  rw [State.issueHold]
  refine onTid_congr fun _ => ?_
  show (s.ltile tid).issueHold (s.runs (s.ptiOf tid)) (s.barOk (s.ltile tid)) slot w eff = _
  have hi : (s.ltile tid).hasIssued slot = false := by simp [Tile.hasIssued, bitAt, h2]
  simp [Tile.issueHold, h1, h2, h3, h4, h5, h6, hi]

/-- A held bundle whose condition is met is released and its syllable issues. -/
theorem release_of_ready {s : State} {tid slot : Nat} (sel : Nat → Bool) (eff : Nat → Tile → Tile)
    (h : heldReady (s.ltile tid) (s.runs (s.ptiOf tid)) (s.barOk (s.ltile tid)) = true) (hs : sel ((s.ltile tid).syl slot) = true) :
    s.release tid slot sel eff = s.onTid tid fun t => eff ((s.ltile tid).syl slot) (({ t with iss := { t.iss with held := false } }).mark slot) := by
  simp only [heldReady, Bool.and_eq_true] at h
  rw [State.release]
  refine onTid_congr fun _ => ?_
  show (s.ltile tid).release (s.runs (s.ptiOf tid)) (s.barOk (s.ltile tid)) slot sel eff = _
  simp only [Tile.release]
  rw [if_pos]
  simp only [Bool.and_eq_true]
  exact ⟨⟨⟨⟨h.1.1.1, h.1.1.2⟩, h.1.2⟩, hs⟩, h.2⟩

@[simp] theorem mark_r (t : Tile) (n : Nat) : (t.mark n).r = t.r := rfl
@[simp] theorem mark_mx (t : Tile) (n : Nat) : (t.mark n).mx = t.mx := rfl
@[simp] theorem mark_mem (t : Tile) (n : Nat) : (t.mark n).mem = t.mem := rfl
@[simp] theorem mark_st (t : Tile) (n : Nat) : (t.mark n).st = t.st := rfl
@[simp] theorem mark_cyc (t : Tile) (n : Nat) : (t.mark n).iss.cyc = t.iss.cyc := rfl
@[simp] theorem mark_acc (t : Tile) (n : Nat) : (t.mark n).iss.acc = t.iss.acc := rfl
@[simp] theorem mark_inflight (t : Tile) (n : Nat) : (t.mark n).iss.inflight = t.iss.inflight := rfl
@[simp] theorem mark_sreg (t : Tile) (n k : Nat) : (t.mark n).sreg k = t.sreg k := rfl
@[simp] theorem mark_lane (t : Tile) (n k i : Nat) : (t.mark n).lane k i = t.lane k i := rfl
@[simp] theorem mark_pred (t : Tile) (n k : Nat) : (t.mark n).pred k = t.pred k := rfl
@[simp] theorem mark_desc (t : Tile) (n k : Nat) : (t.mark n).desc k = t.desc k := rfl
@[simp] theorem mark_flag (t : Tile) (n k : Nat) : (t.mark n).flag k = t.flag k := rfl
@[simp] theorem mark_issued (t : Tile) (n : Nat) : (t.mark n).iss.issued = t.iss.issued ||| 2 ^ n := rfl
@[simp] theorem pend_r (t : Tile) (n : Nat) (w : Wr) : (t.pend n w).r = t.r := rfl
@[simp] theorem pend_mx (t : Tile) (n : Nat) (w : Wr) : (t.pend n w).mx = t.mx := rfl
@[simp] theorem pend_mem (t : Tile) (n : Nat) (w : Wr) : (t.pend n w).mem = t.mem := rfl
@[simp] theorem pend_st (t : Tile) (n : Nat) (w : Wr) : (t.pend n w).st = t.st := rfl
@[simp] theorem pend_blk (t : Tile) (n : Nat) (w : Wr) : (t.pend n w).blk = t.blk := rfl
@[simp] theorem raise_r (t : Tile) (f : TileFault) (a b : Nat) (p : Bool) : (t.raise f a b p).r = t.r := rfl
@[simp] theorem raise_mx (t : Tile) (f : TileFault) (a b : Nat) (p : Bool) : (t.raise f a b p).mx = t.mx := rfl
@[simp] theorem raise_mem (t : Tile) (f : TileFault) (a b : Nat) (p : Bool) : (t.raise f a b p).mem = t.mem := rfl
@[simp] theorem raise_st (t : Tile) (f : TileFault) (a b : Nat) (p : Bool) : (t.raise f a b p).st = t.st := rfl
@[simp] theorem raise_inflight (t : Tile) (f : TileFault) (a b : Nat) (p : Bool) : (t.raise f a b p).iss.inflight = t.iss.inflight := rfl
@[simp] theorem raise_cyc (t : Tile) (f : TileFault) (a b : Nat) (p : Bool) : (t.raise f a b p).iss.cyc = t.iss.cyc := rfl
@[simp] theorem raise_stopped (t : Tile) (f : TileFault) (a b : Nat) (p : Bool) : (t.raise f a b p).iss.stopped = true := rfl
@[simp] theorem raise_fault (t : Tile) (f : TileFault) (a b : Nat) (p : Bool) : (t.raise f a b p).blk.fault = t.blk.fault ||| 2 ^ f.bit := by
  unfold Tile.raise; split <;> rfl

end Sys2Proof.Laws
end

