-- ==== Sys2Proof/Laws/TileMem.lean ====
section
/-!
SUPPORT. The memories of a tile keep their canonical form under every operation that writes them: the writes of both ports (R28), the write-back (R14) and the bundle store (R36).
-/
namespace Sys2Proof.Laws
open Sys2Proof Sys2Proof.Machine Sys2Proof.Safety

theorem reset_memWf : tileMemWf Tile.reset := ⟨rfl, rfl, rfl⟩

theorem raise_memWf {t : Tile} (h : tileMemWf t) (f : TileFault) (slot pc : Nat) (b : Bool) : tileMemWf (t.raise f slot pc b) := h

theorem writeMem_memWf {t : Tile} (h : tileMemWf t) (space a : Nat) (bs : List Byte) : tileMemWf (t.writeMem space a bs) := by
  obtain ⟨h1, h2, h3⟩ := h
  unfold Tile.writeMem
  split
  · exact ⟨Mem.store_wf _ _ _ h1, h2, h3⟩
  · exact ⟨h1, Mem.store_wf _ _ _ h2, h3⟩

theorem writeX_memWf {t : Tile} (h : tileMemWf t) (space a : Nat) (bs : List Byte) : tileMemWf (t.writeX space a bs) := by
  unfold Tile.writeX
  refine writeMem_memWf ?_ _ _ _
  split
  · exact h
  · exact h

theorem writeT_memWf (bs : List Byte) : ∀ {t : Tile} (space a : Nat), tileMemWf t → tileMemWf (t.writeT space a bs) := by
  induction bs with
  | nil => intro t space a h; exact h
  | cons b r ih =>
    intro t space a h
    refine ih _ _ ?_
    obtain ⟨h1, h2, h3⟩ := h
    split
    · exact ⟨h1, h2, h3⟩
    · split
      · exact ⟨Mem.write_wf _ _ _ h1, h2, h3⟩
      · exact ⟨h1, Mem.write_wf _ _ _ h2, h3⟩

theorem setWb_memWf {t : Tile} (h : tileMemWf t) (w : Nat) (v : WbReg) : tileMemWf (t.setWb w v) := by
  unfold Tile.setWb
  split
  · exact h
  · exact h

theorem applyWr_memWf {t : Tile} (h : tileMemWf t) (w : Wr) : tileMemWf (t.applyWr w) := by
  cases w with
  | mem sp a bs => exact writeT_memWf bs sp a h
  | wbuf w off bs => exact setWb_memWf h _ _
  | _ => exact h

theorem applyAll_memWf (l : List Pend) : ∀ {t : Tile}, tileMemWf t → tileMemWf (t.applyAll l) := by
  induction l with
  | nil => intro t h; exact h
  | cons p r ih => intro t h; exact ih (applyWr_memWf h _)

/-- The end of an execution cycle keeps the form of the tile's memories. -/
theorem writeback_memWf {t : Tile} (h : tileMemWf t) : tileMemWf t.writeback := applyAll_memWf _ (t := { t with iss := _ }) h

theorem writeBundles_memWf {t u : Tile} (h : tileMemWf t) (a : Nat) (bs : List Byte) (e : t.writeBundles a bs = some u) : tileMemWf u := by
  unfold Tile.writeBundles at e
  split at e
  · cases e
  · cases e
    exact ⟨h.1, h.2.1, Mem.store_wf _ _ _ h.2.2⟩

end Sys2Proof.Laws
end

