-- ==== Sys2Proof/Tests/Slice0.lean ====
section
/-!
SUPPORT. The model's own tests: an ill-formed command for every check of `Instr.wf`, syllables written out bit by bit from spec/03_tile_bundles.md, single effects, and for the statements with hypotheses small states that
meet them. Expected values come from the tables and rules of spec/, by hand.
-/
namespace Sys2Proof.Tests
open Sys2Proof.Machine Sys2Proof.Safety

/-! ### Small states -/

/-- A tile whose step runs and whose bundle at pc 0 holds `w` in `slot` and `NOP` elsewhere. -/
def tileWith (slot w : Nat) (f : Tile → Tile) : Tile :=
  f { Tile.reset with
      st := { TileStep.zero with active := true }
      mem := { TileMem.zero with bundles := Mem.store [] (8 * slot) (leBytes 8 w) } }

/-- An accepted context with the tile `t` as logical tiles 0 and 575, in rows that are ACTIVE. -/
def running (t : Tile) : State :=
  { State.reset with
    ctx := { Ctx.reset with accepted := true }
    rows := [(0, { Row.reset with power := 0 }), (50, { Row.reset with power := 0 })]
    tiles := [(0, t), (611, t)] }

/-- Both logical tiles 0 and 575 issue the syllable in its slot. -/
def bothIssue (f : Tile → Tile) (slot w : Nat) : Bool :=
  issues (running (tileWith slot w f)) 0 slot w && issues (running (tileWith slot w f)) 575 slot w

/-- A tile held at its bundle. -/
def holdTile (t : Tile) : Tile := { t with iss := { t.iss with held := true } }

/-- A package in an underlying state, with blade power and Mordant running, at time `now`. -/
def pkgIn (under now : Nat) : State :=
  { State.reset with
    pkg := { Pkg.reset with under := under, blade := true, pwrEn := true, mordRuns := true }
    time := { TimeSt.reset with now := now, ft := now } }

/-- An accepted image of LPN 2 that names nothing but the barrier group 5 of LPNs 2 to 4, the time master 2 and all the time enables. -/
def image : Image :=
  { digest := [], len := 64, serial := 7, ft := 0, pid := 9, lpn := 2, timeMaster := 2, ip := 0, udpPort := 0, mgr := false, interleave := 0, checksOff := 0, trainMode := 0,
    spareIdx := [], pools := [], wiring := [], planTag := 0, routes := [], barriers := [(5, [(2, 3)])], loadList := [], timeEn := 0x3F, ptp := [4, 0, 0, 0, 0],
    phyLatency := 0, orphanCap := 0, minFlow := 0, flowK := 0, claims := [], spareEn := 0 }

/-- A running package with that image, its context accepted in generation 1. -/
def inRun (now : Nat) : State :=
  let s := pkgIn psRun now
  { s with lpn := 2, cfg := { s.cfg with image := some image }, ctx := { s.ctx with accepted := true, genLive := true, gen := 1, id := 77 } }

/-- A slot received on a link that is up. -/
def rxSlot (s : State) (l : Nat) (x : Slot) : State :=
  let k := s.link l
  s.setLink l { k with state := 3, rx := { k.rx with q := k.rx.q ++ [x] } }

/-- A step header: entry 4095, budget 100, lead 250, a group, the timed bit, a start time and one TID. -/
def header (group : Nat) (timed : Bool) (start tid : Nat) : List Byte :=
  leBytes 4 (9 + 4095 * 2 ^ 16) ++ leBytes 4 100 ++ leBytes 4 (250 + group * 2 ^ 16 + b2n timed * 2 ^ 24) ++ leBytes 8 7 ++ leBytes 8 start ++ leBytes 12 0 ++ leBytes 72 (2 ^ tid) ++ leBytes 16 0

/-- The request of a command in the first slot of mailbox `mb`, registered now: deadline 1 (100 µs), and staged data where given, with a response area of 1,024 bytes. -/
def withReq (s : State) (mb op : Nat) (pay : List Byte) (data : Option (List Byte)) : State :=
  let body := match data with
    | some d => leBytes 4 0 ++ leBytes 4 d.length ++ leBytes 4 0 ++ leBytes 4 1024 ++ pay
    | none => pay
  let slot := leBytes 2 op ++ leBytes 2 (2 * b2n data.isSome) ++ leBytes 4 5 ++ leBytes 2 body.length ++ leBytes 2 0 ++ leBytes 2 1 ++ leBytes 2 0 ++ body
  let ram := Mem.store (Mem.store s.h.ram (slotAddr mb 0) slot) (if mb < 4 then 0x100000 + mb * 0x3C0000 else mmbReq) (data.getD [])
  { s with h := { s.h with ram := ram, mbx := Tab.set s.h.mbx mb { Mbx.reset with prod := 1, regs := [(0, s.time.now)] } } }

/-- The command begins in mailbox `mb`, and its state and request meet `f`. -/
def runs (s : State) (mb : Nat) (c : Cmd) (pay : List Byte) (data : Option (List Byte)) (f : State → Req → Bool) : Bool :=
  match begins (withReq s mb c.op pay data) mb 0 c with
  | some (u, r) => f u r
  | none => false

/-- A packet of kind `kind` at address `addr` with one data word, on die 0 at router 0, 0. -/
def packet (kind addr : Nat) (asker : Asker) (dest : Dest) : Pkt :=
  ⟨4, kind, addr, 2, 0, 0, 0xD0, 1, 1, true, [0, 0, 0, 0], [0x11223344#32], asker, dest, false, 0, 0, 0, 0, 0, 0, 0, 0, false, false, [], 0, 0, none, [], 0⟩

def withPkt (s : State) (p : Pkt) : State := { s with net := { s.net with pkts := [p] } }

/-! ### Syllables written out from the encoding tables (R82 to R118) -/

/-- ADDI d=3 a=17 imm=0xFFFFFFFE: op 0x18, d [55:51], a [50:46], imm [31:0]. -/
theorem test_syl_addi : syllableInstr 7 1 0b0001100000011100010000000000000011111111111111111111111111111110 = some (.addi 7 3 17 0xFFFFFFFE#32) := by
  decide +kernel

/-- LOOPI l=2 count=5 end=9: op 0x08, L [50:49], count [48:29], target [11:0]. -/
theorem test_syl_loopi : syllableInstr 0 0 0b0000100000000100000000000000000010100000000000000000000000001001 = some (.loopi 0 2 5 9) := by
  decide +kernel

/-- VST reg=31 a=5 q=2 p=7 on LS1: op 0x08, reg [55:51], a [50:47], q [46:45], p [44:42]. -/
theorem test_syl_vst : syllableInstr 1 3 0b0000100011111010110111000000000000000000000000000000000000000000 = some (.vst 1 1 31 5 2 7) := by
  decide +kernel

/-- MKS E4M3 × E5M2, acc=1, wb=1, last: op 0x01, FA [55:52], FB [51:48], acc [47:46], wb [45], half [44], sp [43], last [42]. -/
theorem test_syl_mks : syllableInstr 0 4 0b0000000100110100011001000000000000000000000000000000000000000000 = some (.mks 0 3 4 1 1 0 0 1) := by
  decide +kernel

/-- VFMA d=1 a=2 b=3 c=4 p=0 FP32 on VX1: op 0x01, d [55:51], a [50:46], b [45:41], c [40:36], p [35:33], t [32:29]. -/
theorem test_syl_vfma : syllableInstr 0 6 0b0000000100001000100001100100000000000000000000000000000000000000 = some (.vfma 0 1 1 2 3 4 0 0 0 0) := by
  decide +kernel

/-- XRD f=63 a=15 SA=30 LEN=1: op 0x01, f [55:50], a [49:46], SA [45:41], LEN [25:6]. -/
theorem test_syl_xrd : syllableInstr 0 7 0b0000000111111111111111000000000000000000000000000000000001000000 = some (.xrd 0 63 15 30 1) := by
  decide +kernel

/-- Opcode 0x0B of CT, a set bit outside the fields of NOP's slot, and an odd SA are undefined (R83, R84, R118). -/
theorem test_syl_undefined :
    syllableInstr 0 0 (0x0B <<< 56) = none ∧ syllableInstr 0 0 ((0x01 <<< 56) + 2 ^ 12) = none ∧ syllableInstr 0 7 ((0x01 <<< 56) + (1 <<< 41)) = none := by
  decide +kernel

/-! ### When the tile commands issue -/

theorem witness_ScalarResults :
    ([encSC 0x01 31 31 31 0 0, encSC 0x02 0 0 0 0 0, encSC 0x03 1 2 3 0 0, encSC 0x04 1 2 3 0 0, encSC 0x05 1 2 3 0 0, encSC 0x06 1 2 3 0 0, encSC 0x07 1 2 3 0 0, encSC 0x08 1 2 3 0 0,
      encSC 0x09 1 2 3 0 0, encSC 0x0A 1 2 3 0 0, encSC 0x0B 1 2 3 0 0, encSC 0x10 1 2 3 0 0, 0, encSC 0x18 31 31 0 0 0xFFFFFFFF, encSC 0x19 31 0 0 0 0xFFFFFFFF,
      encSC 0x1A 31 0 0 3 0, encSC 0x20 31 31 0 0 0, encSC 0x21 31 31 0 255 0, encSC 0x28 15 31 0 6 0, encSC 0x29 15 0 0 6 0xFFFFFFFF, encSC 0x30 0 0 0 63 0xFFFF,
      encSC 0x31 15 0 0 1 0].all (bothIssue id slotSC)) = true := by
  decide +kernel

theorem witness_BranchesAndLoopsDecideTheNextBundle :
    ([encCTB 0x01 0 0 0 4095, encCTB 0x02 31 0 0 4095, encCTB 0x03 31 0 0 4095, encCTB 0x04 31 0 0 4095, encCTB 0x05 31 0 0 0, encCTB 0x08 0 3 0xFFFFF 4095, encCTB 0x08 0 0 0 0,
      encCTB 0x09 31 3 0 4095, encCTB 0x0A 0 3 0 0].all (bothIssue id slotCT)) = true := by
  decide +kernel

/-- A tile with flag 63 at 65,535, one arrived and one held increment of flag 5. -/
def flagTile (t : Tile) : Tile := { t with r := { t.r with flags := [(63, 65535)], heldInc := [(5, false)] }, iss := { t.iss with arrive := [5] } }

/-- Loops 0 to 2 end at bundle 9, activated in the order 2, 1, 0: loop 0 has one pass left, loop 1 two, loop 2 one. -/
def loopTile (ct : CtAct) (n1 : Nat) : Tile :=
  let t := ((Tile.reset.setLoop 0 ⟨true, 1, 7, 9, 6⟩).setLoop 1 ⟨true, n1, 5, 9, 4⟩).setLoop 2 ⟨true, 1, 3, 9, 2⟩
  { t with iss := { t.iss with pc := 9, ct := ct } }

/-- Loop 0 deactivates, loop 1 decrements and jumps, loop 2 is unchanged (R92). -/
theorem witness_LoopsThatEndTogetherGoInOrder :
    let t := loopTile .seq 2
    let u := t.nextBundle
    t.iss.ct = .seq ∧ (t.loop 1).active = true ∧ (t.loop 1).endPc = t.iss.pc ∧ 1 < (t.loop 1).remaining ∧ (t.loop 0).remaining ≤ 1 ∧
    (t.loop 1).order < (t.loop 0).order ∧ (t.loop 2).order < (t.loop 1).order ∧
    u.iss.pc = 5 ∧ (u.loop 0).active = false ∧ u.loop 1 = ⟨true, 1, 5, 9, 4⟩ ∧ u.loop 2 = t.loop 2 := by
  decide +kernel

/-- With one pass left in each, all deactivate and the next address follows; LEXIT of loop 1 leaves the two others to the same rule, and so does LOOPI on loop 3. -/
theorem witness_LoopsThatEndTogetherGoInOrder_over :
    let off := (loopTile (.loopOff 1) 2).nextBundle
    let on := (loopTile (.loopOn 3 8 20) 2).nextBundle
    (loopTile .seq 1).nextBundle.iss.pc = 10 ∧ ((loopTile .seq 1).nextBundle.loop 2).active = false ∧
    off.iss.pc = 10 ∧ (off.loop 0).active = false ∧ (off.loop 2).active = false ∧
    on.iss.pc = 5 ∧ (on.loop 3).start = 10 ∧ (on.loop 3).remaining = 8 := by
  decide +kernel

/-- A write of word 0 with every bit set clears the other words and the position; a count of 0 reads as 1 (R100). -/
theorem witness_DescriptorWritesTakeEffectWhole :
    let t := { Tile.reset with r := { Tile.reset.r with descs := [(15, ⟨1#32, 2#32, 3#32, 4#32, 5#32, 6#32, 7#32, 8⟩)] } }
    let d := (t.applyWr (.dword 15 0 0xFFFFFFFF#32)).desc 15
    let e := (t.applyWr (.dword 15 6 0xFFFFFFFF#32)).desc 15
    d = ⟨0x00FFFFFF#32, 0#32, 0#32, 0#32, 0#32, 0#32, 0#32, 0⟩ ∧ d.n0 = 1 ∧ (t.desc 15).n2 = 3 ∧ e.w6 = 0x00FFFFFF#32 ∧ e.w5 = 6#32 ∧ e.pos = 0 := by
  decide +kernel

theorem witness_WaitsFlagsAndWatchdog :
    let w := encCTW 0x10 0 63 65535 0 0
    let unmet := running (tileWith slotCT w id)
    let met := running (tileWith slotCT w fun t => flagTile (holdTile t))
    let ends := running (tileWith slotCT (0x1F <<< 56) holdTile)
    let late := running (tileWith slotCT w fun t => { t with st := { t.st with budget := 9, used := 9 } })
    bothIssue flagTile slotCT w = true ∧ bothIssue id slotCT (encCTW 0x11 31 63 0 0 0) = true ∧ bothIssue id slotCT (0x1F <<< 56) = true ∧
    onTile unmet 575 = true ∧ (unmet.ltile 575).atIssue (unmet.runs (unmet.ptiOf 575)) = true ∧ (unmet.ltile 575).iss.issued = 0 ∧ (unmet.ltile 575).bundleFault = none ∧
    (unmet.ltile 575).iss.held = false ∧ (unmet.ltile 575).syl slotCT = w ∧ (unmet.ltile 575).unheld (unmet.barOk (unmet.ltile 575)) = false ∧
    heldReady (met.ltile 575) (met.runs (met.ptiOf 575)) (met.barOk (met.ltile 575)) = true ∧ opOf ((met.ltile 575).syl slotCT) = 0x10 ∧
    heldReady (ends.ltile 0) (ends.runs (ends.ptiOf 0)) (ends.barOk (ends.ltile 0)) = true ∧ opOf ((ends.ltile 0).syl slotCT) = 0x1F ∧
    (met.ltile 0).iss.arrive.contains 5 = true ∧ (met.ltile 0).r.heldInc.contains (5, false) = true ∧ Tab.get 0 (met.ltile 0).r.regNow 5 = 0 ∧ (met.ltile 0).flag 5 = 0 ∧
    (late.ltile 0).st.active = true ∧ (late.ltile 0).budgetLimit = (late.ltile 0).st.used ∧ bitAt (late.ltile 0).blk.fault 10 = false := by
  decide +kernel

/-- Descriptor 15 reaches to the last byte of glaze (space 1, 0x4FFF00), descriptor 0 starts at address 0 of local store. -/
def descTile (t : Tile) : Tile := { t with r := { t.r with descs := [(15, { Desc.zero with w0 := 0xCFFF00#32 })] } }

theorem witness_LoadsStoresAndPaletteWrites :
    let t := descTile Tile.reset
    (t.desc 15).addr = 0x4FFF00 ∧ (t.desc 15).space = 1 ∧ inSpace 1 (alignDown (t.desc 15).addr 64) 256 = true ∧ t.iss.acc.filter (bankMeet (0, 1, 0x4FFF00, 256)) = [] ∧
    ([encLS 0x01 31 15 3 0 0 0 0 0 0 0 0, encLS 0x02 31 15 0 0 0 0 0 0 0 0 0, encLS 0x03 31 15 0 0 0 0 0 0 0 0 0, encLS 0x04 31 15 0 0 0 0 0 0 0 0 0, encLS 0x08 31 15 3 7 0 0 0 0 0 0 0,
      encLS 0x09 31 15 0 0 0 0 0 0 0 0 0].all fun w => bothIssue descTile slotLS0 w && bothIssue descTile slotLS1 w) = true ∧
    bothIssue descTile slotLS1 (encLS 0x10 0 15 0 0 1 79 1 0 0 0 0) = true ∧ bothIssue descTile slotLS1 (encLS 0x10 0 15 0 0 0 0 80 0 0 0 0) = true ∧
    bothIssue descTile slotLS1 (encLS 0x11 0 15 0 0 0 0 0 63 248 7 1) = true ∧
    onTile (running (tileWith 0 0 fun t => { t with iss := { t.iss with palw := [⟨248, [Palette.zero], 63, 0⟩] } })) 0 = true := by
  decide +kernel

theorem witness_MatrixCommandsComplete :
    let t := tileWith 0 0 fun t => { t with
      iss := { t.iss with cyc := 9 }, mx := { t.mx with closed := [⟨0, 3, 3, 0, 0, [], [], [], [], [], 0⟩], mxChecks := [⟨0, 4, true⟩] } }
    ([encMXK 0x01 3 4 3 1 0 1 1, encMXK 0x01 1 1 3 1 1 0 0, encMXD 0x02 3 0 0 0 0, encMXD 0x03 3 12 3 15 15, encMXD 0x03 0 0 0 0 0].all (bothIssue id slotMX)) = true ∧
    ((running t).ltile 0).mx.closed.map (fun b => decide (b.closedAt + 8 < t.iss.cyc)) = [true] ∧
    (Tab.has t.mx.lastClear 0 && Tab.get 0 t.mx.lastClear 0 == 8) = false ∧ ((running t).ltile 575).mx.mxChecks = [⟨0, 4, true⟩] := by
  decide +kernel

theorem witness_VectorArithmeticResults :
    ([encVX 0x01 31 31 31 31 7 0 0 0 0 0 0 0 0, encVX 0x02 31 31 31 0 7 0 0 0 0 0 0 0 0, encVX 0x03 1 2 3 0 7 0 0 0 0 0 0 0 0, encVX 0x04 1 2 3 0 7 0 0 0 0 0 0 0 0,
      encVX 0x11 1 2 3 0 7 0 0 0 0 0 0 0 0, encVX 0x12 1 2 3 0 7 0 0 0 0 0 0 0 0, encVX 0x08 31 31 31 0 7 6 0 0 0 0 0 0 0, encVX 0x09 1 2 3 0 7 6 0 0 0 0 0 0 0,
      encVX 0x0A 1 2 3 0 7 6 0 0 0 0 0 0 0, encVX 0x0B 1 2 3 0 7 6 0 0 0 0 0 0 0, encVX 0x0C 1 2 3 0 7 6 0 0 0 0 0 0 0, encVX 0x0D 1 2 3 0 7 6 0 0 0 0 0 0 0,
      encVX 0x0E 1 2 3 0 7 6 0 0 0 0 0 0 0, encVX 0x0F 1 2 3 0 7 6 0 0 0 0 0 0 0, encVX 0x10 1 2 3 0 7 0 0 0 0 0 0 0 0,
      encVX 0x1C 1 2 3 0 7 0 0 0 0 0 0 0 0].all fun w => bothIssue id slotVX0 w && bothIssue id slotVX1 w) = true := by
  decide +kernel

theorem witness_VectorSpecialResults :
    ([encVX 0x18 7 31 31 0 7 0 0 0 0 0 0 0 0, encVX 0x20 31 31 0 0 7 0 1 0 0 0 0 0 0, encVX 0x24 31 31 0 0 7 0 0 0 0 0 0 0 0,
      encVX 0x28 31 31 0 0 7 0 0 0 0 0 0 0 255].all fun w => bothIssue id slotVX0 w && bothIssue id slotVX1 w) = true ∧
    bothIssue id slotVX1 (encVX 0x30 31 31 0 0 7 0 0 0 0 0 0 0 0) = true ∧
    takeCheck slotVX1 [⟨0, slotVX0, false⟩, ⟨0, slotVX1, true⟩] = some (⟨0, slotVX1, true⟩, [⟨0, slotVX0, false⟩]) := by
  decide +kernel

theorem witness_TransfersSendTheirRequests :
    let full := fun (t : Tile) => { t with iss := { t.iss with xf := List.replicate 63 ⟨0, .rd, 0, 0, 1, false⟩ } }
    let w := encXF 0x01 63 15 30 0 0 0 0 1
    let held := running (tileWith slotXF w holdTile)
    ([encXF 0x01 63 15 30 0 0 0 0 1, encXF 0x02 63 15 30 0 0 0 0 64, encXF 0x03 63 15 30 28 0 0 0 1, encXF 0x08 63 15 30 0 6 1 0 1, encXF 0x09 63 15 30 28 0 0 12 1,
      encXF 0x0A 63 15 30 28 6 0 2 1, encXF 0x0B 63 15 30 28 3 0 0 1, encXF 0x0C 63 0 30 0 0 0 0 0].all fun w =>
        bothIssue id slotXF w && bothIssue full slotXF w && (tileWith slotXF w id).xfInRange w) = true ∧
    heldReady (held.ltile 0) (held.runs 0) (held.barOk (held.ltile 0)) = true ∧ (held.ltile 0).syl slotXF ≠ 0 ∧ (held.ltile 0).xfInRange ((held.ltile 0).syl slotXF) = true := by
  decide +kernel

theorem witness_UndefinedBundleRaisesAndDoesNotIssue :
    let bad := running (tileWith slotSC (0x02 <<< 56 ||| 1) id)
    let far := running (tileWith slotSC 0 fun t => { t with iss := { t.iss with pc := 4096 } })
    (bad.ltile 575).bundleFault = some (.illOp, slotSC) ∧ (bad.ltile 575).atIssue (bad.runs (bad.ptiOf 575)) = true ∧ (bad.ltile 575).iss.issued = 0 ∧ (bad.ltile 575).blk.infoSet = false ∧
    (far.ltile 0).bundleFault = some (.pcRange, slotCT) ∧ (far.ltile 0).atIssue (far.runs 0) = true := by
  decide +kernel

theorem witness_SyllablesAndCommandsAgree_decode :
    (Instr.vcvt 575 1 31 31 7 0 12 3 0 3 0).wf = true ∧ upsetFree (.vcvt 575 1 31 31 7 0 12 3 0 3 0) = true ∧
    syllableOf (.vcvt 575 1 31 31 7 0 12 3 0 3 0) = some (575, 6, encVX 0x20 31 31 0 0 7 0 12 3 0 3 0 0 0) := by
  decide +kernel

theorem witness_SyllablesAndCommandsAgree_encode : sylDefined 7 (encXF 0x0C 63 0 30 0 0 0 0 0xFFFFF) = true ∧ encXF 0x0C 63 0 30 0 0 0 0 0xFFFFF < 2 ^ 64 := by
  decide +kernel

theorem witness_PeriodEndAdvancesTheTile :
    let s := running (tileWith slotSC 0 fun t => { t with iss := { t.iss with issued := 255 } })
    let off := { s with rows := [] }
    onTile s 575 = true ∧ s.runs (s.ptiOf 575) = true ∧ (s.ltile 575).iss.dbgFreeze = false ∧ (s.ltile 575).mayEnd = true ∧ off.runs (off.ptiOf 0) = false := by
  decide +kernel

/-- Two results for one register are due, of each kind of register: the one issued later is kept (R15). -/
theorem witness_WritebackKeepsTheLaterIssueAndTheRest_later :
    let t := fun (x y : Wr) => { Tile.reset with iss := { TileIssue.zero with cyc := 3, inflight := [⟨3, 1, x⟩, ⟨3, 0, y⟩] } }
    let h := fun (x y : Wr) => ∀ q ∈ (t x y).iss.inflight, q.due ≤ (t x y).iss.cyc ∧ (q = ⟨3, 1, x⟩ ∨ q.at_ < 1)
    (h (.sreg 31 8#32) (.sreg 31 9#32) ∧ (t (.sreg 31 8#32) (.sreg 31 9#32)).writeback.sreg 31 = 8#32) ∧
    (h (.vreg 0 [(255, 8#32)]) (.vreg 0 [(0, 9#32)]) ∧ ((t (.vreg 0 [(255, 8#32)]) (.vreg 0 [(0, 9#32)])).writeback.lane 0 255 = 8#32) ∧
      ((t (.vreg 0 [(255, 8#32)]) (.vreg 0 [(0, 9#32)])).writeback.lane 0 0 = 0#32)) ∧
    (h (.vconv 0 [(255, 8#32)] [(0, 9)]) (.vreg 0 [(0, 9#32)]) ∧ ((t (.vconv 0 [(255, 8#32)] [(0, 9)]) (.vreg 0 [(0, 9#32)])).writeback.lane 0 0 = 0x900#32)) ∧
    (h (.preg 7 3 1) (.preg 7 12 12) ∧ (t (.preg 7 3 1) (.preg 7 12 12)).writeback.pred 7 = 1) ∧
    (h (.dword 15 6 8#32) (.dword 14 0 9#32) ∧ ((t (.dword 15 6 8#32) (.dword 14 0 9#32)).writeback.desc 15).word 6 = 8#32) ∧
    (h (.dpos 0 5) (.dpos 0 6) ∧ ((t (.dpos 0 5) (.dpos 0 6)).writeback.desc 0).pos = 5) ∧
    (h (.macc 3) (.macc 3) ∧ (t (.macc 3) (.macc 3)).writeback.accRow 3 63 = List.replicate 128 0#32) := by
  decide +kernel

theorem witness_WritebackKeepsTheLaterIssueAndTheRest_rest :
    let t := { Tile.reset with iss := { TileIssue.zero with cyc := 3, inflight := [⟨3, 1, .sreg 4 8#32⟩, ⟨3, 1, .mem 0 64 [1#8, 2#8]⟩] } }
    (t.writeback).sreg 5 = t.sreg 5 ∧ (t.writeback).mem.ls = [(64, 1#8), (65, 2#8)] := by
  decide +kernel

theorem witness_BundleStoreOnlyWrittenWithoutAStep :
    ((running Tile.reset).tile 611).st.active = false ∧ ((running (tileWith 0 0 id)).tile 611).st.active = true := by
  decide +kernel

theorem witness_ScrubCorrectsAndReports :
    let fl := fun (ups : List (Nat × Nat)) => popN 39 (Tab.get 0 (strike [] ups) 0)
    bitAt ((running Tile.reset).tile 0).blk.chkEff 2 = true ∧ ((running Tile.reset).row 0).power ≠ 3 ∧
    fl [] = 0 ∧ fl [(0, 2 ^ 38)] = 1 ∧ fl [(0, 1), (0, 2 ^ 38)] = 2 := by
  decide +kernel

/-! ### Steps, rows, barriers, time -/

theorem witness_BarrierCommandsComplete :
    let bar := encCTW 0x18 0 63 0 0 0
    let full := fun (f : Tile → Tile) => { running (tileWith slotCT bar fun t => f { t with st := { t.st with arrivals := 4 } }) with seq := Seq.reset }
    let un := full id
    let rel := running (tileWith slotCT bar holdTile)
    let up : Mgt := ⟨0x10, false, 0, 2, 3, 1, 5⟩
    let s := { inRun 0 with seq := { Seq.reset with bars := [(5, ⟨0, 0, [⟨0, [], [], true, false⟩]⟩)] } }
    let su := rxSlot s 95 (.mgt up)
    let sd := rxSlot s 95 (.mgt { up with mkind := 0x11 })
    (su.bar 5).inst 0 = ⟨0, [], [], true, false⟩ ∧ bothIssue id slotCT bar = true ∧ bothIssue id slotCT (encCTW 0x19 0 0 0 3 0xFFF) = true ∧
    (un.ltile 575).unheld (un.barOk (un.ltile 575)) = false ∧ (un.ltile 575).syl slotCT = bar ∧ (un.ltile 575).bundleFault = none ∧ (un.ltile 575).atIssue true = true ∧
    heldReady (rel.ltile 575) (rel.runs (rel.ptiOf 575)) (rel.barOk (rel.ltile 575)) = true ∧ (rel.ltile 575).syl slotCT = bar ∧
    (State.reset.row 50).power ≠ 0 ∧ (State.reset.row 50).wakeAt = none ∧ State.reset.rowHeld 50 = false ∧ (50 : Nat) % 13 ≠ (State.reset.die 3).skipRow ∧
    (match su.takeRx 95 (isMgt 0x10) with
      | some (.mgt m, u) => decide (m = up ∧ m.dlpn = u.lpn ∧ u.ctx.genLive = true ∧ m.gen = u.ctx.gen ∧ (u.treeKids 5).contains 3 = true ∧ ((u.bar 5).inst 0).kids.contains 3 = false ∧
          m.gen ≠ { u.ctx with gen := 2 }.gen)
      | _ => false) = true ∧
    (match sd.takeRx 95 (isMgt 0x11) with
      | some (.mgt m, u) => decide (instOf (u.bar 5).base (fld m.arg 23 8) - (u.bar 5).base < 4 ∧ ((u.bar 5).inst 0).up = true)
      | _ => false) = true := by
  decide +kernel

theorem witness_StepsBeginAndEnd :
    let h := header 5 false 0 575
    let ht := header 5 true 30000 0
    let s := { inRun 20000 with seq := { Seq.reset with table := [(3, h)], runActive := true, run := [3] } }
    let x : LStep := ⟨0, 3, h, 0, true, false, .waiting, 5, 0, 0⟩
    let y : LStep := ⟨0, 3, ht, 0, false, false, .waiting, 5, 0, 0⟩
    let z : LStep := ⟨0, 3, h, 0, true, false, .started, 5, 0, 0⟩
    let fin := { s with seq := { s.seq with steps := [z], nextEntry := 1 }, tiles := [(611, { Tile.reset with st := { TileStep.zero with ended := true } })] }
    hdrTids h = [575] ∧ hdrTids ht = [0] ∧ hdrEntry h = 4095 ∧ hdrGroup h = 5 ∧ hdrTimed ht = true ∧ hdrLeadTicks h = 20000 ∧
    s.nextHdr = some (3, h) ∧ s.mayLaunch h = true ∧
    [y].find? (fun x => !x.woken && decide (hdrStart x.hdr ≤ s.time.ft + hdrLeadTicks x.hdr)) = some y ∧
    s.ctx.accepted = true ∧ s.ctx.killing = false ∧ s.ctx.killDue = 0 ∧
    [x].find? (fun x => x.phase == .waiting && (if hdrTimed x.hdr then decide (hdrStart x.hdr ≤ s.time.ft) else decide (x.launched + hdrLeadTicks x.hdr ≤ s.time.now))) = some x ∧
    fin.seq.steps.find? fin.stepDone = some z := by
  decide +kernel

theorem witness_RowsAndNoticesFollowTheirTimes :
    let s := inRun (100 * us)
    let w := { s with rows := [(50, { Row.reset with wakeAt := some (100 * us) }), (0, { Row.reset with power := 1 })] }
    let z : LStep := ⟨0, 3, header 5 false 0 575, 0, true, false, .started, 5, 0, 0⟩
    let past := { s with seq := { Seq.reset with notices := [(5, 0)] } }
    let n := { s with seq := { Seq.reset with steps := [z], notices := [(5, 100 * us)] }, pw := { Power.reset with frozenAt := [(3, 50 * us)] } }
    let r := rxSlot s 0 (.mgt ⟨0x12, false, 0, 2, 3, 1, 5⟩)
    (w.row 50).wakeAt = some (100 * us) ∧ 100 * us ≤ w.time.now ∧ (w.row 0).power = 1 ∧ (w.row 0).wakeAt = none ∧ (w.row 0).deferred = false ∧ w.rowIdle 0 = true ∧ (w.row 0).idleSince + 100 * us ≤ w.time.now ∧
    n.seq.steps.any (fun x => x.phase == .started && hdrGroup x.hdr == 5 && (hdrTids x.hdr).any (fun tid => tid / 144 == 3)) = true ∧
    Tab.find n.pw.frozenAt 3 = some (50 * us) ∧ 50 * us + 50 * us ≤ n.time.now ∧ Tab.find n.seq.noteSent (3 * 256 + 5) = none ∧
    n.groupRanges 5 = some [(2, 3)] ∧ rangeMember [(2, 3)] 0 = some 2 ∧ Tab.find n.seq.notices 5 = some n.time.now ∧
    Tab.find past.seq.notices 5 = some 0 ∧ watchCycle 0 < watchCycle past.time.now ∧
    (match r.takeRx 0 (isMgt 0x12) with
      | some (.mgt m, u) => decide (m.dlpn = u.lpn ∧ m.gen = u.ctx.gen ∧ fld m.arg 7 0 = 5 ∧ (Tab.find u.seq.notices 5).any (fun e => watchCycle e == watchCycle u.time.now) = false ∧ u.spr.displaced = false ∧ u.ctx.genLive = true)
      | _ => false) = true := by
  decide +kernel

/-- The SYNC, DREQ and RESP of one exchange: sent at 1000, received at 1100, answered at 1200, received at 1300. -/
theorem witness_TimSlotsMeasureTheLink :
    let s := (inRun 1300).setTim 95 { TimLink.zero with known := true, t2 := 1100, t3 := 1200 }
    ([0, 1, 2].all fun k => match (rxSlot s 95 (.tim ⟨k, 2, 1, 2, 0, 1000, 1300, 0, some 1250⟩)).takeRx 95 (isTim k) with
      | some (.tim x, u) =>
        let r := (u.timHeard 95 x).timParent 95
        decide ((r.timLink 95).seq = x.seq ∧ (r.timLink 95).known = true ∧ u.time.listenEnd = none ∧ (u.timLink 95).t1Seq = x.seq ∧ (r.timLink 95).lastAt = u.time.now ∧
          (((x.tb : Int) - x.ta) - (((r.timLink 95).t3 : Int) - (r.timLink 95).t2)) / 2 - (r.link 95).asym / 2 = 100 ∧
          ((((r.timLink 95).t2 : Int) - x.ta) - ((x.tb : Int) - (r.timLink 95).t3)) / 2 - (r.link 95).asym / 2 = 0)
      | _ => false) = true := by
  decide +kernel

theorem witness_TimersPulsesAndTimeReads_timers :
    let s := inRun 4000000000
    let k := s.setLink 95 { Link.reset with state := 3, farTim := true }
    let early := k.setTim 95 { TimLink.zero with sentAt := 4000000000 - 300000 }
    let soon := k.setTim 95 { TimLink.zero with sentAt := 4000000000 - 100 }
    let p := { s with time := { s.time with parent := 95, tstate := 2, listenEnd := some 4000000000 } }
    let heard := p.setTim 95 { TimLink.zero with lastAt := 4000000000 }
    let q := { s with time := { s.time with tstate := 5, ppsPrev := some 400000 } }
    let away := { s with time := { s.time with tstate := 2, parent := 0x7F, noParent := some 0 } }
    let lone := { s with time := { s.time with tstate := 3, parent := 0x7F, noParent := some 3999999000 } }
    let hold := (p.setLink 7 { Link.reset with state := 3 }).setTim 7 { TimLink.zero with known := true, tstate := 4, mlpn := 2, lastAt := 4000000000, measAt := some 4000000000 }
    let late := { q with time := { q.time with ft := 4000800001 } }
    let up := { s with time := { s.time with ppsOut := true, ppsEdge := 3999200000, ppsRose := 3999200000, ppsFrameDue := true } }
    (k.link 95).state = 3 ∧ (k.link 95).farTim = true ∧ k.time.listenEnd = none ∧ (k.timLink 95).sentAt = 0 ∧
    (early.timLink 95).sentAt ≠ 0 ∧ early.time.now < (early.timLink 95).sentAt + ms ∧ (early.timLink 95).sentAt + timPeriod ≤ early.time.now ∧ soon.time.now < (soon.timLink 95).sentAt + timPeriod ∧
    p.time.parent ≠ 0x7F ∧ p.time.tstate ≠ 5 ∧ p.timUsable 95 = false ∧ p.time.listenEnd = some p.time.now ∧
    (let gives := fun (u : State) (k : Nat) => let v := u.timLink k
      (u.link k).state == 3 && v.known && v.tstate == 4 && some v.mlpn == u.master && decide (4000000000 ≤ v.lastAt + 10 * ms) && v.measAt.any fun a => decide (4000000000 ≤ a + 10 * ms)
     allLinks.find? (gives p) = none ∧ allLinks.find? (gives { hold with ctx := Ctx.reset }) = some 7) ∧
    p.timHeardLately 95 = false ∧ away.time.parent = 0x7F ∧ away.time.noParent = some 0 ∧ 0 + timTimeout ≤ away.time.now ∧ away.time.tstate = 2 ∧
    lone.time.noParent = some 3999999000 ∧ lone.time.now < 3999999000 + timTimeout ∧ heard.timHeardLately 95 = true ∧ heard.timUsable 95 = false ∧
    q.isMaster = true ∧ q.timeEn 0 = true ∧ 400000 + ppsSecond ≤ q.time.ft + 400000 ∧ q.time.ft ≤ 400000 + ppsSecond + 400000 ∧
    400000 + ppsSecond + 400000 < late.time.ft ∧ 400000 + (late.time.ppsBad + 1) * ppsSecond + 400000 < late.time.ft ∧
    s.time.ppsK < s.ppsNow ∧ up.time.ppsRose + 400000 ≤ up.time.now ∧ up.time.ppsRose + 800000 = up.time.now ∧ up.timeEn 5 = true ∧ s.pkg.under ≠ psOff ∧ State.reset.pkg.under = psOff := by
  decide +kernel

theorem witness_TimersPulsesAndTimeReads_reads :
    let s := inRun 4000000000
    s.timeEn 1 = true ∧ s.gate = false ∧ s.time.ptpSyncAt + logTicks (s.ptpField 3) = s.time.now ∧ s.time.ptpAnnAt + logTicks (s.ptpField 4) = s.time.now ∧ s.ptpField 0 = 4 ∧ 5 ≠ s.ptpField 0 := by
  decide +kernel

/-! ### The networks -/

/-- Grant 7 of N = 8 is reserved and goes to the oldest, grant 8 to the highest rank; of two that registered in one cycle the higher-ranked one wins grant 7. -/
theorem witness_ArbiterFollowsItsRanks :
    let a : Arb := ⟨7, [(2, 5, 1), (1, 9, 1)], none, 0⟩
    a.waiting ≠ [] ∧ a.grants % 8 = 8 - 1 ∧ { a with grants := 8 }.grants % 8 ≠ 8 - 1 ∧
    (a.decide 8).inUse = some 2 ∧ ({ a with grants := 8 }.decide 8).inUse = some 1 ∧ (({ a with waiting := [(3, 9, 1), (2, 9, 1)] } : Arb).decide 8).inUse = some 2 := by
  decide +kernel

theorem witness_ArbitersPackageEdgeAndGlazeScrub_commands :
    State.reset.dbgMay = true ∧
    { State.reset with net := { Net.reset with dbgLast := some 0 } }.dbgMay = false ∧
    (let s1 := (pkgIn psConf us).setLink 95 { Link.reset with state := 3, tx := { LinkTx.zero with emq := [⟨0x12, false, 0, 2, 3, 1, 5⟩] } }
     s1.gate = false ∧ (s1.link 95).usable = true ∧ (s1.link 95).tx.curIns = 0 ∧ (s1.link 95).tx.buf.length < 256 ∧ (s1.link 95).tx.replayTo ≤ s1.time.now ∧ (s1.link 95).handoff = none) := by
  decide +kernel

theorem witness_ArbiterGrantsWithinItsBound :
    let a : Arb := ⟨0, [(1, 5, 1), (0, 3, 1)], none, 0⟩
    (a.waiting.map Prod.fst).Nodup ∧ (∀ x ∈ a.waiting, x.1 < 2) ∧ (∀ q ∈ List.replicate 16 [(0, 6, 1)], ∀ x ∈ q, x.1 < 2 ∧ 5 < x.2.1) ∧
    (List.replicate 16 [(0, 6, 1)]).length = 8 * 2 ∧ ((List.range 17).any fun k => (arbRun 8 a ((List.replicate 16 [(0, 6, 1)]).take k)).inUse == some 1) = true := by
  decide +kernel

theorem open_of_empty_input (s : State) (p : Pkt)
    (hl : s.inputLoad p.die p.plane (s.hopTo p).1 (s.hopTo p).2.1 (if p.hops = 0 then p.inPort else (s.hopTo p).2.2) 1 = 0) (hs : s.srcOpen p = true) :
    s.hopOpen p = true := by
  simp [State.hopOpen, State.creditFree, hl, hs]

theorem witness_PacketsCrossHopsAndBridges :
    let p := packet 0x01 0 (.tile 0 3) (.lake 0)
    let q := { p with hops := 1, trow := 0, tcol := 1 }
    let x := { p with hops := 1 }
    let far := { p with arrived := true, dstEp := 0xD1 }
    let rsp := { p with inHub := true, kind := 0x11, via := [1], tag := 512 }
    let s := withPkt (inRun 0) p
    let sq := withPkt (inRun 0) q
    let sx := withPkt (inRun 0) x
    let busy := sq.setArb 0 (sq.portOf q) { Arb.zero with inUse := some 6 }
    let w := { p with kind := 0x03 }
    let shut := (withPkt { inRun 0 with tiles := [(0, { Tile.reset with iss := { Tile.reset.iss with pieces := [⟨3, 0, 0, 4, 4, 1, 0⟩] } })] } w).setDie 0 { (inRun 0).die 0 with zeroing := true }
    (s.pkt 4 = some p ∧ s.hopOpen p = true ∧ s.hopGranted p = true ∧ p.hops = 0) ∧
    (sq.pkt 4 = some q ∧ sq.hopOpen q = true ∧ sq.hopGranted q = true ∧ q.col ≠ q.tcol ∧ (checkHop q []).badHdr = false ∧ (checkHop q [(0, 3)]).badHdr = true ∧ q.inHub = false ∧ q.arrived = false ∧ popN 39 3 = 2) ∧
    (sx.pkt 4 = some x ∧ sx.hopOpen x = true ∧ sx.hopGranted x = true ∧ x.hops ≠ 0 ∧ x.row = x.trow ∧ x.col = x.tcol) ∧
    (busy.pkt 4 = some q ∧ busy.hopOpen q = true ∧ busy.hopGranted q = false) ∧ (shut.pkt 4 = some w ∧ shut.hopOpen w = false) ∧
    (far.kind ≠ 0x05 ∧ popN 39 (2 ^ 38 + 1) = 2 ∧
    0xD0 ≤ far.dstEp ∧ isRsp far.kind = false ∧ far.dest = .lake 0 ∧ (s.bridge (bridgeNo 0 0xD1)).length < 512 ∧ bridgeNo 0 0xD1 = 1 ∧
    isRsp rsp.kind = true ∧ rsp.via.head? = some 1 ∧ [BrEnt.mk 512 0 3 (.tile 0 3) []].find? (fun x => x.tag == rsp.tag) = some ⟨512, 0, 3, .tile 0 3, []⟩) := by
  refine ⟨⟨by decide +kernel, open_of_empty_input _ _ (by decide +kernel) (by decide +kernel), by decide +kernel⟩, ⟨by decide +kernel, open_of_empty_input _ _ (by decide +kernel) (by decide +kernel), by decide +kernel⟩,
    ⟨by decide +kernel, by decide +kernel, by decide +kernel⟩, ⟨by decide +kernel, open_of_empty_input _ _ (by decide +kernel) (by decide +kernel), by decide +kernel⟩, ⟨by decide +kernel, ?_⟩, by decide +kernel⟩
  have h : ∀ (u : State) (y : Pkt), u.srcOpen y = false → u.hopOpen y = false := fun u y e => by simp [State.hopOpen, e]
  exact h _ _ (by decide +kernel)

/-- A tile whose step runs and has not issued: its banks are not free. -/
def busyTile : Tile := { Tile.reset with st := { TileStep.zero with active := true }, blk := { Tile.reset.blk with gen := 1 } }

theorem witness_EndpointsAndAnswersComplete_serve :
    let live := fun (t : Tile) => { t with blk := { t.blk with gen := 1 } }
    let run := { running (live Tile.reset) with ctx := { Ctx.reset with accepted := true, gen := 1, genLive := true } }
    let used := { run with tiles := [(611, busyTile)] }
    let ask := fun (k a : Nat) => { packet k a (.tile 1 3) (.tile 611) with arrived := true, die := 3 }
    let nak := { ask 0x03 0 with gen := 2 }
    let g : GlazeReq := ⟨ask 0x01 0, 611, 0, []⟩
    let bc := packet 0x05 0 (.tile 1 3) (.tile 611)
    let cp := { bc with copyOf := some 7, arrived := true, die := 3 }
    (ask 0x03 0).atTile = some 611 ∧ cp.atTile = some 611 ∧ (run.row (rowOf 611)).power = 0 ∧ run.tileGenBad 611 (ask 0x03 0) = false ∧ run.tileGenBad 611 nak = true ∧ nak.atTile = some 611 ∧
    (ask 0x03 0).poisoned = false ∧ (ask 0x03 0).words ≤ 64 ∧ (ask 0x03 0).made = 0 ∧ ((withPkt run (ask 0x03 0)).pkt 4 = some (ask 0x03 0) ∧ (ask 0x03 0).id = 4) ∧
    regionOf (0x18000000000 + 575 * 0x100000 + 0xFFFFC) = .localStore 575 0xFFFFC ∧ regionOf (0x10000000000 + 575 * 0x800000 + 0x4FFFFC) = .glaze 575 0x4FFFFC ∧
    (run.portRead 611 0 0xFFFFC 1).2 = some [0#8, 0#8, 0#8, 0#8] ∧
    ((({ run with tiles := Tab.set run.tiles 611 (live Tile.reset) } : State).glazeMove 611 rankEject 0x4FFFFC 4 0).1.portRead 611 1 0x4FFFFC 1).2 = some [0#8, 0#8, 0#8, 0#8] ∧
    ([g].find? (fun x => x.pkt.id == 4) = some g ∧ g.got = [] ∧ g.pkt.words ≠ 0 ∧ g.pkt.words ≤ 64) ∧
    run.bankFree 611 0x4FFFFC 4 rankEject = true ∧ used.bankOpen 611 0x4FFFFC = false ∧ bytesOfWords ((ask 0x03 0).data.take 1) ≠ [] ∧
    bc.inHub = false ∧ bc.copyOf = none ∧ cp.copyOf = some 7 ∧ (run.bcastOne (run.freshSrc cp) 611).2 = some (0x06, 0) ∧
    (used.bcastOne (used.freshSrc { cp with ext := [2 ^ 24, 0, 0, 0] }) 611).2 = none ∧ bitAt (cp.extWord 0) 25 = false ∧ bitAt (cp.extWord 0) 24 = false ∧ cp.addr + 4 ≤ 2 ^ 20 ∧
    [Bcast.mk bc 1 []].find? (fun x => x.pkt.id == 4) = some ⟨bc, 1, []⟩ ∧
    ((0x21, 4) ∈ [(0x06, 0), (0x21, 4), (0x20, 1)] ∧ (0x20, 1) ∈ [(0x06, 0), (0x20, 1)]) := by
  decide +kernel

theorem witness_EndpointsAndAnswersComplete_answers :
    let live := fun (t : Tile) => { t with blk := { t.blk with gen := 1 } }
    let run := { running (live Tile.reset) with ctx := { Ctx.reset with accepted := true, gen := 1, genLive := true } }
    let ans := fun (k : Nat) (d : List Word) => { packet k 0 (.tile 611 3) (.tile 611) with arrived := true, die := 3, data := d }
    let tile := fun (t : Tile) (sp : Nat) => { t with iss := { t.iss with pieces := [⟨3, 0, sp, 64, 4, 0, 0⟩] } }
    let w := fun (k sp : Nat) (d : List Word) => withPkt { run with tiles := [(611, tile (live Tile.reset) sp)] } (ans k d)
    let stuck := withPkt { run with tiles := [(611, tile busyTile 1)] } (ans 2 [7#32])
    ([(0x02, [7#32]), (0x11, [7#32]), (0x04, []), (0x06, []), (0x20, []), (0x21, [])].all fun k => (w k.1 0 k.2).answerAt 4 k.1 == some (ans k.1 k.2, 611, ⟨3, 0, 0, 64, 4, 0, 0⟩)) = true ∧
    ([0x02, 0x11].all fun k => (w k 1 [7#32]).answerAt 4 k == some (ans k [7#32], 611, ⟨3, 0, 1, 64, 4, 0, 0⟩)) = true ∧
    stuck.answerAt 4 2 = some (ans 2 [7#32], 611, ⟨3, 0, 1, 64, 4, 0, 0⟩) ∧ (stuck.row (rowOf 611)).power = 0 ∧
    (w 2 0 []).tileGenBad 611 (ans 2 []) = false ∧ stuck.tileGenBad 611 (ans 2 [7#32]) = false ∧
    ((w 2 1 [7#32]).glazePut (ans 2 [7#32]) 611 rankSu3 64 [7#8, 0#8, 0#8, 0#8]).2 = true ∧ (stuck.glazePut (ans 2 [7#32]) 611 rankSu3 64 [7#8, 0#8, 0#8, 0#8]).2 = false ∧
    (w 2 1 []).bankFree 611 64 4 rankSu3 = true ∧ (ans 2 []).made = 0 ∧ (ans 2 []).poisoned = false := by
  decide +kernel

theorem witness_ArbitersPackageEdgeAndGlazeScrub_edge :
    let isPkt := fun (x : Slot) => match x with
      | .pkt _ => true
      | _ => false
    let p : LPkt := ⟨0, false, 0, 2, 3, 1, 5, 1, 0, 0x01, [0, 0, 0, 0], []⟩
    let took := fun (s : State) (x : LPkt) => match (rxSlot s 95 (.pkt x)).takeRx 95 isPkt with
      | some (.pkt y, u) => decide (y = x ∧ u.cfg.image = s.cfg.image ∧ u.lpn = s.lpn ∧ u.ctx = s.ctx ∧ u.spr.displaced = false ∧ u.net = s.net)
      | _ => false
    let s := inRun 0
    let t := { s with net := { s.net with bridges := [(7, [⟨0xE00, 0, 3, .tile 0 3, []⟩])] } }
    took { s with cfg := Cfg.reset } p = true ∧ took s { p with dlpn := 3 } = true ∧ took { s with ctx := { s.ctx with genLive := false } } { p with kind := 0x11 } = true ∧
    took s { p with gen := 2 } = true ∧ took s p = true ∧ took t { p with kind := 0x11, tag := 0xE00 } = true ∧
    (t.bridge (0xE00 / 512)).find? (fun x => x.tag == 0xE00) = some ⟨0xE00, 0, 3, .tile 0 3, []⟩ ∧ isRsp 0x11 = true ∧ isRsp 0x01 = false ∧
    (let may := fun (u : State) => u.mayUse 1 (bankIdx 468 0) rankScrub
     let used := { running busyTile with tiles := [(468, busyTile)], rows := [(39, { Row.reset with power := 0 })] }
     s.bankOpen 468 0 = true ∧ may s = true ∧ may (s.setArb 1 (bankIdx 468 0) { Arb.zero with inUse := some 0 }) = false ∧ used.bankOpen 468 0 = false ∧ used.slices 3 = s.slices 3 ∧
       (s.slices 3).contains 0 = true ∧ (s.die 3).scrubAt = 0 ∧ (used.die 3).scrubEn = true ∧ (used.die 3).scrubAt = 0 ∧ ((s.setDie 3 { s.die 3 with skipRow := 0 }).slices 3).contains 0 = false) ∧
    (s.die 3).scrubEn = true ∧ (s.die 3).zeroing = false := by
  decide +kernel

/-! ### Lake, DMA, links -/

/-- The last lake address lies at the last place of stack 7 in every mode; unit 9 of 4 KiB is the second of stack 1 and begins at its channel 16 (R192). -/
theorem witness_LakeAddressesMapToTheirPlaces :
    let e := 0x05FFFFFFFFF
    e < 0x06000000000 ∧ (∀ m, m < 3 → lakeStack m e = 7 ∧ lakeSo m e = 0xBFFFFFFFF ∧ soCh (lakeSo m e) = 31 ∧ soRow (lakeSo m e) = 12287 ∧ soCol (lakeSo m e) = 2047) ∧
    lakeStack 0 0x9000 = 1 ∧ lakeSo 0 0x9000 = 0x1000 ∧ soCh (lakeSo 0 0x9000) = 16 ∧ lakeStack 1 0x9000 = 0 ∧ lakeStack 2 0xC00000000 = 1 := by
  decide +kernel

theorem witness_LakeRequestsApplyAtRegistration :
    let s := withPkt (inRun 0) { packet 0x03 0x5FFFFFFFFC (.dma 0) (.lake 7) with arrived := true, dstEp := 0xD0 }
    let p := { packet 0x03 0x5FFFFFFFFC (.dma 0) (.lake 7) with arrived := true, dstEp := 0xD0 }
    let st := (s.stack 7)
    let taken := (s.chanArbs (s.lakeNeeds 7 p)).foldl (fun (u : State) i => u.setArb 2 i { Arb.zero with inUse := some 2 }) s
    let op : Nat → Nat → Pkt := fun k lop => { p with kind := k, ext := [lop + 2 ^ 13, 1, 0, 0] }
    s.atLake 4 = some (p, 7) ∧ p.extent = 4 ∧ p.addr + p.extent ≤ lakeEnd ∧ strike s.lake.flips [] = s.lake.flips ∧
    st.waitQ.contains 4 = false ∧ s.lakeRoom 7 p = true ∧ s.ptHeldBefore 7 p = false ∧ s.chanBusy (s.lakeNeeds 7 p) p.lakeQueue = [] ∧ taken.chanBusy (taken.lakeNeeds 7 p) p.lakeQueue ≠ [] ∧ taken.waitsBefore 7 p = false ∧ (pinCheck p []).badHdr = false ∧ (pinCheck p []).badData = false ∧ st.heldQ.contains 4 = false ∧ p.since + s.ptLake 7 ≤ s.time.now ∧ p.poisoned = false ∧ st.zeroing = false ∧
    s.lakeAsleep (s.lakeNeeds 7 p) = [] ∧ s.lakeCopies (s.lakeNeeds 7 p) = false ∧ s.waitsBefore 7 p = false ∧ { p with genChk := false }.genChk = false ∧
    (s.ctx.genLive = true ∧ p.genChk = true ∧ p.gen ≠ st.gen ∧ p.gen = { st with gen := 1 }.gen) ∧
    ([1, 2, 3, 4, 5].map fun lop => (op 0x10 lop).lakeKind) = [3, 4, 5, 6, 7] ∧ ([1, 2, 3, 4, 5].all fun (lop : Nat) => decide (0 < (op 0x10 lop).extent)) = true := by
  decide +kernel

theorem witness_LakeApplyStoresOnlyItsBytes :
    ([(0x01, 0), (0x03, 0), (0x10, 1), (0x10, 2), (0x10, 3), (0x10, 4), (0x10, 5)].map fun x => { packet x.1 0 (.dma 0) (.lake 0) with ext := [x.2, 0, 0, 0] }.lakeKind) =
      [0, 1, 3, 4, 5, 6, 7] ∧
    (((withPkt { State.reset with lake := { Lake.reset with flips := [(0, 3)] } } (packet 0x10 0 (.dma 0) (.lake 0))).lakeWords 0 1).all Ecc.isDbe) = true := by
  decide +kernel

theorem witness_LakeChannelsAndScrub :
    let s := pkgIn psConf (10 * ms)
    let t := s.setStack 7 { Stack.reset with copying := [12288] }
    let w := s.setStack 7 (Stack.reset.setChan 31 { Chan.zero with power := 2, wakeReq := some (10 * ms) })
    let dn := s.setStack 7 (Stack.reset.setChan 31 { Chan.zero with power := 1 })
    let a : Nat := lakeUn s.lake.mode 7 (chSo 31 0)
    (s.stack 7).scrubEn = true ∧ (s.stack 7).zeroing = false ∧ s.mayUse 2 (7 * 32 + 31) 2 = true ∧ s.lakeCopies [a] = false ∧ s.burstWaits a = false ∧ ((dn.stack 7).chan 31).power = 1 ∧
    (s.setArb 2 (7 * 32 + 31) { Arb.zero with inUse := some 0 }).mayUse 2 (7 * 32 + 31) 2 = false ∧ t.mayUse 2 (7 * 32 + 12288 / 12288 / 64) 2 = true ∧ (t.stack 7).zeroing = false ∧ (∀ j, j < 8 → (s.stack j).waitQ = []) ∧ ((s.stack 7).chan 31).power = 0 ∧ (t.stack 7).copying = [12288] ∧ ((s.stack 7).chan 31).wakeReq = none ∧
    ((s.stack 7).chan 31).lastUse + us ≤ s.time.now ∧ ((s.stack 7).chan 31).lastUse + 10 * ms = s.time.now ∧ s.ctx.accepted = false ∧ s.chanWaits 7 31 = false ∧
    ((w.stack 7).chan 31).wakeReq = some w.time.now := by
  decide +kernel

/-- A copy descriptor of 64 bytes of host memory to host memory. -/
def copyDesc : DmaDesc := ⟨[2 ^ 31, 64, 0x1000, 0, 0x2000, 0, 0x40, 0, 0, 0, 0, 0, 0, 0, 0, 0], 0x1000, 0, [], [], 0, 0, 0, 0, [], none, 0, 0, false⟩

theorem witness_DmaChannelsRun :
    let s := pkgIn psRun 0
    let run := s.setCh 15 { DmaCh.reset with state := 1, cur := some copyDesc }
    let own := s.setCh 14 { DmaCh.reset with claim := 2 }
    let fet := s.setCh 0 { DmaCh.reset with state := 1, fetching := true, reqs := [⟨0, 1, 0, 64, true, 0⟩] }
    s.dmaReach 15 true = true ∧ s.dmaMay = true ∧ (s.ch 15).state = 0 ∧ s.spr.copying = false ∧ s.nextOk (s.ch 15).next = true ∧ s.dmaPaused = false ∧
    (pkgIn psTrain 0).dmaMay = false ∧ (run.ch 15).cur ≠ none ∧ (s.ch 15).cur = none ∧ (own.ch 14).claim ≠ 1 ∧ own.dmaReach 14 false = true ∧
    ([(0, 2 ^ 31), (0, 0), (1, 0)].all fun x => match fet.dmaAnswer 0 ⟨0, 1, 0, 64, true, 0⟩ x.1 (BitVec.ofNat 2048 x.2) with
      | some (st, bs, u) => decide (st = (if x.1 = 0 then 0 else 3) ∧ (u.ch 0).fetching = true ∧ bitAt ((descWords bs).getD 0 0) 31 = decide (x.2 ≠ 0 ∧ x.1 = 0) ∧ ((u.dmaTake 0 ⟨0, 1, 0, 64, true, 0⟩).ch 0).pend = false)
      | none => false) = true ∧
    (fet.ch 0).req (fun r => r.what == 1) = some ⟨0, 1, 0, 64, true, 0⟩ ∧
    ((pkgIn psTrain 0).dmaPaused = false ∧ ((pkgIn psTrain 0).ch 0).tagGen = (pkgIn psTrain 0).ctx.gen) ∧ { copyDesc with peeked := true }.peeked = true ∧ copyDesc.peeked = false ∧
    (fet.dmaInTime ⟨0, 1, 0, 64, true, 0⟩ = true ∧ (s.ch 15).reqs.any (fun r => r.what == 1) = false ∧ s.dmaRoom 15 = true ∧ (run.ch 15).okAt = none ∧ (run.ch 15).stopReq = false ∧
      (run.ch 15).reqs.any (fun r => r.what == 2) = false) ∧
    copyDesc.last = false ∧ copyDesc.chain = false ∧ run.dmaRoom 15 = true ∧ run.nextOk copyDesc.nextA = true ∧ copyDesc.fail = none ∧ (run.ch 15).shadow = none := by
  decide +kernel

theorem witness_DmaMovesItsBytes :
    let base := pkgIn psRun 0
    let d := { copyDesc with src := (List.range 64).map fun i => (i, 7#8) }
    let desc := fun (x : DmaDesc) (xf xp len : Nat) => { x with words := [2 ^ 31 + xf * 2 ^ 16, len, 0x1000, 0, 0x2000, 0, 0x40, 0, xp, 0, 0, 0, if xf = 3 then 0x3000 else 0, 0, 0, 0] }
    let s := base.setCh 15 { DmaCh.reset with state := 1, cur := some d, reqs := [⟨5, 0, 0, 64, true, 0⟩] }
    let ans := fun (what : Nat) => (⟨5, what, 0, 64, false, 0⟩ : DmaReq)
    let reply := fun (k : Nat) => withPkt base { packet k 0 (.dma 15) (.hub 0) with arrived := true, inHub := true, tag := 0x1000 + 15 * 1024 + 5 }
    ([(0, 0, 64), (1, 0, 64), (2, 0, 64), (3, 7, 64)].all fun x =>
      let y := desc d x.1 x.2.1 x.2.2
      decide (y.xform = x.1 ∧ base.descBad 15 y = false ∧ y.readAt < y.srcLen ∧ y.writeAt < y.dstLen ∧ y.fail = none ∧ y.stage = 0 ∧ bitAt (y.w 0) 27 = false) &&
        (bytesFrom y.dstByte 0 (reqLen y.dstA y.dstLen)).isSome == (x.1 != 3)) = true ∧
    bytesFrom { desc d 3 7 32 with src := (List.range 33).map fun i => (i, 7#8) }.dstByte 0 32 ≠ none ∧
    (s.ch 15).stopReq = false ∧ s.dmaPaused = false ∧ s.dmaRoom 15 = true ∧ (s.ch 15).req (fun r => r.tok == 5 && r.what ≠ 1) = some ⟨5, 0, 0, 64, true, 0⟩ ∧
    ([(0, 0x02), (5, 0x04), (2, 0x02), (0, 0x21)].all fun x => match (reply x.2).dmaAnswer 15 (ans x.1) 0 0#2048 with
      | some (st, _, _) => (st == 0) == (x.2 != 0x21)
      | none => false) = true ∧
    (ans 0).expires ≤ base.time.now ∧ (ans 0).host = false ∧ base.dmaInTime (ans 0) = true ∧ (pkgIn psRun us).dmaInTime (ans 0) = false ∧ (s.ch 15).reqs.any (fun r => r.tok == 9) = false ∧
    base.net.pkts.any (Pkt.answers 15 5) = false ∧ (∀ w ∈ [0, 2, 5, 6, 7], ((s.setCh 15 { s.ch 15 with reqs := [ans w] }).ch 15).req (fun r => r.tok == 5) = some (ans w)) := by
  decide +kernel

theorem witness_LinkTrafficCompletes :
    let up := fun (f : Link → Link) => (pkgIn psConf (5 * us)).setLink 95 (f { Link.reset with state := 3, phase := 4 })
    let e : QEnt := ⟨.mgt ⟨0x10, false, 0, 2, 3, 1, 5⟩, 1, 0, none, 0, none⟩
    let fr : Frame := ⟨false, 0, []⟩
    let s := up fun k => { k with tx := { k.tx with q := [e], credit := [9, 9, 9, 9, 9, 9] } }
    let a := rxSlot (up fun k => { k with tx := { k.tx with frames := 1, buf := [(fr, 0)], sent := [⟨e, 0⟩] } }) 95 (.ack 0 false [1, 2, 3, 4, 5, 6])
    let r := rxSlot (up id) 95 (.ident 7)
    let old := up fun k => { k with identAt := 0, tx := { k.tx with frames := 1, buf := [(fr, 4)] }, rx := { k.rx with nak := true, nakAt := 4 * us } }
    let rd : LPkt := ⟨0, false, 0, 2, 3, 1, 5, 1, 0, 0x01, [0, 0, 0, 0], []⟩
    let isAck := fun (x : Slot) => match x with
        | .ack _ _ _ => true
        | _ => false
    let heard := fun (u : State) => let f := u.flushTx 95
      match (if f.ackLate 95 = true then f.fastStart 95 else f).takeRx 95 isAck with
      | some (.ack q false _, u) => decide ((q + 1 + 4096 - (u.link 95).tx.acked % 4096) % 4096 = 1 ∧ 1 ≤ (u.link 95).tx.buf.length)
      | _ => false
    let ontime := a.setLink 95 { a.link 95 with tx := { (a.link 95).tx with ackAt := 5 * us } }
    ((up id).link 95).frames = true ∧ Link.reset.frames = false ∧ (a.flushTx 95).ackLate 95 = true ∧ (ontime.flushTx 95).ackLate 95 = false ∧ heard a = true ∧ heard ontime = true ∧
    (({ old with gate := true } : State).flushTx 95).gate = true ∧ (old.flushTx 95).gate = false ∧ old.flushTx 95 = old ∧
    ({ (s.link 95).tx with cur := [0], hdr := some 0 } : LinkTx).ride (.pkt rd) = some 0 ∧ (s.link 95).tx.ride (.pkt rd) = none ∧ (s.link 95).tx.ride e.slot = none ∧ (s.link 95).tx.roomFor e.slot.flits = true ∧
    (s.link 95).tx.cur.length ≤ 9 ∧ ((up id).link 95).rx.stopped = false ∧ ((up id).link 95).rx.nak = false ∧
    (old.link 95).rx.nak = true ∧ (old.link 95).rx.nakAt + us ≤ old.time.now ∧ (old.link 95).tx.resentOut = true ∧ (old.link 95).frames = true ∧ 0 < (old.link 95).tx.outstanding ∧ (old.link 95).tx.ackAt + 4 * us < old.time.now ∧
    s.gate = false ∧ (s.link 95).usable = true ∧ (s.link 95).tx.replayTo ≤ s.time.now ∧ (s.link 95).handoff = none ∧ (s.flushTx 95).link 95 = s.link 95 ∧
    (match ({ (s.link 95).tx.arb with waiting := s.egressHeads 95 } : Arb).winner 16 with
      | some w => (s.link 95).tx.q.find? (fun e => e.rank == w.1) == some e
      | none => false) = true ∧
    (match r.takeRx 95 (fun x => match x with
        | .ident _ => true
        | _ => false) with
      | some (.ident b, u) => decide (b = 7 ∧ u.cfg.image = none)
      | _ => false) = true ∧
    (let k := { Link.reset with state := 2, phase := 3, identAt := 0 }; k.state = 2 ∧ k.phase = 3 ∧ k.identGot = false ∧ k.identAt + 10 * us ≤ 10 * us) := by
  decide +kernel

/-- The bits of zero leave the CRC register at zero, and the last bit of a frame gives the generator (R250). -/
theorem crcBits_zero : ∀ n hi : Nat, crcBits 0 n hi 0 = 0
  | 0, _ => rfl
  | n + 1, hi => by
    have h : crcBit 0 (bitAt 0 (hi - 1)) = 0 := by simp [bitAt, crcBit]
    rw [crcBits, h]
    exact crcBits_zero n _

/-- A frame of empty slots with CRC 0 is a good one (R250, R261). -/
theorem test_frame_crc : frameCrc 0 = fld 0 5134 5120 ∧ fld 0 5138 5135 = 0 ∧ bitAt 0 5139 = false := by
  refine ⟨?_, by decide +kernel, by decide +kernel⟩
  rw [frameCrc, crcBits_zero, crcBits_zero]
  decide +kernel

theorem witness_HandoffMovesTheTraffic :
    let base := (pkgIn psConf (21 * us)).setLink 0 { Link.reset with state := 5, farPort := 9, sch := some 3, handoff := some (7, 0) }
    let far := base.setLink 2 { Link.reset with state := 3, handoff := some (7, 2 * us) }
    let pick := fun (f : Slot → Bool) (x : Slot) => (far.setLink 7 { Link.reset with state := 6, rx := { Link.reset.rx with q := [x] } }).takeRx 7 f
    (far.link 7).frames = false ∧ ((far.setLink 7 { Link.reset with state := 6 }).link 7).frames = true ∧
    (match pick (fun x => match x with
        | .handoffReq _ => true
        | _ => false) (.handoffReq 9) with
      | some (.handoffReq n, u) => decide (u.linkOfFar 7 n = some 0 ∧ (u.link 0).sch = some 3 ∧ u.spareReady 0 = true ∧ 7 = 8 * (0 / 8) + (u.octet 0).spareIdx)
      | _ => false) = true ∧
    (match pick (fun x => match x with
        | .handoffRsp _ _ => true
        | _ => false) (.handoffRsp 2 0) with
      | some (.handoffRsp n _, u) => decide ((u.link n).handoff = some (7, 2 * us) ∧ n ≠ 7 ∧ u.gate = false ∧ u.time.now ≤ 2 * us + 20 * us)
      | _ => false) = true ∧
    (base.link 0).handoff = some (7, 0) ∧ 0 + 20 * us < base.time.now ∧ ((pick (fun x => x == .retrain) .retrain).map fun x => x.1) = some .retrain := by
  decide +kernel

theorem witness_LinksTrain :
    let s := fun (f : Link → Link) => (pkgIn psConf (2000 * ms)).setLink 8 (f Link.reset)
    let down := s fun k => { k with retryAt := some (2000 * ms) }
    let oct := (s fun k => { k with state := 5 }).setLink 15 { Link.reset with state := 6 }
    (down.link 8).state = 0 ∧ down.linkUnused 8 = false ∧ down.st.trainMode ≠ 1 ∧
    (let k := { Link.reset with phase := 4 }; k.phase ≠ 0 ∧ k.fast = false ∧ (k.phaseNow (2000 * ms)).2 + phaseBound (k.phaseNow (2000 * ms)).1 < 2000 * ms) ∧
    (let k := { Link.reset with state := 1, lane1 := true, lane0 := true }; k.state = 1 ∧ k.fast = false ∧ k.lane1 = true ∧ k.lane0 = true) ∧
    (let k := { Link.reset with state := 2, phase := 4 }; k.state = 2 ∧ k.phase = 4 ∧ k.tx.credit.any (fun c => c != 0) = false ∧ { k.tx with credit := [9, 0, 0, 0, 0, 0] }.credit.any (fun c => c != 0) = true ∧ down.cfg.image = none) ∧
    (let k := { Link.reset with state := 1, fast := true, fastAt := 2000 * ms - 100 * us }; k.fastAt + 100 * us = 2000 * ms ∧ k.sch = none) ∧
    (let k := { Link.reset with state := 1, fast := true }; k.fastAt + 100 * us < 2000 * ms) ∧
    (oct.link 8).state = 5 ∧ (oct.link 8).degAt + 1000 * ms ≤ oct.time.now ∧ (oct.octet 1).spare ≠ 0xFE ∧ (oct.link (8 + (oct.octet 1).spareIdx)).state = 6 ∧ (oct.link 15).claim ≠ 2 := by
  decide +kernel

/-! ### The host side and the commands of the mailboxes -/

theorem witness_HostPortComplete :
    let s := { pkgIn psConf 0 with h := { HostSt.reset with cfgReady := true, perst := false, linkUp := true } }
    { s with pkg := { s.pkg with hPower := true } }.portUp = true ∧ s.h.perst = false ∧ bestOf [128, 64, 32] 64 = some 64 ∧ bestOf [16, 8, 4] 4 = some 4 ∧ s.h.linkUp = true ∧
    0xFFFC % 4 = 0 ∧ 0xFFFC < 0x10000 ∧ (s.ch 15).claim = 1 := by
  decide +kernel

theorem witness_HostMemoryAndMirrorComplete :
    let s := { pkgIn psConf (4 * ms) with
      h := { HostSt.reset with linkUp := true, cxl := true, hdmCommit := true, hdmBase := 0x1000, hdmSize := 0x1000, mbx := [(5, { Mbx.reset with regs := [(0, 0)] })] } }
    let t := { s with pkg := { s.pkg with lakeTrained := true } }
    s.h.linkUp = true ∧ 0xFFFF00 + 256 ≤ 0x1000000 ∧ 0xFFFF00 / 256 = (0xFFFF00 + 256 - 1) / 256 ∧ bar2Backed 0xFFFF00 = true ∧ bar2Backed 0xFFFF = true ∧ bar2Backed 0x10000 = false ∧
    t.hdmAddr 0x1FFF = some 0xFC0 ∧ (t.lakeStrike []).hdmAddr 0x1000 = some 0 ∧ ((t.lakeStrike []).lakeWords 0 16).any Ecc.isDbe = false ∧ t.pkg.lakeTrained = true ∧ s.booted = true ∧
    (64 % 65536 + 65536 - (s.mbx 3).prod) % 65536 = ((s.mbx 3).cons + 64 + 65536 - (s.mbx 3).prod) % 65536 ∧ s.h.smEn = false ∧ { s.h with smEn := true }.smEn = true ∧
    s.pkg.mordRuns = true ∧ s.fw.act < 3 ∧ s.h.beatAt + ms ≤ s.time.now ∧
    (let u := { s with h := { s.h with ram := Mem.store [] (i3cSlot + 12) [1#8] } }
     u.headReg 5 = some (0, 0) ∧ u.mbxRuns = true ∧ (u.mbx 5).handover = false ∧ u.expired 5 0 = true) := by
  decide +kernel

theorem leBytes_length : ∀ n v : Nat, (leBytes n v).length = n
  | 0, _ => rfl
  | n + 1, v => by simp [leBytes, leBytes_length n]

theorem kRounds_length : ∀ (n r : Nat) (a : List Dword), a.length = 25 → (kRounds n r a).length = 25
  | 0, _, _, h => h
  | n + 1, _, _, _ => kRounds_length n _ _ (by simp [kChi, kMake])

theorem keccakF_length {a : List Dword} (h : a.length = 25) : (keccakF a).length = 25 := kRounds_length 24 1 a h

theorem kAbsorbAll_length : ∀ (n : Nat) (a : List Dword) (m : List Byte), a.length = 25 → (kAbsorbAll n a m).length = 25
  | 0, _, _, h => h
  | n + 1, _, m, _ => kAbsorbAll_length n _ (m.drop 136) (keccakF_length (by simp))

theorem kBytes_length (a : List Dword) : (kBytes a).length = 8 * a.length := by
  induction a with
  | nil => rfl
  | cons x r ih =>
    have e : kBytes (x :: r) = leBytes 8 x.toNat ++ kBytes r := rfl
    simp only [e, List.length_append, leBytes_length, ih, List.length_cons]
    omega

/-- The tag of a datagram has 16 bytes (R316). -/
theorem dgramTag_length (key body : List Byte) : (dgramTag key body).length = 16 := by
  simp [dgramTag, kmac256, sponge, kSqueeze, kBytes_length, kAbsorbAll_length]

/-- A datagram of a type in key slot 1 with counter 1, for index 0, before its tag. -/
def untagged (type_ : Nat) : List Byte := dgramHead type_ 1 1 9 0 0 ++ zeros 256

/-- The same with its tag. -/
def datagram (type_ : Nat) : List Byte := untagged type_ ++ dgramTag (zeros 32) (untagged type_)

theorem leAt_datagram {type_ off n : Nat} (h : off + n ≤ 280) : leAt (datagram type_) off n = leAt (untagged type_) off n := by
  have l : (untagged type_).length = 280 := by simp only [untagged, dgramHead, zeros, List.length_append, leBytes_length, List.length_replicate]
  unfold leAt datagram
  rw [List.drop_append_of_le_length (by omega), List.take_append_of_le_length (by simp [l]; omega)]

def keyed : State :=
  { pkgIn psConf 4000000000 with pid := 9, cfg := { Cfg.reset with flashIp := 1 }, m := { Mgmt.reset with keys := [(1, ⟨zeros 32, 0, 0⟩)], i3cAddr := some 8, i3cReady := true } }

/-- A datagram with a right tag passes the checks of R317. -/
theorem datagram_good {type_ : Nat} (h : type_ = 1 ∨ type_ = 3) : keyed.dgramBad (datagram type_) = 0 := by
  have l : (untagged type_).length = 280 := by simp only [untagged, dgramHead, zeros, List.length_append, leBytes_length, List.length_replicate]
  have e : leAt (untagged type_) 22 2 = 0 ∧ leAt (untagged type_) 0 4 = 0x39594C4D ∧ leAt (untagged type_) 4 1 = 1 ∧ (leAt (untagged type_) 5 1 = 1 ∨ leAt (untagged type_) 5 1 = 3) ∧
      leAt (untagged type_) 16 4 = 9 ∧ leAt (untagged type_) 6 2 = 1 ∧ leAt (untagged type_) 8 8 = 1 := by
    rcases h with h | h <;> subst h <;> decide +kernel
  obtain ⟨e1, e2, e3, e4, e5, e6, e7⟩ := e
  have t : (datagram type_).take 280 = untagged type_ := by rw [datagram, List.take_append_of_le_length (by omega), ← l, List.take_length]
  have d : (datagram type_).drop 280 = dgramTag (zeros 32) (untagged type_) := by rw [datagram, ← l, List.drop_left]
  have n : (datagram type_).length = 296 := by simp [datagram, l, dgramTag_length]
  have k : keyed.keySlot 1 = some ⟨zeros 32, 0, 0⟩ := rfl
  have p : keyed.pid = 9 := rfl
  simp only [State.dgramBad, leAt_datagram (type_ := type_) (off := 22) (n := 2) (by omega), leAt_datagram (type_ := type_) (off := 0) (n := 4) (by omega),
    leAt_datagram (type_ := type_) (off := 4) (n := 1) (by omega), leAt_datagram (type_ := type_) (off := 5) (n := 1) (by omega), leAt_datagram (type_ := type_) (off := 16) (n := 4) (by omega),
    leAt_datagram (type_ := type_) (off := 6) (n := 2) (by omega), leAt_datagram (type_ := type_) (off := 8) (n := 8) (by omega), e1, e2, e3, e5, e6, e7, t, d, n, k, p]
  rcases e4 with e4 | e4 <;> simp [e4]

theorem witness_DatagramsAndI3cComplete :
    let s := keyed
    let a := { inRun (30001 * ms) with m := { Mgmt.reset with mgrFrom := some 0 }, cfg := { Cfg.reset with image := some { image with mgr := true } } }
    (s.dgramBad (datagram 1) = 0 ∧ s.dgramBad (datagram 3) = 0 ∧ leAt (datagram 1) 5 1 = 1 ∧ leAt (datagram 3) 5 1 = 3 ∧ leAt (datagram 1) 20 2 = 0) ∧
    s.mmbOn = true ∧ s.dgramBad [] = 1 ∧ (s.mbx 4).prod = 0 ∧ s.booted = true ∧ s.m.i3cAddr ≠ none ∧ s.m.i3cPending = false ∧ s.m.i3cReady = true ∧ s.i3cPresent = false ∧
    (a.cfg.image.map fun im => im.mgr) = some true ∧ a.m.mgrFrom ≠ none ∧ a.m.mgrFired ≠ some a.absentFrom ∧ a.pkg.watchStall = false ∧ watchCycle a.absentDue < watchCycle a.time.now := by
  refine ⟨⟨datagram_good (.inl rfl), datagram_good (.inr rfl), ?_, ?_, ?_⟩, by decide +kernel⟩
  · rw [leAt_datagram (by decide)]; decide +kernel
  · rw [leAt_datagram (by decide)]; decide +kernel
  · rw [leAt_datagram (by decide)]; decide +kernel

theorem witness_ConfigurationCommandsAnswer :
    let s := { inRun 0 with ctx := Ctx.reset }
    let un := { s with cfg := Cfg.reset }
    (([0, 4, 5].all fun mb => runs s mb (Cmd.fixed 0x0101 0 [1, 2, 3] false []) [] none (fun _ r => !r.staged) && runs s mb (Cmd.fixed 0x0102 0 [1, 2, 3] false []) [] none (fun _ r => !r.staged)) &&
    runs s 3 (Cmd.fixed 0x0201 8 [1] true []) (leBytes 4 0 ++ leBytes 4 0x400000) (some [1#8, 2#8, 3#8]) (fun u r =>
      r.f 0 4 == 0 && r.f 4 4 == 0x400000 && decide (r.f 0 4 + r.data.length ≤ r.f 4 4) && u.cfg.buf.length == 0) &&
    runs un 0 (Cmd.fixed 0x0202 4 [1] false []) (leBytes 4 0) none (fun u r => !r.staged && !u.ctx.accepted && decide (r.f 0 4 ≤ u.cfg.buf.length)) &&
    runs s 0 (Cmd.fixed 0x0203 0 [1] false []) [] none (fun u r => !r.staged && u.cfg.image.isSome) &&
    runs s 0 (Cmd.fixed 0x0204 0 [1] false []) [] none (fun u r => !r.staged && !u.ctx.accepted) &&
    runs s 0 (Cmd.fixed 0x0205 8 [1] false [(6, 2)]) (leBytes 2 2 ++ leBytes 2 95 ++ leBytes 4 0) none (fun u r =>
      !r.staged && u.cfg.image.isSome && !u.ctx.accepted && r.f 0 2 != 1 && r.f 4 2 == 0 && resExists (r.f 0 2) (r.f 2 2))) = true := by
  decide +kernel

theorem witness_ContextCommandsAnswer :
    let s := inRun 0
    let c := { pkgIn psConf 0 with time := { TimeSt.reset with tstate := 2 } }
    let w := { s with seq := { Seq.reset with table := [(1023, zeros 128)] } }
    let a := { s with seq := { Seq.reset with runActive := true } }
    let p := fun (x : Pkt) => (withPkt s { x with inHub := true, arrived := true }).takeLoad
    let ld := { s with ld := { Loader.reset with active := true, waiting := [3] } }
    let d := { ld with ld := { ld.ld with written := true }, time := { s.time with now := 101 * ms } }
    (runs c 3 (Cmd.fixed 0x0301 8 [1] false [(6, 2)]) (leBytes 4 (2 ^ 32 - 2 ^ 16 - 2) ++ leBytes 2 0xFFFF ++ leBytes 2 0) none (fun u r => !r.staged && !u.genBad r 4 && u.acceptStatus (r.f 0 4) == 0) &&
    runs s 0 ⟨0x0302, fun _ p => p.length == 80, [1], true, fun p => decide (leAt p 4 4 < 2)⟩ (leBytes 2 1 ++ leBytes 2 4095 ++ leBytes 4 1 ++ leBytes 72 (2 ^ 575)) (some (zeros 64)) (fun u r =>
      !s.ld.active && !u.genBad r 0 && u.ctxLive && r.data.length == 64 && r.f 2 2 + r.data.length / 64 == 4096 && r.f 8 72 != 0) &&
    runs s 0 (Cmd.fixed 0x0303 4 [1] true []) (leBytes 2 1 ++ leBytes 2 1023) (some (zeros 128)) (fun u r =>
      !u.genBad r 0 && u.ctxLive && !u.seq.runActive && r.data.length == 128 && r.f 2 2 + r.data.length / 128 == 1024) &&
    runs w 0 ⟨0x0304, fun st p => if st then p.length == 4 else p.length == 4 + 2 * leAt p 2 2, [1], true, fun _ => true⟩ (leBytes 2 1 ++ leBytes 2 1 ++ leBytes 2 1023) none (fun u r =>
      !u.genBad r 0 && u.ctxLive && !u.seq.runActive && u.shown != psHold && r.f 2 2 == 1 && r.runList.all (fun i => decide (i < 1024) && Tab.has u.seq.table i)) &&
    runs a 0 (Cmd.fixed 0x0305 4 [1] false [(2, 2)]) (leBytes 2 1 ++ leBytes 2 0) none (fun u r => !r.staged && !u.genBad r 0 && u.seq.runActive) &&
    runs s 0 (Cmd.fixed 0x0306 4 [1] false [(2, 2)]) (leBytes 2 1 ++ leBytes 2 0) none (fun u r => !u.genBad r 0 && u.ctxLive) &&
    runs s 0 (Cmd.fixed 0x0307 4 [1] false [(2, 2)]) (leBytes 2 1 ++ leBytes 2 0) none (fun u r => !u.genBad r 0 && u.ctxLive && !u.seq.runActive) &&
    ([0, 4].all fun mb => runs s mb (Cmd.fixed 0x0308 4 [1, 2] false [(2, 2)]) (leBytes 2 1 ++ leBytes 2 0) none (fun u r => !r.staged && !u.genBad r 0)) &&
    (p (packet 0x03 loaderBase (.link 0 0 0 0 false) (.hub 0)) false).isSome &&
    (match p { packet 0x20 0 .loader (.hub 0) with tag := loaderTag 7 } false with
      | some (q, _) => q.asker == .loader && q.kind == 0x20 && q.tag != loaderTag 8
      | none => false) &&
    (match (withPkt ld { packet 0x03 (loaderBase + 0x40080 + 16 * 3) (.link 0 0 0 0 false) (.hub 0) with inHub := true, arrived := true, words := 4, data := [0, 0, 0, 0] }).takeLoad true with
      | some (q, u) => (q.addr - loaderBase - 0x40080) / 16 == 3 && u.ld.active && u.ld.waiting.contains 3 && leAt (bytesOfWords q.data) 0 4 == u.ld.f 0 4 && !u.ld.written
      | none => false) &&
    d.ld.active && d.ld.written && decide (watchCycle (d.ld.wroteAt + 100 * ms) < watchCycle d.time.now)) = true := by
  decide +kernel

theorem witness_PowerAndTimeCommandsAnswer :
    let s := { inRun 0 with m := { Mgmt.reset with holders := [holdBit 2] }, time := { TimeSt.reset with tstate := 5 } }
    let n := { s with ctx := Ctx.reset }
    (([0, 4].all fun mb =>
      runs s mb (Cmd.fixed 0x0401 4 [1, 2] false [(2, 2)]) (leBytes 4 2800) none (fun _ r => !r.staged && r.f 0 2 == 2800) &&
      runs s mb (Cmd.fixed 0x0401 4 [1, 2] false [(2, 2)]) (leBytes 4 1200) none (fun _ r => r.f 0 2 == 1200) &&
      runs s mb (Cmd.fixed 0x0405 4 [1, 2] false [(1, 3)]) (leBytes 4 1) none (fun _ r => !r.staged && r.f 0 1 == 1) &&
      runs s mb (Cmd.fixed 0x0501 0 [1, 2] false []) [] none (fun _ r => !r.staged) &&
      runs s mb (Cmd.fixed 0x0502 8 [1, 2] false []) (leBytes 8 (2 ^ 64 - 1)) none (fun u r => !r.staged && u.time.tstate == 5) &&
      runs s mb (Cmd.fixed 0x0504 0 [1, 2] false []) [] none (fun _ r => !r.staged)) &&
    ([0, 4, 5].all fun mb =>
      runs s mb (Cmd.fixed 0x0402 0 [1, 2, 3] false []) [] none (fun _ r => !r.staged) && runs s mb (Cmd.fixed 0x0406 0 [1, 2, 3] false []) [] none (fun _ r => !r.staged)) &&
    ([4, 5].all fun mb => runs s mb (Cmd.fixed 0x0403 0 [2, 3] false []) [] none (fun _ r => !r.staged)) &&
    runs s 4 (Cmd.fixed 0x0404 0 [2, 3] false []) [] none (fun u r => !r.staged && u.m.holders.contains (holdBit r.party)) &&
    runs n 0 (Cmd.fixed 0x0503 4 [1] false [(2, 2)]) (leBytes 4 32767) none (fun u r => !r.staged && u.cfg.image.isSome && r.f 0 2 == 32767 && !u.ctx.accepted)) = true := by
  decide +kernel

theorem witness_SpareAndReportCommandsAnswer :
    let s := inRun 0
    let im := { s with cfg := { Cfg.reset with image := some { image with spareEn := 3 } }, spr := { Spr.reset with role := 1, group := 7 } }
    let bindC : Cmd := ⟨0x0601, fun _ p => p.length == 8 + 8 * leAt p 2 2, [2], false,
      fun p => (List.range (leAt p 2 2)).all (fun j => zeroAt p (15 + 8 * j) 1) && (leAt p 1 1 != 0 || leAt p 4 4 == 0)⟩
    (runs im 4 bindC (leBytes 1 7 ++ leBytes 1 0 ++ leBytes 2 1 ++ leBytes 4 0 ++ leBytes 4 5 ++ leBytes 2 3 ++ leBytes 2 17) none (fun u r => !r.staged && u.bindStatus r == 0) &&
    runs im 4 (Cmd.fixed 0x0602 4 [2] false [(1, 3)]) (leBytes 4 7) none (fun u r => !r.staged && u.spr.role != 0 && u.spr.state != 3 && r.f 0 1 == u.spr.group) &&
    ([0, 4].all fun mb => runs s mb (Cmd.fixed 0x0603 0 [1, 2] false []) [] none (fun _ r => !r.staged)) &&
    runs im 0 ⟨0x0604, fun _ p => p.length == 4 + 16 * leAt p 2 2, [1], false, fun _ => true⟩ (leBytes 2 1 ++ leBytes 2 1 ++ leBytes 8 0x1000 ++ leBytes 8 (lakeEnd - 0x1000)) none (fun u r =>
      !r.staged && !u.genBad r 0 && u.spr.role == 1 && u.mirrorEn && !u.spr.copying && r.regionList.length == 1 && r.regionList.all regionOk && decide (regionTotal r.regionList ≤ lakeEnd)) &&
    runs im 0 (Cmd.fixed 0x0605 4 [1] false [(2, 2)]) (leBytes 4 1) none (fun u r => !r.staged && !u.genBad r 0 && u.spr.role == 1 && u.mirrorEn && !u.spr.copying) &&
    runs s 0 (Cmd.fixed 0x0801 40 [1, 2] true [(36, 4)]) (zeros 32 ++ leBytes 4 50367 ++ zeros 4) (some []) (fun _ r => decide (r.f 32 4 < reportLen)) &&
    runs s 0 (Cmd.fixed 0x0802 4 [1, 2] true []) (leBytes 4 100111) (some []) (fun _ r => decide (r.f 0 4 < blobLen)) &&
    runs s 0 (Cmd.fixed 0x0803 36 [1, 2] false [(1, 3)]) (leBytes 4 3 ++ zeros 32) none (fun u r => !r.staged && r.f 0 1 == 3 && !Tab.has u.m.keys (r.f 0 1)) &&
    runs s 4 (Cmd.fixed 0x0804 4 [2] false [(1, 3)]) (leBytes 4 3) none (fun u r => !r.staged && r.f 0 1 == 3 && !Tab.has u.m.keys (r.f 0 1)) &&
    runs s 0 (Cmd.fixed 0x0901 12 [1, 2] true [(1, 3), (10, 2)]) (leBytes 4 3 ++ leBytes 4 0 ++ leBytes 4 7) none (fun _ r => !r.staged && r.f 0 1 == 3) &&
    runs s 0 (Cmd.fixed 0x0901 12 [1, 2] true [(1, 3), (10, 2)]) (leBytes 4 3 ++ leBytes 4 0 ++ leBytes 4 7) (some []) (fun _ r => r.staged && decide (0 ≤ r.cap)) &&
    runs s 0 (Cmd.fixed 0x0902 12 [1, 2] false [(10, 2)]) (leBytes 8 (0x1F082002000 - 4 * 56) ++ leBytes 4 56) none (fun _ r =>
      !r.staged && r.f 0 8 % 4 == 0 && r.f 8 2 == 56 && regRanges.any (fun x => decide (x.1 ≤ r.f 0 8 ∧ r.f 0 8 + 4 * r.f 8 2 ≤ x.2)))) = true := by
  decide +kernel

/-! ### Firmware, debug, teardown, power, pins, spares -/

theorem shake_length (m : List Byte) : (shake256 m 4).length = 4 := by
  simp [shake256, sponge, kSqueeze, kBytes_length, kAbsorbAll_length]

/-- A staging of one byte, with the digest that its manifest holds, and an image of two chunks. -/
def staging (manifest : List Byte) (len : Nat) : State :=
  { pkgIn psConf 0 with fw := { Fw.reset with staging := true, stageLen := len, manifest := manifest } }

/-- A whole chunk whose digest its manifest holds, and one whose digest it does not (R444). -/
theorem witness_FirmwareStagingCompletes_digest :
    let b := (List.range (partCount 1 0)).flatMap (fun i => Tab.get [] (Tab.set [] (0 * 64 + 0) [1#8]) (0 * 64 + i))
    b = [1#8] ∧ shake256 [1#8] 4 = ((staging (shake256 [1#8] 4) 1).fw.manifest.drop (4 * 0)).take 4 ∧ shake256 [1#8] 4 ≠ ((staging [] 1).fw.manifest.drop (4 * 0)).take 4 := by
  refine ⟨by decide +kernel, ?_, ?_⟩
  · show shake256 [1#8] 4 = (shake256 [1#8] 4).take 4
    rw [List.take_of_length_le (by simp [shake_length])]
  · intro h
    have := congrArg List.length h
    rw [shake_length] at this
    simp [staging] at this

/-- The clauses on an image with a good signature (an opaque value of `Config`, log entry 15) have no closed witness here. -/
theorem witness_FirmwareStagingCompletes :
    let s := pkgIn psConf 0
    let t := { s with m := { s.m with reqKey := [(0, mmbNote 0 1024 0)] } }
    let c := { staging [] 1 with m := { s.m with reqKey := [(0, mmbNote 0 1 0)] } }
    (runs t 4 (Cmd.fixed 0x0701 72 [2] true []) (leBytes 4 fwMax ++ leBytes 4 256 ++ zeros 64) (some (zeros 1024)) (fun u r =>
        u.fw.act == 0 && decide (r.f 0 4 ≤ fwMax) && r.f 4 4 == fwChunks (r.f 0 4) && r.data.length == 4 * fwChunks (r.f 0 4) && !u.fw.staging) &&
      runs c 4 (Cmd.fixed 0x0702 4 [2] true [(3, 1)]) (leBytes 2 0 ++ leBytes 2 0) (some [1#8]) (fun u r =>
        u.fw.act == 0 && u.fw.staging && !u.fw.erasing && decide (r.f 0 2 < fwChunks u.fw.stageLen) && r.f 2 1 == 0 && r.data.length == partLen u.fw.stageLen 0 0 &&
          !Tab.has u.fw.chunks 0 && !(List.range (partCount u.fw.stageLen 0)).any (fun i => !Tab.has (Tab.set u.fw.parts 0 r.data) i)) &&
      ([0, 4].all fun mb => runs s mb (Cmd.fixed 0x0703 0 [1, 2] false []) [] none (fun _ r => !r.staged)) &&
      runs s 4 (Cmd.fixed 0x0704 0 [2] false []) [] none (fun u r => !r.staged && u.activateStatus == 0x0701) &&
      runs { s with fw := { Fw.reset with act := 1 } } 0 (Cmd.fixed 0x0705 4 [1] false []) (leBytes 4 86400) none (fun u r =>
        !r.staged && u.fw.act == 1 && !u.fw.leaseUsed && r.f 0 4 == 86400)) = true := by
  decide +kernel

/-- Boot and handover records whose digests hold (R441, R450). -/
theorem witness_FirmwareHandsOverAndRollsBack_records :
    (∀ slot seq, (BootRec.mk slot seq (bootDigest slot seq)).good = true) ∧ (∀ d, (HandRec.mk [] [1] [1600] [d] (shake256 (Config.recordBytes [1, 1600, d]) 64)).good = true) ∧
    ({ Fw.reset with act := 3, record := some (State.handRecord State.reset) } : Fw).act = 3 ∧ (State.handRecord State.reset).good = true := by
  have h : ∀ m, (shake256 m 64).length = 64 := fun m => by simp [shake256, sponge, kSqueeze, kBytes_length, kAbsorbAll_length]
  refine ⟨fun slot seq => ?_, fun d => by simp [HandRec.good], rfl, by simp [State.handRecord, HandRec.good]⟩
  have e : bootDigest slot seq ≠ [] := fun e => by have := h (leBytes 1 slot ++ leBytes 4 seq); rw [← bootDigest, e] at this; simp at this
  simp [BootRec.good, e]

theorem witness_FirmwareHandsOverAndRollsBack :
    let s := pkgIn psConf (60000 * ms)
    let b := { s with time := { s.time with now := 60001 * ms }, fw := { Fw.reset with act := 1, prepared := true } }
    let h := { s with fw := { Fw.reset with act := 6, run := Fw.reset.active }, h := { s.h with beatAt := 59999 * ms } }
    (∀ n, n < 6 → (s.mbx n).busy = false ∧ (s.mbx n).ghost = none) ∧ h.beatStood = false ∧ h.fw.selfAt + 60000 * ms = h.time.now ∧ s.fw.recs.length = 2 ∧ s.fw.bootSeq + 1 < 2 ^ 32 ∧
    (State.reset.atBoundary = true ∧ State.reset.pkg.watchStall = false) ∧ watchCycle b.fw.beginsAt < watchCycle b.time.now ∧ b.shown ≠ psBoot ∧ b.shown ≠ psTrain ∧ b.shown ≠ psTear ∧ b.spr.state ≠ 3 ∧ b.ld.active = false ∧
    (List.range 6).any (fun n => (b.mbx n).busy) = false ∧ s.pkg.watchStall = false ∧ s.fw.selfAt + 60000 * ms = s.time.now ∧ s.fw.fail = 0 ∧ s.booted = true ∧
    s.fw.run = s.fw.active ∧ s.fw.runAt + 60000 * ms = s.time.now ∧ s.fw.act ≠ 6 ∧ s.fw.act ≠ 7 := by
  decide +kernel

theorem witness_ScopesAndPerturbationsComplete :
    let s := { pkgIn psConf 0 with pert := { Pert.reset with strapLow := true } }
    let on := { s with pert := { s.pert with asks := [⟨1, 1, 60, 0⟩], pertEnd := some 4000 } }
    let en : Cmd := ⟨0x0A01, fun _ p => p.length == 8, [1, 2], false, fun p => leAt p 0 1 / 4 == 0 && zeroAt p 1 3⟩
    let dis : Cmd := ⟨0x0A02, fun _ p => p.length == 4, [1, 2], false, fun p => leAt p 0 1 / 4 == 0 && zeroAt p 1 3⟩
    let f := { s with pert := { s.pert with eff := [(12, 8)], regs := [(8, 1), (11, 1)], shedEnd := some 0, pertEnd := some 0, shedNew := true } }
    (([1, 86400].all fun n => runs s 0 en (leBytes 4 1 ++ leBytes 4 n) none (fun u r => !r.staged && u.pert.strapLow && r.f 0 1 == 1 && r.f 4 4 == n && u.pert.pertEnd.isNone)) &&
    runs s 4 en (leBytes 4 1 ++ leBytes 4 86400) none (fun u r => !r.staged && r.party == 2 && u.pert.strapLow) &&
    runs on 0 dis (leBytes 4 3) none (fun _ r => !r.staged && r.f 0 1 != 0) &&
    runs on 0 (Cmd.fixed 0x0A03 8 [1, 2] false [(2, 2)]) (leBytes 4 1 ++ leBytes 4 (95 + 1000 * 2 ^ 7)) none (fun u r =>
      !r.staged && r.f 0 2 == 1 && u.pertScope (u.regTime 0) && u.pert.strapLow && u.pertValueOk (r.f 0 2) (r.f 4 4) && (u.pertClash (r.f 0 2) (r.f 4 4)).isNone) &&
    runs on 0 (Cmd.fixed 0x0A04 4 [1, 2] false [(2, 2)]) (leBytes 4 12) none (fun _ r => !r.staged && r.f 0 2 == 12)) = true ∧
    (on.askOf 1 0).isSome = true ∧ f.atBoundary = true ∧ f.pert.shedNew = true ∧ s.atBoundary = true ∧ s.pert.shedNew = false ∧ { s.pert with shedNew := true }.shedNew = true ∧ bitAt (Tab.get 0 f.pert.regs 8) 0 = true ∧ bitAt (Tab.get 0 f.pert.regs 11) 0 = true ∧ s.timerEn = false ∧
    bitAt (Tab.get 0 s.pert.regs 8) 0 = false ∧ f.timerEn = true ∧ f.pert.shedEnd = some f.time.now ∧ f.pert.pertEnd = some f.time.now ∧ f.pert.debugEnd = none := by
  decide +kernel

theorem witness_JtagAndDebugAccessComplete :
    let s := { pkgIn psStandby 0 with pert := { Pert.reset with strapLow := true }, jtag := { Jtag.reset with ir := 0x10 } }
    let on := { s with pert := { s.pert with debugEnd := some 4000 } }
    let win := { inRun 0 with pert := { Pert.reset with strapLow := true, debugEnd := some 4000 }, jtag := { Jtag.reset with ir := 0x10 } }
    win.dapWindow (0x18000000000 / 4 % 2 ^ 39 * 4) = some (0, 0, 0) ∧ lakeEnd ≤ 0x18000000000 / 4 % 2 ^ 39 * 4 ∧ 0x18000000000 / 4 % 2 ^ 39 * 4 < regBase ∧ win.debugOn = true ∧ win.jtag.access = none ∧
    s.pkg.under ≠ psOff ∧ State.reset.pkg.under = psOff ∧ s.jtag.access = none ∧ on.jtag.access = none ∧ s.jtagFree = true ∧ (pkgIn psConf 0).jtagFree = false ∧ s.jtag.ir = 0x10 ∧ s.debugOn = false ∧ on.debugOn = true ∧
    regBase ≤ 0x1F070000014 / 4 % 2 ^ 39 * 4 ∧ regWritable 0x1F070000014 = true ∧ regWritable 0x1F070000010 = false ∧ (lakeEnd - 4) / 4 % 2 ^ 39 * 4 < lakeEnd := by
  decide +kernel

theorem witness_KillsAndTeardownComplete :
    let s := inRun 0
    let k := { s with ctx := { s.ctx with killing := true, phase := 1, gen := 0xFFFD } }
    let z := { s with ctx := { s.ctx with killing := true, phase := 4, lakeLeft := [7] } }
    let m : Mgt := ⟨2, true, 0, 0x7FFF, 3, 1, 77 + 11 * 2 ^ 32⟩
    let d : Defect := ⟨0, 1, 8, 0, 0⟩
    { s.ctx with killDue := 1 }.killDue ≠ 0 ∧ k.ctx.killing = true ∧ k.ctx.phase = 1 ∧ k.ctx.warm = 0 ∧ k.ctx.gen + 1 < 0xFFFF ∧
    (match (rxSlot { s with pid := 9 } 95 (.mgt m)).takeRx 95 (isMgt 2) with
      | some (.mgt x, u) => decide (x = m ∧ u.ctx.relayed.contains (fld m.arg 31 0, m.gen, fld m.arg 50 32) = false ∧ u.ctx.genLive = true ∧ m.gen = u.ctx.gen ∧
          fld m.arg 31 0 = u.ctx.id ∧ fld m.arg 50 32 ≠ u.pid ∧ u.ctx.killDue = 0)
      | _ => false) = true ∧
    { k.ctx with phase := 3 }.killing = true ∧ z.ctx.glazeZeroed = false ∧ z.ctx.tileZeroed = false ∧ z.ctx.lakeLeft.contains 7 = true ∧ s.pkg.mordRuns = true ∧ s.booted = true ∧
    (let u := withReq (pkgIn psConf 0) 0 0x0001 [] none
     { u.pkg with mordBack := some (200 * ms), bootOk := true }.mordBack = some (200 * ms) ∧ u.headReg 0 = some (0, 0)) ∧ (State.reset.setStack 7 { Stack.reset with palCache := [] }).stack 7 = Stack.reset ∧ ((s.stack 7).awake = true) ∧
    [d].any d.same = true ∧ (List.replicate 4095 { d with kind := 2 }).length < 4096 := by
  decide +kernel

theorem witness_ControlPeriodSetsLimitAndFractions :
    let s := pkgIn psConf (60000 * ms)
    let r := { s with pw := { Power.reset with rampAt := some (60000 * ms), capHw := 1200 } }
    s.pw.periodAt + 100 * us ≤ s.time.now ∧ s.pkg.watchStall = false ∧ s.pw.winAt + 100 * ms ≤ s.time.now ∧ r.pw.rampAt = some r.time.now ∧ r.rampHeld = false ∧ r.pw.rampLow = false ∧ r.pkg.watchStall = false ∧ { s.pkg with watchStall := true }.watchStall = true ∧
    s.pw.binAt + 60000 * ms = s.time.now := by
  decide +kernel

theorem witness_PowerResponsesComplete :
    let s := pkgIn psConf (10000 * ms)
    let p := { s.pw with leakLow := false, leakHighAt := some 0, leakResp := true, flowResp := some (5000 * ms), flowGood := some (9000 * ms), cstop := some ⟨0, 1, []⟩, coldFail := some 0, edges := [9990 * ms] }
    let f := { s with pw := p }
    s.forced = false ∧ { s with pert := { s.pert with shedEnd := some 1 } }.forced = true ∧ Tab.find { p with sensorSince := [(1, 9900 * ms)] }.sensorSince 1 = some (9900 * ms) ∧ 9900 * ms + 100 * ms = s.time.now ∧
    f.pkg.watchStall = false ∧ p.cstop.any (fun c => bitAt c.cause 1) = false ∧ s.pw.shedLow = false ∧ s.pw.leakLow = false ∧ p.leakResp = true ∧ p.leakFree f.time.now = true ∧ bitAt (s.ptReg 7) 8 = false ∧ s.pw.flowResp = none ∧ s.flowBad = true ∧ s.booted = true ∧
    p.flowGood = some (9000 * ms) ∧ 9000 * ms + 1000 * ms = f.time.now ∧ f.flowBad = false ∧ 5000 * ms + 5000 * ms = f.time.now ∧ p.cstop = some ⟨0, 1, []⟩ ∧ f.busyDies = [] ∧
    { p with flowResp := none }.flowResp = none ∧ p.coldFail = some 0 ∧ p.coldAbsent = false ∧ (3 : Nat) < 4 ∧ { s.pkg with watchStall := true }.watchStall = true := by
  decide +kernel

theorem witness_PinsMoveThePackage :
    let s := { pkgIn psStandby 0 with pkg := { Pkg.reset with under := psStandby, blade := true, pwrEn := true, mated := true } }
    let b := { pkgIn psConf (1000 * ms) with pkg := { (pkgIn psConf 0).pkg with stage1 := true, fenced := true, bladeLow := some (990 * ms), pwrLowAt := some 0 } }
    State.reset.pkg.blade = false ∧ State.reset.pkg.under = psOff ∧ s.pkg.blade = true ∧ s.pkg.under = psStandby ∧ s.pkg.cycleNeeded = false ∧ s.pkg.mated = true ∧ s.pkg.pwrEn = true ∧
    s.pkg.therm = false ∧ s.pkg.thermExt = false ∧ psBoot ≤ b.pkg.under ∧ b.pkg.stage1 = true ∧ b.pkg.fenced = true ∧ b.ctx.accepted = false ∧ b.ctx.killing = false ∧
    b.pkg.bladeLow = some (990 * ms) ∧ 990 * ms + 10 * ms = b.time.now ∧ b.pkg.pwrLowAt = some 0 ∧ 0 + 1000 * ms = b.time.now := by
  decide +kernel

/-- An image with a good signature has no closed witness (log entry 15); the package of empty slots fails. -/
theorem witness_BootTestsAndTrainsThePackage :
    let s := pkgIn psBoot 0
    let t := { pkgIn psTrain 0 with pkg := { (pkgIn psTrain 0).pkg with lakeTries := 1 } }
    s.pkg.under = psBoot ∧ s.pkg.bootOk = false ∧ s.fwValid (s.fw.slots.getD 0 []) = false ∧ s.fwValid (s.fw.slots.getD 1 []) = false ∧ s.pkg.bistOk = false ∧ s.ctx.killing = false ∧
    s.logs.digestOk = true ∧ s.logs.fuses = [] ∧ s.logs.defects = [] ∧ s.logs.pendingDefects = [] ∧ (s.link 95).state = 0 ∧ (s.link 95).retryAt = none ∧
    t.pkg.under = psTrain ∧ t.cfg.image = none ∧ t.pkg.lakeTries ≠ 0 ∧ (pkgIn psTrain 0).pkg.lakeTries = 0 ∧ (inRun 0).cfg.image ≠ none := by
  decide +kernel

theorem witness_HeartbeatsAndTakeoversComplete :
    let base := inRun (2000 * ms)
    let me : Member := ⟨11, 3, 17⟩
    let mem := { base with spr := { Spr.reset with role := 1, members := [me] } }
    let spare := { base with spr := { Spr.reset with role := 2, state := 5, members := [me], budget := 1024, lines := [(17, { SprLine.zero with lastA := some 0, lastB := some 0 })] } }
    let take := { spare with spr := { spare.spr with state := 3, phase := 2, takeLine := 17, takeAt := 1980 * ms } }
    let hb : Mgt := ⟨1, false, 0, 2, 3, 1, 0⟩
    let cl : Mgt := ⟨0x20, true, 0, 0x7FFF, 2, 1, 11⟩
    let mir := withPkt spare { packet 0x03 0 (.link 0 0 3 1 true) (.hub 0) with inHub := true, arrived := true }
    mem.hbRuns = true ∧ mem.spr.role = 1 ∧ mem.spr.hbAt + ms ≤ mem.time.now ∧
    (match (rxSlot spare 95 (.mgt hb)).takeRx 95 (isMgt 1) with
      | some (.mgt m, u) => decide (m.dlpn = u.lpn ∧ u.spr.displaced = false ∧ u.spr.watches = true ∧ u.spr.members.find? (fun e => e.lpn == m.slpn) = some me)
      | _ => false) = true ∧
    spare.spr.watches = true ∧ spare.spr.entryOf 17 = some (0, me) ∧ spare.pathExpired (spare.spr.line 17).lastA = true ∧ spare.pathExpired (spare.spr.line 17).lastB = true ∧
    (∀ n, n < 8 → (take.stack n).awake = true) ∧ take.pkg.watchStall = false ∧ take.claimLost 11 = false ∧ { take with st := { take.st with claimsSeen := [(11, 99, 1999 * ms)] } }.claimLost 11 = true ∧
    { take with spr := { take.spr with phase := 1 } }.takeStep 1 = true ∧ take.takeStep 2 = true ∧ take.steadyFrom = some (1980 * ms) ∧ 1980 * ms + ms ≤ take.time.now ∧
    (let h := { take with spr := { take.spr with lines := [(17, { SprLine.zero with level := true })] } }
     h.steadyFrom = none ∧ h.spr.takeAt + 20 * ms = h.time.now) ∧
    { take with spr := { take.spr with phase := 3 } }.takeStep 3 = true ∧ { take with spr := { take.spr with phase := 4 } }.takeStep 4 = true ∧
    (match (rxSlot { base with pkg := { base.pkg with lpnValid := true }, pid := 9 } 95 (.mgt cl)).takeRx 95 (isMgt 0x20) with
      | some (.mgt m, u) => decide (u.pkg.lpnValid = true ∧ m.slpn = u.lpn ∧ fld m.arg 18 0 ≠ u.pid ∧ u.st.claimsSeen = [] ∧ { u.pkg with lpnValid := false }.lpnValid = false)
      | _ => false) = true ∧
    { base.st with claimAgain := some 0 }.claimAgain = some 0 ∧
    (match mir.mirrorPkt 4 with
      | some (q, slpn) => decide (mir.spr.members.find? (fun m => m.lpn == slpn) = some me ∧ q.kind = 0x03 ∧ (mir.spr.line me.line).curPoint ≤ q.extWord 0 ∧
          q.addr + 4 * q.words ≤ (mir.spr.mirrorBase (((mir.spr.entryOf me.line).map Prod.fst).getD 0) (q.extWord 0) (q.extWord 1)).2)
      | none => false) = true := by
  decide +kernel

/-! ### Well-formedness: for each bound that `Instr.wf` checks, a command with that operand at the bound and every other operand at zero -/

theorem test_wf_refuses0 :
    ([.nop 576 0, .nop 0 8, .br 0 4096, .brz 0 32 0, .loopi 0 4 0 0,
      .loopi 0 0 (2 ^ 20) 0, .waitf 0 64 0, .waitf 0 0 65536, .wake 0 4 0, .wake 0 0 4096,
      .add 0 32 0 0, .add 0 0 32 0, .add 0 0 0 32, .ext 0 0 0 256, .adw 0 0 512 0,
      .feed 0 0 2, .vld 0 2 0 0 0, .vld 0 0 32 0 0, .vld 0 0 0 16 0, .vld 0 0 0 0 4] : List Instr).all (fun i => !i.wf) = true := by
  decide +kernel

theorem test_wf_refuses1 :
    ([.vst 0 0 0 0 0 8, .wbf 0 2 0 0 0, .wbf 0 0 0 128 0, .wbf 0 0 0 0 128, .palw 0 0 256 0 0 0,
      .palw 0 0 0 8 0 0, .palw 0 0 0 0 2 0, .mks 0 16 0 0 0 0 0 0, .mks 0 0 16 0 0 0 0 0, .mks 0 0 0 4 0 0 0 0,
      .mks 0 0 0 0 0 2 0 0, .mks 0 0 0 0 0 0 2 0, .mks 0 0 0 0 0 0 0 2, .blockCommit 0 16384 0, .mdrn 0 0 16 0 0 0,
      .mdrn 0 0 0 4 0 0, .mdrn 0 0 0 0 0 16, .vfma 0 0 0 0 0 32 0 0 0 0, .vfma 0 0 0 0 0 0 0 16 0 0, .vfma 0 0 0 0 0 0 0 0 4096 0] : List Instr).all (fun i => !i.wf) = true := by
  decide +kernel

theorem test_wf_refuses2 :
    ([.vcmp 0 0 0 0 0 0 0 16, .vcvt 0 0 0 0 0 0 16 0 0 0 0, .vcvt 0 0 0 0 0 0 0 0 0 0 2, .vpal 0 0 0 0 0 2 0, .vpal 0 0 0 0 0 0 256,
      .xrd 0 0 0 32 0, .xrd 0 0 0 0 (2 ^ 20), .xwrb 0 0 0 0 32 0, .xred 0 0 0 0 0 4 0, .xgath 0 0 0 0 0 16 0,
      .bundleStoreWrite 624 0 0#512, .bundleStoreWrite 0 4096 0#512, .tileScrub 0 2 [], .rowWakeComplete 52 0, .lakeZeroDone 8 [] 0,
      .freezeNoteSend 4 0 0, .freezeNoteSend 0 256 0, .freezeNote 96 0, .arbiterGrant 4 0 [] [], .dmaDoorbell 16 false 0] : List Instr).all (fun i => !i.wf) = true := by
  decide +kernel

theorem test_wf_refuses3 :
    ([.dmaNextWrite 0 false false (2 ^ 32), .dmaDescFetch 0 16 0#2048 0, .dmaRequestAnswer 0 1024 0 0#2048 0, .frameRx 0 0#5140 false 65536 0, .delayReq 256 0,
      .laneLockLoss 0 2 0, .bar2Access false 0 257 0#2048 false [] 0, .prodWrite 4 0 0, .prodWrite 0 65536 0, .statusRecordWrite 64 0,
      .mailboxDeadlineExpiry 6 0, .entdaa 128 0, .dapRead (2 ^ 39) 0 [] [] 0, .dapWrite 0 (2 ^ 32) [] [] 0, .converterPhaseFail 6 0 0,
      .converterPhaseFail 0 64 0, .mordantRestart 4 0, .bladePowerUp (2 ^ 20) false, .hbAckEdge 18 false 0] : List Instr).all (fun i => !i.wf) = true := by
  decide +kernel

theorem test_wf_accepts : ([.add 575 31 31 31, .waitf 575 63 65535, .xrd 575 63 15 31 1048575, .bundleStoreWrite 623 4095 0#512, .egressGrant 95 0, .hbAckEdge 17 true 0, .keySet 5 0] : List Instr).all Instr.wf = true := by
  decide +kernel

/-! ### The machine -/

/-- No bits are given to a row of the table, so no word spells a command, and a placed word changes nothing. -/
theorem test_decode_none : decodeTableWord 64 0x0100000000000000 = none ∧ State.reset.withFetchWord 64 1 = State.reset := by
  decide +kernel

/-- The step takes the front command and leaves the rest of the queue. -/
theorem test_step_front : (match step { State.reset with pending := [.nop 0 1, .bladePowerLoss 7] } with
    | .next s => s.pending == [.bladePowerLoss 7]
    | _ => false) = true := by
  decide +kernel

/-- The premises of the statements on all commands: a canonical state, a step that answers next, and a command with its frame. -/
theorem witness_MemoriesKeepTheirForm :
    (match step State.reset with
      | .next t => decide (t = State.reset)
      | _ => false) = true ∧ State.reset.lake.mem.wf = true ∧ State.reset.h.ram.wf = true ∧ State.reset.h.mem.wf = true ∧ State.reset.ld.window.wf = true := by
  decide +kernel

theorem witness_CommandsKeepTheirFrames :
    (touchesTile (.add 0 0 0 0)).isSome = true ∧ (touchesStep (.wake 0 0 0)).isSome = true ∧ (touchesTime (.dreq 0 0)).isSome = true ∧ (touchesNet (.packetHop 0 [])).isSome = true ∧
    (touchesLake (.lakeRefresh 0 0 0)).isSome = true ∧ (touchesLink (.ack 0 0)).isSome = true ∧ (touchesDma (.dmaStop 0 true 0)).isSome = true ∧ (touchesHost (.prodWrite 0 0 0)).isSome = true ∧
    (touchesTeardown (.contextKill 0)).isSome = true ∧ (touchesSpare (.heartbeatSend 0)).isSome = true ∧ (touchesMordant (.idGet 0 0)).isSome = true ∧ (touchesFirmware (.fwStatus 0 0)).isSome = true ∧
    (touchesDebug (.dapRead 0 0 [] [] 0)).isSome = true ∧ (touchesPower (.shedNAssert 0)).isSome = true ∧ (touchesBringup (.pwrEnLow 0)).isSome = true ∧
    ([.tiles, .context, .faults, .logs].contains Part.lake) = false := by
  decide +kernel

/-! ### Single effects, computed by hand from the rules -/

/-- ADD wraps, SRA keeps the sign and uses B[4:0], CMPLT is signed (R98): the pending result of one issued syllable. -/
theorem test_scalar_results :
    let regs := fun (t : Tile) => { t with r := { t.r with sregs := [(1, 0xFFFFFFFF#32), (2, 33#32)] } }
    let res := fun (op : Nat) (c : Instr) => match exec c (running (tileWith slotSC (encSC op 3 1 2 0 0) regs)) with
      | .next s => (s.ltile 0).iss.inflight.map fun p => (p.due, p.wr)
      | _ => []
    res 0x01 (.add 0 3 1 2) = [(0, .sreg 3 32#32)] ∧ res 0x08 (.sra 0 3 1 2) = [(0, .sreg 3 0xFFFFFFFF#32)] ∧
    res 0x0A (.cmplt 0 3 1 2) = [(0, .sreg 3 1#32)] ∧ res 0x10 (.mul 0 3 1 2) = [(2, .sreg 3 0xFFFFFFDF#32)] := by
  decide +kernel

/-- FP32: 1 + 2^-24 ties to even, 1 + 2^-23 + 2^-24 ties up to even, the largest number plus itself is infinity, and infinity minus infinity is the canonical NaN (R57, R74). -/
theorem test_fp32_add :
    fFP32.addB 0 0x3F800000 0x33800000 = 0x3F800000 ∧ fFP32.addB 0 0x3F800001 0x33800000 = 0x3F800002 ∧ fFP32.addB 0 0x7F7FFFFF 0x7F7FFFFF = 0x7F800000 ∧
    fFP32.addB 0 0x7F800000 0xFF800000 = 0x7FC00000 := by
  decide +kernel

/-- An address that leaves local store raises STREAM_RANGE and writes no register (R102). -/
theorem test_stream_range :
    let t := fun (t : Tile) => { t with r := { t.r with descs := [(0, { Desc.zero with w0 := 0x0FFF80#32 })] } }
    (match exec (.vld 0 0 4 0 0) (running (tileWith slotLS0 (encLS 0x01 4 0 0 0 0 0 0 0 0 0 0) t)) with
      | .next s => decide (bitAt (s.ltile 0).blk.fault 3 = true ∧ (s.ltile 0).iss.inflight.map (fun p => p.wr) = [.dpos 0 0] ∧ s.ctx.killDue = 1)
      | _ => false) = true := by
  decide +kernel


/-- SQRT is correctly rounded, and outside the ranges of R24 the transcendental functions follow IEEE 754 (R24, R74): SQRT(4), SQRT(-1), SQRT(-0), RCP(0), RCP(-0), LOG2(0), LOG2(-1), EXP2(128),
EXP2 of minus infinity, TANH and RSQRT of infinity. -/
theorem test_transcendental_specials :
    transF 4 0x40800000#32 = 0x40000000#32 ∧ transF 4 0xBF800000#32 = 0x7FC00000#32 ∧ transF 4 0x80000000#32 = 0x80000000#32 ∧ transF 2 0#32 = 0x7F800000#32 ∧
    transF 2 0x80000000#32 = 0xFF800000#32 ∧ transF 1 0#32 = 0xFF800000#32 ∧ transF 1 0xBF800000#32 = 0x7FC00000#32 ∧ transF 0 0x43000000#32 = 0x7F800000#32 ∧
    transF 0 0xFF800000#32 = 0#32 ∧ transF 5 0x7F800000#32 = 0x3F800000#32 ∧ transF 3 0x7F800000#32 = 0#32 := by
  decide +kernel
end Sys2Proof.Tests
end

section
/-!
PROOFS. The bundle store of a tile is written only while no step is active on it (R36).
-/

namespace Sys2Proof

/-- Bytes stored at an address read back from it as they were given. -/
theorem Mem.bytes_store (bs : List Byte) : ∀ (m : Mem) (a : Nat), (m.store a bs).bytes a bs.length = bs := by
  induction bs with
  | nil => intro m a; rfl
  | cons b r ih =>
    intro m a
    have head : (m.store a (b :: r)).read a = b := Mem.read_store_inside (b :: r) m a 0 (Nat.zero_lt_succ _)
    have tail : (m.store a (b :: r)).bytes (a + 1) r.length = r := ih (m.write a b) (a + 1)
    rw [List.length_cons, Mem.bytes, head, tail]

end Sys2Proof

namespace Sys2Proof.Machine

/-! ### What a tile put back leaves in the table of tiles -/

@[simp] theorem State.markDefect_tiles (s : State) (k l x : Nat) : (s.markDefect k l x).tiles = s.tiles := by
  unfold State.markDefect
  dsimp only
  split <;> rfl

/-- Recording what a tile has raised writes the faults and the logs of the package, and no tile. -/
@[simp] theorem State.recordTile_tiles (s : State) (p : Nat) (t : Tile) : (s.recordTile p t).tiles = s.tiles := by
  refine foldl_keeps _ State.tiles (fun u b => ?_) _ _
  simp only [apply_ite State.tiles, State.markDefect_tiles, State.recordFault_tiles, ite_self]

/-- A tile put back is read as it was put, with what it raised taken over by the package. -/
theorem State.tile_putTile (s : State) (p : Nat) (t : Tile) : (s.putTile p t).tile p = { t with blk := { t.blk with raised := [] } } := by
  simp [State.putTile, State.tile]

@[simp] theorem State.putTile_mem (s : State) (p : Nat) (t : Tile) : ((s.putTile p t).tile p).mem = t.mem := by
  rw [State.tile_putTile]

/-! ### The write of a bundle -/

theorem Tile.writeBundles_eq_none_iff (t : Tile) (a : Nat) (bs : List Byte) : t.writeBundles a bs = none ↔ t.st.active = true := by
  cases h : t.st.active <;> simp [Tile.writeBundles, h]

/-- While no step is active the bytes are stored in the bundle store. -/
theorem Tile.writeBundles_of_inactive {t : Tile} (h : t.st.active = false) (a : Nat) (bs : List Byte) :
    ∃ v, t.writeBundles a bs = some v ∧ v.mem.bundles = t.mem.bundles.store a bs := by
  simp [Tile.writeBundles, h]

/-- The command's own meaning is that of `execBundleStoreWrite`. -/
theorem exec_bundleStoreWrite (s : State) (pti addr : Nat) (data : BitVec 512) :
    exec (.bundleStoreWrite pti addr data) s = execBundleStoreWrite pti addr data s := rfl

theorem exec_bundleStoreWrite_accepted {s : State} {pti addr : Nat} {data : BitVec 512} {v : Tile}
    (h : (s.tile pti).writeBundles (addr % 4096 * 64) (leBytes 64 data.toNat) = some v) :
    exec (.bundleStoreWrite pti addr data) s = .next { s.putTile pti v with out := s.out ++ [.value 1 0] } := by
  simp [exec_bundleStoreWrite, execBundleStoreWrite, h, ok]

theorem exec_bundleStoreWrite_refused {s : State} {pti addr : Nat} {data : BitVec 512}
    (h : (s.tile pti).writeBundles (addr % 4096 * 64) (leBytes 64 data.toNat) = none) :
    exec (.bundleStoreWrite pti addr data) s = .next { s with out := s.out ++ [.value 1 1] } := by
  simp [exec_bundleStoreWrite, execBundleStoreWrite, h, ok]

end Sys2Proof.Machine

namespace Sys2Proof.Safety
open Sys2Proof Sys2Proof.Machine

/-- Settles O23: whether the tile takes the write turns on its active step alone; where it takes it, the memory is that of `Mem.store`. -/
theorem bundleStoreOnlyWrittenWithoutAStep : Obligations.BundleStoreOnlyWrittenWithoutAStep := by
  intro s pti addr data hAddr
  have hWrap : addr % 4096 = addr := Nat.mod_eq_of_lt hAddr
  have hLen : (leBytes 64 data.toNat).length = 64 := rfl
  refine ⟨Tile.writeBundles_eq_none_iff _, fun idle => ?_, fun active => ?_⟩
  · obtain ⟨v, hv, hBundles⟩ := Tile.writeBundles_of_inactive idle (addr % 4096 * 64) (leBytes 64 data.toNat)
    rw [hWrap] at hBundles
    refine ⟨_, exec_bundleStoreWrite_accepted hv, rfl, ?written, fun a outside => ?elsewhere⟩
    case written =>
      show Mem.bytes ((s.putTile pti v).tile pti).mem.bundles (addr * 64) 64 = _
      rw [State.putTile_mem, hBundles]
      exact Mem.bytes_store (leBytes 64 data.toNat) _ _
    case elsewhere =>
      show Mem.read ((s.putTile pti v).tile pti).mem.bundles a = _
      rw [State.putTile_mem, hBundles]
      exact Mem.read_store_outside _ _ _ _ (hLen.symm ▸ outside)
  · exact exec_bundleStoreWrite_refused ((Tile.writeBundles_eq_none_iff _ _ _).mpr active)

end Sys2Proof.Safety
end

section
/-!
PROOFS. Loops that end at one bundle are handled from the most recently activated (R91 to R94).
-/

namespace Sys2Proof.Machine

/-! ### A loop written -/

@[simp] theorem Tile.loop_setLoop_same (t : Tile) (l : Nat) (v : Loop) : (t.setLoop l v).loop l = v := Tab.get_put_same _ _ _ _

theorem Tile.loop_setLoop_ne (t : Tile) {k l : Nat} (v : Loop) (h : k ≠ l) : (t.setLoop l v).loop k = t.loop k := Tab.get_put_ne _ _ _ _ _ h

/-- Loop `l` made inactive. -/
def Tile.loopOff (t : Tile) (l : Nat) : Tile := t.setLoop l { t.loop l with active := false }

@[simp] theorem Tile.loop_loopOff_same (t : Tile) (l : Nat) : (t.loopOff l).loop l = { t.loop l with active := false } := Tile.loop_setLoop_same _ _ _

theorem Tile.loopOff_active (t : Tile) (l : Nat) : ((t.loopOff l).loop l).active = false := by
  rw [Tile.loop_loopOff_same]

theorem Tile.loop_loopOff_ne (t : Tile) {k l : Nat} (h : k ≠ l) : (t.loopOff l).loop k = t.loop k := Tile.loop_setLoop_ne _ _ h

/-! ### The order of R92 -/

/-- Loop `l` is active and ends at the bundle `pc`. -/
def Tile.EndsAt (t : Tile) (pc l : Nat) : Prop := l < 4 ∧ (t.loop l).active = true ∧ (t.loop l).endPc = pc

/-- Loop `k` is handled before loop `l`: it was activated later. -/
def Tile.Before (t : Tile) (k l : Nat) : Prop := (t.loop l).order < (t.loop k).order ∨ ((t.loop k).order = (t.loop l).order ∧ k < l)

theorem Tile.Before.trans {t : Tile} {j k l : Nat} (h : t.Before j k) (h' : t.Before k l) : t.Before j l := by
  unfold Tile.Before at *
  omega

theorem Tile.Before.asymm {t : Tile} {k l : Nat} (h : t.Before k l) : ¬ t.Before l k := by
  unfold Tile.Before at *
  omega

theorem Tile.Before.ne {t : Tile} {k l : Nat} (h : t.Before k l) : k ≠ l := by
  rintro rfl
  exact h.asymm h

theorem Tile.endsAt_loopOff {t : Tile} {pc k l : Nat} : (t.loopOff l).EndsAt pc k ↔ t.EndsAt pc k ∧ k ≠ l := by
  by_cases h : k = l
  · subst h
    exact ⟨fun ⟨_, hActive, _⟩ => absurd ((Tile.loopOff_active t k).symm.trans hActive) Bool.false_ne_true, fun ⟨_, hne⟩ => absurd rfl hne⟩
  · rw [Tile.EndsAt, Tile.loop_loopOff_ne t h]
    exact (and_iff_left h).symm

theorem Tile.before_loopOff {t : Tile} {j k l : Nat} (hj : j ≠ l) (hk : k ≠ l) : (t.loopOff l).Before j k ↔ t.Before j k := by
  rw [Tile.Before, Tile.Before, Tile.loop_loopOff_ne t hj, Tile.loop_loopOff_ne t hk]

/-! ### The loop handled first -/

/-- The loops that end at `pc`, by number. -/
def Tile.endings (t : Tile) (pc : Nat) : List Nat := [0, 1, 2, 3].filter fun l => (t.loop l).active && (t.loop l).endPc == pc

theorem Tile.mem_endings {t : Tile} {pc l : Nat} : l ∈ t.endings pc ↔ t.EndsAt pc l := by
  have hFour : l ∈ [0, 1, 2, 3] ↔ l < 4 := by
    simp only [List.mem_cons, List.not_mem_nil, or_false]
    omega
  rw [Tile.endings, List.mem_filter, hFour, Bool.and_eq_true, beq_iff_eq, Tile.EndsAt]

theorem Tile.endings_pairwise (t : Tile) (pc : Nat) : (t.endings pc).Pairwise (· < ·) :=
  List.Pairwise.filter _ (by decide)

theorem Tile.endings_length_le (t : Tile) (pc : Nat) : (t.endings pc).length ≤ 4 := List.length_filter_le _ _

/-- Without loop `l` the other loops that end at `pc` remain. -/
theorem Tile.endings_loopOff (t : Tile) (pc l : Nat) : (t.loopOff l).endings pc = (t.endings pc).filter (fun k => decide (k ≠ l)) := by
  unfold Tile.endings
  rw [List.filter_filter]
  refine List.filter_congr fun k _ => ?_
  by_cases h : k = l
  · subst h
    rw [Tile.loopOff_active, decide_eq_false (not_not_intro rfl), Bool.false_and, Bool.false_and]
  · rw [Tile.loop_loopOff_ne t h, decide_eq_true h, Bool.true_and]

theorem Tile.endings_loopOff_length_lt {t : Tile} {pc l : Nat} (h : t.EndsAt pc l) : ((t.loopOff l).endings pc).length < (t.endings pc).length := by
  rw [Tile.endings_loopOff]
  exact List.length_filter_lt_length_iff_exists.mpr ⟨l, Tile.mem_endings.mpr h, fun hne => of_decide_eq_true hne rfl⟩

/-- The later activated of a loop found so far and loop `l`. -/
def Tile.later (t : Tile) (m : Option Nat) (l : Nat) : Option Nat :=
  match m with
  | none => some l
  | some k => if (t.loop k).order < (t.loop l).order then some l else some k

theorem Tile.lastLoop_eq_foldl (t : Tile) (pc : Nat) : t.lastLoop pc = (t.endings pc).foldl t.later none := rfl

/-- Over loops in the order of their numbers the fold finds the one that is before all others. -/
theorem Tile.foldl_later (t : Tile) (ls : List Nat) : ∀ k, (k :: ls).Pairwise (· < ·) →
    ∃ m ∈ k :: ls, ls.foldl t.later (some k) = some m ∧ ∀ j ∈ k :: ls, j ≠ m → t.Before m j := by
  induction ls with
  | nil => exact fun k _ => ⟨k, List.mem_singleton_self k, rfl, fun j hj hne => absurd (List.mem_singleton.mp hj) hne⟩
  | cons x xs ih =>
    intro k hSorted
    obtain ⟨hk, hxs⟩ := List.pairwise_cons.mp hSorted
    obtain ⟨hx, hxs'⟩ := List.pairwise_cons.mp hxs
    -- `w` is kept of `k` and `x`, and `o` is passed over
    have kept : ∀ w o, t.later (some k) x = some w → (∀ j, j ∈ k :: x :: xs ↔ j = o ∨ j ∈ w :: xs) → t.Before w o → (w :: xs).Pairwise (· < ·) →
        ∃ m ∈ k :: x :: xs, (x :: xs).foldl t.later (some k) = some m ∧ ∀ j ∈ k :: x :: xs, j ≠ m → t.Before m j := by
      intro w o hw hMem hBefore hSorted'
      obtain ⟨m, hm, hFold, hFirst⟩ := ih w hSorted'
      refine ⟨m, (hMem m).mpr (.inr hm), by rw [List.foldl_cons, hw, hFold], fun j hj hne => ?_⟩
      rcases (hMem j).mp hj with rfl | hj
      · by_cases e : w = m
        · exact e ▸ hBefore
        · exact (hFirst w List.mem_cons_self e).trans hBefore
      · exact hFirst j hj hne
    by_cases hOrder : (t.loop k).order < (t.loop x).order
    · exact kept x k (if_pos hOrder) (fun j => List.mem_cons) (.inl hOrder) hxs
    · have hLt : k < x := hk x List.mem_cons_self
      refine kept k x (if_neg hOrder) (fun j => ?_) ?_ (List.pairwise_cons.mpr ⟨fun j hj => hk j (List.mem_cons_of_mem _ hj), hxs'⟩)
      · rw [List.mem_cons, List.mem_cons, List.mem_cons]
        exact or_left_comm
      · unfold Tile.Before
        omega

theorem Tile.lastLoop_eq_none {t : Tile} {pc : Nat} (h : t.lastLoop pc = none) (l : Nat) : ¬ t.EndsAt pc l := by
  rw [Tile.lastLoop_eq_foldl] at h
  rw [← Tile.mem_endings]
  cases hEnds : t.endings pc with
  | nil => exact List.not_mem_nil
  | cons k ls =>
    obtain ⟨m, -, hFold, -⟩ := Tile.foldl_later t ls k (hEnds ▸ t.endings_pairwise pc)
    rw [hEnds] at h
    exact absurd (hFold.symm.trans h) (Option.some_ne_none m)

theorem Tile.lastLoop_eq_some {t : Tile} {pc l : Nat} (h : t.lastLoop pc = some l) :
    t.EndsAt pc l ∧ ∀ k, t.EndsAt pc k → k ≠ l → t.Before l k := by
  rw [Tile.lastLoop_eq_foldl] at h
  simp only [← Tile.mem_endings]
  cases hEnds : t.endings pc with
  | nil =>
    rw [hEnds] at h
    exact absurd h.symm (Option.some_ne_none l)
  | cons k ls =>
    obtain ⟨m, hm, hFold, hFirst⟩ := Tile.foldl_later t ls k (hEnds ▸ t.endings_pairwise pc)
    rw [hEnds] at h
    obtain rfl : m = l := Option.some.inj (hFold.symm.trans h)
    exact ⟨hm, hFirst⟩

/-! ### The end of the loops -/

/-- R92 for the loops of `b` at the end of bundle `pc`: `after` are the loops then, `next` is the next bundle. -/
structure Tile.LoopsEnded (b : Tile) (pc : Nat) (after : Nat → Loop) (next : Nat) : Prop where
  /-- The first loop with more than one pass left jumps. -/
  jumps : ∀ l, b.EndsAt pc l → 1 < (b.loop l).remaining → (∀ k, b.EndsAt pc k → b.Before k l → (b.loop k).remaining ≤ 1) →
    next = (b.loop l).start ∧ after l = { b.loop l with remaining := (b.loop l).remaining - 1 } ∧
    (∀ k, b.EndsAt pc k → b.Before k l → after k = { b.loop k with active := false }) ∧
    (∀ k, b.EndsAt pc k → b.Before l k → after k = b.loop k)
  /-- Without one the next address follows. -/
  passes : (∀ l, b.EndsAt pc l → (b.loop l).remaining ≤ 1) → next = pc + 1 ∧ ∀ l, b.EndsAt pc l → after l = { b.loop l with active := false }
  others : ∀ k, ¬ b.EndsAt pc k → after k = b.loop k

/-- No loop ends at this bundle. -/
theorem Tile.loopsEnded_of_none {t : Tile} {pc : Nat} (h : ∀ l, ¬ t.EndsAt pc l) : t.LoopsEnded pc t.loop (pc + 1) where
  jumps l hl := absurd hl (h l)
  passes _ := ⟨rfl, fun l hl => absurd hl (h l)⟩
  others _ _ := rfl

section First
variable {t : Tile} {pc l : Nat} (hl : t.EndsAt pc l) (hFirst : ∀ k, t.EndsAt pc k → k ≠ l → t.Before l k)
include hl hFirst

/-- The loop handled first has more than one pass left. -/
theorem Tile.loopsEnded_of_first_jumps (hMore : 1 < (t.loop l).remaining) :
    t.LoopsEnded pc (t.setLoop l { t.loop l with remaining := (t.loop l).remaining - 1 }).loop (t.loop l).start where
  jumps j hj _ hBefore := by
    obtain rfl : j = l := Decidable.byContradiction fun hne => Nat.not_le.mpr hMore (hBefore l hl (hFirst j hj hne))
    refine ⟨rfl, Tile.loop_setLoop_same _ _ _, fun k hk hkj => absurd hkj (hFirst k hk hkj.ne).asymm, fun k _ hjk => ?_⟩
    exact Tile.loop_setLoop_ne _ _ hjk.ne.symm
  passes h := by
    have := h l hl
    omega
  others k hk := Tile.loop_setLoop_ne _ _ fun e => hk (e ▸ hl)

/-- The loop handled first has one pass left: it deactivates, and R92 goes on with the others. -/
theorem Tile.loopsEnded_of_first_passes (hLast : (t.loop l).remaining ≤ 1) {after : Nat → Loop} {next : Nat} (hRest : (t.loopOff l).LoopsEnded pc after next) :
    t.LoopsEnded pc after next := by
  have hOff : after l = { t.loop l with active := false } := by
    rw [hRest.others l fun h => (Tile.endsAt_loopOff.mp h).2 rfl, Tile.loop_loopOff_same]
  have hKeeps : ∀ {k}, k ≠ l → (t.loopOff l).loop k = t.loop k := fun h => Tile.loop_loopOff_ne t h
  have hEnds : ∀ {k}, t.EndsAt pc k → k ≠ l → (t.loopOff l).EndsAt pc k := fun h hne => Tile.endsAt_loopOff.mpr ⟨h, hne⟩
  refine ⟨fun j hj hMore hBefore => ?jumps, fun hAll => ?passes, fun k hk => ?others⟩
  case jumps =>
    have hne : j ≠ l := by
      rintro rfl
      omega
    obtain ⟨hNext, hj', hEarlier, hLater⟩ := hRest.jumps j (hEnds hj hne) (by rwa [hKeeps hne]) fun k hk hkj => by
      obtain ⟨hk, hkl⟩ := Tile.endsAt_loopOff.mp hk
      rw [hKeeps hkl]
      exact hBefore k hk ((Tile.before_loopOff hkl hne).mp hkj)
    rw [hKeeps hne] at hNext hj'
    refine ⟨hNext, hj', fun k hk hkj => ?_, fun k hk hjk => ?_⟩
    · by_cases hkl : k = l
      · exact hkl ▸ hOff
      · rw [hEarlier k (hEnds hk hkl) ((Tile.before_loopOff hkl hne).mpr hkj), hKeeps hkl]
    · have hkl : k ≠ l := ((hFirst j hj hne).trans hjk).ne.symm
      rw [hLater k (hEnds hk hkl) ((Tile.before_loopOff hne hkl).mpr hjk), hKeeps hkl]
  case passes =>
    obtain ⟨hNext, hAllOff⟩ := hRest.passes fun k hk => by
      obtain ⟨hk, hkl⟩ := Tile.endsAt_loopOff.mp hk
      rw [hKeeps hkl]
      exact hAll k hk
    refine ⟨hNext, fun k hk => ?_⟩
    by_cases hkl : k = l
    · exact hkl ▸ hOff
    · rw [hAllOff k (hEnds hk hkl), hKeeps hkl]
  case others =>
    have hkl : k ≠ l := by
      rintro rfl
      exact hk hl
    rw [hRest.others k fun h => hk (Tile.endsAt_loopOff.mp h).1, hKeeps hkl]

end First

theorem Tile.loopEnd_of_none {t : Tile} {pc : Nat} (h : t.lastLoop pc = none) (n : Nat) : t.loopEnd pc n = (t, pc + 1) := by
  cases n with
  | zero => rfl
  | succ n => rw [Tile.loopEnd, h]

theorem Tile.loopEnd_of_more {t : Tile} {pc l : Nat} (h : t.lastLoop pc = some l) (hMore : 1 < (t.loop l).remaining) (n : Nat) :
    t.loopEnd pc (n + 1) = (t.setLoop l { t.loop l with remaining := (t.loop l).remaining - 1 }, (t.loop l).start) := by
  rw [Tile.loopEnd, h]
  exact if_pos hMore

theorem Tile.loopEnd_of_last {t : Tile} {pc l : Nat} (h : t.lastLoop pc = some l) (hLast : (t.loop l).remaining ≤ 1) (n : Nat) :
    t.loopEnd pc (n + 1) = (t.loopOff l).loopEnd pc n := by
  rw [Tile.loopEnd, h]
  exact if_neg (Nat.not_lt.mpr hLast)

/-- With a bound that no fewer loops end than it counts, the end of the loops is as R92 has it. -/
theorem Tile.loopEnd_loopsEnded (pc n : Nat) : ∀ t : Tile, (t.endings pc).length ≤ n → t.LoopsEnded pc (t.loopEnd pc n).1.loop (t.loopEnd pc n).2 := by
  induction n with
  | zero =>
    intro t hLen
    have hNone : t.endings pc = [] := List.length_eq_zero_iff.mp (Nat.le_zero.mp hLen)
    exact Tile.loopsEnded_of_none fun l hl => List.not_mem_nil (hNone ▸ Tile.mem_endings.mpr hl)
  | succ n ih =>
    intro t hLen
    cases hLoop : t.lastLoop pc with
    | none =>
      rw [Tile.loopEnd_of_none hLoop]
      exact Tile.loopsEnded_of_none (Tile.lastLoop_eq_none hLoop)
    | some l =>
      obtain ⟨hl, hFirst⟩ := Tile.lastLoop_eq_some hLoop
      by_cases hMore : 1 < (t.loop l).remaining
      · rw [Tile.loopEnd_of_more hLoop hMore]
        exact Tile.loopsEnded_of_first_jumps hl hFirst hMore
      · have hLast := Nat.not_lt.mp hMore
        have hFewer := Tile.endings_loopOff_length_lt hl
        rw [Tile.loopEnd_of_last hLoop hLast]
        exact Tile.loopsEnded_of_first_passes hl hFirst hLast (ih _ (by omega))

/-- The four loops of a tile are within the bound that the next bundle is found with. -/
theorem Tile.loopEnd_four (t : Tile) (pc : Nat) : t.LoopsEnded pc (t.loopEnd pc 4).1.loop (t.loopEnd pc 4).2 :=
  Tile.loopEnd_loopsEnded pc 4 t (t.endings_length_le pc)

theorem Tile.loopEnd_loopSeq (pc n : Nat) : ∀ t : Tile, (t.loopEnd pc n).1.r.loopSeq = t.r.loopSeq := by
  induction n with
  | zero => exact fun _ => rfl
  | succ n ih =>
    intro t
    rw [Tile.loopEnd]
    split
    · rfl
    · dsimp only
      split
      · rfl
      · exact ih _

/-! ### The next bundle -/

theorem Tile.nextBundle_seq {t : Tile} (h : t.iss.ct = .seq) :
    t.nextBundle.loop = (t.loopEnd t.iss.pc 4).1.loop ∧ t.nextBundle.iss.pc = (t.loopEnd t.iss.pc 4).2 := by
  unfold Tile.nextBundle
  rw [h]
  exact ⟨rfl, rfl⟩

theorem Tile.nextBundle_loopOff {t : Tile} {l : Nat} (h : t.iss.ct = .loopOff l) :
    t.nextBundle.loop = ((t.loopOff l).loopEnd t.iss.pc 4).1.loop ∧ t.nextBundle.iss.pc = ((t.loopOff l).loopEnd t.iss.pc 4).2 := by
  unfold Tile.nextBundle
  rw [h]
  exact ⟨rfl, rfl⟩

theorem Tile.nextBundle_loopOn {t : Tile} {l count endPc : Nat} (h : t.iss.ct = .loopOn l count endPc) :
    t.nextBundle.loop = (((t.loopOff l).loopEnd t.iss.pc 4).1.setLoop l ⟨true, count, t.iss.pc + 1, endPc, t.r.loopSeq + 1⟩).loop ∧
    t.nextBundle.iss.pc = ((t.loopOff l).loopEnd t.iss.pc 4).2 := by
  rw [← show ((t.loopOff l).loopEnd t.iss.pc 4).1.r.loopSeq = t.r.loopSeq from Tile.loopEnd_loopSeq _ _ _]
  unfold Tile.nextBundle
  rw [h]
  exact ⟨rfl, rfl⟩

end Sys2Proof.Machine

namespace Sys2Proof.Safety
open Sys2Proof Sys2Proof.Machine

/-- Settles O11, by induction on the loops that end: the one handled first jumps, or it deactivates and the rule goes on with the others. -/
theorem loopsThatEndTogetherGoInOrder : Obligations.LoopsThatEndTogetherGoInOrder := by
  intro t
  refine ⟨fun hct => ?seq, fun l hct => ?loopOff, fun l count endPc hct => ?loopOn⟩
  case seq =>
    obtain ⟨hLoops, hNext⟩ := Tile.nextBundle_seq hct
    have ended := t.loopEnd_four t.iss.pc
    rw [← hLoops, ← hNext] at ended
    exact ⟨ended.jumps, ended.passes, ended.others⟩
  case loopOff =>
    obtain ⟨hLoops, hNext⟩ := Tile.nextBundle_loopOff hct
    have ended := (t.loopOff l).loopEnd_four t.iss.pc
    rw [← hLoops, ← hNext] at ended
    exact ⟨ended.jumps, ended.passes, ended.others⟩
  case loopOn =>
    obtain ⟨hLoops, hNext⟩ := Tile.nextBundle_loopOn hct
    have ended := (t.loopOff l).loopEnd_four t.iss.pc
    let r := (t.loopOff l).loopEnd t.iss.pc 4
    refine ⟨{ r.1 with iss := { r.1.iss with pc := r.2 } }, ⟨ended.jumps, ended.passes, ended.others⟩, hNext, fun k hk => ?_, ?_⟩
    · rw [hLoops]
      exact Tile.loop_setLoop_ne _ _ hk
    · rw [hLoops, Tile.loop_setLoop_same]

end Sys2Proof.Safety
end

section
/-!
PROOFS. A descriptor write clears the position, and a write of word 0 the other words (R100).
-/

namespace Sys2Proof.Machine

/-! ### The words of a descriptor -/

/-- What a descriptor keeps of a value written to word `w`: words 0 and 3 to 6 have reserved bits. -/
def descSeen (w : Nat) (v : Word) : Word := if w = 1 ∨ w = 2 then v else v &&& 0x00FFFFFF#32

theorem descSeen_descSeen (w : Nat) (v : Word) : descSeen w (descSeen w v) = descSeen w v := by
  unfold descSeen
  split
  · rfl
  · rw [BitVec.and_assoc, BitVec.and_self]

theorem cases_of_lt_seven {k : Nat} (h : k < 7) : k = 0 ∨ k = 1 ∨ k = 2 ∨ k = 3 ∨ k = 4 ∨ k = 5 ∨ k = 6 := by
  omega

theorem Desc.word_setWord (d : Desc) {w k : Nat} (v : Word) (hw : w < 7) (hk : k < 7) :
    (d.setWord w v).word k = if k = w then descSeen w v else if w = 0 then 0#32 else d.word k := by
  rcases cases_of_lt_seven hw with rfl | rfl | rfl | rfl | rfl | rfl | rfl <;>
    rcases cases_of_lt_seven hk with rfl | rfl | rfl | rfl | rfl | rfl | rfl <;> rfl

@[simp] theorem Desc.setWord_pos (d : Desc) (w : Nat) (v : Word) : (d.setWord w v).pos = 0 := by
  unfold Desc.setWord
  split <;> rfl

theorem Desc.ext_word {d e : Desc} (hWords : ∀ k < 7, d.word k = e.word k) (hPos : d.pos = e.pos) : d = e := by
  cases d
  cases e
  rw [Desc.mk.injEq]
  exact ⟨hWords 0 (by decide), hWords 1 (by decide), hWords 2 (by decide), hWords 3 (by decide), hWords 4 (by decide), hWords 5 (by decide),
    hWords 6 (by decide), hPos⟩

/-- A descriptor write takes the reserved bits of its value for zero. -/
theorem Desc.setWord_descSeen (d : Desc) {w : Nat} (v : Word) (hw : w < 7) : d.setWord w (descSeen w v) = d.setWord w v := by
  refine Desc.ext_word (fun k hk => ?_) ?_
  · rw [Desc.word_setWord d _ hw hk, Desc.word_setWord d _ hw hk, descSeen_descSeen]
  · rw [Desc.setWord_pos, Desc.setWord_pos]

/-! ### A descriptor write of a tile -/

theorem Tile.applyWr_dword (t : Tile) (a w : Nat) (v : Word) :
    t.applyWr (.dword a w v) = { t with r := { t.r with descs := Tab.put Desc.zero t.r.descs a ((t.desc a).setWord w v) } } := rfl

@[simp] theorem Tile.desc_applyWr_dword_same (t : Tile) (a w : Nat) (v : Word) : (t.applyWr (.dword a w v)).desc a = (t.desc a).setWord w v :=
  Tab.get_put_same _ _ _ _

theorem Tile.desc_applyWr_dword_ne (t : Tile) {a b : Nat} (w : Nat) (v : Word) (h : b ≠ a) : (t.applyWr (.dword a w v)).desc b = t.desc b :=
  Tab.get_put_ne _ _ _ _ _ h

/-! ### The halves of a word -/

theorem fld_low_half (v : Word) : fld v.toNat 15 0 = v.toNat % 2 ^ 16 := by
  rfl

theorem fld_high_half (v : Word) : fld v.toNat 31 16 = v.toNat / 2 ^ 16 := by
  have hv : v.toNat < 2 ^ 32 := v.isLt
  rw [fld, Nat.shiftRight_eq_div_pow]
  omega

end Sys2Proof.Machine

namespace Sys2Proof.Safety
open Sys2Proof Sys2Proof.Machine

/-- Settles O12: the words after a write are those of `Desc.word_setWord`, and the four counts are the halves of words 1 and 2. -/
theorem descriptorWritesTakeEffectWhole : Obligations.DescriptorWritesTakeEffectWhole := by
  refine ⟨fun t a w v hw => ?write, fun d => ?counts⟩
  case write =>
    intro t' seen
    have hDesc : t'.desc a = (t.desc a).setWord w v := Tile.desc_applyWr_dword_same t a w v
    have hWord : ∀ k, k < 7 → (t'.desc a).word k = if k = w then seen else if w = 0 then 0#32 else (t.desc a).word k := fun k hk =>
      hDesc ▸ Desc.word_setWord (t.desc a) v hw hk
    refine ⟨by rw [hWord w hw, if_pos rfl], by rw [hDesc, Desc.setWord_pos], fun h0 k h1 hk => ?cleared, fun h0 k hk hne => ?kept, ?reserved, fun b hb => ?others⟩
    case cleared => rw [hWord k hk, if_neg (by omega), if_pos h0]
    case kept => rw [hWord k hk, if_neg hne, if_neg h0]
    case reserved =>
      have hSeen : (t.desc a).setWord w seen = (t.desc a).setWord w v := Desc.setWord_descSeen _ v hw
      rw [Tile.applyWr_dword, hSeen]
      exact Tile.applyWr_dword t a w v
    case others => exact Tile.desc_applyWr_dword_ne t w v hb
  case counts =>
    intro one
    refine ⟨?_, ?_, ?_, ?_⟩
    · exact congrArg cnt1 (fld_low_half d.w1)
    · exact congrArg cnt1 (fld_high_half d.w1)
    · exact congrArg cnt1 (fld_low_half d.w2)
    · exact congrArg cnt1 (fld_high_half d.w2)

end Sys2Proof.Safety
end

section
/-!
PROOFS. An arbiter registers the requests, numbers its grants and picks a winner for each: the longest wait on a reserved grant, the highest rank on every other (R167).
-/

namespace Sys2Proof.Machine

/-! ### The request picked by a scan -/

/-- `w` is a request of `q`, and no request of `q` is ahead of it. -/
structure FirstOf {α : Type} (ahead : α → α → Prop) (q : List α) (w : α) : Prop where
  mem : w ∈ q
  notAhead : ∀ x ∈ q, ¬ ahead x w

/-- A scan that keeps its pick of the tail exactly where that one is ahead of the head picks the first of the list, if `ahead` orders by some key. -/
theorem exists_firstOf_of_scan {α : Type} {ahead : α → α → Prop} {pick : List α → Option α}
    (asymm : ∀ {x y}, ahead y x → ¬ ahead x y) (negTrans : ∀ {x y z}, ¬ ahead x y → ¬ ahead y z → ¬ ahead x z)
    (pick_one : ∀ x, pick [x] = some x)
    (pick_cons : ∀ {x y r}, pick r = some y → (ahead y x → pick (x :: r) = some y) ∧ (¬ ahead y x → pick (x :: r) = some x))
    {q : List α} (hq : q ≠ []) : ∃ w, pick q = some w ∧ FirstOf ahead q w := by
  have irrefl : ∀ x, ¬ ahead x x := fun x h => asymm h h
  induction q with
  | nil => exact absurd rfl hq
  | cons x r ih =>
    by_cases hr : r = []
    · subst hr
      exact ⟨x, pick_one x, List.mem_cons_self, List.forall_mem_singleton.mpr (irrefl x)⟩
    · obtain ⟨y, hPick, hy⟩ := ih hr
      obtain ⟨hKeep, hTake⟩ := pick_cons (x := x) hPick
      by_cases hAhead : ahead y x
      · exact ⟨y, hKeep hAhead, List.mem_cons_of_mem x hy.mem, List.forall_mem_cons.mpr ⟨asymm hAhead, hy.notAhead⟩⟩
      · exact ⟨x, hTake hAhead, List.mem_cons_self, List.forall_mem_cons.mpr ⟨irrefl x, fun z hz => negTrans (hy.notAhead z hz) hAhead⟩⟩

/-! ### The two orders of the requests (R167) -/

def outranks (y x : Nat × Nat × Nat) : Prop := y.1 < x.1

/-- A request that registered earlier outwaits a later one; of two that registered in one cycle, the higher-ranked one. -/
def outwaits (y x : Nat × Nat × Nat) : Prop := y.2.1 < x.2.1 ∨ (y.2.1 = x.2.1 ∧ y.1 < x.1)

theorem not_outranks_iff {x w : Nat × Nat × Nat} : ¬ outranks x w ↔ w.1 ≤ x.1 :=
  Nat.not_lt

theorem not_outwaits_iff {x w : Nat × Nat × Nat} : ¬ outwaits x w ↔ w.2.1 < x.2.1 ∨ (w.2.1 = x.2.1 ∧ w.1 ≤ x.1) := by
  unfold outwaits
  omega

theorem bestRank_firstOf {q : List (Nat × Nat × Nat)} (hq : q ≠ []) : ∃ w, bestRank q = some w ∧ FirstOf outranks q w := by
  refine exists_firstOf_of_scan (fun h => Nat.lt_asymm h) (fun hxy hyz => ?_) (fun _ => rfl) (fun hPick => ?_) hq
  · exact Nat.not_lt.mpr (Nat.le_trans (Nat.not_lt.mp hyz) (Nat.not_lt.mp hxy))
  · rw [bestRank, hPick]
    exact ⟨fun h => if_pos h, fun h => if_neg h⟩

theorem longestWait_firstOf {q : List (Nat × Nat × Nat)} (hq : q ≠ []) : ∃ w, longestWait q = some w ∧ FirstOf outwaits q w := by
  refine exists_firstOf_of_scan (fun h => ?_) (fun hxy hyz => ?_) (fun _ => rfl) (fun hPick => ?_) hq
  · rw [outwaits] at h
    rw [not_outwaits_iff]
    omega
  · rw [not_outwaits_iff] at *
    omega
  · rw [longestWait, hPick]
    exact ⟨fun h => if_pos h, fun h => if_neg h⟩

/-! ### A request registers -/

@[simp] theorem Arb.register_grants (a : Arb) (rank cycle beats : Nat) : (a.register rank cycle beats).grants = a.grants := by
  unfold Arb.register
  split <;> rfl

theorem Arb.register_waiting (a : Arb) (rank cycle beats : Nat) :
    (a.register rank cycle beats).waiting = if (∃ w ∈ a.waiting, w.1 = rank) then a.waiting else a.waiting ++ [(rank, cycle, beats)] := by
  simp only [Arb.register, List.any_eq_true, beq_iff_eq]
  split <;> rfl

/-! ### The winner of a grant -/

theorem Arb.winner_of_none_waits {a : Arb} (n : Nat) (h : a.waiting = []) : a.winner n = none := by
  rw [Arb.winner, h]
  exact ite_self none

theorem Arb.winner_of_reserved {a : Arb} {n : Nat} (hk : a.grants % n = n - 1) (hWaits : a.waiting ≠ []) :
    ∃ w, a.winner n = some w ∧ FirstOf outwaits a.waiting w := by
  rw [Arb.winner, reservedGrant, if_pos (beq_iff_eq.mpr hk)]
  exact longestWait_firstOf hWaits

theorem Arb.winner_of_not_reserved {a : Arb} {n : Nat} (hk : a.grants % n ≠ n - 1) (hWaits : a.waiting ≠ []) :
    ∃ w, a.winner n = some w ∧ FirstOf outranks a.waiting w := by
  rw [Arb.winner, reservedGrant, if_neg (mt beq_iff_eq.mp hk)]
  exact bestRank_firstOf hWaits

/-! ### A decision -/

theorem Arb.decide_of_no_winner {a : Arb} {n : Nat} (h : a.winner n = none) : a.decide n = { a with inUse := none, beats := 0 } := by
  rw [Arb.decide, h]

theorem Arb.decide_of_winner {a : Arb} {n : Nat} {w : Nat × Nat × Nat} (h : a.winner n = some w) :
    a.decide n = ⟨a.grants + 1, a.waiting.filter (fun x => Decidable.decide (x.1 ≠ w.1)), some w.1, w.2.2⟩ := by
  rw [Arb.decide, h]

end Sys2Proof.Machine

namespace Sys2Proof.Safety
open Sys2Proof Sys2Proof.Machine

/-- Settles O30: the winner is the first of the waiting requests, in the order of the waits on a reserved grant and in the order of the ranks on every other. -/
theorem arbiterFollowsItsRanks : Obligations.ArbiterFollowsItsRanks := by
  refine ⟨⟨rfl, fun _ _ => rfl, rfl⟩, fun a rank cycle beats => ⟨a.register_grants rank cycle beats, a.register_waiting rank cycle beats⟩,
    fun a n hNone => ?idle, fun a n _ hWaits => ?grant⟩
  case idle =>
    rw [Arb.decide_of_no_winner (Arb.winner_of_none_waits n hNone)]
    exact ⟨rfl, rfl⟩
  case grant =>
    by_cases hk : a.grants % n = n - 1
    · obtain ⟨w, hWinner, hFirst⟩ := Arb.winner_of_reserved hk hWaits
      exact ⟨w, hFirst.mem, Arb.decide_of_winner hWinner, fun _ x hx => not_outwaits_iff.mp (hFirst.notAhead x hx), fun hNot => absurd hk hNot⟩
    · obtain ⟨w, hWinner, hFirst⟩ := Arb.winner_of_not_reserved hk hWaits
      exact ⟨w, hFirst.mem, Arb.decide_of_winner hWinner, fun hRes => absurd hRes hk, fun _ x hx => not_outranks_iff.mp (hFirst.notAhead x hx)⟩

end Sys2Proof.Safety
end

section
/-!
PROOFS. The lake mapping is a decomposition: stack and offset in the stack are two digits of the address, channel and byte in the channel two of the offset, and each pair
gives back what it was taken from (R192).
-/

namespace Sys2Proof.Machine

/-! ### The stack and the offset in it -/

theorem lakeUnit_eq (mode : Nat) : lakeUnit mode = 4096 ∨ lakeUnit mode = 65536 := by
  rw [lakeUnit]
  split
  · exact Or.inl rfl
  · exact Or.inr rfl

theorem lakeStack_linear (a : Nat) : lakeStack 2 a = a / 0xC00000000 := rfl

theorem lakeSo_linear (a : Nat) : lakeSo 2 a = a % 0xC00000000 := rfl

theorem lakeUn_linear (stack so : Nat) : lakeUn 2 stack so = stack * 0xC00000000 + so := rfl

section RoundRobin
variable {mode : Nat} (hMode : mode ≠ 2)
include hMode

theorem lakeStack_roundRobin (a : Nat) : lakeStack mode a = a / lakeUnit mode % 8 := if_neg hMode

theorem lakeSo_roundRobin (a : Nat) : lakeSo mode a = a / (8 * lakeUnit mode) * lakeUnit mode + a % lakeUnit mode := if_neg hMode

theorem lakeUn_roundRobin (stack so : Nat) :
    lakeUn mode stack so = (so / lakeUnit mode * 8 + stack) * lakeUnit mode + so % lakeUnit mode := if_neg hMode

/-- The offset keeps the place within the unit, and its units count the whole rounds of the eight stacks. -/
theorem lakeSo_div_mod_unit (a : Nat) : lakeSo mode a / lakeUnit mode = a / lakeUnit mode / 8 ∧ lakeSo mode a % lakeUnit mode = a % lakeUnit mode := by
  rw [lakeSo_roundRobin hMode]
  obtain hu | hu := lakeUnit_eq mode <;> rw [hu] <;> omega

end RoundRobin

theorem lakeStack_lt {a : Nat} (mode : Nat) (ha : a < lakeEnd) : lakeStack mode a < 8 := by
  rw [lakeEnd] at ha
  by_cases hMode : mode = 2
  · subst hMode
    rw [lakeStack_linear]
    omega
  · rw [lakeStack_roundRobin hMode]
    omega

/-- A stack holds 48 GiB. -/
theorem lakeSo_lt {a : Nat} (mode : Nat) (ha : a < lakeEnd) : lakeSo mode a < 0xC00000000 := by
  rw [lakeEnd] at ha
  by_cases hMode : mode = 2
  · subst hMode
    rw [lakeSo_linear]
    omega
  · rw [lakeSo_roundRobin hMode]
    obtain hu | hu := lakeUnit_eq mode <;> rw [hu] <;> omega

theorem lakeUn_lakeStack_lakeSo (mode a : Nat) : lakeUn mode (lakeStack mode a) (lakeSo mode a) = a := by
  by_cases hMode : mode = 2
  · subst hMode
    exact Nat.div_add_mod' a 0xC00000000
  · obtain ⟨hDiv, hMod⟩ := lakeSo_div_mod_unit hMode a
    rw [lakeUn_roundRobin hMode, lakeStack_roundRobin hMode, hDiv, hMod, Nat.div_add_mod', Nat.div_add_mod']

theorem stackOf_lake {a : Nat} (mode : Nat) (ha : a < lakeEnd) : stackOf mode a = lakeStack mode a := if_pos ha

/-! ### The channel and the byte in it -/

theorem soRow_lt {so : Nat} (h : so < 0xC00000000) : soRow so < 12288 := by
  rw [soRow, soCa]
  omega

theorem chSo_soCh_soCa (so : Nat) : chSo (soCh so) (soCa so) = so := by
  rw [chSo, soCh, soCa]
  omega

end Sys2Proof.Machine

namespace Sys2Proof.Safety
open Sys2Proof Sys2Proof.Machine

/-- Settles O35: the places are the rule's by definition, their bounds follow from the size of a stack, and both decompositions can be undone. -/
theorem lakeAddressesMapToTheirPlaces : Obligations.LakeAddressesMapToTheirPlaces := by
  refine ⟨fun mode a ha => ?_, fun _ _ => ⟨rfl, rfl⟩⟩
  exact ⟨rfl, rfl, rfl, rfl, rfl, rfl, rfl, lakeStack_lt mode ha, soRow_lt (lakeSo_lt mode ha), stackOf_lake mode ha,
    lakeUn_lakeStack_lakeSo mode a, chSo_soCh_soCa _⟩

end Sys2Proof.Safety
end

section
/-!
SUPPORT. What an operation of the model changes, as one relation between the state before and after: the queue stands, only listed parts differ, and the memories keep their form. It holds of
each field written, and passes through choices, folds and one operation after another.
-/
namespace Sys2Proof.Laws
open Sys2Proof Sys2Proof.Machine Sys2Proof.Safety

/-- From `s` to `t` the queue stands, only the parts `ps` may differ, and the memories keep their canonical form. -/
structure Changes (ps : List Part) (s t : State) : Prop where
  pending : t.pending = s.pending
  same : ∀ p, p ∉ ps → p.same s t
  memories : memoriesWf s → memoriesWf t

/-- Every part of `qs` is one of `ps`. -/
def within (qs ps : List Part) : Bool := qs.all fun q => ps.contains q

theorem mem_of_within {qs ps : List Part} (m : within qs ps = true) {q : Part} (h : q ∈ qs) : q ∈ ps := by
  simpa using List.all_eq_true.mp m q h

/-- A command answers a next state, and up to it only the parts `ps` may have changed. -/
def Completes (ps : List Part) (s : State) (o : Out1) : Prop := ∃ t, o = .next t ∧ Changes ps s t

theorem Part.same_refl (s : State) (p : Part) : p.same s s := by cases p <;> rfl

theorem Part.same_trans {s t u : State} {p : Part} (h : p.same s t) (k : p.same t u) : p.same s u := by
  cases p <;> exact Eq.trans h k

namespace Changes
section
variable {ps qs : List Part} {s t u : State}

theorem refl : Changes ps s s := ⟨rfl, fun p _ => Part.same_refl s p, id⟩

theorem trans (h : Changes ps s t) (k : Changes ps t u) : Changes ps s u :=
  ⟨k.pending.trans h.pending, fun p hp => Part.same_trans (h.same p hp) (k.same p hp), k.memories ∘ h.memories⟩

/-- What changes some parts changes no other of a longer list. -/
theorem of (h : Changes qs s t) (m : within qs ps = true := by rfl) : Changes ps s t := ⟨h.pending, fun p hp => h.same p fun hq => hp (mem_of_within m hq), h.memories⟩

/-- A first operation, and then the rest. -/
theorem step (h : Changes qs s t) (k : Changes ps t u) (m : within qs ps = true := by rfl) : Changes ps s u := (h.of m).trans k

theorem ite {c : Prop} [Decidable c] {a b : State} (h : Changes ps s a) (k : Changes ps s b) : Changes ps s (if c then a else b) := by
  split
  · exact h
  · exact k

/-- A choice between two states that come with a value each. -/
theorem iteFst {β : Type} {c : Prop} [Decidable c] {a b : State × β} (h : Changes ps s a.1) (k : Changes ps s b.1) : Changes ps s (if c then a else b).1 := by
  split
  · exact h
  · exact k

theorem iteSnd {β : Type} {c : Prop} [Decidable c] {a b : β × State} (h : Changes ps s a.2) (k : Changes ps s b.2) : Changes ps s (if c then a else b).2 := by
  split
  · exact h
  · exact k

/-- A fold changes what each of its steps may change. -/
theorem foldl {α : Type} {f : State → α → State} (h : ∀ u x, Changes ps u (f u x)) {l : List α} : Changes ps s (l.foldl f s) :=
  foldl_inv f (Changes ps s ·) (fun _ _ k => k.trans (h _ _)) l s refl

theorem ofFst {β : Type} {x : State × β} {b : β} (h : Changes ps s x.1) (e : x = (t, b)) : Changes ps s t := by rwa [e] at h

theorem ofSnd {β : Type} {x : β × State} {b : β} (h : Changes ps s x.2) (e : x = (b, t)) : Changes ps s t := by rwa [e] at h

end

/-- The state `s` with the parts `ps` of `t`. -/
def taking (ps : List Part) (s t : State) : State :=
  let pick {α : Type} (p : Part) (f : State → α) : α := if ps.contains p then f t else f s
  { pending := s.pending, tiles := pick .tiles (·.tiles), rows := pick .rows (·.rows), seq := pick .seq (·.seq), time := pick .time (·.time), net := pick .net (·.net),
    lake := pick .lake (·.lake), ctx := pick .context (·.ctx), faults := pick .faults (·.faults), logs := pick .logs (·.logs), dieFrozen := pick .dieFrozen (·.dieFrozen),
    st := pick .links (·.st), dma := pick .dma (·.dma), pkg := pick .pkg (·.pkg), lpn := pick .lpn (·.lpn), gate := pick .gate (·.gate), pert := pick .perturb (·.pert),
    jtag := pick .jtag (·.jtag), cfg := pick .cfg (·.cfg), pid := pick .pid (·.pid), h := pick .host (·.h), m := pick .mgmt (·.m), pw := pick .power (·.pw),
    spr := pick .spares (·.spr), fw := pick .firmware (·.fw), ld := pick .loader (·.ld), out := pick .out (·.out) }

theorem taking_same (ps : List Part) (s t : State) {p : Part} (h : p ∉ ps) : p.same s (taking ps s t) := by
  cases p <;> simp [Part.same, taking, h]

/-- Several parts written at once. -/
theorem writes {s t : State} (ps : List Part) (e : t = taking ps s t := by rfl) (m : memoriesWf s → memoriesWf t := by exact id) : Changes ps s t :=
  ⟨(congrArg State.pending e).trans rfl, fun p hp => e.symm.subst (motive := (p.same s ·)) (taking_same ps s t hp), m⟩

/-! ### One part written -/

section
variable {s : State}
theorem tiles {x} : Changes [.tiles] s { s with tiles := x } := ⟨rfl, fun p _ => by cases p <;> simp_all [Part.same], id⟩
theorem rows {x} : Changes [.rows] s { s with rows := x } := ⟨rfl, fun p _ => by cases p <;> simp_all [Part.same], id⟩
theorem seq {x} : Changes [.seq] s { s with seq := x } := ⟨rfl, fun p _ => by cases p <;> simp_all [Part.same], id⟩
theorem time {x} : Changes [.time] s { s with time := x } := ⟨rfl, fun p _ => by cases p <;> simp_all [Part.same], id⟩
theorem net {x} : Changes [.net] s { s with net := x } := ⟨rfl, fun p _ => by cases p <;> simp_all [Part.same], id⟩
theorem lake {x : Lake} (h : s.lake.mem.wf = true → x.mem.wf = true := by exact id) : Changes [.lake] s { s with lake := x } :=
  ⟨rfl, fun p _ => by cases p <;> simp_all [Part.same], fun ⟨hl, hr, hm, hw⟩ => ⟨h hl, hr, hm, hw⟩⟩
theorem context {x} : Changes [.context] s { s with ctx := x } := ⟨rfl, fun p _ => by cases p <;> simp_all [Part.same], id⟩
theorem faults {x} : Changes [.faults] s { s with faults := x } := ⟨rfl, fun p _ => by cases p <;> simp_all [Part.same], id⟩
theorem logs {x} : Changes [.logs] s { s with logs := x } := ⟨rfl, fun p _ => by cases p <;> simp_all [Part.same], id⟩
theorem dieFrozen {x} : Changes [.dieFrozen] s { s with dieFrozen := x } := ⟨rfl, fun p _ => by cases p <;> simp_all [Part.same], id⟩
theorem links {x} : Changes [.links] s { s with st := x } := ⟨rfl, fun p _ => by cases p <;> simp_all [Part.same], id⟩
theorem dma {x} : Changes [.dma] s { s with dma := x } := ⟨rfl, fun p _ => by cases p <;> simp_all [Part.same], id⟩
theorem pkg {x} : Changes [.pkg] s { s with pkg := x } := ⟨rfl, fun p _ => by cases p <;> simp_all [Part.same], id⟩
theorem lpn {x} : Changes [.lpn] s { s with lpn := x } := ⟨rfl, fun p _ => by cases p <;> simp_all [Part.same], id⟩
theorem gate {x} : Changes [.gate] s { s with gate := x } := ⟨rfl, fun p _ => by cases p <;> simp_all [Part.same], id⟩
theorem perturb {x} : Changes [.perturb] s { s with pert := x } := ⟨rfl, fun p _ => by cases p <;> simp_all [Part.same], id⟩
theorem jtag {x} : Changes [.jtag] s { s with jtag := x } := ⟨rfl, fun p _ => by cases p <;> simp_all [Part.same], id⟩
theorem cfg {x} : Changes [.cfg] s { s with cfg := x } := ⟨rfl, fun p _ => by cases p <;> simp_all [Part.same], id⟩
theorem pid {x} : Changes [.pid] s { s with pid := x } := ⟨rfl, fun p _ => by cases p <;> simp_all [Part.same], id⟩
theorem host {x : HostSt} (hRam : s.h.ram.wf = true → x.ram.wf = true := by exact id)
    (hMem : s.h.mem.wf = true → x.mem.wf = true := by exact id) : Changes [.host] s { s with h := x } :=
  ⟨rfl, fun p _ => by cases p <;> simp_all [Part.same], fun ⟨hl, hr, hm, hw⟩ => ⟨hl, hRam hr, hMem hm, hw⟩⟩
theorem mgmt {x} : Changes [.mgmt] s { s with m := x } := ⟨rfl, fun p _ => by cases p <;> simp_all [Part.same], id⟩
theorem power {x} : Changes [.power] s { s with pw := x } := ⟨rfl, fun p _ => by cases p <;> simp_all [Part.same], id⟩
theorem spares {x} : Changes [.spares] s { s with spr := x } := ⟨rfl, fun p _ => by cases p <;> simp_all [Part.same], id⟩
theorem firmware {x} : Changes [.firmware] s { s with fw := x } := ⟨rfl, fun p _ => by cases p <;> simp_all [Part.same], id⟩
theorem loader {x : Loader} (h : s.ld.window.wf = true → x.window.wf = true := by exact id) : Changes [.loader] s { s with ld := x } :=
  ⟨rfl, fun p _ => by cases p <;> simp_all [Part.same], fun ⟨hl, hr, hm, hw⟩ => ⟨hl, hr, hm, h hw⟩⟩
theorem out {x} : Changes [.out] s { s with out := x } := ⟨rfl, fun p _ => by cases p <;> simp_all [Part.same], id⟩
end
end Changes

namespace Completes
variable {ps : List Part} {s t : State}

theorem ok (h : Changes ps s t) : Completes ps s (Machine.ok t) := ⟨t, rfl, h⟩

theorem ite {c : Prop} [Decidable c] {a b : Out1} (h : Completes ps s a) (k : Completes ps s b) : Completes ps s (if c then a else b) := by
  split
  · exact h
  · exact k

end Completes

/-- All the parts of a package. -/
def everyPart : List Part :=
  [.tiles, .rows, .seq, .time, .net, .lake, .context, .faults, .logs, .dieFrozen, .links, .dma, .pkg, .lpn, .gate, .perturb, .jtag, .cfg, .pid, .host, .mgmt, .power, .spares, .firmware, .loader,
    .out]

/-! ### The canonical form under what the meanings do to a memory -/

theorem copyWord_wf {x : Mem × Tab Nat} {w : Nat} (h : x.1.wf = true) : (copyWord x w).1.wf = true := by
  unfold copyWord
  split
  · exact Mem.store_wf _ _ _ h
  · exact Mem.store_wf _ _ _ h
  · exact h

theorem foldl_copyWord_wf {m : Mem} {flips : Tab Nat} {ws : List Nat} (h : m.wf = true) : Mem.wf (ws.foldl copyWord (m, flips)).1 = true :=
  foldl_inv copyWord (fun x => x.1.wf = true) (fun _ _ => copyWord_wf) ws _ h

theorem scrubWord_wf {m : Mem} {flips : Tab Nat} {a : Nat} (h : m.wf = true) : (scrubWord m flips a).1.wf = true := by
  unfold scrubWord
  dsimp only
  split
  · exact Mem.store_wf _ _ _ h
  · exact h

theorem scrubBeat_wf {m : Mem} {flips : Tab Nat} {a : Nat} (h : m.wf = true) : (scrubBeat m flips a).1.wf = true := by
  unfold scrubBeat
  exact foldl_inv _ (fun x : Mem × Tab Nat × List Ecc => x.1.wf = true) (fun _ _ k => by dsimp only; exact scrubWord_wf k) (List.range 16) _ h

theorem movedTo_wf {m : Mem} {unit src len : Nat} (h : m.wf = true) {rs : List (Nat × Nat)} :
    ∀ {o : Nat} {acc : Mem}, acc.wf = true → Mem.wf (movedTo m unit src len rs o acc) = true := by
  induction rs with
  | nil => exact id
  | cons r rs ih =>
    intro o acc k
    refine ih (List.foldlRecOn (motive := fun u : Mem => u.wf = true) m _ k fun u hu e he => ?_)
    split
    · exact Tab.set_wf _ _ _ _ hu (((Tab.wf_iff _ _).mp h).2 e he)
    · exact hu

theorem linkMem_wf {m : Mem} {up : Bool} {a : Nat} {bs : List Byte} (h : m.wf = true) : Mem.wf (if up = true then Mem.store m a bs else m) = true := by
  split
  · exact Mem.store_wf _ _ _ h
  · exact h

theorem castAnswered_window_wf {l : Loader} {tag kind refused : Nat} (h : l.window.wf = true) : (l.castAnswered tag kind refused).window.wf = true := by
  unfold Loader.castAnswered
  split
  · exact h
  · exact h

theorem scrubMem_wf {m : Mem} {flips : Tab Nat} {a : Nat} {c : Prop} [Decidable c] (h : m.wf = true) : (if c then (m, flips, []) else scrubBeat m flips a).1.wf = true := by
  split
  · exact h
  · exact scrubBeat_wf h

end Sys2Proof.Laws
end

section
/-!
SUPPORT. The parts that each operation of the model changes, in the order of the model's definitions. They are many and short, and the compile gives each theorem a thread; one at a time keeps
their number within the memory limit.
-/
namespace Sys2Proof.Laws
open Sys2Proof Sys2Proof.Machine Sys2Proof.Safety
set_option Elab.async false

/-! ### Ops -/

theorem Changes.advance {s : State} {t} : Changes [.time] s (s.advance t) := by
  unfold State.advance
  exact .ite .refl <| .ite (.of .time) <| .of .time

theorem Changes.setDie {s : State} {d v} : Changes [.net] s (s.setDie d v) := by
  unfold State.setDie
  exact .of .net

theorem Changes.setRow {s : State} {r v} : Changes [.rows] s (s.setRow r v) := by
  unfold State.setRow
  exact .of .rows

theorem Changes.markDefect {s : State} {kind location spare} : Changes [.logs] s (s.markDefect kind location spare) := by
  unfold State.markDefect
  exact .ite (.of .logs) <| .of .logs

theorem Changes.recordFault {s : State} {bit kills stepId location detail} : Changes [.context, .faults, .logs] s (s.recordFault bit kills stepId location detail) := by
  unfold State.recordFault
  exact .of (.writes [.context, .faults, .logs])

theorem Changes.recordTile {s : State} {pti t} : Changes [.context, .faults, .logs] s (s.recordTile pti t) := by
  unfold State.recordTile
  exact .foldl fun _ _ => .step .recordFault <| .trans (.ite (.of .faults) .refl) <| .ite (.of .markDefect) .refl

theorem Changes.putTile {s : State} {pti t} : Changes [.tiles, .context, .faults, .logs] s (s.putTile pti t) := by
  unfold State.putTile
  exact .step (.writes [.tiles, .faults]) <| .of .recordTile

theorem Changes.onTile {s : State} {pti f} : Changes [.tiles, .context, .faults, .logs] s (s.onTile pti f) := by
  unfold State.onTile
  exact .of .putTile

theorem Changes.onTid {s : State} {tid f} : Changes [.tiles, .context, .faults, .logs] s (s.onTid tid f) := by
  unfold State.onTid
  exact .ite (.of .onTile) .refl

theorem Changes.issue {s : State} {tid slot w eff} : Changes [.tiles, .context, .faults, .logs] s (s.issue tid slot w eff) := by
  unfold State.issue
  exact .of .onTid

theorem Changes.issueHold {s : State} {tid slot w eff} : Changes [.tiles, .context, .faults, .logs] s (s.issueHold tid slot w eff) := by
  unfold State.issueHold
  exact .of .onTid

theorem Changes.release {s : State} {tid slot sel eff} : Changes [.tiles, .context, .faults, .logs] s (s.release tid slot sel eff) := by
  unfold State.release
  exact .of .onTid

theorem Changes.wakeNow {s : State} {r extra} : Changes [.rows] s (s.wakeNow r extra) := by
  unfold State.wakeNow
  exact .ite .refl <| .of .setRow

theorem Changes.wakeRow {s : State} {r extra} : Changes [.rows] s (s.wakeRow r extra) := by
  unfold State.wakeRow
  exact .ite (.of .setRow) <| .ite (.of .setRow) <| .of .wakeNow

theorem Changes.wakeDeferred {s : State} {r extra} : Changes [.rows] s (s.wakeDeferred r extra) := by
  unfold State.wakeDeferred
  exact .ite (.step .setRow <| .of .wakeNow) .refl

/-! ### NetOps -/

theorem Changes.addPkt {s : State} {p} : Changes [.net] s (s.addPkt p) := by
  unfold State.addPkt
  exact .of .net

theorem Changes.setPkt {s : State} {p} : Changes [.net] s (s.setPkt p) := by
  unfold State.setPkt
  exact .of .net

theorem Changes.delPkt {s : State} {id} : Changes [.net] s (s.delPkt id) := by
  unfold State.delPkt
  exact .of .net

theorem Changes.inject {s : State} {p d src dst} : Changes [.net] s (s.inject p d src dst) := by
  unfold State.inject
  exact .of .addPkt

theorem Changes.sendFrom {s : State} {p d src} : Changes [.net] s (s.sendFrom p d src) := by
  unfold State.sendFrom
  split
  · exact .ite (.of .inject) <| .of .inject
  · exact .of .inject

theorem Changes.setBridge {s : State} {b es} : Changes [.net] s (s.setBridge b es) := by
  unfold State.setBridge
  exact .of .net

theorem Changes.bridgeTake {s : State} {b p} : Changes [.net] s (s.bridgeTake b p).1 := by
  unfold State.bridgeTake
  exact .of .setBridge

theorem Changes.bridgeGive {s : State} {b p} : Changes [.net] s (s.bridgeGive b p).1 := by
  unfold State.bridgeGive
  dsimp only
  split
  · exact .of .setBridge
  · exact .refl

theorem Changes.reply {s : State} {q d src kind ext data} : Changes [.net] s (s.reply q d src kind ext data) := by
  unfold State.reply
  dsimp only
  split
  · exact .ite (.of .inject) <| .of .sendFrom
  · split <;> exact .of .sendFrom

theorem Changes.hopFound {s : State} {d plane loc input h} : Changes [.net, .context, .faults, .logs] s (s.hopFound d plane loc input h) := by
  unfold State.hopFound
  exact .step .setDie <| .step .faults <| .ite (.step .setDie <| .of .recordFault) .refl

theorem Changes.setArb {s : State} {kind idx a} : Changes [.net] s (s.setArb kind idx a) := by
  unfold State.setArb
  exact .of .net

theorem Changes.startGrant {s : State} {kind idx rank} : Changes [.net] s (s.startGrant kind idx rank) := by
  unfold State.startGrant
  exact .of .setArb

theorem Changes.endGrant {s : State} {kind idx} : Changes [.net] s (s.endGrant kind idx) := by
  unfold State.endGrant
  exact .of .setArb

theorem Changes.useGrant {s : State} {kind idx rank} : Changes [.net] s (s.useGrant kind idx rank) := by
  unfold State.useGrant
  exact .step .startGrant <| .of .endGrant

theorem Changes.askGrant {s : State} {kind idx rank} : Changes [.net] s (s.askGrant kind idx rank) := by
  unfold State.askGrant
  exact .of .setArb

theorem Changes.glazeBeats {pti rank off len n} : ∀ {s : State} {done}, Changes [.net] s (s.glazeBeats pti rank off len n done).1 := by
  induction n with
  | zero => exact .refl
  | succ n ih =>
    intro s done
    unfold State.glazeBeats
    exact .iteFst .refl <| .iteFst .refl <| .iteFst (.of .askGrant) <| .trans (.ite (.step .startGrant <| .of .endGrant) (.of .startGrant)) ih

theorem Changes.glazeMove {s : State} {pti rank off len done} : Changes [.net] s (s.glazeMove pti rank off len done).1 := by
  unfold State.glazeMove
  exact .of .glazeBeats

theorem Changes.putBytes {s : State} {pti space addr bs lo hi} : Changes [.tiles, .context, .faults, .logs] s (s.putBytes pti space addr bs lo hi) := by
  unfold State.putBytes
  exact .of .onTile

theorem Changes.tileReady {s : State} {pti} : Changes [.tiles, .rows] s (s.tileReady pti).1 := by
  unfold State.tileReady
  exact .iteFst .refl <| .trans (.ite .refl <| .of .tiles) <| .of .wakeNow

/-! ### Transfer -/

theorem Changes.glazeDbe {s : State} {pti word scrub} : Changes [.net, .context, .faults, .logs] s (s.glazeDbe pti word scrub) := by
  unfold State.glazeDbe
  exact .step .setDie <| .ite .refl <| .step .recordFault <| .of .markDefect

theorem Changes.portRead {s : State} {pti space addr n} : Changes [.tiles, .net, .context, .faults, .logs] s (s.portRead pti space addr n).1 := by
  have counted {d r f} : Changes [.net, .faults] s { s.setDie d r with faults := f } := .writes _
  unfold State.portRead
  simp only [apply_ite Prod.fst]
  refine .ite (.ite (.trans (.ite .refl <| .of .onTile) <| .of .onTile) <| .ite .refl <| .of .onTile) ?_
  split
  · dsimp only
    refine .trans ?_ (.of .glazeDbe)
    exact .ite .refl (.of counted)
  · exact .ite .refl <| .of counted

theorem Changes.sendReq {s : State} {pti op lpn q data} : Changes [.tiles, .net] s (s.sendReq pti op lpn q data) := by
  unfold State.sendReq
  exact .step .tiles <| .ite (.of .addPkt) <| .of .sendFrom

theorem Changes.sendReqs {pti op lpn rs} : ∀ {s : State}, Changes [.tiles, .net, .context, .faults, .logs] s (s.sendReqs pti op lpn rs) := by
  induction rs with
  | nil => exact .refl
  | cons q r ih =>
    intro s
    unfold State.sendReqs
    split
    · exact .step .sendReq ih
    · split
      · exact .step (.ofFst .portRead ‹_›) <| .step .sendReq ih
      · exact .step (.ofFst .portRead ‹_›) <| .of .onTile

theorem Changes.sendXf {s : State} {pti t w} : Changes [.tiles, .net, .context, .faults, .logs] s (s.sendXf pti t w) := by
  unfold State.sendXf
  refine .ite ?_ <| .step .onTile <| .of .sendReqs
  split
  · exact .step (.ofFst .portRead ‹_›) <| .step .onTile <| .of .sendReqs
  · exact .of (.ofFst .portRead ‹_›)

theorem Changes.issueXf {s : State} {tid w} : Changes [.tiles, .net, .context, .faults, .logs] s (s.issueXf tid w) := by
  unfold State.issueXf
  exact .step .issueHold <| .ite (.of .sendXf) .refl

theorem Changes.dapEnd {s : State} {status data} : Changes [.jtag] s (s.dapEnd status data) := by
  unfold State.dapEnd
  exact .of .jtag

theorem Changes.dbgTake {s : State} {pti} : Changes [.tiles, .net] s (s.dbgTake pti) := by
  unfold State.dbgTake
  exact .of (.writes [.tiles, .net])

theorem Changes.dapServe {s : State} : Changes [.tiles, .rows, .net, .context, .faults, .logs, .jtag] s s.dapServe := by
  unfold State.dapServe
  split
  · exact .refl
  · split
    · exact .of (.ofFst .tileReady ‹_›)
    · refine .ite (.of (.ofFst .tileReady ‹_›)) ?_
      dsimp only
      split
      · exact .step (.ofFst .tileReady ‹_›) <| .trans (.ite (.of .dbgTake) .refl) <| .step .jtag <| .step .onTile <| .of .dapEnd
      · split <;> exact .step (.ofFst .tileReady ‹_›) <| .trans (.ite (.of .dbgTake) .refl) <| .step .jtag <| .step (.ofFst .portRead ‹_›) <| .of .dapEnd

/-! ### LinkOps -/

theorem Changes.setLink {s : State} {l v} : Changes [.links] s (s.setLink l v) := by
  unfold State.setLink
  exact .of .links

theorem Changes.setOctet {s : State} {o v} : Changes [.links] s (s.setOctet o v) := by
  unfold State.setOctet
  exact .of .links

theorem Changes.queueFrom {s : State} {l slot sch arrival} : Changes [.links] s (s.queueFrom l slot sch arrival) := by
  unfold State.queueFrom
  exact .ite .refl <| .of .setLink

theorem Changes.queueSlot {s : State} {l slot sch} : Changes [.links] s (s.queueSlot l slot sch) := by
  unfold State.queueSlot
  exact .of .queueFrom

theorem Changes.queueEm {s : State} {l m} : Changes [.links] s (s.queueEm l m) := by
  unfold State.queueEm
  exact .ite .refl <| .of .setLink

theorem Changes.sendCtl {s : State} {l slot} : Changes [.out] s (s.sendCtl l slot) := by
  unfold State.sendCtl
  exact .ite .refl <| .of .out

theorem Changes.closeFrame {s : State} {l} : Changes [.links, .out] s (s.closeFrame l) := by
  unfold State.closeFrame
  exact .step .setLink <| .of .out

theorem Changes.flushTx {s : State} {l} : Changes [.links, .out] s (s.flushTx l) := by
  unfold State.flushTx
  exact .ite (.of .closeFrame) .refl

theorem Changes.placeFlit {s : State} {l f} : Changes [.links, .out] s (s.placeFlit l f) := by
  unfold State.placeFlit
  exact .step .links <| .step .setLink <| .ite (.of .closeFrame) .refl

theorem Changes.alignFrame {s : State} {l n} : Changes [.links, .out] s (s.alignFrame l n) := by
  unfold State.alignFrame
  exact .ite (.of .closeFrame) .refl

theorem Changes.rideSlot {s : State} {l h x} : Changes [.links] s (s.rideSlot l h x) := by
  unfold State.rideSlot
  exact .of .setLink

theorem Changes.placeSlot {s : State} {l x} : Changes [.links, .out] s (s.placeSlot l x) := by
  unfold State.placeSlot
  exact .step .alignFrame <| .trans (.foldl fun _ _ => .of .placeFlit) <| .ite (.of .setLink) .refl

theorem Changes.setTim {s : State} {l v} : Changes [.time] s (s.setTim l v) := by
  unfold State.setTim
  exact .of .time

theorem Changes.timStamp {s : State} {l x ft} : Changes [.time] s (s.timStamp l x ft) := by
  unfold State.timStamp
  split
  · exact .ite (.of .setTim) <| .ite (.of .setTim) .refl
  · exact .refl

theorem Changes.restamp {s : State} {l a n} : Changes [.time] s (s.restamp l a n) := by
  unfold State.restamp
  exact .foldl fun _ _ => .of .timStamp

theorem Changes.linkResume {s : State} {l} : Changes [.time, .links] s (s.linkResume l) := by
  unfold State.linkResume
  exact .step .setLink <| .ite .refl <| .of .restamp

theorem Changes.replay {s : State} {l} : Changes [.time, .links, .out] s (s.replay l) := by
  unfold State.replay
  exact .ite .refl <| .step .setLink <| .step .out <| .of .restamp

theorem Changes.broadcast {s : State} {m but} : Changes [.links] s (s.broadcast m but) := by
  unfold State.broadcast
  exact .foldl fun _ _ => .ite (.of .queueEm) <| .of .queueSlot

theorem Changes.countUnreach {s : State} {lpn sch} : Changes [.links] s (s.countUnreach lpn sch) := by
  unfold State.countUnreach
  exact .of .links

theorem Changes.sendRemote {s t : State} {p tid} (h : s.sendRemote p tid = some t) : Changes [.links] s t := by
  unfold State.sendRemote at h
  split at h
  · cases h
    exact .queueSlot
  · cases h

theorem Changes.sendRsp {s : State} {p arrival} : Changes [.links] s (s.sendRsp p arrival) := by
  unfold State.sendRsp
  split
  · exact .of .queueFrom
  · exact .ite (.of .queueFrom) <| .of .countUnreach

theorem Changes.sendMgt {s : State} {m} : Changes [.links] s (s.sendMgt m) := by
  unfold State.sendMgt
  split
  · exact .ite (.of .queueEm) <| .of .queueSlot
  · exact .of .countUnreach

theorem Changes.hubAnswer {s : State} {a} : Changes [.net, .links] s (s.hubAnswer a) := by
  unfold State.hubAnswer
  split
  · exact .ite .refl <| .of .sendRsp
  · exact .of .addPkt
  · exact .of .addPkt

theorem Changes.hubError {s : State} {q code} : Changes [.net, .links] s (s.hubError q code) := by
  unfold State.hubError
  exact .of .hubAnswer

theorem Changes.hubOut {s : State} {q mir} : Changes [.net, .links] s (s.hubOut q mir) := by
  unfold State.hubOut
  refine .ite .refl ?_
  dsimp only
  split
  · exact .of (.sendRemote ‹_›)
  · exact .step .countUnreach <| .of .hubError

theorem Changes.hubIn {s : State} {q} : Changes [.net, .links] s (s.hubIn q) := by
  unfold State.hubIn
  refine .ite (.of .addPkt) <| .ite (.of .addPkt) ?_
  split
  · exact .of .addPkt
  · exact .ite (.of .hubError) <| .ite (.ite (.of .hubAnswer) <| .of .hubError) <| .of .addPkt
  · exact .ite (.of .hubError) <| .ite (.ite (.of .hubAnswer) <| .of .hubError) <| .of .addPkt
  · exact .of .hubError

theorem Changes.event {s : State} {code source data} : Changes [.logs] s (s.event code source data) := by
  unfold State.event
  exact .of .logs

theorem Changes.nearMissEvent {s : State} {timer} : Changes [.logs] s (s.nearMissEvent timer) := by
  unfold State.nearMissEvent
  exact .of .event

theorem Changes.answerUnreach {s : State} {p} : Changes [.net] s (s.answerUnreach p) := by
  unfold State.answerUnreach
  refine .ite ?_ <| .ite (.of .addPkt) <| .of .addPkt
  split
  · exact .of .addPkt
  · exact .refl

theorem Changes.relink {s : State} {e} : Changes [.net, .links] s (s.relink e) := by
  unfold State.relink
  split
  · refine .ite ?_ ?_
    · split
      · exact .of .sendRsp
      · split
        · exact .of .queueSlot
        · exact .of .countUnreach
    · split
      · exact .of (.sendRemote ‹_›)
      · exact .step .countUnreach <| .of .answerUnreach
  · exact .ite .refl <| .of .sendMgt
  · exact .refl

theorem Changes.handoffFail {s : State} {l} : Changes [.net, .context, .faults, .logs, .links] s (s.handoffFail l) := by
  unfold State.handoffFail
  exact .step .setLink <| .trans (.foldl fun _ _ => .of .relink) <| .ite (.of .recordFault) .refl

theorem Changes.handoffStart {s : State} {l tgt} : Changes [.net, .context, .faults, .logs, .links, .out] s (s.handoffStart l tgt) := by
  unfold State.handoffStart
  split
  · exact .step .setLink <| .step .links <| .of .sendCtl
  · exact .of .handoffFail

theorem Changes.moveSlot {s : State} {o sl l} : Changes [.links] s (s.moveSlot o sl l) := by
  unfold State.moveSlot
  exact .step .setOctet <| .step .setLink <| .of .setLink

theorem Changes.linkFailed {s : State} {l} : Changes [.net, .context, .faults, .logs, .links, .out] s (s.linkFailed l) := by
  unfold State.linkFailed
  dsimp only
  split
  · exact .ite (.step .moveSlot <| .of .handoffStart) <| .step .setOctet <| .of .handoffStart
  · split
    · exact .step .setLink <| .of .handoffStart
    · exact .of .handoffStart

theorem Changes.takeParent {s : State} {l} : Changes [.time] s (s.takeParent l) := by
  unfold State.takeParent
  exact .of .time

theorem Changes.reparent {s : State} {since} : Changes [.time] s (s.reparent since) := by
  unfold State.reparent
  split
  · exact .of .takeParent
  · exact .of .time

theorem Changes.timDown {s : State} {l} : Changes [.time] s (s.timDown l) := by
  unfold State.timDown
  exact .step .time <| .ite (.of .reparent) .refl

theorem Changes.linkDown {s : State} {l retry} : Changes [.time, .net, .context, .faults, .logs, .links, .out] s (s.linkDown l retry) := by
  unfold State.linkDown
  exact .step .setLink <| .step .timDown <| .ite (.of .linkFailed) .refl

theorem Changes.fastStart {s : State} {l} : Changes [.time, .net, .context, .faults, .logs, .links, .out] s (s.fastStart l) := by
  unfold State.fastStart
  exact .ite .refl <| .ite (.of .linkDown) <| .of .setLink

theorem Changes.freeCredit {s : State} {l p n} : Changes [.links] s (s.freeCredit l p n) := by
  unfold State.freeCredit
  exact .ite .refl <| .of .setLink

theorem Changes.takeRx {s t : State} {l f x} (h : s.takeRx l f = some (x, t)) : Changes [.links] s t := by
  unfold State.takeRx at h
  dsimp only at h
  split at h <;> cases h
  · exact .setLink
  · exact .step .setLink <| .of .freeCredit

/-! ### Network -/

theorem Changes.branchTo {s : State} {p x} : Changes [.net] s (s.branchTo p x) := by
  unfold State.branchTo
  exact .of .addPkt

theorem Changes.bcastBranch {s : State} {p} : Changes [.net] s (s.bcastBranch p) := by
  unfold State.bcastBranch
  exact .step .delPkt <| .step .net <| .trans (.foldl fun _ _ => .of .branchTo) <| .foldl fun _ _ => .of .addPkt

theorem Changes.bcastBack {s : State} {p a} : Changes [.net] s (s.bcastBack p a) := by
  unfold State.bcastBack
  split
  · exact .of .reply
  · split
    · exact .refl
    · exact .of .addPkt

theorem Changes.bcastGot {n} : ∀ {s : State} {g a}, Changes [.net] s (s.bcastGot g a n) := by
  induction n with
  | zero => exact .refl
  | succ n ih =>
    intro s g a
    unfold State.bcastGot
    split
    · exact .refl
    · refine .ite ?_ (.of .net)
      split
      · exact .step .net <| .of .bcastBack
      · exact .step .net <| .ite ih <| .of .bcastBack

theorem Changes.bcastTurn {s : State} {p} : Changes [.net] s (s.bcastTurn p) := by
  unfold State.bcastTurn
  split
  · exact .refl
  · exact .ite .refl <| .ite (.step .delPkt <| .of .bcastGot) <| .ite .refl <| .of .bcastBranch

theorem Changes.hopGrant {s : State} {p} : Changes [.net] s (s.hopGrant p) := by
  unfold State.hopGrant
  exact .ite .refl <| .of .useGrant

theorem Changes.countTileDrop {s : State} : Changes [.faults] s s.countTileDrop := by
  unfold State.countTileDrop
  exact .of .faults

theorem Changes.tileNack {s : State} {pti p} : Changes [.net, .faults] s (s.tileNack pti p) := by
  unfold State.tileNack
  exact .step .countTileDrop <| .step .delPkt <| .of .reply

theorem Changes.serveTile {s : State} {ps id kind f} (h : ∀ u pti p, Changes ps u (f u pti p)) (m : within [.tiles, .rows, .net, .faults] ps = true := by rfl) :
    Changes ps s (s.serveTile id kind f) := by
  have ready {u pti b} (e : s.tileReady pti = (u, b)) : Changes [.tiles, .rows, .net, .faults] s u := .of (.ofFst .tileReady e)
  unfold State.serveTile
  split
  · exact .refl
  · split
    · exact .refl
    · refine .ite .refl ?_
      split
      · exact .of (ready ‹_›) m
      · exact .ite (.of (.trans (ready ‹_›) <| .of .tileNack) m) <| .step (ready ‹_›) (h ..) m

theorem Changes.glazeServe {s : State} {g} : Changes [.tiles, .net, .context, .faults, .logs] s (s.glazeServe g) := by
  unfold State.glazeServe
  dsimp only
  split
  · exact .step .glazeMove <| .step (.ofFst .portRead ‹_›) <| .step .net <| .of .reply
  · exact .step .glazeMove <| .step (.ofFst .portRead ‹_›) <| .ite (.of .net) <| .step .net <| .of .reply

theorem Changes.glazePut {s : State} {p pti rank off bs} : Changes [.tiles, .net, .context, .faults, .logs] s (s.glazePut p pti rank off bs).1 := by
  unfold State.glazePut
  exact .step .glazeMove <| .step .putBytes <| .iteFst .refl <| .of .setPkt

theorem Changes.bcastOne {s : State} {p pti} : Changes [.tiles, .net, .context, .faults, .logs] s (s.bcastOne p pti).1 := by
  unfold State.bcastOne
  simp only [apply_ite Prod.fst]
  refine .ite (.of .countTileDrop) <| .ite .refl <| .ite ?_ <| .ite ?_ (.of .onTile)
  · split
    · exact .of .putTile
    · exact .refl
  · split <;> exact .of (.ofFst .glazePut ‹_›)

theorem Changes.bcastFork {s : State} {p} : Changes [.net] s (s.bcastFork p) := by
  unfold State.bcastFork
  exact .step .delPkt <| .ite (.of .bcastBack) <| .step .net <| .of .branchTo

theorem Changes.takeAnswer {s : State} {ps id kind f} (h : ∀ u pti p c, Changes ps u (f u pti p c)) (m : within [.tiles, .rows, .net, .context, .faults, .logs] ps = true := by rfl) :
    Changes ps s (s.takeAnswer id kind f) := by
  let base : List Part := [.tiles, .rows, .net, .context, .faults, .logs]
  have ready {u pti b} (e : s.tileReady pti = (u, b)) : Changes base s u := .of (.ofFst .tileReady e)
  have del {u} : Changes base u (u.delPkt id) := .of .delPkt
  unfold State.takeAnswer
  split
  · exact .refl
  · refine .ite (.of (qs := base) (.step .countTileDrop <| .of .delPkt) m) <| .ite (.of (qs := base) (.step .delPkt <| .of .onTile) m) <| .ite (.step del (h ..) m) ?_
    split
    · exact .of (ready ‹_›) m
    · refine .ite ?_ <| .step (ready ‹_›) (.step del (h ..) m) m
      split
      · exact .of (qs := base) (.trans (ready ‹_›) <| .step (.ofFst .glazePut ‹_›) <| .step .delPkt <| .of .onTile) m
      · exact .of (qs := base) (.trans (ready ‹_›) <| .of (.ofFst .glazePut ‹_›)) m

theorem Changes.writeAnswer {s : State} {pti p c} : Changes [.tiles, .context, .faults, .logs] s (s.writeAnswer pti p c) := by
  unfold State.writeAnswer
  exact .of .onTile

/-! ### LakeOps -/

theorem Changes.setStack {s : State} {k v} : Changes [.lake] s (s.setStack k v) := by
  unfold State.setStack
  exact .of .lake

theorem Changes.spareRow {s : State} {k row} : Changes [.lake, .logs] s (s.spareRow k row) := by
  unfold State.spareRow
  exact .ite .refl <| .ite (.of .setStack) <| .step .setStack <| .of .markDefect

theorem Changes.lakeDbe {s : State} {k a op scrub} : Changes [.lake, .context, .faults, .logs] s (s.lakeDbe k a op scrub) := by
  unfold State.lakeDbe
  exact .step .setStack <| .trans (.ite (.of .recordFault) .refl) <| .of .spareRow

theorem Changes.lakeFixed {s : State} {k a} : Changes [.lake, .faults, .logs] s (s.lakeFixed k a) := by
  unfold State.lakeFixed
  exact .step .setStack <| .step .faults <| .ite (.of .spareRow) .refl

theorem Changes.lakeFound {op scrub ws} : ∀ {s : State} {a}, Changes [.lake, .context, .faults, .logs] s (s.lakeFound op scrub a ws) := by
  induction ws with
  | nil => exact .refl
  | cons w r ih =>
    intro s a
    unfold State.lakeFound
    exact .trans (.ite (.of .lakeFixed) <| .ite (.of .lakeDbe) .refl) ih

theorem Changes.lakeStore {s : State} {a bs} : Changes [.lake] s (s.lakeStore a bs) := by
  unfold State.lakeStore
  exact .of (.lake (h := by exact (Mem.store_wf _ _ _)))

theorem Changes.lakeZero {s : State} {a n} : Changes [.lake] s (s.lakeZero a n) := by
  unfold State.lakeZero
  exact .of (.lake (h := by exact (Mem.zero_wf _ _ _)))

theorem Changes.lakeStrike {s : State} {ups} : Changes [.lake] s (s.lakeStrike ups) := by
  unfold State.lakeStrike
  exact .of .lake

theorem Changes.reduceInto {s : State} {fmt rop base ws data} : Changes [.lake] s (s.reduceInto fmt rop base ws data) := by
  unfold State.reduceInto
  exact .foldl fun _ _ => .ite .refl <| .of .lakeStore

theorem Changes.pinNote {s : State} {k a n bad} : Changes [.lake, .context, .faults, .logs] s (s.pinNote k a n bad) := by
  unfold State.pinNote
  exact .step .setStack <| .step .faults <| .ite (.step .setStack <| .of .recordFault) .refl

theorem Changes.palTable {s : State} {k a errs} : Changes [.lake, .context, .faults, .logs] s (s.palTable k a errs).1 := by
  unfold State.palTable
  dsimp only
  split
  · exact .of .setStack
  · simp only [apply_ite Prod.fst]
    exact .ite (.of .lakeFound) <| .step .lakeFound <| .step .pinNote <| .ite .refl <| .of .setStack

theorem Changes.pinFound {s : State} {k p h} : Changes [.lake, .context, .faults, .logs] s (s.pinFound k p h) := by
  unfold State.pinFound
  exact .of .pinNote

theorem Changes.rasError {s : State} : Changes [.host] s s.rasError := by
  unfold State.rasError
  exact .of .host

theorem Changes.hdmPoison {s : State} {tag} : Changes [.host, .out] s (s.hdmPoison tag) := by
  unfold State.hdmPoison
  exact .step .rasError <| .of .out

theorem Changes.lakeReply {s : State} {rsp k p kind ext data} : Changes [.net, .lake, .context, .faults, .logs, .jtag, .host, .out] s (s.lakeReply rsp k p kind ext data) := by
  unfold State.lakeReply
  dsimp only
  split
  · exact .step .pinFound <| .ite (.ite (.of .hdmPoison) <| .of .out) <| .ite .refl <| .of .out
  · exact .step .pinFound <| .ite .refl <| .of .jtag
  · exact .step .pinFound <| .ite .refl <| .of .reply

theorem Changes.lakeApply {s : State} {k p rsp} : Changes [.net, .lake, .context, .faults, .logs, .jtag, .host, .out] s (s.lakeApply k p rsp) := by
  unfold State.lakeApply
  dsimp only
  split
  · exact .step .delPkt <| .step .lakeFound <| .ite (.of .lakeReply) <| .of .lakeReply
  · exact .step .delPkt <| .step .lakeStore <| .of .lakeReply
  · exact .step .delPkt <| .step .reduceInto <| .step .lakeFound <| .ite (.of .lakeReply) <| .of .lakeReply
  · exact .step .delPkt <| .step .reduceInto <| .step .lakeFound <| .ite (.of .lakeReply) <| .of .lakeReply
  · exact .step .delPkt <| .step .lakeFound <| .ite (.of .lakeReply) <| .of .lakeReply
  · refine .ite (.step .delPkt <| .step .lakeFound <| .of .lakeReply) <| .ite (.step .delPkt <| .step .lakeFound <| .step .setStack <| .of .lakeReply) ?_
    split
    · exact .step .delPkt <| .step .lakeFound <| .step (.ofFst .palTable ‹_›) <| .of .lakeReply
    · exact .step .delPkt <| .step .lakeFound <| .of (.ofFst .palTable ‹_›)
    · exact .step .delPkt <| .step .lakeFound <| .step (.ofFst .palTable ‹_›) <| .of .lakeReply
  · exact .step .delPkt <| .step .lakeZero <| .of .lakeReply
  · exact .step .delPkt <| .of .lakeReply

theorem Changes.askWake {s : State} {x} : Changes [.lake] s (s.askWake x) := by
  unfold State.askWake
  exact .of .setStack

theorem Changes.lakeWait {s : State} {k id} : Changes [.lake] s (s.lakeWait k id) := by
  unfold State.lakeWait
  exact .of .setStack

theorem Changes.lakeUse {s : State} {need} : Changes [.lake] s (s.lakeUse need) := by
  unfold State.lakeUse
  exact .foldl fun _ _ => .of .setStack

theorem Changes.lakeCount {s : State} {rs} : Changes [.lake] s (s.lakeCount rs) := by
  unfold State.lakeCount
  exact .of .lake

theorem Changes.chanUse {s : State} {need rank} : Changes [.net] s (s.chanUse need rank) := by
  unfold State.chanUse
  exact .foldl fun _ _ => .of .useGrant

theorem Changes.chanAsk {s : State} {need rank} : Changes [.net] s (s.chanAsk need rank) := by
  unfold State.chanAsk
  exact .foldl fun _ _ => .of .askGrant

theorem Changes.lakeRun {s : State} {k p rsp} : Changes [.net, .lake, .context, .faults, .logs, .jtag, .host, .out] s (s.lakeRun k p rsp) := by
  unfold State.lakeRun
  exact .ite (.trans (.foldl fun _ _ => .of .askWake) <| .of .lakeWait) <| .ite (.of .lakeWait) <| .ite (.step .chanAsk <| .of .lakeWait) <| .step .lakeUse <|
    .step .chanUse <| .step .lakeCount <| .of .lakeApply

theorem Changes.lakeServe {s : State} {id want req rsp} : Changes [.net, .lake, .context, .faults, .logs, .jtag, .host, .out] s (s.lakeServe id want req rsp) := by
  unfold State.lakeServe
  split
  · exact .refl
  · exact .ite .refl <| .ite .refl <| .ite .refl <| .step .pinFound <| .ite (.of .delPkt) <| .ite (.of .delPkt) <| .ite (.step .setStack <| .step .delPkt <|
      .of .lakeReply) <| .ite (.of .setStack) <| .ite (.step .setStack <| .step .delPkt <| .of .lakeReply) <| .step .setPkt <| .of .lakeRun

theorem Changes.lakeResume {k rsp ids} : ∀ {s : State}, Changes [.net, .lake, .context, .faults, .logs, .jtag, .host, .out] s (s.lakeResume k rsp ids) := by
  induction ids with
  | nil => exact .refl
  | cons id r ih =>
    intro s
    unfold State.lakeResume
    split
    · exact .step .lakeRun ih
    · exact ih

theorem Changes.lakeRetry {s : State} {rsp} : Changes [.net, .lake, .context, .faults, .logs, .jtag, .host, .out] s (s.lakeRetry rsp) := by
  unfold State.lakeRetry
  exact .foldl fun _ _ => .ite .refl <| .step .setStack <| .of .lakeResume

/-! ### LakeCmds -/

theorem Changes.passOver {s : State} {k c} : Changes [.lake] s (s.passOver k c) := by
  unfold State.passOver
  exact .of .setStack

/-! ### PkgOps -/

theorem Changes.setUnder {s : State} {u} : Changes [.pkg] s (s.setUnder u) := by
  unfold State.setUnder
  exact .of .pkg

theorem Changes.addOrder {s : State} {opcode party other seq value otherValue} : Changes [.logs] s (s.addOrder opcode party other seq value otherValue) := by
  unfold State.addOrder
  exact .of .logs

theorem Changes.setFrozen {s : State} {d b} : Changes [.seq, .dieFrozen, .power] s (s.setFrozen d b) := by
  unfold State.setFrozen
  exact .ite .refl <| .ite (.of (.writes [.dieFrozen, .power])) <| .of (.writes [.seq, .dieFrozen, .power])

theorem Changes.hwFreeze {s : State} {ds} : Changes [.seq, .dieFrozen, .power] s (s.hwFreeze ds) := by
  unfold State.hwFreeze
  exact .step .power <| .foldl fun _ _ => .of .setFrozen

theorem Changes.recordStep {s : State} {x} : Changes [.seq] s (s.recordStep x) := by
  unfold State.recordStep
  exact .of .seq

theorem Changes.runEnd {s : State} : Changes [.seq] s s.runEnd := by
  unfold State.runEnd
  exact .ite (.of .seq) .refl

theorem Changes.beginKill {s : State} {cause origin abortId sendAbort} : Changes [.tiles, .seq, .context, .logs, .pkg] s (s.beginKill cause origin abortId sendAbort) := by
  unfold State.beginKill
  exact .ite .refl <| .trans (.foldl fun _ _ => .of .recordStep) <| .step .runEnd <| .step (.writes [.tiles, .seq, .context]) <| .trans (.ite .refl <| .of .event) <|
    .of .setUnder

theorem Changes.emit {s : State} {channel v} : Changes [.out] s (s.emit channel v) := by
  unfold State.emit
  exact .of .out

theorem Changes.aer {s : State} {bit} : Changes [.host, .out] s (s.aer bit) := by
  unfold State.aer
  exact .of (.writes [.host, .out])

theorem Changes.emitBytes {s : State} {channel b} : Changes [.out] s (s.emitBytes channel b) := by
  unfold State.emitBytes
  exact .of .out

/-! ### DmaOps -/

theorem Changes.setCh {s : State} {c v} : Changes [.dma] s (s.setCh c v) := by
  unfold State.setCh
  exact .of .dma

theorem Changes.dmaNote {s : State} {c what off len host} : Changes [.dma] s (s.dmaNote c what off len host).1 := by
  unfold State.dmaNote
  exact .of .setCh

theorem Changes.dmaPkg {s : State} {c tok a kind words data mir} : Changes [.net, .links] s (s.dmaPkg c tok a kind words data mir) := by
  unfold State.dmaPkg
  exact .ite (.of .hubIn) <| .of .hubOut

theorem Changes.dmaRead {s : State} {c what a off len mir} : Changes [.net, .links, .dma] s (s.dmaRead c what a off len mir) := by
  unfold State.dmaRead
  exact .step .dmaNote <| .ite .refl <| .of .dmaPkg

theorem Changes.dmaWrite {s : State} {c what a off bs mir} : Changes [.net, .links, .dma, .host] s (s.dmaWrite c what a off bs mir) := by
  unfold State.dmaWrite
  refine .ite ?_ <| .step .dmaNote <| .of .dmaPkg
  dsimp only
  split
  · exact .step (.host (hMem := by exact linkMem_wf)) <| .ite (.of .setCh) .refl
  · exact .of (.host (hMem := by exact linkMem_wf))

theorem Changes.dmaHalt {s : State} {c} : Changes [.context, .faults, .logs, .dma] s (s.dmaHalt c) := by
  unfold State.dmaHalt
  exact .step .setCh <| .of .recordFault

theorem Changes.dmaFetchFail {s : State} {c code} : Changes [.context, .faults, .logs, .dma] s (s.dmaFetchFail c code) := by
  unfold State.dmaFetchFail
  exact .step .setCh <| .of .dmaHalt

theorem Changes.chainNext {s : State} {c} : Changes [.dma, .spares] s (s.chainNext c) := by
  unfold State.chainNext
  split
  · exact .step .setCh <| .of .spares
  · exact .of .setCh

theorem Changes.dmaFetch {s : State} {c} : Changes [.dma] s (s.dmaFetch c) := by
  unfold State.dmaFetch
  exact .of .setCh

theorem Changes.dmaIssue {s : State} {c} : Changes [.net, .context, .faults, .logs, .links, .dma, .spares] s (s.dmaIssue c) := by
  unfold State.dmaIssue
  exact .ite .refl <| .ite (.of .chainNext) <| .ite (.of .dmaFetchFail) <| .ite .refl <| .step .setCh <| .of .dmaRead

theorem Changes.dmaFail {s : State} {c code} : Changes [.dma] s (s.dmaFail c code) := by
  unfold State.dmaFail
  dsimp only
  split
  · exact .refl
  · refine .ite .refl ?_
    split <;> exact .of .setCh

theorem Changes.dmaBegin {s : State} {c ws a g} : Changes [.dma] s (s.dmaBegin c ws a g) := by
  unfold State.dmaBegin
  exact .step .setCh <| .ite (.of .dmaFail) <| .ite (.of .dmaFail) <| .ite (.of .dmaFail) .refl

theorem Changes.chainStop {s : State} {c} : Changes [.context, .faults, .logs, .dma, .spares] s (s.chainStop c) := by
  unfold State.chainStop
  exact .step .setCh <| .step .spares <| .of .dmaHalt

theorem Changes.chainEnd {s : State} {c d code} : Changes [.context, .faults, .logs, .dma, .spares] s (s.chainEnd c d code) := by
  unfold State.chainEnd
  exact .step .setCh <| .ite (.step .spares <| .ite (.of .chainNext) <| .ite (.of .chainStop) <| .of .dmaFetch) <| .step .spares <| .ite (.of .setCh) <| .of .dmaHalt

theorem Changes.dmaDecide {s : State} {c} : Changes [.dma] s (s.dmaDecide c) := by
  unfold State.dmaDecide
  dsimp only
  split
  · refine .ite .refl ?_
    split
    · exact .of .setCh
    · exact .refl
  · exact .refl

theorem Changes.dmaFlag {s : State} {d} : Changes [.tiles, .context, .faults, .logs] s (s.dmaFlag d) := by
  unfold State.dmaFlag
  exact .ite (.of .onTile) .refl

theorem Changes.dmaStatus {s : State} {c} : Changes [.tiles, .net, .context, .faults, .logs, .links, .dma, .host, .spares] s (s.dmaStatus c) := by
  unfold State.dmaStatus
  dsimp only
  split
  · exact .ite .refl <| .ite (.ite .refl <| .of .chainEnd) <| .ite .refl <| .trans (.ite (.of .dmaFlag) .refl) <| .step .setCh <| .of .dmaWrite
  · exact .refl

theorem Changes.dmaClose {s : State} {c} : Changes [.net, .context, .faults, .logs, .links, .dma, .host] s (s.dmaClose c) := by
  unfold State.dmaClose
  split
  · refine .ite .refl <| .ite (.ite (.step .dmaWrite <| .of .setCh) ?_) <| .step .dmaWrite <| .ite (.of .setCh) <| .step .setCh <| .of .dmaHalt
    split
    · exact .step .dmaWrite <| .step .setCh <| .ite (.of .dmaBegin) <| .of .dmaFetch
    · exact .step .dmaWrite <| .step .setCh <| .of .dmaFetch
  · exact .refl

theorem Changes.dmaPass {s : State} {c} : Changes [.tiles, .net, .context, .faults, .logs, .links, .dma, .host, .spares] s (s.dmaPass c) := by
  unfold State.dmaPass
  exact .step .dmaDecide <| .step .dmaStatus <| .of .dmaClose

theorem Changes.dmaCheck {s : State} {c} : Changes [.tiles, .net, .context, .faults, .logs, .links, .dma, .host, .spares] s (s.dmaCheck c) := by
  unfold State.dmaCheck
  exact .step .dmaPass <| .step .dmaPass <| .of .dmaIssue

theorem Changes.dmaSettle {s : State} {c} : Changes [.tiles, .net, .context, .faults, .logs, .links, .dma, .host, .spares] s (s.dmaSettle c) := by
  unfold State.dmaSettle
  exact .step .dmaCheck <| .foldl fun _ _ => .of .dmaCheck

theorem Changes.dmaRing {s : State} {c} : Changes [.net, .context, .faults, .logs, .links, .dma, .spares] s (s.dmaRing c) := by
  unfold State.dmaRing
  exact .ite (.of .setCh) <| .ite (.step .dmaFetch <| .of .dmaIssue) <| .step .setCh <| .step .dmaFetch <| .of .dmaIssue

theorem Changes.dmaGenChange {s : State} : Changes [.tiles, .net, .context, .faults, .logs, .links, .dma, .host, .spares] s s.dmaGenChange := by
  unfold State.dmaGenChange
  exact .trans (.ite (.of .chainStop) .refl) <| .foldl fun _ _ => .ite (.step .dmaFail <| .of .dmaCheck) .refl

theorem Changes.dmaResume {s : State} : Changes [.tiles, .net, .context, .faults, .logs, .links, .dma, .host, .spares] s s.dmaResume := by
  unfold State.dmaResume
  exact .foldl fun _ _ => .step .dmaCheck <| .ite (.step .setCh <| .of .dmaRing) .refl

theorem Changes.dmaConfigure {s : State} {claim} : Changes [.dma, .spares] s (s.dmaConfigure claim) := by
  unfold State.dmaConfigure
  exact .of (.writes [.dma, .spares])

/-! ### Dma -/

theorem Changes.dmaStop {s : State} {c} : Changes [.tiles, .net, .context, .faults, .logs, .links, .dma, .host, .spares] s (s.dmaStop c) := by
  unfold State.dmaStop
  exact .step .setCh <| .of .dmaCheck

theorem Changes.dmaAnswer {s t : State} {c r code data n bs} (h : s.dmaAnswer c r code data = some (n, bs, t)) : Changes [.net, .faults] s t := by
  unfold State.dmaAnswer at h
  split at h
  · split at h <;> cases h <;> exact .refl
  · split at h <;> cases h
    exact .step .delPkt <| .ite (.of .faults) .refl

theorem Changes.dmaTake {s : State} {c r} : Changes [.dma] s (s.dmaTake c r) := by
  unfold State.dmaTake
  exact .of .setCh

theorem Changes.dmaLate {s : State} {c tok} : Changes [.net, .dma, .host, .out] s (s.dmaLate c tok) := by
  unfold State.dmaLate
  dsimp only
  split
  · exact .step .setCh <| .trans (.ite (.of .aer) .refl) <| .of .delPkt
  · exact .step .setCh <| .ite (.of .aer) .refl

theorem Changes.dmaStatusFail {s : State} {c code} : Changes [.dma] s (s.dmaStatusFail c code) := by
  unfold State.dmaStatusFail
  dsimp only
  split
  · exact .ite (.of .setCh) .refl
  · exact .refl

theorem Changes.dmaExpire {s : State} {c r} : Changes [.tiles, .net, .context, .faults, .logs, .links, .dma, .host, .spares, .out] s (s.dmaExpire c r) := by
  unfold State.dmaExpire
  exact .step .setCh <| .trans (.ite (.of .aer) .refl) <| .trans (.ite (.of .dmaFetchFail) <| .ite (.of .dmaStatusFail) <| .ite (.of .dmaFail) .refl) <|
    .of .dmaSettle

theorem Changes.dmaCopyRead {s : State} {c ws} : Changes [.dma] s (s.dmaCopyRead c ws) := by
  unfold State.dmaCopyRead
  exact .ite (.ite (.of .dmaFetch) <| .of .dmaBegin) <| .ite (.step .setCh <| .of .dmaFetch) <| .of .setCh

theorem Changes.dmaAnswered {s : State} {c r st bs} : Changes [.dma] s (s.dmaAnswered c r st bs) := by
  unfold State.dmaAnswered
  dsimp only
  split
  · exact .refl
  · exact .ite (.ite (.of .setCh) .refl) <| .ite (.ite .refl <| .of .dmaStatusFail) <| .ite .refl <| .ite (.of .dmaFail) <| .ite (.of .setCh) <| .ite (.of .setCh) <|
      .ite (.of .setCh) .refl

theorem Changes.dmaMove {s : State} {c xf wr} : Changes [.tiles, .net, .context, .faults, .logs, .links, .dma, .host, .spares] s (s.dmaMove c xf wr) := by
  unfold State.dmaMove
  dsimp only
  split
  · exact .refl
  · refine .ite .refl <| .ite (.ite (.step .setCh <| .of .dmaRead) <| .ite (.step .setCh <| .of .dmaRead) .refl) <| .ite ?_ <| .ite ?_ <| .of .dmaCheck
    · split
      · exact .refl
      · exact .step .setCh <| .step .dmaWrite <| .of .dmaCheck
    · split
      · exact .refl
      · exact .step .setCh <| .step .dmaWrite <| .of .dmaCheck

/-! ### Power -/

theorem Changes.passCode {s : State} : Changes [.firmware] s s.passCode := by
  unfold State.passCode
  split
  · exact .of .firmware
  · exact .refl

theorem Changes.sprintTick {s : State} : Changes [.power] s s.sprintTick := by
  unfold State.sprintTick
  exact .ite (.of .power) .refl

theorem Changes.endSprint {s : State} : Changes [.power] s s.endSprint := by
  unfold State.endSprint
  exact .ite (.step .sprintTick <| .of .power) .refl

theorem Changes.respond {s : State} : Changes [.power] s s.respond := by
  unfold State.respond
  exact .step .endSprint <| .of .power

theorem Changes.setCapHw {s : State} {v} : Changes [.logs, .power] s (s.setCapHw v) := by
  unfold State.setCapHw
  exact .ite .refl <| .step .event <| .of .power

theorem Changes.capBoundary {s : State} : Changes [.logs, .power] s s.capBoundary := by
  unfold State.capBoundary
  refine .ite (.step .setCapHw <| .of .power) ?_
  split
  · exact .of .setCapHw
  · exact .ite (.step .setCapHw <| .of .power) <| .ite (.step .setCapHw <| .of .power) .refl

theorem Changes.sense {s : State} {ts} : Changes [.power] s (s.sense ts) := by
  unfold State.sense
  exact .of .power

theorem Changes.clearCounts {s : State} : Changes [.tiles, .net, .lake, .links, .power] s s.clearCounts := by
  unfold State.clearCounts
  exact .of (.writes [.tiles, .net, .lake, .links, .power])

theorem Changes.setSuspect {s : State} {alsoSensor} : Changes [.context, .faults, .logs, .power] s (s.setSuspect alsoSensor) := by
  unfold State.setSuspect
  exact .step .power <| .ite (.ite (.of .recordFault) .refl) <| .step .power <| .step .recordFault <| .ite (.of .recordFault) .refl

theorem Changes.measure {s : State} {a0 b0 va vb} : Changes [.context, .faults, .logs, .power] s (s.measure a0 b0 va vb) := by
  unfold State.measure
  refine .trans ?_ <| .of .power
  split
  · exact .step .power <| .trans (.ite (.of .setSuspect) .refl) <| .ite (.of .setSuspect) .refl
  · exact .step .power <| .ite (.of .setSuspect) .refl

theorem Changes.setStackTemp {s : State} {k v} : Changes [.lake] s (s.setStackTemp k v) := by
  unfold State.setStackTemp
  exact .of .lake

theorem Changes.thermal {s : State} {ts} : Changes [.lake, .power] s (s.thermal ts) := by
  unfold State.thermal
  exact .trans (.foldl fun _ _ => .of .setStackTemp) <| .of .power

theorem Changes.terms {s : State} : Changes [.power] s s.terms := by
  unfold State.terms
  exact .of .power

theorem Changes.sprint {s : State} {want} : Changes [.power] s (s.sprint want) := by
  unfold State.sprint
  dsimp only
  split
  · exact .ite (.of .power) .refl
  · exact .step .sprintTick <| .step .power <| .ite (.of .endSprint) .refl

theorem Changes.applyDuty {s : State} {d} : Changes [.seq, .dieFrozen, .power] s (s.applyDuty d) := by
  unfold State.applyDuty
  exact .of .setFrozen

theorem Changes.gateRow {s : State} {r} : Changes [.rows] s (s.gateRow r) := by
  unfold State.gateRow
  exact .ite (.of .setRow) .refl

theorem Changes.wakeRows {s : State} : Changes [.rows] s s.wakeRows := by
  unfold State.wakeRows
  exact .foldl fun _ _ => .of .wakeDeferred

theorem Changes.periodBegin {s : State} : Changes [.power] s s.periodBegin := by
  unfold State.periodBegin
  exact .of .power

theorem Changes.periodSet {s : State} {old dem} : Changes [.power] s (s.periodSet old dem) := by
  unfold State.periodSet
  exact .of .power

theorem Changes.startStop {s : State} {cause} : Changes [.power] s (s.startStop cause) := by
  unfold State.startStop
  split <;> exact .of .power

theorem Changes.flowStart {s : State} : Changes [.seq, .dieFrozen, .power] s s.flowStart := by
  unfold State.flowStart
  exact .ite .refl <| .step .power <| .trans (.foldl fun _ _ => .of .applyDuty) <| .of .respond

theorem Changes.addHold {s : State} {b} : Changes [.mgmt] s (s.addHold b) := by
  unfold State.addHold
  exact .ite .refl <| .of .mgmt

theorem Changes.dropHold {s : State} {b} : Changes [.tiles, .net, .context, .faults, .logs, .links, .dma, .host, .mgmt, .spares] s (s.dropHold b) := by
  unfold State.dropHold
  exact .step .mgmt <| .ite (.of .dmaResume) .refl

/-! ### MbxOps -/

theorem Changes.setMbx {s : State} {n v} : Changes [.host] s (s.setMbx n v) := by
  unfold State.setMbx
  exact .of .host

theorem Changes.ramStore {s : State} {a bs} : Changes [.host] s (s.ramStore a bs) := by
  unfold State.ramStore
  exact .of (.host (hRam := by exact (Mem.store_wf _ _ _)))

theorem Changes.ramFound {s : State} {ring ws} : Changes [.faults, .host, .out] s (s.ramFound ring ws) := by
  unfold State.ramFound
  exact .trans (.ite .refl <| .trans (.ite (.of .aer) .refl) <| .of .faults) <| .ite (.of .aer) .refl

theorem Changes.slotErrors {s : State} {n} : Changes [.faults, .host, .out] s (s.slotErrors n) := by
  unfold State.slotErrors
  exact .ite .refl <| .of .ramFound

theorem Changes.sendDgram {s : State} {ks keyId type_ index len slot data} : Changes [.mgmt, .out] s (s.sendDgram ks keyId type_ index len slot data) := by
  unfold State.sendDgram
  split
  · exact .refl
  · refine .trans ?_ <| .step .mgmt <| .of .emitBytes
    split
    · exact .ite (.of .mgmt) .refl
    · exact .refl

theorem Changes.mmbRespond {s : State} {idx ks} : Changes [.mgmt, .out] s (s.mmbRespond idx ks) := by
  unfold State.mmbRespond
  exact .of .sendDgram

theorem Changes.answerWith {s : State} {n ks r} : Changes [.host, .mgmt, .out] s (s.answerWith n ks r) := by
  unfold State.answerWith
  exact .step .ramStore <| .step .ramStore <| .step .host <| .step .setMbx <| .ite (.step .mgmt <| .of .mmbRespond) <| .ite (.of .mgmt) .refl

theorem Changes.answer {s : State} {n r} : Changes [.host, .mgmt, .out] s (s.answer n r) := by
  unfold State.answer
  exact .of .answerWith

theorem Changes.registerN {mb n} : ∀ {s : State}, Changes [.host] s (s.registerN mb n) := by
  induction n with
  | zero => exact .refl
  | succ n ih =>
    intro s
    unfold State.registerN
    exact .step .setMbx ih

theorem Changes.requestErrors {s : State} {n} : Changes [.faults, .host, .out] s (s.requestErrors n) := by
  unfold State.requestErrors
  exact .step .slotErrors <| .ite .refl <| .of .ramFound

theorem Changes.command {s : State} {ps n t c body} (h : ∀ u r, Changes ps u (body u r).1) (m : within [.time, .faults, .host, .mgmt, .out] ps = true := by rfl) :
    Changes ps s (s.command n t c body) := by
  let base : List Part := [.time, .faults, .host, .mgmt, .out]
  have clock : Changes base s (s.advance t) := .of .advance
  have refuse {st} : Changes base s (((s.advance t).slotErrors n).answer n (Resp.err st)) := .trans clock <| .step .slotErrors <| .of .answer
  have busy {mx} : Changes base s (((s.advance t).requestErrors n).setMbx n mx) := .trans clock <| .step .requestErrors <| .of .setMbx
  unfold State.command
  dsimp only
  split
  · exact .of clock m
  · refine .ite (.of clock m) <| .ite (.of refuse m) <| .ite (.of clock m) <| .ite (.of refuse m) ?_
    split
    · exact .step busy (.ofFst (h ..) ‹_›) m
    · exact .ite (.of (qs := base) (.trans busy <| .of .answer) m) <| .step busy (.trans (.ofFst (h ..) ‹_›) <| .of (qs := base) (.of .answerWith) m) m

theorem Changes.commandNow {s : State} {ps n t c body} (h : ∀ u r, Changes ps u (body u r).1) (m : within [.time, .faults, .host, .mgmt, .out] ps = true := by rfl) :
    Changes ps s (s.commandNow n t c body) := .command (fun _ _ => h _ _) m

theorem Changes.endGhost {s : State} {n op} : Changes [.host] s (s.endGhost n op) := by
  unfold State.endGhost
  exact .ite (.of .setMbx) .refl

theorem Changes.answerOp {s : State} {op r} : Changes [.host, .mgmt, .out] s (s.answerOp op r) := by
  unfold State.answerOp
  exact .foldl fun _ _ => .ite (.of .answer) <| .of .endGhost

/-! ### Links -/

theorem Changes.linkAfresh {s : State} {l} : Changes [.net, .context, .faults, .logs, .links] s (s.linkAfresh l) := by
  unfold State.linkAfresh
  exact .trans (.ite (.of .handoffFail) .refl) <| .of .setLink

theorem Changes.identDone {s : State} {l} : Changes [.links, .out] s (s.identDone l) := by
  unfold State.identDone
  exact .ite (.step .setLink <| .of .sendCtl) .refl

theorem Changes.compareWiring {s : State} {l} : Changes [.time, .net, .context, .faults, .logs, .links, .out] s (s.compareWiring l) := by
  unfold State.compareWiring
  dsimp only
  split
  · exact .step .setLink <| .of .identDone
  · exact .step .setLink <| .ite (.ite .refl <| .of .linkDown) <| .ite (.ite (.ite (.step .setLink <| .of .identDone) <| .ite (.of .setLink) <| .of .identDone) <|
      .ite (.ite (.of .linkDown) <| .ite (.step .setLink <| .of .linkFailed) <| .ite (.of .setLink) .refl) <| .ite (.of .linkDown) <| .ite (.step .setLink <|
      .of .linkFailed) <| .ite (.of .setLink) .refl) .refl

theorem Changes.learnMove {s : State} {x l} : Changes [.links] s (s.learnMove x l) := by
  unfold State.learnMove
  dsimp only
  split
  · exact .refl
  · exact .trans (.ite (.of .moveSlot) <| .of .setOctet) <| .of .setLink

theorem Changes.retrained {s : State} {l} : Changes [.time, .links, .out] s (s.retrained l) := by
  unfold State.retrained
  exact .step .setLink <| .step .sendCtl <| .step .replay <| .of .identDone

/-! ### Control -/

theorem Changes.wakeMask {s : State} {die mask extra} : Changes [.rows] s (s.wakeMask die mask extra) := by
  unfold State.wakeMask
  exact .foldl fun _ _ => .of .wakeRow

theorem Changes.wakeOp {s : State} {tid die rows extra} : Changes [.tiles, .rows, .context, .faults, .logs] s (s.wakeOp tid die rows extra) := by
  unfold State.wakeOp
  exact .step .issue <| .ite (.of .wakeMask) .refl

/-! ### Steps -/

theorem Changes.setBar {s : State} {key u} : Changes [.seq] s (s.setBar key u) := by
  unfold State.setBar
  exact .of .seq

theorem Changes.sendBar {s : State} {mkind g i lpn} : Changes [.links] s (s.sendBar mkind g i lpn) := by
  unfold State.sendBar
  exact .of .sendMgt

theorem Changes.barDown {s : State} {g i} : Changes [.links] s (s.barDown g i) := by
  unfold State.barDown
  exact .foldl fun _ _ => .of .sendBar

theorem Changes.completeBar {s : State} {key i} : Changes [.tiles, .seq, .context, .faults, .logs, .links] s (s.completeBar key i) := by
  unfold State.completeBar
  exact .step .setBar <| .trans (.foldl fun _ _ => .of .onTile) <| .ite (.of .barDown) .refl

theorem Changes.barProgress {key n} : ∀ {s : State}, Changes [.tiles, .seq, .context, .faults, .logs, .links] s (s.barProgress key n) := by
  induction n with
  | zero => exact .refl
  | succ n ih =>
    intro s
    unfold State.barProgress
    refine .ite (.step .setBar <| .trans (.ite (.of .completeBar) ?_) ih) .refl
    split
    · exact .of .completeBar
    · exact .of .sendBar

theorem Changes.barTile {s : State} {pti f} : Changes [.tiles, .seq, .context, .faults, .logs, .links] s (s.barTile pti f) := by
  unfold State.barTile
  exact .step .tiles <| .step .setBar <| .of .barProgress

theorem Changes.linkGenDrop {s : State} {l} : Changes [.links] s (s.linkGenDrop l) := by
  unfold State.linkGenDrop
  exact .of .setLink

theorem Changes.takeMgt {s : State} {ps l kind f} (h : ∀ u m, Changes ps u (f u m)) (m : within [.links] ps = true := by rfl) : Changes ps s (s.takeMgt l kind f) := by
  unfold State.takeMgt
  split
  · exact .step (.takeRx ‹_›) (.ite (.of .setLink m) <| .ite (.of .linkGenDrop m) (h ..)) m
  · exact .refl

theorem Changes.completeDone {key n} : ∀ {s : State}, Changes [.tiles, .seq, .context, .faults, .logs, .links] s (s.completeDone key n) := by
  induction n with
  | zero => exact .refl
  | succ n ih =>
    intro s
    unfold State.completeDone
    exact .ite (.step .completeBar ih) .refl

theorem Changes.wakeStep {s : State} {h} : Changes [.rows] s (s.wakeStep h) := by
  unfold State.wakeStep
  exact .foldl fun _ _ => .of .wakeNow

theorem Changes.startTile {s : State} {x base tid} : Changes [.tiles, .rows, .context, .faults, .logs] s (s.startTile x base tid) := by
  unfold State.startTile
  dsimp only
  split
  · exact .step .onTile <| .of (.ofFst .tileReady ‹_›)
  · exact .step .onTile <| .step (.ofFst .tileReady ‹_›) <| .of .onTile

theorem Changes.sendNote {s : State} {g c} : Changes [.links] s (s.sendNote g c) := by
  unfold State.sendNote
  exact .of .sendMgt

theorem Changes.relayNote {s : State} {g} : Changes [.seq, .links] s (s.relayNote g) := by
  unfold State.relayNote
  exact .step .seq <| .foldl fun _ _ => .of .sendNote

/-! ### Time -/

theorem Changes.setFt {s : State} {v} : Changes [.time] s (s.setFt v) := by
  unfold State.setFt
  exact .of .time

theorem Changes.setTai {s : State} {v} : Changes [.time] s (s.setTai v) := by
  unfold State.setTai
  exact .of .time

theorem Changes.holdCheck {s : State} : Changes [.time] s s.holdCheck := by
  unfold State.holdCheck
  dsimp only
  split
  · exact .ite (.of .time) .refl
  · exact .refl

theorem Changes.parentCheck {s : State} : Changes [.time] s s.parentCheck := by
  unfold State.parentCheck
  exact .ite .refl <| .ite (.of .holdCheck) <| .ite (.step .setTim <| .step .reparent <| .of .holdCheck) <| .ite .refl <| .step .reparent <| .of .holdCheck

theorem Changes.timHeard {s00 : State} {l x} : Changes [.time, .logs] s00 (s00.timHeard l x) := by
  unfold State.timHeard
  exact .step .parentCheck <| .step .setTim <| .ite (.of .nearMissEvent) .refl

theorem Changes.timParent {s : State} {l} : Changes [.time] s (s.timParent l) := by
  unfold State.timParent
  refine .ite .refl <| .ite ?_ <| .ite (.ite (.of .time) <| .of .reparent) .refl
  split
  · exact .of .takeParent
  · exact .refl

theorem Changes.measured {s : State} {l delay off} : Changes [.time] s (s.measured l delay off) := by
  unfold State.measured
  exact .ite (.step .setFt <| .step .time <| .ite (.of .setTai) .refl) <| .ite (.of .time) <| .step .time <| .ite (.of .setTai) .refl

theorem Changes.ppsUnlock {s : State} : Changes [.time] s s.ppsUnlock := by
  unfold State.ppsUnlock
  exact .ite .refl <| .of .time

theorem Changes.timeRole {s : State} {listen} : Changes [.time] s (s.timeRole listen) := by
  unfold State.timeRole
  exact .ite (.trans (.ite .refl <| .of .ppsUnlock) <| .of .time) <| .ite (.step .ppsUnlock <| .step .time <| .of .reparent) <| .ite (.of .reparent) .refl

theorem Changes.timeConfigured {s : State} {listen} : Changes [.time] s (s.timeConfigured listen) := by
  unfold State.timeConfigured
  exact .step .time <| .of .timeRole

theorem Changes.ppsReject {s : State} : Changes [.time] s s.ppsReject := by
  unfold State.ppsReject
  exact .ite (.step .ppsUnlock <| .of .time) <| .of .time

theorem Changes.ptpMsg {s : State} {kind v} : Changes [.out] s (s.ptpMsg kind v) := by
  unfold State.ptpMsg
  exact .of .emit

theorem Changes.ptpDropped {s : State} : Changes [.time] s s.ptpDropped := by
  unfold State.ptpDropped
  exact .of .time

theorem Changes.ftLoRead {s : State} : Changes [.time, .out] s s.ftLoRead := by
  unfold State.ftLoRead
  exact .step .time <| .of .emit

/-! ### PackageOps -/

theorem Changes.enter {s : State} {u} : Changes [.tiles, .rows, .net, .context, .faults, .logs, .links, .dma, .pkg, .host, .spares] s (s.enter u) := by
  unfold State.enter
  exact .step .rows <| .step .setUnder <| .of .dmaResume

theorem Changes.trainLinks {s : State} : Changes [.links] s s.trainLinks := by
  unfold State.trainLinks
  exact .foldl fun _ _ => .ite (.of .setLink) .refl

theorem Changes.notReady {s : State} {reason} : Changes [.links, .pkg] s (s.notReady reason) := by
  unfold State.notReady
  exact .step .setUnder <| .step .trainLinks <| .of .pkg

theorem Changes.applyChecks {s : State} : Changes [.tiles, .net, .lake] s s.applyChecks := by
  unfold State.applyChecks
  exact .step .tiles <| .trans (.foldl fun _ _ => .of .setDie) <| .foldl fun _ _ => .of .setStack

theorem Changes.relinkImage {s : State} {l} : Changes [.links] s (s.relinkImage l) := by
  unfold State.relinkImage
  exact .of .setLink

theorem Changes.relinkAll {s : State} : Changes [.time, .net, .context, .faults, .logs, .links, .out] s s.relinkAll := by
  unfold State.relinkAll
  exact .trans (.foldl fun _ _ => .of .relinkImage) <| .foldl fun _ _ => .of .compareWiring

theorem Changes.remapLake {s : State} {m} : Changes [.lake] s (s.remapLake m) := by
  unfold State.remapLake
  exact .ite .refl <| .step (.lake (h := by exact (fun _ => foldl_inv _ (Mem.wf · = true) (fun _ _ h => Mem.write_wf _ _ _ h) _ _ Mem.wf_nil))) <|
    .foldl fun _ _ => .of .setStack

theorem Changes.applyImage {s : State} {im} : Changes [.tiles, .rows, .time, .net, .lake, .context, .faults, .logs, .links, .dma, .pkg, .lpn, .cfg, .host, .mgmt, .power, .spares, .out] s (s.applyImage im) := by
  unfold State.applyImage
  exact .step .remapLake <| .step (.writes [.links, .pkg, .lpn, .cfg, .mgmt, .power, .spares]) <| .step .relinkAll <| .step .timeConfigured <| .step .applyChecks <|
    .step .dmaConfigure <| .step .event <| .ite (.of .enter) <| .of .dmaResume

theorem Changes.timeFreed {s : State} : Changes [.time] s s.timeFreed := by
  unfold State.timeFreed
  exact .ite (.of .time) .refl

theorem Changes.takeGen {s : State} {g} : Changes [.tiles, .time, .net, .lake, .context, .faults, .logs, .links, .dma, .host, .spares] s (s.takeGen g) := by
  unfold State.takeGen
  exact .step (.writes [.tiles, .context]) <| .trans (.foldl fun _ _ => .of .setStack) <| .step .dmaGenChange <| .of .timeFreed

theorem Changes.drainStack {s : State} {k rsp} : Changes [.net, .lake, .context, .faults, .logs, .jtag, .host, .out] s (s.drainStack k rsp) := by
  unfold State.drainStack
  refine .step .setStack <| .foldl fun _ _ => ?_
  split
  · exact .of .lakeApply
  · exact .refl

theorem Changes.zeroStart {s : State} {k} : Changes [.lake] s (s.zeroStart k) := by
  unfold State.zeroStart
  exact .of .setStack

theorem Changes.zeroStack {s : State} {k} : Changes [.lake] s (s.zeroStack k) := by
  unfold State.zeroStack
  exact .of (.lake (h := by exact (Mem.filter_wf _ _)))

theorem Changes.zeroEnd {s : State} {k rsp} : Changes [.net, .lake, .context, .faults, .logs, .jtag, .host, .out] s (s.zeroEnd k rsp) := by
  unfold State.zeroEnd
  exact .step .zeroStack <| .step .setStack <| .of .lakeResume

theorem Changes.clearGlaze {s : State} : Changes [.tiles] s s.clearGlaze := by
  unfold State.clearGlaze
  exact .of .tiles

theorem Changes.setDieZeroing {s : State} {b} : Changes [.net] s (s.setDieZeroing b) := by
  unfold State.setDieZeroing
  exact .foldl fun _ _ => .of .setDie

theorem Changes.tearCheck {s : State} : Changes [.tiles, .rows, .net, .context, .faults, .logs, .links, .dma, .pkg, .host, .spares] s s.tearCheck := by
  unfold State.tearCheck
  exact .ite .refl <| .step .context <| .step .event <| .ite .refl <| .ite (.step (.writes [.context, .faults]) <| .of .notReady) <| .ite (.of .notReady) <|
    .of .enter

theorem Changes.trigLow {s : State} : Changes [.out] s s.trigLow := by
  unfold State.trigLow
  exact .ite (.of .emit) .refl

theorem Changes.pertReset {s00 : State} : Changes [.tiles, .net, .lake, .links, .perturb, .out] s00 s00.pertReset := by
  unfold State.pertReset
  exact .step .trigLow <| .step .perturb <| .trans (.foldl fun _ _ => .foldl fun _ _ => .of .freeCredit) <| .ite .refl <| .of .applyChecks

theorem Changes.endScopes {s : State} {scopes cause} : Changes [.tiles, .net, .lake, .logs, .links, .perturb, .out] s (s.endScopes scopes cause) := by
  unfold State.endScopes
  exact .step .perturb <| .trans (.ite (.of .pertReset) .refl) <| .ite .refl <| .of .event

theorem Changes.cancelActivation {s : State} {cause} : Changes [.logs, .firmware] s (s.cancelActivation cause) := by
  unfold State.cancelActivation
  exact .ite (.step .event <| .of .firmware) .refl

theorem Changes.sampleStraps {s : State} : Changes [.pkg, .pid] s s.sampleStraps := by
  unfold State.sampleStraps
  exact .of (.writes [.pkg, .pid])

theorem Changes.warmBoot {s : State} {cause} : Changes [.tiles, .rows, .time, .net, .lake, .context, .faults, .logs, .links, .dma, .pkg, .gate, .perturb, .pid, .spares, .firmware, .out] s (s.warmBoot cause) := by
  unfold State.warmBoot
  exact .step .cancelActivation <| .step .endScopes <| .step (.writes [.rows, .context, .faults, .dma, .pkg, .gate, .spares, .firmware]) <|
    .trans (.ite (.foldl fun _ _ => .of .linkResume) .refl) <| .step .sampleStraps <| .step .setUnder <| .step .event <| .of .event

theorem Changes.warmReset {s : State} {cause} : Changes [.tiles, .rows, .seq, .time, .net, .lake, .context, .faults, .logs, .links, .dma, .pkg, .gate, .perturb, .pid, .spares, .firmware, .out] s (s.warmReset cause) := by
  unfold State.warmReset
  exact .ite (.of .context) <| .ite (.step .context <| .of .beginKill) <| .step (.writes [.tiles, .context]) <| .trans (.foldl fun _ _ => .of .setStack) <|
    .of .warmBoot

theorem Changes.closeGate {s00 : State} : Changes [.tiles, .seq, .time, .context, .logs, .links, .pkg, .gate, .out] s00 s00.closeGate := by
  unfold State.closeGate
  exact .step .trigLow <| .step (.writes [.time, .links, .gate]) <| .of .beginKill

theorem Changes.timeLost {s : State} : Changes [.time] s s.timeLost := by
  unfold State.timeLost
  exact .step .timeFreed <| .of .time

theorem Changes.toStandby {s : State} : Changes [.tiles, .rows, .seq, .time, .net, .lake, .context, .faults, .logs, .dieFrozen, .links, .dma, .pkg, .lpn, .gate, .perturb, .jtag, .cfg, .pid, .host, .mgmt, .power, .spares, .firmware, .loader, .out] s s.toStandby := by
  unfold State.toStandby
  exact .ite .refl <| .step .closeGate <| .ite .refl <| .step .cancelActivation <| .step .endScopes <| .step .timeLost <|
    .step (.writes [.tiles, .rows, .seq, .net, .lake, .context, .faults, .dieFrozen, .links, .dma, .pkg, .lpn, .jtag, .cfg, .host, .mgmt, .power, .spares, .firmware, .loader] (m := fun ⟨hLake, hRam, hMem, hWin⟩ => ⟨rfl, rfl, hMem, rfl⟩)) <|
    .step .setUnder <| .of .sampleStraps

theorem Changes.tryBoot {s : State} : Changes [.context, .faults, .logs, .pkg, .gate, .pid, .power, .firmware] s s.tryBoot := by
  unfold State.tryBoot
  exact .ite (.step .sampleStraps <| .step (.writes [.context, .faults, .pkg, .gate, .power, .firmware]) <| .step .setUnder <| .step .event <|
    .ite (.of (.writes [.pkg, .gate])) .refl) .refl

/-! ### RegMap -/

theorem Changes.setBlk {s : State} {pti f} : Changes [.tiles] s (s.setBlk pti f) := by
  unfold State.setBlk
  exact .of .tiles

theorem Changes.setLine {s : State} {k v} : Changes [.spares] s (s.setLine k v) := by
  unfold State.setLine
  exact .of .spares

theorem Changes.regClear {s : State} {a same} : Changes [.tiles, .net, .lake, .faults, .links, .dma, .power, .spares] s (s.regClear a same) := by
  unfold State.regClear
  dsimp only
  split
  · exact .ite (.of .setBlk) <| .ite (.of .setBlk) <| .ite (.of .setBlk) .refl
  · exact .ite (.of .setDie) <| .ite (.of .setDie) .refl
  · exact .ite (.of .setStack) <| .ite (.of .setStack) <| .ite (.of .setStack) <| .ite (.of .setStack) .refl
  · exact .ite (.of .setCh) .refl
  · exact .ite (.of .setLink) <| .ite (.of .setLink) <| .ite (.of .setLink) <| .ite (.of .setLink) <| .ite (.of .setLink) .refl
  · exact .ite (.of .links) .refl
  · exact .ite (.of .power) .refl
  · exact .ite (.of .faults) <| .ite (.of .faults) .refl
  · exact .ite (.of .spares) .refl
  · exact .refl
  · exact .refl
  · exact .refl

theorem Changes.regRead {n} : ∀ {s : State} {a same}, Changes [.tiles, .time, .net, .lake, .faults, .links, .dma, .host, .power, .spares] s (s.regRead a same n).1 := by
  induction n with
  | zero => exact .refl
  | succ n ih =>
    intro s a same
    unfold State.regRead
    exact .step .regClear ih

theorem Changes.dmaNext {s : State} {c hi v} : Changes [.dma] s (s.dmaNext c hi v) := by
  unfold State.dmaNext
  exact .ite (.of .setCh) .refl

theorem Changes.regWrite {s : State} {a v} : Changes [.tiles, .net, .lake, .links, .dma, .spares] s (s.regWrite a v) := by
  unfold State.regWrite
  split
  · exact .ite (.of .setBlk) <| .ite (.of .setBlk) .refl
  · exact .ite (.of .setDie) <| .ite (.of .setDie) <| .ite (.of .setDie) .refl
  · exact .ite (.of .setStack) <| .ite (.of .setStack) <| .ite (.of .setStack) .refl
  · exact .ite (.of .dmaNext) <| .ite (.of .dmaNext) <| .ite (.of .setCh) .refl
  · exact .of .links
  · exact .ite (.of .spares) <| .ite (.of .spares) <| .ite (.of .spares) .refl
  · exact .refl
  · exact .refl
  · exact .refl
  · exact .refl
  · exact .refl
  · exact .refl

/-! ### Mirror -/

theorem Changes.writeRecord {s : State} {r} : Changes [.host] s (s.writeRecord r) := by
  unfold State.writeRecord
  exact .ite .refl <| .step .host <| .of (.host (hMem := by exact (Mem.store_wf _ _ _)))

theorem Changes.writePage {s : State} : Changes [.host] s s.writePage := by
  unfold State.writePage
  exact .foldl fun _ _ => .of .writeRecord

/-! ### Host -/

theorem Changes.urRead {s : State} : Changes [.host, .out] s s.urRead := by
  unfold State.urRead
  exact .step .aer <| .of .emit

theorem Changes.urWrite {s : State} : Changes [.host, .out] s s.urWrite := by
  unfold State.urWrite
  exact .of .aer

theorem Changes.cfgWrite {s : State} {r v} : Changes [.host] s (s.cfgWrite r v) := by
  unfold State.cfgWrite
  exact .ite (.of .host) <| .ite (.of .host) <| .of .host

theorem Changes.dropHdm {s : State} : Changes [.net, .lake] s s.dropHdm := by
  unfold State.dropHdm
  exact .step .net <| .foldl fun _ _ => .of .setStack

theorem Changes.dmaPortReset {s : State} {c} : Changes [.tiles, .net, .context, .faults, .logs, .links, .dma, .host, .spares] s (s.dmaPortReset c) := by
  unfold State.dmaPortReset
  refine .ite .refl ?_
  dsimp only
  split
  · exact .step .setCh <| .step .dmaFail <| .of .dmaCheck
  · exact .step .setCh <| .ite (.of .dmaFetchFail) .refl

theorem Changes.portReset {s : State} : Changes [.tiles, .net, .lake, .context, .faults, .logs, .links, .dma, .host, .spares] s s.portReset := by
  unfold State.portReset
  exact .step .host <| .step .dropHdm <| .foldl fun _ _ => .of .dmaPortReset

theorem Changes.keepSlot {s : State} {a} : Changes [.host] s (s.keepSlot a) := by
  unfold State.keepSlot
  refine .ite .refl <| .ite (.of .host) ?_
  split
  · exact .refl
  · exact .of .host

theorem Changes.bar0Clear {s : State} {off same} : Changes [.dma, .host] s (s.bar0Clear off same) := by
  unfold State.bar0Clear
  exact .ite (.of .setMbx) <| .ite (.of .setCh) .refl

theorem Changes.compWrite {s : State} {off v} : Changes [.host] s (s.compWrite off v) := by
  unfold State.compWrite
  exact .ite (.of .host) <| .ite (.ite .refl <| .of .host) <| .step .host <| .ite (.ite (.of .host) <| .of .host) .refl

theorem Changes.mirrorOn {s : State} : Changes [.host] s s.mirrorOn := by
  have active {u : State} : Changes [.host] u { u with h := { u.h with smActive := true } } := .host
  unfold State.mirrorOn
  exact .ite .refl <| .step .host <| .step .writePage active

/-! ### CfgCmds -/

theorem Changes.unbind {s : State} : Changes [.tiles, .rows, .net, .context, .faults, .logs, .links, .dma, .pkg, .host, .spares] s s.unbind := by
  unfold State.unbind
  exact .step .spares <| .ite (.of .enter) .refl

theorem Changes.clearImage {s0 : State} : Changes [.tiles, .rows, .time, .net, .lake, .context, .faults, .logs, .links, .dma, .pkg, .lpn, .cfg, .host, .mgmt, .spares, .out] s0 s0.clearImage := by
  unfold State.clearImage
  exact .trans (.ite .refl <| .of .unbind) <| .step .spares <| .step (.writes [.links, .pkg, .lpn, .cfg, .mgmt]) <| .step .relinkAll <| .step .timeConfigured <|
    .step .applyChecks <| .step .dmaConfigure <| .ite (.of .enter) .refl

theorem Changes.setClaims {s : State} {im cs kind index} : Changes [.links, .dma, .cfg] s (s.setClaims im cs kind index) := by
  unfold State.setClaims
  exact .step .cfg <| .ite (.of .setCh) <| .ite (.of .setLink) .refl

/-! ### Loader -/

theorem Changes.loadSend {s : State} {lpn c off bs} : Changes [.net, .links] s (s.loadSend lpn c off bs) := by
  unfold State.loadSend
  exact .of .hubOut

theorem Changes.loadForward {s : State} {off bs} : Changes [.net, .links] s (s.loadForward off bs) := by
  unfold State.loadForward
  exact .foldl fun _ _ => .of .loadSend

theorem Changes.loadCast {s : State} {x} : Changes [.net, .loader] s (s.loadCast x) := by
  unfold State.loadCast
  exact .step .bridgeTake <| .step .inject <| .of .loader

theorem Changes.loadIssue {xs} : ∀ {s : State}, Changes [.net, .loader] s (s.loadIssue xs) := by
  induction xs with
  | nil => exact .of .loader
  | cons x r ih =>
    intro s
    unfold State.loadIssue
    exact .ite (.of .loader) <| .step .loadCast ih

theorem Changes.loadWritten {s : State} : Changes [.loader] s s.loadWritten := by
  unfold State.loadWritten
  exact .of .loader

theorem Changes.loadTiles {s : State} : Changes [.net, .loader] s s.loadTiles := by
  unfold State.loadTiles
  exact .step (.loader (h := by exact (fun h => by split <;> exact h))) <| .step .loadIssue <| .ite (.of .loadWritten) .refl

theorem Changes.loadEnd {s : State} : Changes [.net, .links, .host, .mgmt, .loader, .out] s s.loadEnd := by
  unfold State.loadEnd
  refine .ite (.step (.loader (h := by exact id)) <| .ite (.of .answer) <| .of .endGhost) ?_
  split
  · exact .step (.loader (h := by exact id)) <| .of .loadSend
  · exact .of (.loader (h := by exact id))

theorem Changes.loadStep {s : State} : Changes [.net, .links, .host, .mgmt, .loader, .out] s s.loadStep := by
  unfold State.loadStep
  exact .ite .refl <| .ite (.ite (.step .loader <| .ite (.of .loadEnd) .refl) <| .of (.loader (h := by exact id))) <| .trans (.ite (.of .loadTiles) .refl) <|
    .ite (.of .loadEnd) .refl

theorem Changes.loadBegin {s : State} {mb r} : Changes [.net, .links, .loader] s (s.loadBegin mb r) := by
  unfold State.loadBegin
  exact .step (.loader (h := by exact (fun _ => Mem.store_wf _ _ _ Mem.wf_nil))) <| .foldl fun _ _ => .of .loadForward

theorem Changes.takeLoad {s t : State} {report p} (h : s.takeLoad report = some (p, t)) : Changes [.net] s t := by
  unfold State.takeLoad at h
  split at h <;> cases h
  exact .delPkt

theorem Changes.loadLost {s : State} {c} : Changes [.loader] s (s.loadLost c) := by
  unfold State.loadLost
  exact .ite .refl <| .of .loader

theorem Changes.loadRecord {s : State} : Changes [.net, .links, .loader] s s.loadRecord := by
  unfold State.loadRecord
  dsimp only
  split
  · exact .of .loader
  · exact .ite (.of .loader) <| .step .loader <| .foldl fun _ _ => .of .loadForward

theorem Changes.loadPiece {s : State} {q} : Changes [.net, .links, .loader] s (s.loadPiece q) := by
  unfold State.loadPiece
  exact .step .hubAnswer <| .ite .refl <| .ite .refl <| .ite (.ite .refl <| .of .loader) <| .ite (.step (.loader (Mem.store_wf _ _ _)) <| .of .loadForward) <|
    .step (.loader (Mem.store_wf _ _ _)) <| .ite (.of .loadRecord) .refl

theorem Changes.reportLapse {s : State} : Changes [.loader] s s.reportLapse := by
  unfold State.reportLapse
  exact .ite .refl <| .foldl fun _ _ => .of .loadLost

/-! ### CtxCmds -/

theorem Changes.holdLog {s : State} {op mb seq} : Changes [.logs] s (s.holdLog op mb seq) := by
  unfold State.holdLog
  exact .of .addOrder

theorem Changes.emptyCaches {s : State} : Changes [.lake] s s.emptyCaches := by
  unfold State.emptyCaches
  exact .foldl fun _ _ => .of .setStack

theorem Changes.accept {s : State} {n} : Changes [.tiles, .rows, .seq, .net, .lake, .context, .faults, .logs, .links, .dma, .pkg, .host, .spares] s (s.accept n) := by
  have written {u : State} {x q c f} : Changes [.tiles, .seq, .context, .faults] u { u with tiles := x, seq := q, ctx := c, faults := f } := .writes _
  unfold State.accept
  extract_lets g s1 _ _ _ s2 s3
  have h1 : Changes [.rows, .net] s s1 := .foldl fun _ _ => .step .setDie <| .of .setRow
  have h2 : Changes [.tiles, .seq, .context, .faults] s1 s2 := written
  have h3 : Changes [.lake] s2 s3 := .foldl fun _ _ => .of .setStack
  exact .step h1 <| .step h2 <| .step h3 <| .step .dmaGenChange <| .of .enter

theorem Changes.submit {s : State} {l} : Changes [.seq, .lake] s (s.submit l) := by
  unfold State.submit
  exact .step .seq <| .of .emptyCaches

/-! ### SpareCmds -/

theorem Changes.bind {s : State} {group role es budget} : Changes [.tiles, .rows, .net, .context, .faults, .logs, .links, .dma, .pkg, .host, .spares] s (s.bind group role es budget) := by
  unfold State.bind
  exact .step .spares <| .ite (.of .enter) <| .ite (.of .enter) .refl

theorem Changes.startPoint {s : State} : Changes [.net, .context, .faults, .logs, .links, .dma, .spares] s s.startPoint := by
  unfold State.startPoint
  exact .step .spares <| .of .dmaRing

/-! ### Spares -/

theorem Changes.pathNear {s : State} {last} : Changes [.logs] s (s.pathNear last) := by
  unfold State.pathNear
  split
  · exact .ite (.of .nearMissEvent) .refl
  · exact .refl

theorem Changes.arm {s : State} {k} : Changes [.spares] s (s.arm k) := by
  unfold State.arm
  exact .trans (.ite (.of .setLine) .refl) <| .ite (.of .spares) .refl

theorem Changes.judgeSilence {s : State} {k} : Changes [.spares] s (s.judgeSilence k) := by
  unfold State.judgeSilence
  exact .ite .refl <| .step .setLine <| .ite (.of .spares) <| .ite .refl <| .of .spares

theorem Changes.displace {s : State} : Changes [.tiles, .seq, .time, .context, .logs, .pkg, .spares] s s.displace := by
  unfold State.displace
  exact .step (.writes [.pkg, .spares]) <| .step .beginKill <| .of .timeRole

theorem Changes.restore {s : State} {regions} : Changes [.lake] s (s.restore regions) := by
  unfold State.restore
  exact .of (.lake (h := by exact (fun h => movedTo_wf (foldl_copyWord_wf h) Mem.wf_nil)))

theorem Changes.mirrorRefuse {s : State} {p code} : Changes [.net, .links, .spares] s (s.mirrorRefuse p code) := by
  unfold State.mirrorRefuse
  exact .step .delPkt <| .step .spares <| .of .hubError

theorem Changes.mirrorStore {s : State} {ps p a req rsp f} (h : ∀ u, Changes ps u (f u)) (m : within [.net, .lake, .context, .faults, .logs, .links] ps = true := by rfl) :
    Changes ps s (s.mirrorStore p a req rsp f) := by
  let base : List Part := [.net, .lake, .context, .faults, .logs, .links]
  unfold State.mirrorStore
  refine .ite .refl <| .ite (.of (qs := base) (.of (.foldl fun _ _ => .askWake)) m) <| .ite (.of (qs := base) (.of .chanAsk) m) ?_
  refine .step (qs := base) (.step .lakeUse <| .step .chanUse <| .step .lakeCount <| .step .pinFound <| .of .delPkt) (.ite .refl ?_) m
  refine .step (qs := base) (.of .lakeStore) (.trans (h _) <| .step (qs := base) (.of .pinFound) (.ite .refl <| .of (qs := base) (.of .hubAnswer) m) m) m

/-! ### FwCmds -/

theorem Changes.setHandover {s : State} {b} : Changes [.host] s (s.setHandover b) := by
  unfold State.setHandover
  exact .foldl fun _ _ => .of .setMbx

theorem Changes.arbRaise {s : State} : Changes [.firmware] s s.arbRaise := by
  unfold State.arbRaise
  exact .of .firmware

/-! ### AttestCmds -/

theorem Changes.report {s : State} {mb nonce} : Changes [.firmware] s (s.report mb nonce).1 := by
  unfold State.report
  dsimp only
  split
  · exact .iteFst .refl <| .of .firmware
  · exact .of .firmware

theorem Changes.wipePayload {s : State} {mb n} : Changes [.host] s (s.wipePayload mb n) := by
  unfold State.wipePayload
  exact .of (.host (hRam := by exact (Mem.store_wf _ _ _)))

/-! ### Bringup -/

/-- At watch-domain power-up every part may change, and the memories but for host memory are those of reset. -/
theorem mem_everyPart (p : Part) : p ∈ everyPart := by cases p <;> decide

theorem Changes.powerUp {s : State} : Changes everyPart s s.powerUp :=
  ⟨rfl, fun p hp => absurd (mem_everyPart p) hp, fun ⟨_, _, hMem, _⟩ => ⟨rfl, rfl, hMem, rfl⟩⟩

theorem Changes.stageStop {s : State} : Changes [.tiles, .rows, .seq, .time, .net, .lake, .context, .faults, .logs, .dieFrozen, .links, .dma, .pkg, .lpn, .gate, .perturb, .jtag, .cfg, .pid, .host, .mgmt, .power, .spares, .firmware, .loader, .out] s s.stageStop := by
  unfold State.stageStop
  exact .ite (.step .pkg <| .of .toStandby) .refl

theorem Changes.bistAdd {s : State} {x} : Changes [.logs] s (s.bistAdd x) := by
  unfold State.bistAdd
  exact .of .logs

theorem Changes.sources {s : State} : Changes [.logs] s s.sources := by
  unfold State.sources
  exact .of .logs

theorem Changes.applySpares {s : State} {k} : Changes [.lake] s (s.applySpares k) := by
  unfold State.applySpares
  exact .of .setStack

theorem Changes.wakeWaiting {s : State} : Changes [.lake] s s.wakeWaiting := by
  unfold State.wakeWaiting
  refine .foldl fun _ _ => .foldl fun _ _ => ?_
  split
  · exact .foldl fun _ _ => .of .askWake
  · exact .refl

/-! ### DebugCmds -/

theorem Changes.askScope {s : State} {party b secs} : Changes [.perturb] s (s.askScope party b secs).1 := by
  unfold State.askScope
  dsimp only
  split
  · exact .step .perturb <| .iteFst .refl <| .ite (.of .perturb) <| .of .perturb
  · exact .of .perturb

theorem Changes.showTrigger {s : State} : Changes [.out] s s.showTrigger := by
  unfold State.showTrigger
  exact .ite (.of .emit) .refl

theorem Changes.takeReg {s : State} {n} : Changes [.perturb] s (s.takeReg n) := by
  unfold State.takeReg
  exact .of .perturb

theorem Changes.settleCredits {s : State} : Changes [.links] s s.settleCredits := by
  unfold State.settleCredits
  exact .foldl fun _ _ => .foldl fun _ _ => .of .freeCredit

theorem Changes.startShed {s : State} : Changes [.seq, .dieFrozen, .perturb, .power] s s.startShed := by
  unfold State.startShed
  exact .ite .refl <| .step (.writes [.perturb, .power]) <| .trans (.ite .refl <| .of .hwFreeze) <| .of .respond

theorem Changes.endShed {s : State} : Changes [.perturb] s s.endShed := by
  unfold State.endShed
  exact .of .perturb

theorem Changes.setWindow {s : State} {b} : Changes [.seq, .dieFrozen, .links, .perturb, .power, .out] s (s.setWindow b) := by
  unfold State.setWindow
  exact .ite .refl <| .step .perturb <| .trans (.ite (.of .startShed) <| .of .endShed) <| .step .settleCredits <| .of .showTrigger

/-! ### JtagOps -/

theorem Changes.jtagOn {s : State} {ps f} (h : ∀ u, Changes ps u (f u)) : Changes ps s (s.jtagOn f) := .ite .refl (h s)

theorem Changes.setIr {s : State} {i} : Changes [.jtag] s (s.setIr i) := by
  unfold State.setIr
  exact .of .jtag

theorem Changes.bypassScan {s : State} : Changes [.out] s s.bypassScan := by
  unfold State.bypassScan
  exact .of .emit

theorem Changes.boundaryScan {s : State} {lands shift} : Changes [.jtag, .out] s (s.boundaryScan lands shift) := by
  unfold State.boundaryScan
  exact .step .jtag <| .of .emit

theorem Changes.captureDr {s : State} : Changes [.out] s s.captureDr := by
  unfold State.captureDr
  exact .of .emit

theorem Changes.dapLake {s : State} {a write req rsp} : Changes [.net, .lake, .context, .faults, .logs, .jtag, .host, .out] s (s.dapLake a write req rsp) := by
  unfold State.dapLake
  exact .ite (.of .dapEnd) <| .step .dapEnd <| .step .addPkt <| .of .lakeServe

theorem Changes.dapTile {s : State} {x} : Changes [.tiles, .rows, .net, .context, .faults, .logs, .jtag] s (s.dapTile x) := by
  unfold State.dapTile
  exact .step .jtag <| .step .dapEnd <| .of .dapServe

theorem Changes.dapRead {s : State} {a same req rsp} : Changes [.tiles, .rows, .net, .lake, .context, .faults, .logs, .links, .dma, .jtag, .host, .power, .spares, .out] s (s.dapRead a same req rsp) := by
  unfold State.dapRead
  refine .ite (.step .regClear <| .of .dapEnd) <| .ite (.of .dapLake) ?_
  split
  · exact .of .dapEnd
  · exact .of .dapTile

theorem Changes.dapWrite {s : State} {a v req rsp} : Changes [.tiles, .rows, .net, .lake, .context, .faults, .logs, .links, .dma, .jtag, .host, .spares, .out] s (s.dapWrite a v req rsp) := by
  unfold State.dapWrite
  refine .ite (.ite (.step .regWrite <| .of .dapEnd) <| .step .event <| .of .dapEnd) <| .ite (.of .dapLake) ?_
  split
  · exact .ite (.of .dapEnd) <| .step .event <| .of .dapEnd
  · exact .of .dapTile

theorem Changes.dapScan {s : State} {ps f} (h : ∀ u, Changes ps u (f u)) (m : within [.tiles, .rows, .net, .context, .faults, .logs, .jtag, .out] ps = true := by rfl) :
    Changes ps s (s.dapScan f) := by
  let base : List Part := [.tiles, .rows, .net, .context, .faults, .logs, .jtag, .out]
  unfold State.dapScan
  refine .ite (.of (qs := base) (.of .bypassScan) m) <| .step (qs := base) (.step .dapServe <| .of .captureDr) (.ite .refl <| .ite (.of (qs := base) (.of .dapEnd) m) (h _)) m

/-! ### Parties -/

theorem Changes.dgramDrop {s : State} {reason} : Changes [.logs] s (s.dgramDrop reason) := by
  unfold State.dgramDrop
  exact .of .event

theorem Changes.absentLapse {s : State} : Changes [.mgmt, .power] s s.absentLapse := by
  unfold State.absentLapse
  split
  · exact .refl
  · exact .ite .refl <| .of (.writes [.mgmt, .power])

theorem Changes.dgramHeard {s : State} {b} : Changes [.logs, .mgmt, .power] s (s.dgramHeard b) := by
  unfold State.dgramHeard
  refine .trans ?_ <| .step .absentLapse <| .trans (.ite (.of .nearMissEvent) .refl) <| .of .mgmt
  split
  · exact .of .mgmt
  · exact .refl

/-! ### Scalar -/

theorem Changes.alu {s : State} {op tid d a b} : Changes [.tiles, .context, .faults, .logs] s (s.alu op tid d a b) := by
  unfold State.alu
  exact .of .issue

/-! ### Vector -/

theorem Changes.vint {s : State} {op tid u d a b p} : Changes [.tiles, .context, .faults, .logs] s (s.vint op tid u d a b p) := by
  unfold State.vint
  exact .of .issue

end Sys2Proof.Laws
end

section
/-!
PROOFS. Every command answers a next state and changes at most the parts that the table of its chapter lists (power-up, which resets every part, is the exception).
-/
set_option Elab.async false
namespace Sys2Proof.Laws
open Sys2Proof Sys2Proof.Machine Sys2Proof.Safety

/-- Where a table lists a command, the command completes and changes at most the parts that the table lists. -/
def Listed (table : Instr → Option (List Part)) (c : Instr) : Prop := ∀ (s : State) (ps : List Part), table c = some ps → Completes ps s (exec c s)

/-- A command outside a table: nothing is claimed of it. -/
theorem Listed.untouched {table : Instr → Option (List Part)} {c : Instr} (h : table c = none) : Listed table c := fun _ _ h' => nomatch h.symm.trans h'

/-- A command of a table: the parts are those its table lists. -/
theorem Listed.of {table : Instr → Option (List Part)} {c : Instr} {qs : List Part} (h : table c = some qs) (k : ∀ s, Completes qs s (exec c s)) : Listed table c :=
  fun s _ h' => Option.some.inj (h.symm.trans h') ▸ k s

/-- Chapter 01 to 03: the syllables of a tile. -/
theorem touchesTile_listed {c : Instr} : Listed touchesTile c := by
  induction c with
  | nop | br | brz | brnz | call | ret | loopi | loops | lexit | addi | movi | movl | bcast | ext | adw | adwi | fset | feed | vld | vldx8 | vldx4 | sld | vst | sst
  | wbf | palw | mks | mclr | mdrn | vfma | vmul | vadd | vsub | vsel | vfmax | vfmin | vcmp | vperm | vcvt | vred | vpal | vtr =>
    refine .of rfl fun _ => ?_
    exact .ok (.of .issue)
  | waitf | waitfs | stepEnd =>
    refine .of rfl fun _ => ?_
    exact .ok (.of .issueHold)
  | waitfPass | stepEndRelease =>
    refine .of rfl fun _ => ?_
    exact .ok (.of .release)
  | add | sub | and | or | xor | shl | shr | sra | cmpeq | cmplt | cmpltu | mul =>
    refine .of rfl fun _ => ?_
    exact .ok (.of .alu)
  | palwComplete | blockCommit | fixedLatencyWriteback | residueMxCheck | residueVxCheck | flagIncrement | heldIncrementRegister | watchdog =>
    refine .of rfl fun _ => ?_
    exact .ok (.of .onTid)
  | viadd | visub | vand | vor | vxor | vshl | vshr | vsra =>
    refine .of rfl fun _ => ?_
    exact .ok (.of .vint)
  | xrd | xwr | xwrb | xred | xgath | xscat | xpdec | xzero =>
    refine .of rfl fun _ => ?_
    exact .ok (.of .issueXf)
  | xfLimitRelease => exact .of rfl fun _ => .ok (.step .release <| .ite (.of .sendXf) .refl)
  | _ => exact .untouched rfl

/-- Chapter 04: steps and barriers. -/
theorem touchesStep_listed {c : Instr} : Listed touchesStep c := by
  induction c with
  | barrier => exact .of rfl fun _ => .ok (.step .issueHold <| .ite (.of .barTile) .refl)
  | barrierLimitRelease => exact .of rfl fun _ => .ok (.step .release <| .ite (.of .barTile) .refl)
  | wake => exact .of rfl fun _ => .ok (.of .wakeOp)
  | stepLaunch t =>
    refine .of rfl fun s => ?_
    change Completes _ s (execStepLaunch t s)
    unfold execStepLaunch
    dsimp only
    split
    · exact .ok (.of .advance)
    · exact .ite (.ok (.of .advance)) <| .ok (.step .advance <| .trans (.foldl fun _ _ => .of .tiles) <| .step .seq <| .ite (.of .wakeStep) .refl)
  | timedWake t =>
    refine .of rfl fun s => ?_
    change Completes _ s (execTimedWake t s)
    unfold execTimedWake
    dsimp only
    split
    · exact .ok (.of .advance)
    · exact .ok (.step .advance <| .step .seq <| .of .wakeStep)
  | stepStart t =>
    refine .of rfl fun s => ?_
    change Completes _ s (execStepStart t s)
    unfold execStepStart
    refine .ite (.ok (.of .advance)) ?_
    split
    · exact .ok (.of .advance)
    · exact .ok (.step .advance <| .step .setBar <| .trans (.foldl fun _ _ => .of .onTile) <| .step .seq <| .foldl fun _ _ => .of .startTile)
  | rowWakeComplete r t =>
    refine .of rfl fun s => ?_
    change Completes _ s (execRowWakeComplete r t s)
    unfold execRowWakeComplete
    dsimp only
    split
    · exact .ok (.of .advance)
    · exact .ite (.ok (.of .advance)) <| .ok (.step .advance <| .step .setRow <| .trans (.foldl fun _ _ => by
        split
        · exact .step .tiles <| .of .onTile
        · exact .of .tiles) <| .of .dapServe)
  | rowRetain r t =>
    refine .of rfl fun s => ?_
    change Completes _ s (execRowRetain r t s)
    unfold execRowRetain
    exact .ite (.ok (.step .advance <| .of .setRow)) <| .ok (.of .advance)
  | stepComplete t =>
    refine .of rfl fun s => ?_
    change Completes _ s (execStepComplete t s)
    unfold execStepComplete
    dsimp only
    split
    · exact .ok (.of .advance)
    · exact .ok (.step .advance <| .step .recordStep <| .of .runEnd)
  | freezeNoteSend d g t =>
    refine .of rfl fun s => ?_
    change Completes _ s (execFreezeNoteSend d g t s)
    unfold execFreezeNoteSend
    dsimp only
    split
    · exact .ok (.of .advance)
    · refine .ite (.ok (.of .advance)) ?_
      split
      · exact .ok (.step .advance <| .of .seq)
      · split
        · exact .ok (.step .advance <| .of .seq)
        · exact .ite (.ok (.step .advance <| .step .seq <| .of .relayNote)) <| .ok (.step .advance <| .step .seq <| .of .sendNote)
  | freezeNote => exact .of rfl fun _ => .ok (.step .advance <| .takeMgt fun _ _ => .trans (.ite (.of .nearMissEvent) .refl) <| .of .relayNote)
  | freezeNoteLapse g t =>
    refine .of rfl fun s => ?_
    change Completes _ s (execFreezeNoteLapse g t s)
    unfold execFreezeNoteLapse
    dsimp only
    split
    · exact .ite (.ok (.step .advance <| .of .seq)) <| .ok (.of .advance)
    · exact .ok (.of .advance)
  | barrierUp => exact .of rfl fun _ => .ok (.step .advance <| .takeMgt fun _ _ => .ite (.of .seq) <| .ite .refl <| .step .setBar <| .of .barProgress)
  | barrierDone => exact .of rfl fun _ => .ok (.step .advance <| .takeMgt fun _ _ => .ite .refl <| .step .barDown <| .step .setBar <| .of .completeDone)
  | _ => exact .untouched rfl

/-- Chapter 04: fabric time. -/
theorem touchesTime_listed {c : Instr} : Listed touchesTime c := by
  induction c with
  | sync l t =>
    refine .of rfl fun s => ?_
    change Completes _ s (execSync l t s)
    unfold execSync
    dsimp only
    split
    · exact .ok (.step .advance <| .step (.takeRx ‹_›) <| .step .timHeard <| .step .setTim <| .step .queueSlot <| .of .timParent)
    · exact .ok (.of .advance)
  | dreq l t =>
    refine .of rfl fun s => ?_
    change Completes _ s (execDreq l t s)
    unfold execDreq
    dsimp only
    split
    · exact .ok (.step .advance <| .step (.takeRx ‹_›) <| .step .timHeard <| .trans (.ite .refl <| .of .queueSlot) <| .of .timParent)
    · exact .ok (.of .advance)
  | resp l t =>
    refine .of rfl fun s => ?_
    change Completes _ s (execResp l t s)
    unfold execResp
    dsimp only
    split
    · exact .ite (.ok (.step .advance <| .step (.takeRx ‹_›) <| .step .timHeard <| .of .timParent)) <| .ite (.ok (.step .advance <| .step (.takeRx ‹_›) <|
        .step .timHeard <| .step .timParent <| .step .setTim <| .of .measured)) <| .ok (.step .advance <| .step (.takeRx ‹_›) <| .step .timHeard <|
        .step .timParent <| .of .setTim)
    · exact .ok (.of .advance)
  | timSyncSend l child t =>
    refine .of rfl fun s => ?_
    change Completes _ s (execTimSyncSend l child t s)
    unfold execTimSyncSend
    exact .ite (.ok (.of .advance)) <| .ok (.step .advance <| .step .time <| .step .setTim <| .of .queueSlot)
  | timParentTimeout => exact .of rfl fun _ => .ok (.step .advance <| .of .parentCheck)
  | masterListenEnd t =>
    refine .of rfl fun s => ?_
    change Completes _ s (execMasterListenEnd t s)
    unfold execMasterListenEnd
    dsimp only
    split
    · exact .ok (.of .advance)
    · refine .ite (.ok (.of .advance)) ?_
      split
      · exact .ok (.step .advance <| .step .time <| .of .setFt)
      · exact .ok (.step .advance <| .of .time)
  | ppsInEdge t =>
    refine .of rfl fun s => ?_
    change Completes _ s (execPpsInEdge t s)
    unfold execPpsInEdge
    exact .ite (.ok (.of .advance)) <| .ite (.ok (.step .advance <| .of .ppsReject)) <| .ok (.step .advance <| .of .time)
  | ppsInMissed t =>
    refine .of rfl fun s => ?_
    change Completes _ s (execPpsInMissed t s)
    unfold execPpsInMissed
    dsimp only
    split
    · exact .ok (.of .advance)
    · exact .ite (.ok (.step .advance <| .of .ppsReject)) <| .ok (.of .advance)
  | ppsOutRise t =>
    refine .of rfl fun s => ?_
    change Completes _ s (execPpsOutRise t s)
    unfold execPpsOutRise
    exact .ite (.ok (.step .advance <| .of .time)) <| .ok (.of .advance)
  | ppsOutFall t =>
    refine .of rfl fun s => ?_
    change Completes _ s (execPpsOutFall t s)
    unfold execPpsOutFall
    exact .ite (.ok (.step .advance <| .of .time)) <| .ok (.of .advance)
  | syncAuxTimecode t =>
    refine .of rfl fun s => ?_
    change Completes _ s (execSyncAuxTimecode t s)
    unfold execSyncAuxTimecode
    exact .ite (.ok (.step .advance <| .step .time <| .ite .refl <| .of .emit)) <| .ok (.of .advance)
  | ptpSyncSend t =>
    refine .of rfl fun s => ?_
    change Completes _ s (execPtpSyncSend t s)
    unfold execPtpSyncSend
    exact .ite (.ok (.step .advance <| .step .time <| .step .ptpMsg <| .of .ptpMsg)) <| .ok (.of .advance)
  | ptpAnnounceSend t =>
    refine .of rfl fun s => ?_
    change Completes _ s (execPtpAnnounceSend t s)
    unfold execPtpAnnounceSend
    exact .ite (.ok (.step .advance <| .step .time <| .of .ptpMsg)) <| .ok (.of .advance)
  | delayReq domain t =>
    refine .of rfl fun s => ?_
    change Completes _ s (execDelayReq domain t s)
    unfold execDelayReq
    exact .ite (.ok (.of .advance)) <| .ite (.ok (.step .advance <| .of .ptpDropped)) <| .ite (.ok (.of .advance)) <| .ok (.step .advance <| .step .time <|
      .of .ptpMsg)
  | ptpMessageRx kind domain =>
    refine .of rfl fun s => ?_
    change Completes _ s (execPtpMessageRx kind domain s)
    unfold execPtpMessageRx
    exact .ite (.ok .refl) <| .ite (.ok (.of .ptpDropped)) <| .ite (.ok (.of .time)) <| .ite (.ok (.of .time)) <| .ok (.of .ptpDropped)
  | ftSampleRead => exact .of rfl fun _ => .ok (.step .advance <| .of .emit)
  | ftLoRead => exact .of rfl fun _ => .ok (.step .advance <| .of .ftLoRead)
  | _ => exact .untouched rfl

/-- Chapter 05: the die network. -/
theorem touchesNet_listed {c : Instr} : Listed touchesNet c := by
  induction c with
  | bundleStoreWrite pti addr data =>
    refine .of rfl fun s => ?_
    change Completes _ s (execBundleStoreWrite pti addr data s)
    unfold execBundleStoreWrite
    split
    · exact .ok (.step .putTile <| .of .out)
    · exact .ok (.of .out)
  | tileScrub pti space ups =>
    refine .of rfl fun s => ?_
    change Completes _ s (execTileScrub pti space ups s)
    unfold execTileScrub
    exact .ite (.ok .refl) <| .ok (.of .onTile)
  | arbiterGrant => exact .of rfl fun _ => .ok (.step .setArb <| .ite (.of .lakeRetry) .refl)
  | emergencyGrant kind idx t =>
    refine .of rfl fun s => ?_
    change Completes _ s (execEmergencyGrant kind idx t s)
    unfold execEmergencyGrant
    refine .ite ?_ <| .ite (.ok (.step .advance <| .of .lake)) <| .ite (.ite (.ok (.step .advance <| .of .flushTx)) ?_) <| .ok (.of .advance)
    · dsimp only
      split
      · exact .ite (.ok (.step .advance <| .of .dapServe)) <| .ok (.step .advance <| .ite (.of .dbgTake) .refl)
      · exact .ok (.step .advance <| .ite (.of .dbgTake) .refl)
    · split
      · exact .ok (.step .advance <| .of .flushTx)
      · exact .ok (.step .advance <| .step .flushTx <| .step .setLink <| .step .out <| .of .placeFlit)
  | packetHop id errs =>
    refine .of rfl fun s => ?_
    change Completes _ s (execPacketHop id errs s)
    unfold execPacketHop
    split
    · exact .ok .refl
    · exact .ite (.ok .refl) <| .ite (.ok (.of .askGrant)) <| .ite (.ok (.step .hopGrant <| .of .setPkt)) <| .ite (.ok (.step .hopGrant <| .step .hopFound <|
        .of .delPkt)) <| .ok (.step .hopGrant <| .step .hopFound <| .step .net <| .step .setPkt <| .of .bcastTurn)
  | bridgeCrossing id errs =>
    refine .of rfl fun s => ?_
    change Completes _ s (execBridgeCrossing id errs s)
    unfold execBridgeCrossing
    split
    · exact .ok .refl
    · refine .ite (.ite (.ok .refl) <| .ite (.ok (.step .hopFound <| .of .delPkt)) <| .ite (.ok (.step .hopFound <| .step .delPkt <| .step .bridgeGive <|
        .of .hubAnswer)) <| .ite (.ok .refl) ?_) <| .ite (.ok .refl) ?_
      · dsimp only
        split
        · exact .ite (.ok (.step .hopFound <| .step .delPkt <| .step .bridgeTake <| .of .hubOut)) <| .ok (.step .hopFound <| .step .delPkt <| .step .bridgeTake <|
            .of .addPkt)
        · exact .ok (.step .hopFound <| .step .delPkt <| .step .bridgeTake <| .of .addPkt)
      · split
        · exact .ok .refl
        · refine .ite (.ok (.step .hopFound <| .of .delPkt)) <| .ite ?_ <| .ite (.ok .refl) ?_
          · dsimp only
            split <;> exact .ok (.step .hopFound <| .step .delPkt <| .step .bridgeGive <| .of .inject)
          · dsimp only
            split
            · exact .ok (.step .hopFound <| .step .delPkt <| .step .bridgeTake <| .of .inject)
            · exact .ok .refl
  | rdReq id =>
    refine .of rfl fun s => ?_
    change Completes _ s (execRdReq id s)
    unfold execRdReq
    exact .ok (.serveTile fun _ _ _ => by
      split
      · exact by split <;> exact .step (.ofFst .portRead ‹_›) <| .step .delPkt <| .of .reply
      · exact .step .delPkt <| .of .net
      · exact .step .delPkt <| .of .reply)
  | rdData | lakeDone =>
    refine .of rfl fun _ => ?_
    exact .ok (.takeAnswer fun _ _ _ _ => .of .writeAnswer)
  | wr id =>
    refine .of rfl fun s => ?_
    change Completes _ s (execWr id s)
    unfold execWr
    exact .ok (.serveTile fun _ _ _ => .ite (.of .delPkt) <| by
      split
      · exact .step .onTile <| .step .delPkt <| .of .reply
      · dsimp only
        split
        · exact .step (.ofFst .glazePut ‹_›) <| .step .delPkt <| .of .reply
        · exact .of (.ofFst .glazePut ‹_›)
      · exact .step .delPkt <| .of .reply)
  | wrAck | bcastAck =>
    refine .of rfl fun _ => ?_
    exact .ok (.takeAnswer fun _ _ _ _ => .of .onTile)
  | bcastWr id =>
    refine .of rfl fun s => ?_
    change Completes _ s (execBcastWr id s)
    unfold execBcastWr
    split
    · exact .ok .refl
    · refine .ite (.ok .refl) ?_
      split
      · exact .ok (.of .bcastFork)
      · split
        · exact .ok .refl
        · split
          · exact .ok (.of (.ofFst .tileReady ‹_›))
          · refine .ite (.ok (.step (.ofFst .tileReady ‹_›) <| .of .delPkt)) ?_
            split
            · exact .ok (.step (.ofFst .tileReady ‹_›) <| .of (.ofFst .bcastOne ‹_›))
            · exact .ok (.step (.ofFst .tileReady ‹_›) <| .step (.ofFst .bcastOne ‹_›) <| .step .delPkt <| .of .bcastGot)
  | genNack => exact .of rfl fun _ => .ok (.takeAnswer fun _ _ _ _ => .step .faults <| .of .onTile)
  | errResp => exact .of rfl fun _ => .ok (.takeAnswer fun _ _ _ _ => .step .onTile <| .ite .refl <| .ite (.of .recordFault) <| .of .recordFault)
  | glazeArbiterRead id ups =>
    refine .of rfl fun s => ?_
    change Completes _ s (execGlazeArbiterRead id ups s)
    unfold execGlazeArbiterRead
    split
    · exact .ok .refl
    · exact .ok (.step .tiles <| .of .glazeServe)
  | glazeScrubVisit d ups wrote =>
    refine .of rfl fun s => ?_
    change Completes _ s (execGlazeScrubVisit d ups wrote s)
    unfold execGlazeScrubVisit
    refine .ite (.ok (.of .setDie)) <| .ite (.ok (.of .setDie)) <| .ite (.ok .refl) <| .ite (.ok (.of .askGrant)) ?_
    dsimp only
    split
    · exact .ok (.step .setDie <| .step .useGrant <| .step (.writes [.tiles, .faults]) <| .step .setDie <| .of .glazeDbe)
    · exact .ok (.step .setDie <| .step .useGrant <| .step (.writes [.tiles, .faults]) <| .of .setDie)
  | pkt l t =>
    refine .of rfl fun s => ?_
    change Completes _ s (execPkt l t s)
    unfold execPkt
    dsimp only
    split
    · refine .ite (.ok (.step .advance <| .step (.takeRx ‹_›) <| .of .setLink)) <| .ite (.ok (.step .advance <| .step (.takeRx ‹_›) <| .step .setLink <| .ite .refl <|
        .of .sendRsp)) <| .ite (.ite (.ok (.step .advance <| .step (.takeRx ‹_›) <| .of .setLink)) <| .ite ?_ <| .ite (.ok (.step .advance <| .step (.takeRx ‹_›) <|
        .of .addPkt)) <| .ok (.step .advance <| .step (.takeRx ‹_›) <| .of .addPkt)) <| .ite (.ok (.step .advance <| .step (.takeRx ‹_›) <| .of .addPkt)) <|
        .ite (.ok (.step .advance <| .step (.takeRx ‹_›) <| .step .setLink <| .of .sendRsp)) <| .ok (.step .advance <| .step (.takeRx ‹_›) <| .of .hubIn)
      split
      · exact .ok (.step .advance <| .step (.takeRx ‹_›) <| .of .addPkt)
      · exact .ok (.step .advance <| .of (.takeRx ‹_›))
    · exact .ok (.of .advance)
  | _ => exact .untouched rfl

/-- Chapter 06: the lake stacks. -/
theorem touchesLake_listed {c : Instr} : Listed touchesLake c := by
  induction c with
  | lakeRead | lakeReduce | lakeScatterAdd | lakeGather | lakePaletteDecode =>
    refine .of rfl fun _ => ?_
    exact .ok (.step .advance <| .step .lakeStrike <| .of .lakeServe)
  | lakeWrite | lakeRangeZero =>
    refine .of rfl fun _ => ?_
    exact .ok (.step .advance <| .of .lakeServe)
  | lakeRefresh => exact .of rfl fun _ => .ok (.step .advance <| .of .setStack)
  | lakeScrubVisit k c ups t =>
    refine .of rfl fun s => ?_
    change Completes _ s (execLakeScrubVisit k c ups t s)
    unfold execLakeScrubVisit
    exact .ite (.ok (.step .advance <| .of .lakeStrike)) <| .ite (.ok (.step .advance <| .step .lakeStrike <| .of .askWake)) <| .ite (.ok (.step .advance <|
      .of .lakeStrike)) <| .ite (.ok (.step .advance <| .step .lakeStrike <| .of .askGrant)) <| .ok (.step .advance <| .step .lakeStrike <| .step .useGrant <|
      .step (.lake fun h => scrubMem_wf h) <| .step .lakeFound <| .step .setStack <| .ite (.of .passOver) .refl)
  | lakeSpareCopyDone k rsp =>
    refine .of rfl fun s => ?_
    change Completes _ s (execLakeSpareCopyDone k rsp s)
    unfold execLakeSpareCopyDone
    dsimp only
    split
    · exact .ok .refl
    · exact .ite (.ok (.of .askGrant)) <| .ok (.step .useGrant <| .step (.lake (h := by exact foldl_copyWord_wf)) <| .step .setStack <|
        .trans (.ite (.of .recordFault) .refl) <| .step .markDefect <| .of .lakeRetry)
  | lakeChannelPdn k c t =>
    refine .of rfl fun s => ?_
    change Completes _ s (execLakeChannelPdn k c t s)
    unfold execLakeChannelPdn
    exact .ite (.ok (.step .advance <| .of .setStack)) <| .ok (.of .advance)
  | lakeChannelSref k c t =>
    refine .of rfl fun s => ?_
    change Completes _ s (execLakeChannelSref k c t s)
    unfold execLakeChannelSref
    exact .ite (.ok (.step .advance <| .of .setStack)) <| .ok (.of .advance)
  | lakeChannelWake k c rsp t =>
    refine .of rfl fun s => ?_
    change Completes _ s (execLakeChannelWake k c rsp t s)
    unfold execLakeChannelWake
    dsimp only
    split
    · exact .ok (.of .advance)
    · exact .ite (.ok (.of .advance)) <| .ok (.step .advance <| .step .setStack <| .of .lakeRetry)
  | _ => exact .untouched rfl

/-- Chapter 13: faults and reset. -/
theorem touchesTeardown_listed {c : Instr} : Listed touchesTeardown c := by
  induction c with
  | contextKill => exact .of rfl fun _ => .ok (.step .advance <| .ite .refl <| .of .beginKill)
  | abortSend t =>
    refine .of rfl fun s => ?_
    change Completes _ s (execAbortSend t s)
    unfold execAbortSend
    exact .ite (.ok (.of .advance)) <| .ok (.step .advance <| .trans (.ite .refl <| .of .broadcast) <| .step .context <| .step .takeGen <| .step .answerOp <|
      .step .answerOp <| .ite (.of .warmBoot) <| .ite (.of .warmBoot) .refl)
  | lakeDrainEnd rsp t =>
    refine .of rfl fun s => ?_
    change Completes _ s (execLakeDrainEnd rsp t s)
    unfold execLakeDrainEnd
    exact .ite (.ok (.of .advance)) <| .ok (.step .advance <| .trans (.foldl fun _ _ => .step .drainStack <| .of .zeroStart) <| .step .context <| .of .setDieZeroing)
  | glazeZeroDone t =>
    refine .of rfl fun s => ?_
    change Completes _ s (execGlazeZeroDone t s)
    unfold execGlazeZeroDone
    exact .ite (.ok (.of .advance)) <| .ok (.step .advance <| .step .clearGlaze <| .step .setDieZeroing <| .step .context <| .of .tearCheck)
  | tileZeroDone t =>
    refine .of rfl fun s => ?_
    change Completes _ s (execTileZeroDone t s)
    unfold execTileZeroDone
    exact .ite (.ok (.of .advance)) <| .ok (.step .advance <| .step (.writes [.tiles, .seq, .context]) <| .of .tearCheck)
  | lakeZeroDone k rsp t =>
    refine .of rfl fun s => ?_
    change Completes _ s (execLakeZeroDone k rsp t s)
    unfold execLakeZeroDone
    exact .ite (.ok (.of .advance)) <| .ok (.step .advance <| .step .zeroEnd <| .step .context <| .of .tearCheck)
  | defectListWrite t =>
    refine .of rfl fun s => ?_
    change Completes _ s (execDefectListWrite t s)
    unfold execDefectListWrite
    dsimp only
    split
    · exact .ok (.of .advance)
    · exact .ite (.ok (.of .advance)) <| .ite (.ok (.step .advance <| .trans (.ite (.of .faults) .refl) <| .of .logs)) <| .ite (.ok (.step .advance <|
        .ite (.of .faults) .refl)) <| .ok (.step .advance <| .trans (.ite (.of .faults) .refl) <| .of .logs)
  | abort l t =>
    refine .of rfl fun s => ?_
    change Completes _ s (execAbort l t s)
    unfold execAbort
    dsimp only
    split
    · exact .ite (.ok (.step .advance <| .step (.takeRx ‹_›) <| .of .setLink)) <| .ite (.ok (.step .advance <| .step (.takeRx ‹_›) <| .of .linkGenDrop)) <|
        .ok (.step .advance <| .step (.takeRx ‹_›) <| .step .context <| .step .broadcast <| .ite (.of .beginKill) <| .of .beginKill)
    · exact .ok (.of .advance)
  | mordantRestart core t =>
    refine .of rfl fun s => ?_
    change Completes _ s (execMordantRestart core t s)
    unfold execMordantRestart
    exact .ite (.ok (.of .advance)) <| .ok (.step .advance <| .step .recordFault <| .step .event <| .of (.writes [.faults, .pkg, .firmware]))
  | mordantRestartEnd started t =>
    refine .of rfl fun s => ?_
    change Completes _ s (execMordantRestartEnd started t s)
    unfold execMordantRestartEnd
    dsimp only
    split
    · exact .ok (.of .advance)
    · exact .ite (.ok (.of .advance)) <| .ok (.step .advance <| .step .pkg <| .foldl fun _ _ => by
        split
        · exact .ite (.step .slotErrors <| .of .answer) .refl
        · exact .refl)
  | _ => exact .untouched rfl

/-- Chapter 07: descriptor DMA. -/
theorem touchesDma_listed {c : Instr} : Listed touchesDma c := by
  induction c with
  | dmaDoorbell => exact .of rfl fun _ => .ok (.step .advance <| .ite (.of .dmaRing) .refl)
  | dmaStop => exact .of rfl fun _ => .ok (.step .advance <| .ite (.of .dmaStop) .refl)
  | dmaNextWrite c byHost hi v =>
    refine .of rfl fun s => ?_
    change Completes _ s (execDmaNextWrite c byHost hi v s)
    unfold execDmaNextWrite
    exact .ite (.ok (.of .setCh)) <| .ok .refl
  | dmaDescFetch c code data t =>
    refine .of rfl fun s => ?_
    change Completes _ s (execDmaDescFetch c code data t s)
    unfold execDmaDescFetch
    dsimp only
    split
    · exact .ok (.of .advance)
    · split
      · exact .ok (.of .advance)
      · exact .ite (.ok (.step .advance <| .step (.dmaAnswer ‹_›) <| .step .dmaExpire <| .of .dmaLate)) <| .ok (.step .advance <| .step (.dmaAnswer ‹_›) <|
          .step .dmaTake <| .trans (.ite (.of .dmaFetchFail) <| .of .dmaCopyRead) <| .of .dmaSettle)
  | dmaShadowRead c t =>
    refine .of rfl fun s => ?_
    change Completes _ s (execDmaShadowRead c t s)
    unfold execDmaShadowRead
    dsimp only
    split
    · exact .ok (.of .advance)
    · exact .ite (.ok (.of .advance)) <| .ok (.step .advance <| .step .setCh <| .of .dmaRead)
  | dmaCopy | dmaIlv | dmaBpl | dmaMxs =>
    refine .of rfl fun _ => ?_
    exact .ok (.step .advance <| .of .dmaMove)
  | dmaRequestAnswer c tok code data t =>
    refine .of rfl fun s => ?_
    change Completes _ s (execDmaRequestAnswer c tok code data t s)
    unfold execDmaRequestAnswer
    dsimp only
    split
    · exact .ok (.step .advance <| .ite .refl <| .of .dmaLate)
    · split
      · exact .ok (.of .advance)
      · exact .ite (.ok (.step .advance <| .step (.dmaAnswer ‹_›) <| .step .dmaExpire <| .of .dmaLate)) <| .ok (.step .advance <| .step (.dmaAnswer ‹_›) <|
          .step .dmaTake <| .step .dmaAnswered <| .of .dmaSettle)
  | dmaRequestTimeout c tok t =>
    refine .of rfl fun s => ?_
    change Completes _ s (execDmaRequestTimeout c tok t s)
    unfold execDmaRequestTimeout
    dsimp only
    split
    · exact .ok (.of .advance)
    · exact .ite (.ok (.of .advance)) <| .ok (.step .advance <| .of .dmaExpire)
  | _ => exact .untouched rfl

/-- Chapter 08: the links. -/
theorem touchesLink_listed {c : Instr} : Listed touchesLink c := by
  induction c with
  | frameRx l frame fecBad corrected t =>
    refine .of rfl fun s => ?_
    change Completes _ s (execFrameRx l frame fecBad corrected t s)
    unfold execFrameRx
    exact .ite (.ok (.of .advance)) <| .ite (.ite (.ok (.step .advance <| .of .setLink)) <| .ite (.ok (.step .advance <| .of .setLink)) <| .ok (.step .advance <|
      .step .setLink <| .of .sendCtl)) <| .ite (.ok (.step .advance <| .of .setLink)) <| .ite (.ok (.step .advance <| .of .setLink)) <| .ok (.step .advance <|
      .of .setLink)
  | nakRepeat l t =>
    refine .of rfl fun s => ?_
    change Completes _ s (execNakRepeat l t s)
    unfold execNakRepeat
    exact .ite (.ok (.step .advance <| .step .setLink <| .of .sendCtl)) <| .ok (.of .advance)
  | ackSend l t =>
    refine .of rfl fun s => ?_
    change Completes _ s (execAckSend l t s)
    unfold execAckSend
    exact .ite (.ok (.step .advance <| .step .setLink <| .of .sendCtl)) <| .ok (.of .advance)
  | ack l t =>
    refine .of rfl fun s => ?_
    change Completes _ s (execAck l t s)
    unfold execAck
    dsimp only
    split
    · exact .ok (.step .advance <| .step .flushTx <| .trans (.ite (.of .fastStart) .refl) <| .step (.takeRx ‹_›) <| .step .setLink <| .ite (.of .replay) .refl)
    · exact .ok (.step .advance <| .step .flushTx <| .ite (.of .fastStart) .refl)
  | replayExhaustion l t =>
    refine .of rfl fun s => ?_
    change Completes _ s (execReplayExhaustion l t s)
    unfold execReplayExhaustion
    exact .ite (.ok (.step .advance <| .step .flushTx <| .of .fastStart)) <| .ok (.step .advance <| .of .flushTx)
  | egressGrant l t =>
    refine .of rfl fun s => ?_
    change Completes _ s (execEgressGrant l t s)
    unfold execEgressGrant
    refine .ite (.ok (.step .advance <| .of .flushTx)) ?_
    dsimp only
    split
    · exact .ok (.step .advance <| .of .flushTx)
    · split
      · exact .ok (.step .advance <| .of .flushTx)
      · exact .ite (.ok (.step .advance <| .of .flushTx)) <| .ok (.trans (by
          split
          · exact .step .advance <| .step .flushTx <| .step .setLink <| .step .out <| .of .rideSlot
          · exact .step .advance <| .step .flushTx <| .step .setLink <| .step .out <| .of .placeSlot) <| .step .setLink <| .of .timStamp)
  | ident l t =>
    refine .of rfl fun s => ?_
    change Completes _ s (execIdent l t s)
    unfold execIdent
    dsimp only
    split
    · exact .ok (.step .advance <| .step (.takeRx ‹_›) <| .step .setLink <| .of .compareWiring)
    · exact .ok (.of .advance)
  | identSend l t =>
    refine .of rfl fun s => ?_
    change Completes _ s (execIdentSend l t s)
    unfold execIdentSend
    exact .ite (.ok (.step .advance <| .step .setLink <| .of .sendCtl)) <| .ok (.of .advance)
  | handoffReq l t =>
    refine .of rfl fun s => ?_
    change Completes _ s (execHandoffReq l t s)
    unfold execHandoffReq
    refine .ite (.ok (.of .advance)) ?_
    split
    · split
      · exact .ok (.step .advance <| .of (.takeRx ‹_›))
      · exact .ok (.step .advance <| .step (.takeRx ‹_›) <| .step .setLink <| .step .links <| .step .learnMove <| .of .sendCtl)
    · exact .ok (.of .advance)
  | handoffRsp l t =>
    refine .of rfl fun s => ?_
    change Completes _ s (execHandoffRsp l t s)
    unfold execHandoffRsp
    dsimp only
    split
    · split
      · exact .ok (.step .advance <| .of (.takeRx ‹_›))
      · exact .ite (.ok (.step .advance <| .of (.takeRx ‹_›))) <| .ok (.step .advance <| .step (.takeRx ‹_›) <| .step .setLink <| .trans (.ite .refl <|
          .of .setLink) <| .ite (.of .nearMissEvent) .refl)
    · exact .ok (.of .advance)
  | handoffTimeout l t =>
    refine .of rfl fun s => ?_
    change Completes _ s (execHandoffTimeout l t s)
    unfold execHandoffTimeout
    dsimp only
    split
    · exact .ite (.ok (.step .advance <| .of .handoffFail)) <| .ok (.of .advance)
    · exact .ok (.of .advance)
  | retrain l t =>
    refine .of rfl fun s => ?_
    change Completes _ s (execRetrain l t s)
    unfold execRetrain
    dsimp only
    split
    · exact .ok (.step .advance <| .step (.takeRx ‹_›) <| .of .fastStart)
    · exact .ok (.of .advance)
  | linkTrainStart l pmd t =>
    refine .of rfl fun s => ?_
    change Completes _ s (execLinkTrainStart l pmd t s)
    unfold execLinkTrainStart
    exact .ite (.ok (.of .advance)) <| .ite (.ok (.step .advance <| .of .setLink)) <| .ok (.step .advance <| .of .setLink)
  | trainPhaseTimeout l t =>
    refine .of rfl fun s => ?_
    change Completes _ s (execTrainPhaseTimeout l t s)
    unfold execTrainPhaseTimeout
    exact .ite (.ok (.step .advance <| .of .linkDown)) <| .ok (.of .advance)
  | linkTrainComplete l asym t =>
    refine .of rfl fun s => ?_
    change Completes _ s (execLinkTrainComplete l asym t s)
    unfold execLinkTrainComplete
    exact .ite (.ok (.step .advance <| .step .setLink <| .ite (.of .setOctet) .refl)) <| .ok (.of .advance)
  | lossOfSignal l t =>
    refine .of rfl fun s => ?_
    change Completes _ s (execLossOfSignal l t s)
    unfold execLossOfSignal
    exact .ite (.ok (.of .advance)) <| .ite (.ok (.step .advance <| .of .setLink)) <| .ok (.step .advance <| .of .linkDown)
  | laneLockLoss l lane t =>
    refine .of rfl fun s => ?_
    change Completes _ s (execLaneLockLoss l lane t s)
    unfold execLaneLockLoss
    exact .ite (.ok (.of .advance)) <| .ok (.step .advance <| .step .setLink <| .of .fastStart)
  | fastRetrainEnd l ok0 ok1 t =>
    refine .of rfl fun s => ?_
    change Completes _ s (execFastRetrainEnd l ok0 ok1 t s)
    unfold execFastRetrainEnd
    exact .ite (.ite (.ok (.step .advance <| .step .setLink <| .of .retrained)) <| .ite (.ok (.step .advance <| .step .setLink <| .ite (.of .linkFailed) <|
      .of .retrained)) <| .ok (.step .advance <| .of .linkDown)) <| .ok (.of .advance)
  | fastRetrainTimeout l t =>
    refine .of rfl fun s => ?_
    change Completes _ s (execFastRetrainTimeout l t s)
    unfold execFastRetrainTimeout
    exact .ite (.ok (.step .advance <| .of .linkDown)) <| .ok (.of .advance)
  | degradedTimeout l t =>
    refine .of rfl fun s => ?_
    change Completes _ s (execDegradedTimeout l t s)
    unfold execDegradedTimeout
    exact .ite (.ok (.step .advance <| .of .linkDown)) <| .ok (.of .advance)
  | codewordLock l lane t =>
    refine .of rfl fun s => ?_
    change Completes _ s (execCodewordLock l lane t s)
    unfold execCodewordLock
    exact .ite (.ok (.of .advance)) <| .ite (.ite (.ok (.step .advance <| .step .setLink <| .of .linkAfresh)) <| .ok (.step .advance <| .of .setLink)) <|
      .ok (.step .advance <| .of .setLink)
  | _ => exact .untouched rfl

/-- Chapter 14: spares and fencing. -/
theorem touchesSpare_listed {c : Instr} : Listed touchesSpare c := by
  induction c with
  | heartbeat l t =>
    refine .of rfl fun s => ?_
    change Completes _ s (execHeartbeat l t s)
    unfold execHeartbeat
    dsimp only
    split
    · refine .ite (.ok (.step .advance <| .step (.takeRx ‹_›) <| .of .setLink)) <| .ite (.ok (.step .advance <| .of (.takeRx ‹_›))) ?_
      split
      · exact .ok (.step .advance <| .of (.takeRx ‹_›))
      · exact .ok (.step .advance <| .step (.takeRx ‹_›) <| .step .pathNear <| .step .setLine <| .of .arm)
    · exact .ok (.of .advance)
  | heartbeatSend t =>
    refine .of rfl fun s => ?_
    change Completes _ s (execHeartbeatSend t s)
    unfold execHeartbeatSend
    refine .ite (.ok (.of .advance)) ?_
    split
    · exact .ok (.of .advance)
    · exact .ok (.step .advance <| .step .spares <| .of .sendMgt)
  | lpnClaim l t =>
    refine .of rfl fun s => ?_
    change Completes _ s (execLpnClaim l t s)
    unfold execLpnClaim
    dsimp only
    split
    · exact .ite (.ok (.step .advance <| .step (.takeRx ‹_›) <| .trans (.ite (.of .displace) .refl) <| .of .setLink)) <| .ok (.step .advance <| .step (.takeRx ‹_›) <|
        .trans (.ite (.of .displace) .refl) <| .step .links <| .of .broadcast)
    · exact .ok (.of .advance)
  | lpnClaimResend t =>
    refine .of rfl fun s => ?_
    change Completes _ s (execLpnClaimResend t s)
    unfold execLpnClaimResend
    dsimp only
    split
    · exact .ok (.of .advance)
    · exact .ite (.ok (.of .advance)) <| .ok (.step .advance <| .step .links <| .ite .refl <| .of .broadcast)
  | spareBind => exact .of rfl fun _ => .ok (.commandNow fun _ _ => .iteFst .refl <| .of .bind)
  | spareUnbind => exact .of rfl fun _ => .ok (.commandNow fun _ _ => .iteFst .refl <| .iteFst .refl <| .of .unbind)
  | spareGet => exact .of rfl fun _ => .ok (.commandNow fun _ _ => .refl)
  | mirrorRegions =>
    refine .of rfl fun _ => ?_
    exact .ok (.commandNow fun _ _ => .iteFst .refl <| .iteFst .refl <| .iteFst .refl <| .iteFst .refl <| .iteFst .refl <| .iteFst .refl <| .iteFst .refl <|
      .of .spares)
  | mirrorPoint => exact .of rfl fun _ => .ok (.commandNow fun _ _ => .iteFst .refl <| .iteFst .refl <| .iteFst .refl <| .iteFst .refl <| .of .startPoint)
  | hbAckEdge k high t =>
    refine .of rfl fun s => ?_
    change Completes _ s (execHbAckEdge k high t s)
    unfold execHbAckEdge
    exact .ite (.ok (.of .advance)) <| .ite (.ok (.step .advance <| .step .pathNear <| .step .setLine <| .of .arm)) <| .ok (.step .advance <| .of .setLine)
  | heartbeatPathASilent k t =>
    refine .of rfl fun s => ?_
    change Completes _ s (execHeartbeatPathASilent k t s)
    unfold execHeartbeatPathASilent
    exact .ite (.ok (.of .advance)) <| .ok (.step .advance <| .step .setLine <| .of .judgeSilence)
  | heartbeatPathBSilent k t =>
    refine .of rfl fun s => ?_
    change Completes _ s (execHeartbeatPathBSilent k t s)
    unfold execHeartbeatPathBSilent
    exact .ite (.ok (.of .advance)) <| .ok (.step .advance <| .step .setLine <| .of .judgeSilence)
  | takeoverFence t =>
    refine .of rfl fun s => ?_
    change Completes _ s (execTakeoverFence t s)
    unfold execTakeoverFence
    exact .ite (.ok (.of .advance)) <| .ok (.step .advance <| .of .spares)
  | takeoverProceed rsp t =>
    refine .of rfl fun s => ?_
    change Completes _ s (execTakeoverProceed rsp t s)
    unfold execTakeoverProceed
    dsimp only
    split
    · exact .ite (.ok (.of .advance)) <| .ok (.step .advance <| .step (.writes [.pkg, .lpn, .spares]) <| .trans (.ite (.of .displace) <| .step .broadcast <|
        .step .links <| .of .timeRole) <| .foldl fun _ _ => .step .drainStack <| .of .zeroStart)
    · exact .ok (.of .advance)
  | fenceFail t =>
    refine .of rfl fun s => ?_
    change Completes _ s (execFenceFail t s)
    unfold execFenceFail
    exact .ite (.ok (.of .advance)) <| .ok (.step .advance <| .step .setLine <| .of .spares)
  | mirrorRestoreDone regions t =>
    refine .of rfl fun s => ?_
    change Completes _ s (execMirrorRestoreDone regions t s)
    unfold execMirrorRestoreDone
    exact .ite (.ok (.of .advance)) <| .ok (.step .advance <| .step .restore <| .of .spares)
  | takeoverDone rsp t =>
    refine .of rfl fun s => ?_
    change Completes _ s (execTakeoverDone rsp t s)
    unfold execTakeoverDone
    exact .ite (.ok (.of .advance)) <| .ok (.step .advance <| .trans (.foldl fun _ _ => .step .setStack <| .of .lakeResume) <| .step .spares <|
      .ite (.of .enter) .refl)
  | mirrorWrite id req rsp t =>
    refine .of rfl fun s => ?_
    change Completes _ s (execMirrorWrite id req rsp t s)
    unfold execMirrorWrite
    dsimp only
    split
    · exact .ok (.of .advance)
    · split
      · exact .ok (.step .advance <| .of .mirrorRefuse)
      · exact .ite (.ok (.step .advance <| .of .mirrorRefuse)) <| .ite (.ok (.step .advance <| .of .mirrorRefuse)) <| .ite (.ok (.step .advance <|
          .of .mirrorRefuse)) <| .ite (.ok (.step .advance <| .of .mirrorRefuse)) <| .ok (.step .advance <| .mirrorStore fun _ => .of .setLine)
  | _ => exact .untouched rfl

/-- Chapter 09: the host attachment. -/
theorem touchesHost_listed {c : Instr} : Listed touchesHost c := by
  induction c with
  | configRequest write reg v t =>
    refine .of rfl fun s => ?_
    change Completes _ s (execConfigRequest write reg v t s)
    unfold execConfigRequest
    exact .ite (.ok (.of .advance)) <| .ite (.ok (.step .advance <| .step .cfgWrite <| .of .emit)) <| .ok (.step .advance <| .of .emit)
  | cxlLinkTrain cxl rate width t =>
    refine .of rfl fun s => ?_
    change Completes _ s (execCxlLinkTrain cxl rate width t s)
    unfold execCxlLinkTrain
    refine .ite (.ok (.of .advance)) ?_
    split
    · exact .ok (.step .advance <| .of .host)
    · exact .ok (.of .advance)
  | cxlLinkDown => exact .of rfl fun _ => .ok (.step .advance <| .step .host <| .of .dropHdm)
  | perstN t =>
    refine .of rfl fun s => ?_
    change Completes _ s (execPerstN t s)
    unfold execPerstN
    have pinned {u : State} : Changes [.host] u { u with h := { u.h with perst := true, cfgReady := false } } := .host
    exact .ok (.step .advance <| .step .portReset <| .of pinned)
  | hotReset => exact .of rfl fun _ => .ok (.step .advance <| .of .portReset)
  | perstNDeassert => exact .of rfl fun _ => .ok (.step .advance <| .of .host)
  | hdmRead hpa tag req rsp ups t =>
    refine .of rfl fun s => ?_
    change Completes _ s (execHdmRead hpa tag req rsp ups t s)
    unfold execHdmRead
    refine .ite (.ok (.step .advance <| .of .lakeStrike)) ?_
    split
    · exact .ok (.step .advance <| .step .lakeStrike <| .of .urRead)
    · exact .ite (.ok (.step .advance <| .step .lakeStrike <| .of .hdmPoison)) <| .ok (.step .advance <| .step .lakeStrike <| .step .addPkt <| .of .lakeServe)
  | hdmWrite hpa tag data poisoned req rsp t =>
    refine .of rfl fun s => ?_
    change Completes _ s (execHdmWrite hpa tag data poisoned req rsp t s)
    unfold execHdmWrite
    refine .ite (.ok (.of .advance)) ?_
    split
    · exact .ok (.step .advance <| .of .urWrite)
    · exact .ite (.ok (.step .advance <| .of .aer)) <| .ite (.ok (.step .advance <| .of .rasError)) <| .ok (.step .advance <| .step .addPkt <| .of .lakeServe)
  | bar2Access write addr len data poisoned ups t =>
    refine .of rfl fun s => ?_
    change Completes _ s (execBar2Access write addr len data poisoned ups t s)
    unfold execBar2Access
    exact .ite (.ok (.step .advance <| .of .host)) <| .ite (.ok (.step .advance <| .step .host <| .ite (.of .urWrite) <| .of .urRead)) <|
      .ite (.ite (.ok (.step .advance <| .step .host <| .of .aer)) <| .ite (.ok (.step .advance <| .of .host)) <| .ok (.step .advance <| .step .host <|
      .step .keepSlot <| .of (.host (hRam := by exact (Mem.store_wf _ _ _))))) <| .ite (.ok (.step .advance <| .step .host <| .of .emitBytes)) <|
      .ite (.ok (.step .advance <| .step .host <| .trans (.ite (.of .aer) .refl) <| .step .faults <| .trans (.ite (.of .aer) .refl) <| .of .emit)) <|
      .ok (.step .advance <| .step .host <| .trans (.ite (.of .aer) .refl) <| .step .faults <| .of .emitBytes)
  | prodWrite n v t =>
    refine .of rfl fun s => ?_
    change Completes _ s (execProdWrite n v t s)
    unfold execProdWrite
    exact .ite (.ok (.of .advance)) <| .ite (.ok (.step .advance <| .of .registerN)) <| .ok (.step .advance <| .of .setMbx)
  | smAddrWrite hi v t =>
    refine .of rfl fun s => ?_
    change Completes _ s (execSmAddrWrite hi v t s)
    unfold execSmAddrWrite
    exact .ite (.ok (.of .advance)) <| .ok (.step .advance <| .of .host)
  | statusMirrorEnable => exact .of rfl fun _ => .ok (.step .advance <| .ite (.of .mirrorOn) .refl)
  | statusRecordWrite => exact .of rfl fun _ => .ok (.step .advance <| .ite (.of .writeRecord) .refl)
  | statusMirrorRefresh => exact .of rfl fun _ => .ok (.step .advance <| .ite (.of .writePage) .refl)
  | mirrorHeartbeat => exact .of rfl fun _ => .ok (.step .advance <| .ite (.of (.writes [.host, .firmware])) .refl)
  | rcRead byHost addr size same t =>
    refine .of rfl fun s => ?_
    change Completes _ s (execRcRead byHost addr size same t s)
    unfold execRcRead
    exact .ite (.ite (.ok (.of .advance)) <| .ite (.ok (.step .advance <| .of .emit)) <| .ite (.ok (.step .advance <| .of .emit)) <| .ite (.ok (.step .advance <|
      .of .urRead)) <| .ite (.ok (.step .advance <| .of .ftLoRead)) <| .ok (.step .advance <| .step .bar0Clear <| .of .emit)) <| .ite (.ok (.of .advance)) <|
      .ok (.step .advance <| .step .regClear <| .of .emit)
  | registerWrite byHost addr v size t =>
    refine .of rfl fun s => ?_
    change Completes _ s (execRegisterWrite byHost addr v size t s)
    unfold execRegisterWrite
    exact .ite (.ok (.step .advance <| .ite (.of .regWrite) .refl)) <| .ite (.ok (.of .advance)) <| .ite (.ok (.step .advance <| .of .urWrite)) <|
      .ite (.ok (.step .advance <| .of .setMbx)) <| .ite (.ok (.step .advance <| .ite (.of .mirrorOn) <| .of .host)) <| .ite (.ok (.step .advance <|
      .ite (.of .regWrite) .refl)) <| .ite (.ok (.step .advance <| .of .compWrite)) <| .ok (.of .advance)
  | mailboxDeadlineExpiry mb t =>
    refine .of rfl fun s => ?_
    change Completes _ s (execMailboxDeadlineExpiry mb t s)
    unfold execMailboxDeadlineExpiry
    dsimp only
    split
    · exact .ok (.of .advance)
    · exact .ok (.step .advance <| .ite (.step .slotErrors <| .of .answer) .refl)
  | mmbDatagram b t =>
    refine .of rfl fun s => ?_
    change Completes _ s (execMmbDatagram b t s)
    unfold execMmbDatagram
    exact .ite (.ok (.of .advance)) <| .ite (.ok (.step .advance <| .of .dgramDrop)) <| .ite (.ok (.step .advance <| .step .dgramHeard <|
      .step (.writes [.host, .mgmt] (m := fun ⟨hLake, hRam, hMem, hWin⟩ => ⟨hLake, Mem.store_wf _ _ _ (Mem.store_wf _ _ _ hRam), hMem, hWin⟩)) <| .of .registerN)) <|
      .ite (.ok (.step .advance <| .of .dgramHeard)) <| .ok (.step .advance <| .step .dgramHeard <| .of .dgramDrop)
  | indexQuery b t =>
    refine .of rfl fun s => ?_
    change Completes _ s (execIndexQuery b t s)
    unfold execIndexQuery
    exact .ite (.ok (.of .advance)) <| .ite (.ok (.step .advance <| .of .dgramDrop)) <| .ok (.step .advance <| .step .dgramHeard <| .of .sendDgram)
  | managerAbsentTimeout => exact .of rfl fun _ => .ok (.step .advance <| .of .absentLapse)
  | entdaa addr t =>
    refine .of rfl fun s => ?_
    change Completes _ s (execEntdaa addr t s)
    unfold execEntdaa
    exact .ite (.ok (.of .advance)) <| .ok (.step .advance <| .step .mgmt <| .of .emit)
  | i3cPrivateWrite b t =>
    refine .of rfl fun s => ?_
    change Completes _ s (execI3cPrivateWrite b t s)
    unfold execI3cPrivateWrite
    exact .ite (.ok (.of .advance)) <| .ite (.ok (.step .advance <| .of .emit)) <| .ok (.step .advance <|
      .step (.writes [.host, .mgmt] (m := fun ⟨hLake, hRam, hMem, hWin⟩ => ⟨hLake, Mem.store_wf _ _ _ (Mem.zero_wf _ _ _ hRam), hMem, hWin⟩)) <| .step .registerN <|
      .of .emit)
  | i3cPrivateRead t =>
    refine .of rfl fun s => ?_
    change Completes _ s (execI3cPrivateRead t s)
    unfold execI3cPrivateRead
    exact .ite (.ok (.of .advance)) <| .ite (.ok (.step .advance <| .of .emit)) <| .ok (.step .advance <| .step .mgmt <| .of .emitBytes)
  | i3cPresenceTimeout t =>
    refine .of rfl fun s => ?_
    change Completes _ s (execI3cPresenceTimeout t s)
    unfold execI3cPresenceTimeout
    exact .ite (.ok (.of .advance)) <| .ok (.step .advance <| .of .mgmt)
  | _ => exact .untouched rfl

/-- Chapter 10: the Mordant commands. -/
theorem touchesMordant_listed {c : Instr} : Listed touchesMordant c := by
  induction c with
  | idGet | stateGet | capGet | powerGet | timeGet | ptpGet =>
    refine .of rfl fun _ => ?_
    exact .ok (.commandNow fun _ _ => .refl)
  | cfgPart => exact .of rfl fun _ => .ok (.commandNow fun _ _ => .iteFst .refl <| .iteFst .refl <| .of .cfg)
  | cfgCommit mb t =>
    refine .of rfl fun s => ?_
    change Completes _ s (execCfgCommit mb t s)
    unfold execCfgCommit
    exact .ok (.commandNow fun _ _ => .iteFst .refl <| .iteFst .refl <| by
      split
      · exact .refl
      · dsimp only
        exact .of .applyImage)
  | cfgInfo => exact .of rfl fun _ => .ok (.commandNow fun _ _ => by split <;> exact .refl)
  | cfgClear mb t =>
    refine .of rfl fun s => ?_
    change Completes _ s (execCfgClear mb t s)
    unfold execCfgClear
    exact .ok (.commandNow fun _ _ => .iteFst .refl <| by
      dsimp only
      exact .of .clearImage)
  | claimSet mb t =>
    refine .of rfl fun s => ?_
    change Completes _ s (execClaimSet mb t s)
    unfold execClaimSet
    exact .ok (.commandNow fun _ _ => by
      split
      · exact .refl
      · refine .iteFst .refl <| .iteFst (.iteFst (.of .setClaims) .refl) <| .iteFst .refl ?_
        dsimp only
        split
        · exact .refl
        · exact .of .setClaims)
  | ctxAccept mb t =>
    refine .of rfl fun s => ?_
    change Completes _ s (execCtxAccept mb t s)
    unfold execCtxAccept
    exact .ok (.commandNow fun _ _ => .iteFst .refl <| .iteFst (.of .holdLog) <| .iteFst .refl <| by
      dsimp only
      exact .of .accept)
  | bundleLoad mb t =>
    refine .of rfl fun s => ?_
    change Completes _ s (execBundleLoad mb t s)
    unfold execBundleLoad
    exact .ite (.ok (.of .advance)) <| .ok (.trans (.command fun _ _ => .iteFst .refl <| .iteFst .refl <| .iteFst .refl <| .of .loadBegin) <| .of .loadStep)
  | stepWrite mb t =>
    refine .of rfl fun s => ?_
    change Completes _ s (execStepWrite mb t s)
    unfold execStepWrite
    have row (a : State × List Nat) (ix : Nat) (b : List Byte) : Changes [.seq] a.1 (State.writeStep a ix b).1 := by
      unfold State.writeStep
      exact .iteFst .seq .seq
    exact .ok (.commandNow fun u _ => .iteFst .refl <| .iteFst .refl <| .iteFst .refl <| .iteFst .refl <|
      .of (foldl_inv _ (fun a : State × List Nat => Changes [.seq] u a.1) (fun _ _ k => k.trans (row ..)) _ _ .refl))
  | runSubmit =>
    refine .of rfl fun _ => ?_
    exact .ok (.commandNow fun _ _ => .iteFst .refl <| .iteFst .refl <| .iteFst .refl <| .iteFst (.of .holdLog) <| .iteFst .refl <| .iteFst .refl <| .of .submit)
  | runStop => exact .of rfl fun _ => .ok (.commandNow fun _ _ => .iteFst .refl <| .iteFst .refl <| .step .seq <| .of .runEnd)
  | ctxKill => exact .of rfl fun _ => .ok (.command fun _ _ => .iteFst .refl <| .iteFst .refl <| .of .beginKill)
  | ctxEnd => exact .of rfl fun _ => .ok (.command fun _ _ => .iteFst .refl <| .iteFst .refl <| .iteFst .refl <| .of .beginKill)
  | warmReset => exact .of rfl fun _ => .ok (.commandNow fun _ _ => .iteFst .refl <| .of .warmReset)
  | capSet =>
    refine .of rfl fun _ => ?_
    exact .ok (.commandNow fun _ _ => .iteFst .refl <| .iteFst .refl <| .trans (.ite (.of .mgmt) <| .of .mgmt) <| .ite (.of .addOrder) .refl)
  | holdSet => exact .of rfl fun _ => .ok (.commandNow fun _ _ => .of .addHold)
  | holdRelease => exact .of rfl fun _ => .ok (.commandNow fun _ _ => .iteFst (.of .dropHold) <| .of .addOrder)
  | sprintSet => exact .of rfl fun _ => .ok (.commandNow fun _ _ => .iteFst .refl <| .ite (.of .mgmt) <| .of .mgmt)
  | taiSet => exact .of rfl fun _ => .ok (.commandNow fun _ _ => .iteFst .refl <| .trans (.ite (.of .addOrder) .refl) <| .step .setTai <| .of .mgmt)
  | masterSet mb t =>
    refine .of rfl fun s => ?_
    change Completes _ s (execMasterSet mb t s)
    unfold execMasterSet
    exact .ok (.commandNow fun _ _ => by
      split
      · exact .refl
      · exact .iteFst .refl <| .iteFst .refl <| .step .cfg <| .of .timeConfigured)
  | loaderPacket t =>
    refine .of rfl fun s => ?_
    change Completes _ s (execLoaderPacket t s)
    unfold execLoaderPacket
    dsimp only
    split
    · exact .ok (.step .advance <| .of .loadStep)
    · split
      · exact .ite (.ok (.step .advance <| .step (.takeLoad ‹_›) <| .step (.loader (h := by exact castAnswered_window_wf)) <| .of .loadStep)) <|
          .ok (.step .advance <| .step (.takeLoad ‹_›) <| .trans (.ite (.of .loadLost) .refl) <| .of .loadStep)
      · exact .ok (.step .advance <| .step (.takeLoad ‹_›) <| .step .loadPiece <| .of .loadStep)
  | loaderReport t =>
    refine .of rfl fun s => ?_
    change Completes _ s (execLoaderReport t s)
    unfold execLoaderReport
    dsimp only
    split
    · exact .ok (.of .advance)
    · exact .ite (.ok (.step .advance <| .step (.takeLoad ‹_›) <| .step .hubAnswer <| .step .reportLapse <| .of .loadStep)) <| .ok (.step .advance <|
        .step (.takeLoad ‹_›) <| .step .hubAnswer <| .step .reportLapse <| .trans (.ite (.of .nearMissEvent) .refl) <| .step .loader <| .of .loadStep)
  | loaderReportTimeout t =>
    refine .of rfl fun s => ?_
    change Completes _ s (execLoaderReportTimeout t s)
    unfold execLoaderReportTimeout
    exact .ite (.ok (.of .advance)) <| .ok (.step .advance <| .step .reportLapse <| .of .loadStep)
  | _ => exact .untouched rfl

/-- Chapter 15 and 10: firmware. -/
theorem touchesFirmware_listed {c : Instr} : Listed touchesFirmware c := by
  induction c with
  | fwStageBegin => exact .of rfl fun _ => .ok (.command fun _ _ => .iteFst .refl <| .iteFst .refl <| .iteFst .refl <| .of .firmware)
  | stagingEraseDone => exact .of rfl fun _ => .ok (.step .advance <| .ite (.step .firmware <| .of .answerOp) .refl)
  | fwChunk =>
    refine .of rfl fun _ => ?_
    exact .ok (.command fun _ _ => .iteFst .refl <| .iteFst .refl <| .iteFst .refl <| .iteFst .refl <| .iteFst (.of .firmware) <| .iteFst (.of .firmware) <|
      .of .firmware)
  | chunkWriteDone t =>
    refine .of rfl fun s => ?_
    change Completes _ s (execChunkWriteDone t s)
    unfold execChunkWriteDone
    dsimp only
    split
    · exact .ok (.of .advance)
    · exact .ok (.step .advance <| .step .firmware <| .of .answerOp)
  | fwStatus => exact .of rfl fun _ => .ok (.commandNow fun _ _ => .refl)
  | fwActivate => exact .of rfl fun _ => .ok (.commandNow fun _ _ => .iteFst (.ite (.of .addOrder) .refl) <| .of .firmware)
  | fwDefer => exact .of rfl fun _ => .ok (.commandNow fun _ _ => .iteFst .refl <| .iteFst .refl <| .step .addOrder <| .of .firmware)
  | activationPrepDone good left t =>
    refine .of rfl fun s => ?_
    change Completes _ s (execActivationPrepDone good left t s)
    unfold execActivationPrepDone
    exact .ite (.ok (.of .advance)) <| .ite (.ok (.step .advance <| .of .firmware)) <| .ok (.step .advance <| .step .firmware <| .of .cancelActivation)
  | activationBegin t =>
    refine .of rfl fun s => ?_
    change Completes _ s (execActivationBegin t s)
    unfold execActivationBegin
    exact .ite (.ok (.of .advance)) <| .ok (.step .advance <| .step .firmware <| .of .event)
  | handoverStart t =>
    refine .of rfl fun s => ?_
    change Completes _ s (execHandoverStart t s)
    unfold execHandoverStart
    exact .ite (.ok (.of .advance)) <| .ok (.step .advance <| .step .firmware <| .of .setHandover)
  | handoverImport good t =>
    refine .of rfl fun s => ?_
    change Completes _ s (execHandoverImport good t s)
    unfold execHandoverImport
    exact .ite (.ok (.of .advance)) <| .ite (.ok (.step .advance <| .of .firmware)) <| .ok (.step .advance <| .of .firmware)
  | watchBankSwitch => exact .of rfl fun _ => .ok (.step .advance <| .ite (.of .firmware) .refl)
  | handoverEnd t =>
    refine .of rfl fun s => ?_
    change Completes _ s (execHandoverEnd t s)
    unfold execHandoverEnd
    exact .ite (.ok (.step .advance <| .step .firmware <| .of .setHandover)) <| .ite (.ok (.step .advance <| .step .firmware <| .of .setHandover)) <|
      .ok (.of .advance)
  | selfCheckPass cut t =>
    refine .of rfl fun s => ?_
    change Completes _ s (execSelfCheckPass cut t s)
    unfold execSelfCheckPass
    exact .ite (.ok (.of .advance)) <| .ite (.ok (.step .advance <| .of .firmware)) <| .ok (.step .advance <| .step .firmware <| .step .arbRaise <| .of .event)
  | rollback own t =>
    refine .of rfl fun s => ?_
    change Completes _ s (execRollback own t s)
    unfold execRollback
    dsimp only
    split
    · exact .ok (.of .advance)
    · exact .ok (.step .advance <| .step .firmware <| .step .setHandover <| .of .event)
  | arbRaise => exact .of rfl fun _ => .ok (.step .advance <| .ite .refl <| .of .arbRaise)
  | attest => exact .of rfl fun _ => .ok (.commandNow fun _ _ => .iteFst .refl <| .of .report)
  | identity | logRead =>
    refine .of rfl fun _ => ?_
    exact .ok (.commandNow fun _ _ => .iteFst .refl .refl)
  | keySet => exact .of rfl fun _ => .ok (.commandNow fun _ _ => .step .wipePayload <| .iteFst .refl <| .iteFst .refl <| .of .mgmt)
  | keyClear => exact .of rfl fun _ => .ok (.commandNow fun _ _ => .iteFst .refl <| .iteFst .refl <| .of .mgmt)
  | regRead => exact .of rfl fun _ => .ok (.commandNow fun _ _ => .iteFst .refl <| .of .regRead)
  | _ => exact .untouched rfl

/-- Chapter 16: perturbation and debug. -/
theorem touchesDebug_listed {c : Instr} : Listed touchesDebug c := by
  induction c with
  | debugEnable mb t =>
    refine .of rfl fun s => ?_
    change Completes _ s (execDebugEnable mb t s)
    unfold execDebugEnable
    exact .ok (.commandNow fun _ _ => .iteFst .refl <| .iteFst .refl <| by
      dsimp only
      refine .trans ?_ (.ite .refl (.of .event))
      refine .trans ?_ (.iteFst (.of .askScope) .refl)
      exact .iteFst (.of .askScope) .refl)
  | debugDisable => exact .of rfl fun _ => .ok (.commandNow fun _ _ => .iteFst .refl <| .of .endScopes)
  | perturbSet mb t =>
    refine .of rfl fun s => ?_
    change Completes _ s (execPerturbSet mb t s)
    unfold execPerturbSet
    exact .ok (.commandNow fun _ _ => .iteFst .refl <| .iteFst .refl <| .iteFst .refl <| .iteFst .refl <| by
      split
      · exact .refl
      · exact .trans (.ite (.of .addOrder) .refl) <| .step .perturb <| .of .event)
  | perturbGet => exact .of rfl fun _ => .ok (.commandNow fun _ _ => .iteFst .refl .refl)
  | ptLinkDelay | ptLakeLat | ptMbxDelay | ptClkStart =>
    refine .of rfl fun _ => ?_
    exact .ok (.step .advance <| .step .takeReg <| .of .showTrigger)
  | ptCreditHold => exact .of rfl fun _ => .ok (.step .advance <| .step .takeReg <| .step .settleCredits <| .of .showTrigger)
  | ptMeasOfs | ptTempOfs | ptFlowOfs =>
    refine .of rfl fun _ => ?_
    exact .ok (.step .advance <| .ite (.step .takeReg <| .of .showTrigger) .refl)
  | ptForceShed t =>
    refine .of rfl fun s => ?_
    change Completes _ s (execPtForceShed t s)
    unfold execPtForceShed
    exact .ite (.ok (.of .advance)) <| .ok (.step .advance <| .step .takeReg <| .step .perturb <| .trans (.ite (.of .endShed) <| .ite .refl <| .of .startShed) <|
      .of .showTrigger)
  | forcedShedEnd t =>
    refine .of rfl fun s => ?_
    change Completes _ s (execForcedShedEnd t s)
    unfold execForcedShedEnd
    dsimp only
    split
    · exact .ok (.step .advance <| .ite (.step .endShed <| .of .showTrigger) .refl)
    · exact .ok (.of .advance)
  | ptChecks => exact .of rfl fun _ => .ok (.step .advance <| .ite (.step .takeReg <| .of .applyChecks) .refl)
  | ptTrigger t =>
    refine .of rfl fun s => ?_
    change Completes _ s (execPtTrigger t s)
    unfold execPtTrigger
    exact .ite (.ok (.of .advance)) <| .ok (.step .advance <| .step .takeReg <| .ite (.of .showTrigger) <| .ite (.of .emit) .refl)
  | ptTimer t =>
    refine .of rfl fun s => ?_
    change Completes _ s (execPtTimer t s)
    unfold execPtTimer
    exact .ite (.ok (.of .advance)) <| .ok (.step .advance <| .step .takeReg <| .step .perturb <| .step .setWindow <| .step .settleCredits <| .of .showTrigger)
  | ptTimerEdge => exact .of rfl fun _ => .ok (.step .advance <| .ite (.of .setWindow) .refl)
  | debugScopeExpiry => exact .of rfl fun _ => .ok (.step .advance <| .ite .refl <| .of .endScopes)
  | debugEnNDeassert => exact .of rfl fun _ => .ok (.step .advance <| .step .endScopes <| .of .perturb)
  | idcode => exact .of rfl fun _ => .ok (.jtagOn fun _ => .step .setIr <| .of .emit)
  | samplePreload => exact .of rfl fun _ => .ok (.jtagOn fun _ => .step .setIr <| .of .boundaryScan)
  | extest => exact .of rfl fun _ => .ok (.jtagOn fun _ => .step .setIr <| .ite (.of .boundaryScan) <| .of .bypassScan)
  | clamp | highz | bypass =>
    refine .of rfl fun _ => ?_
    exact .ok (.jtagOn fun _ => .step .setIr <| .of .bypassScan)
  | dap => exact .of rfl fun _ => .ok (.jtagOn fun _ => .step .dapServe <| .step .setIr <| .of .captureDr)
  | dapRead => exact .of rfl fun _ => .ok (.step .advance <| .jtagOn fun _ => .dapScan fun _ => .of .dapRead)
  | dapWrite => exact .of rfl fun _ => .ok (.step .advance <| .jtagOn fun _ => .dapScan fun _ => .of .dapWrite)
  | debugEnNAssert => exact .of rfl fun _ => .ok (.step .advance <| .of .perturb)
  | _ => exact .untouched rfl

/-- Chapter 12: power and cooling. -/
theorem touchesPower_listed {c : Instr} : Listed touchesPower c := by
  induction c with
  | controlPeriod a b va vb ts dem t =>
    refine .of rfl fun s => ?_
    change Completes _ s (execControlPeriod a b va vb ts dem t s)
    unfold execControlPeriod
    exact .ite (.ok (.of .advance)) <| .ite (.ok (.step .advance <| .step .periodBegin <| .step .wakeRows <| .foldl fun _ _ => .of .applyDuty)) <|
      .ok (.step .advance <| .step .periodBegin <| .step .passCode <| .step .sense <| .step .measure <| .step .clearCounts <| .step .thermal <| .step .terms <|
      .step .capBoundary <| .step .sprint <| .step .periodSet <| .trans (.foldl fun _ _ => .of .gateRow) <| .step .wakeRows <| .foldl fun _ _ => .of .applyDuty)
  | dieFreeze => exact .of rfl fun _ => .ok (.step .advance <| .of .applyDuty)
  | calibrationWindow t =>
    refine .of rfl fun s => ?_
    change Completes _ s (execCalibrationWindow t s)
    unfold execCalibrationWindow
    exact .ite (.ok (.of .advance)) <| .ite (.ok (.step .advance <| .step .power <| .step .setSuspect <| .of .power)) <| .ok (.step .advance <| .of .power)
  | capHwRamp t =>
    refine .of rfl fun s => ?_
    change Completes _ s (execCapHwRamp t s)
    unfold execCapHwRamp
    dsimp only
    split
    · exact .ite (.ok (.step .advance <| .step .setCapHw <| .of .power)) <| .ok (.of .advance)
    · exact .ok (.of .advance)
  | sprintBinRoll t =>
    refine .of rfl fun s => ?_
    change Completes _ s (execSprintBinRoll t s)
    unfold execSprintBinRoll
    exact .ite (.ok (.step .advance <| .of .sprintTick)) <| .ok (.step .advance <| .step .sprintTick <| .of .power)
  | shedNAssert t =>
    refine .of rfl fun s => ?_
    change Completes _ s (execShedNAssert t s)
    unfold execShedNAssert
    exact .ite (.ok (.of .advance)) <| .ok (.step .advance <| .step .power <| .trans (.ite .refl <| .of .hwFreeze) <| .of .respond)
  | shedNDeassert => exact .of rfl fun _ => .ok (.step .advance <| .of .power)
  | leakNAssert t =>
    refine .of rfl fun s => ?_
    change Completes _ s (execLeakNAssert t s)
    unfold execLeakNAssert
    exact .ite (.ok (.of .advance)) <| .ok (.step .advance <| .step .power <| .step .hwFreeze <| .step .startStop <| .of .respond)
  | leakNDeassert t =>
    refine .of rfl fun s => ?_
    change Completes _ s (execLeakNDeassert t s)
    unfold execLeakNDeassert
    exact .ite (.ok (.step .advance <| .of .power)) <| .ok (.of .advance)
  | leakRelease t =>
    refine .of rfl fun s => ?_
    change Completes _ s (execLeakRelease t s)
    unfold execLeakRelease
    exact .ite (.ok (.step .advance <| .of .power)) <| .ok (.of .advance)
  | flowPulseEdge t =>
    refine .of rfl fun s => ?_
    change Completes _ s (execFlowPulseEdge t s)
    unfold execFlowPulseEdge
    exact .ite (.ok (.of .advance)) <| .ok (.trans (by
      split
      · exact .step .advance <| .ite (.of .nearMissEvent) <| .ite (.of .flowStart) .refl
      · exact .step .advance <| .ite (.of .flowStart) .refl) <| .step .power <| .of .power)
  | flowTimeout => exact .of rfl fun _ => .ok (.step .advance <| .ite (.of .flowStart) .refl)
  | flowStopTimeout t =>
    refine .of rfl fun s => ?_
    change Completes _ s (execFlowStopTimeout t s)
    unfold execFlowStopTimeout
    dsimp only
    split
    · exact .ite (.ok (.step .advance <| .step .startStop <| .of .respond)) <| .ok (.of .advance)
    · exact .ok (.of .advance)
  | flowRelease t =>
    refine .of rfl fun s => ?_
    change Completes _ s (execFlowRelease t s)
    unfold execFlowRelease
    dsimp only
    split
    · exact .ite (.ok (.step .advance <| .of .power)) <| .ok (.of .advance)
    · exact .ok (.of .advance)
  | controlledStopFreeze t =>
    refine .of rfl fun s => ?_
    change Completes _ s (execControlledStopFreeze t s)
    unfold execControlledStopFreeze
    dsimp only
    split
    · exact .ok (.of .advance)
    · exact .ite (.ok (.step .advance <| .step .power <| .foldl fun _ _ => .of .applyDuty)) <| .ok (.of .advance)
  | controlledStopEnd t =>
    refine .of rfl fun s => ?_
    change Completes _ s (execControlledStopEnd t s)
    unfold execControlledStopEnd
    dsimp only
    split
    · exact .ok (.of .advance)
    · exact .ite (.ok (.step .advance <| .of .power)) <| .ok (.of .advance)
  | holdNAssert => exact .of rfl fun _ => .ok (.step .advance <| .of .addHold)
  | holdNDeassert => exact .of rfl fun _ => .ok (.step .advance <| .of .dropHold)
  | stage1CurrentLimit => exact .of rfl fun _ => .ok (.step .advance <| .step .hwFreeze <| .of .respond)
  | regulatorCurrentLimit d t =>
    refine .of rfl fun s => ?_
    change Completes _ s (execRegulatorCurrentLimit d t s)
    unfold execRegulatorCurrentLimit
    exact .ite (.ok (.step .advance <| .step .hwFreeze <| .of .respond)) <| .ok (.of .advance)
  | converterPhaseFail reg phase t =>
    refine .of rfl fun s => ?_
    change Completes _ s (execConverterPhaseFail reg phase t s)
    unfold execConverterPhaseFail
    exact .ite (.ok (.of .advance)) <| .ok (.step .advance <| .step .power <| .step .recordFault <| .of .markDefect)
  | regulatorOutOfRegulation => exact .of rfl fun _ => .ok (.of .pkg)
  | sensorDisagree => exact .of rfl fun _ => .ok (.step .advance <| .ite (.of .recordFault) .refl)
  | coldPlateRead answers inlet outlet pressure t =>
    refine .of rfl fun s => ?_
    change Completes _ s (execColdPlateRead answers inlet outlet pressure t s)
    unfold execColdPlateRead
    exact .ite (.ok (.step .advance <| .of .power)) <| .ite (.ok (.step .advance <| .step .power <| .step .power <| .of .recordFault)) <| .ok (.step .advance <|
      .of .power)
  | watchCoreStall =>
    refine .of rfl fun _ => ?_
    exact .ok (.step .advance <| .step (.writes [.pkg, .power]) <| .trans (.foldl fun _ _ => .of .applyDuty) <| .of .respond)
  | watchCoreRestart t =>
    refine .of rfl fun s => ?_
    change Completes _ s (execWatchCoreRestart t s)
    unfold execWatchCoreRestart
    exact .ite (.ok (.of .advance)) <| .ok (.step .advance <| .step (.writes [.faults, .logs, .pkg, .power, .firmware]) <| .of .event)
  | _ => exact .untouched rfl

/-- Chapter 11: bring-up. -/
theorem touchesBringup_listed {c : Instr} (hc : ∀ straps low, c ≠ .bladePowerUp straps low) : Listed touchesBringup c := by
  induction c with
  | thermtrip tray t =>
    refine .of rfl fun s => ?_
    change Completes _ s (execThermtrip tray t s)
    unfold execThermtrip
    exact .ite (.ok (.of .advance)) <| .ite (.ok (.step .advance <| .of .pkg)) <| .ok (.step .advance <| .step .pkg <| .of .toStandby)
  | bladePowerUp straps low => exact absurd rfl (hc straps low)
  | bladePowerLoss | thermtripNRelease | powerGood =>
    refine .of rfl fun _ => ?_
    exact .ok (.step .advance <| .ite (.of .pkg) .refl)
  | holdUpExpiry t =>
    refine .of rfl fun s => ?_
    change Completes _ s (execHoldUpExpiry t s)
    unfold execHoldUpExpiry
    dsimp only
    split
    · exact .ok (.of .advance)
    · exact .ite (.ok (.of .advance)) <| .ok (.step .advance <| .step .toStandby <| .step .pkg <| .of .setUnder)
  | pwrEnHigh | prsntNAssert | thermtripNDeassert =>
    refine .of rfl fun _ => ?_
    exact .ok (.step .advance <| .step .pkg <| .of .tryBoot)
  | pwrEnLow => exact .of rfl fun _ => .ok (.step .advance <| .step .pkg <| .of .toStandby)
  | prsntNBreak t =>
    refine .of rfl fun s => ?_
    change Completes _ s (execPrsntNBreak t s)
    unfold execPrsntNBreak
    exact .ite (.ok (.step .advance <| .of .pkg)) <| .ok (.step .advance <| .step .event <| .step .endSprint <| .step (.writes [.logs, .pkg, .power]) <|
      .of .toStandby)
  | bladeUndervoltage | bladeOvervoltage =>
    refine .of rfl fun _ => ?_
    exact .ok (.step .advance <| .of .stageStop)
  | refclkLoss => exact .of rfl fun _ => .ok (.step .advance <| .step .pkg <| .step .advance <| .of .stageStop)
  | bistDone results hdieOk listOk t =>
    refine .of rfl fun s => ?_
    change Completes _ s (execBistDone results hdieOk listOk t s)
    unfold execBistDone
    exact .ite (.ok (.of .advance)) <| .ok (.step .advance <| .step .logs <| .trans (.foldl fun _ _ => .of .bistAdd) <| .trans (.ite .refl <|
      .foldl fun _ _ => .of .applySpares) <| .step .sources <| .step (.writes [.tiles, .seq, .pkg, .power]) <| .ite (.of .setUnder) <| .ite (.of .notReady) <|
      .ite (.of .notReady) <| .ite (.of .notReady) <| .step .setUnder <| .of .trainLinks)
  | firmwareBootVerify t =>
    refine .of rfl fun s => ?_
    change Completes _ s (execFirmwareBootVerify t s)
    unfold execFirmwareBootVerify
    exact .ite (.ok (.of .advance)) <| .ite (.ok (.step .advance <| .of (.writes [.pkg, .host, .firmware]))) <| .ite (.ok (.step .advance <|
      .step (.writes [.pkg, .host, .firmware]) <| .of .event)) <| .ok (.step .advance <| .of .setUnder)
  | lakeTrainDone trained t =>
    refine .of rfl fun s => ?_
    change Completes _ s (execLakeTrainDone trained t s)
    unfold execLakeTrainDone
    exact .ite (.ok (.of .advance)) <| .ite (.ok (.step .advance <| .ite (.of .pkg) <| .step .pkg <| .of .notReady)) <| .ok (.step .advance <|
      .trans (.foldl fun _ _ => .step .applySpares <| .of .setStack) <| .step .pkg <| .step .wakeWaiting <| .of .enter)
  | fenceInAssert => exact .of rfl fun _ => .ok (.step .advance <| .step .pkg <| .ite (.step .pkg <| .of .closeGate) <| .ite (.of .closeGate) .refl)
  | fenceRelease => exact .of rfl fun _ => .ok (.step .advance <| .step .pkg <| .ite (.of .warmReset) .refl)
  | _ => exact .untouched rfl

/-- Watch-domain power-up resets every part. -/
theorem completes_bladePowerUp {straps : Nat} {low : Bool} (s : State) : Completes everyPart s (exec (.bladePowerUp straps low) s) := by
  change Completes _ s (execBladePowerUp straps low s)
  unfold execBladePowerUp
  exact .ite (.ok .refl) <| .ite (.ok (.of .pkg)) <| .ok (.step .powerUp <| .step .pkg <| .step .setUnder <| .step .sampleStraps <| .of .tryBoot)

/-- The parts that the table of its chapter lists for a command. -/
def touches (c : Instr) : Option (List Part) :=
  touchesTile c <|> touchesStep c <|> touchesTime c <|> touchesNet c <|> touchesLake c <|> touchesTeardown c <|> touchesDma c <|> touchesLink c <|> touchesSpare c <|>
    touchesHost c <|> touchesMordant c <|> touchesFirmware c <|> touchesDebug c <|> touchesPower c <|> touchesBringup c

theorem touches_isSome (c : Instr) : (touches c).isSome = true := by induction c <;> rfl

/-- Every command but power-up changes at most the parts that its table lists. -/
theorem completes_of_touches {c : Instr} {ps : List Part} (s : State) (h : touches c = some ps) (hc : ∀ straps low, c ≠ .bladePowerUp straps low) : Completes ps s (exec c s) := by
  simp only [touches, Option.orElse_eq_orElse, Option.orElse_eq_or, Option.or_eq_some_iff] at h
  obtain h | ⟨-, h | ⟨-, h | ⟨-, h | ⟨-, h | ⟨-, h | ⟨-, h | ⟨-, h | ⟨-, h | ⟨-, h | ⟨-, h | ⟨-, h | ⟨-, h | ⟨-, h | ⟨-, h⟩⟩⟩⟩⟩⟩⟩⟩⟩⟩⟩⟩⟩⟩ := h
  · exact touchesTile_listed s _ h
  · exact touchesStep_listed s _ h
  · exact touchesTime_listed s _ h
  · exact touchesNet_listed s _ h
  · exact touchesLake_listed s _ h
  · exact touchesTeardown_listed s _ h
  · exact touchesDma_listed s _ h
  · exact touchesLink_listed s _ h
  · exact touchesSpare_listed s _ h
  · exact touchesHost_listed s _ h
  · exact touchesMordant_listed s _ h
  · exact touchesFirmware_listed s _ h
  · exact touchesDebug_listed s _ h
  · exact touchesPower_listed s _ h
  · exact touchesBringup_listed hc s _ h

/-- Every command answers a next state, keeps the queue and keeps the memories in their form. -/
theorem exec_completes (c : Instr) (s : State) : ∃ ps, Completes ps s (exec c s) := by
  obtain ⟨ps, h⟩ := Option.isSome_iff_exists.mp (touches_isSome c)
  by_cases hc : ∃ straps low, c = .bladePowerUp straps low
  · obtain ⟨straps, low, rfl⟩ := hc
    exact ⟨_, completes_bladePowerUp s⟩
  · exact ⟨ps, completes_of_touches s h fun straps low e => hc ⟨straps, low, e⟩⟩

/-- What a completed command leaves as it was. -/
theorem Completes.same {ps : List Part} {s t : State} {o : Out1} (h : Completes ps s o) (e : o = .next t) {p : Part} (hp : p ∉ ps) : p.same s t := by
  obtain ⟨u, hu, hc⟩ := h
  cases e.symm.trans hu
  exact hc.same p hp

theorem Completes.memories {ps : List Part} {s t : State} {o : Out1} (h : Completes ps s o) (e : o = .next t) (w : memoriesWf s) : memoriesWf t := by
  obtain ⟨u, hu, hc⟩ := h
  cases e.symm.trans hu
  exact hc.memories w

/-! ### One tile -/

/-- From `s` to `t` no physical tile but `p` differs. -/
def OthersStand (p : Nat) (s t : State) : Prop := ∀ q, q ≠ p → t.tile q = s.tile q

namespace OthersStand
variable {p : Nat} {s t u : State}

theorem trans (h : OthersStand p s t) (k : OthersStand p t u) : OthersStand p s u := fun q hq => (k q hq).trans (h q hq)

theorem ite {c : Prop} [Decidable c] {a b : State} (h : OthersStand p s a) (k : OthersStand p s b) : OthersStand p s (if c then a else b) := by
  split
  · exact h
  · exact k

/-- What changes no tile. -/
theorem of {ps : List Part} (h : Changes ps s t) (ht : Part.tiles ∉ ps := by simp) : OthersStand p s t := fun q _ => by
  have e : s.tiles = t.tiles := h.same .tiles ht
  simp only [State.tile, e]

/-- One tile written, and no tile after that. -/
theorem set {x : Tile} (hu : u.tiles = Tab.set s.tiles p x) : OthersStand p s u := fun q hq => by
  simp only [State.tile, hu]
  exact Tab.get_set_ne _ _ _ _ _ hq

theorem onTile {f : Tile → Tile} : OthersStand p s (s.onTile p f) :=
  trans (set rfl) (of (.recordTile (pti := p)))

theorem onTid {tid : Nat} {f : Tile → Tile} : OthersStand (s.ptiOf tid) s (s.onTid tid f) := ite onTile (of (ps := []) .refl)

theorem portRead {space addr n : Nat} : OthersStand p s (s.portRead p space addr n).1 := by
  have counted {d r f} : Changes [.net, .faults] s { s.setDie d r with faults := f } := .writes _
  have same : OthersStand p s s := of (ps := []) .refl
  unfold State.portRead
  simp only [apply_ite Prod.fst]
  refine ite (ite (trans (ite same onTile) onTile) (ite same onTile)) ?_
  split
  · dsimp only
    refine trans ?_ (of .glazeDbe)
    exact ite same (of counted)
  · exact ite same (of counted)

theorem sendReq {op lpn : Nat} {q : XfReq} {data : List Word} : OthersStand p s (s.sendReq p op lpn q data) := by
  unfold State.sendReq
  exact trans (set rfl) (ite (of .addPkt) (of .sendFrom))

theorem sendReqs {op lpn : Nat} {rs : List XfReq} : ∀ {s : State}, OthersStand p s (s.sendReqs p op lpn rs) := by
  induction rs with
  | nil => exact of (ps := []) .refl
  | cons q r ih =>
    intro s
    have read {sp a n u b} (e : s.portRead p sp a n = (u, b)) : OthersStand p s u := by simpa [e] using portRead (s := s) (p := p) (space := sp) (addr := a) (n := n)
    unfold State.sendReqs
    split
    · exact trans sendReq ih
    · split
      · exact trans (read ‹_›) (trans sendReq ih)
      · exact trans (read ‹_›) onTile

theorem sendXf {x : Tile} {w : Nat} : OthersStand p s (s.sendXf p x w) := by
  have read {sp a n u b} (e : s.portRead p sp a n = (u, b)) : OthersStand p s u := by simpa [e] using portRead (s := s) (p := p) (space := sp) (addr := a) (n := n)
  unfold State.sendXf
  refine ite ?_ (trans onTile sendReqs)
  split
  · exact trans (read ‹_›) (trans onTile sendReqs)
  · exact read ‹_›

theorem issueXf {tid w : Nat} : OthersStand (s.ptiOf tid) s (s.issueXf tid w) := by
  unfold State.issueXf
  exact ite (trans onTid sendXf) onTid

end OthersStand

theorem OthersStand.of_next {s u t : State} {tid tid' slot slot' w w' : Nat} (hs : some (tid', slot', w') = some (tid, slot, w)) (h : (.next u : Out1) = .next t)
    (ho : OthersStand (s.ptiOf tid') s u) : OthersStand (s.ptiOf tid) s t := by
  cases hs
  cases h
  exact ho

/-- As a syllable of a tile's chapter a command is an operation on its tile, and a transfer sends from there. -/
def StaysOnTile (c : Instr) : Prop := ∀ (s t : State) (ps : List Part) (tid slot w : Nat),
  touchesTile c = some ps → syllableOf c = some (tid, slot, w) → exec c s = .next t → OthersStand (s.ptiOf tid) s t

theorem StaysOnTile.of_not_spelled {c : Instr} (h : syllableOf c = none) : StaysOnTile c := fun _ _ _ _ _ _ _ hs => nomatch h.symm.trans hs

theorem StaysOnTile.of_elsewhere {c : Instr} (h : touchesTile c = none) : StaysOnTile c := fun _ _ _ _ _ _ hp => nomatch h.symm.trans hp

theorem staysOnTile {c : Instr} : StaysOnTile c := by
  induction c with
  | xrd | xwr | xwrb | xred | xgath | xscat | xpdec | xzero =>
    exact fun _ _ _ _ _ _ _ hs h => .of_next hs h .issueXf
  | nop | br | brz | brnz | call | ret | loopi | loops | lexit | waitf | waitfs | stepEnd | add | sub | and | or | xor | shl | shr | sra | cmpeq | cmplt | cmpltu
  | mul | addi | movi | movl | bcast | ext | adw | adwi | fset | feed | vld | vldx8 | vldx4 | sld | vst | sst | wbf | palw | mks | mclr | mdrn | vfma | vmul | vadd
  | vsub | viadd | visub | vand | vor | vxor | vshl | vshr | vsra | vsel | vfmax | vfmin | vcmp | vperm | vcvt | vred | vpal | vtr =>
    exact fun _ _ _ _ _ _ _ hs h => .of_next hs h .onTid
  | barrier | wake => exact .of_elsewhere rfl
  | _ => exact .of_not_spelled rfl

end Sys2Proof.Laws

namespace Sys2Proof.Safety
open Sys2Proof Sys2Proof.Machine Sys2Proof.Laws

/-- Settles O1: the step is defined so. -/
theorem stepRunsTheFrontCommand : Obligations.StepRunsTheFrontCommand := by
  refine ⟨fun c r s => rfl, fun s h => ?_⟩
  unfold step
  rw [h]

/-- Settles O3: every command's state is reached by operations that keep the four memories' form. -/
theorem memoriesKeepTheirForm : Obligations.MemoriesKeepTheirForm := by
  intro s t hw h
  cases hp : s.pending with
  | nil =>
    rw [stepRunsTheFrontCommand.2 s hp] at h
    cases h
    exact hw
  | cons c r =>
    obtain ⟨ps, hc⟩ := exec_completes c { s with pending := r }
    refine hc.memories ?_ hw
    rw [← h, ← stepRunsTheFrontCommand.1 c r s, ← hp]

/-- Settles O2: every command's state is reached by operations that leave the queue alone. -/
theorem everyCommandCompletesAndKeepsTheQueue : Obligations.EveryCommandCompletesAndKeepsTheQueue := by
  intro c s
  obtain ⟨_, t, ht, hc⟩ := exec_completes c s
  exact ⟨t, ht, hc.pending⟩

/-- Settles O5: a syllable is an operation on its own tile, from which a transfer sends its packets. -/
theorem tileCommandsKeepTheRest : Obligations.TileCommandsKeepTheRest := by
  intro c s t ps hc he
  exact ⟨fun p hp => (touchesTile_listed s _ hc).same he hp, fun tid slot w hs => staysOnTile s t ps tid slot w hc hs he⟩

/-- Settles O6: the frames of the chapters on steps, time, the die network, the lake and the links. -/
theorem fabricCommandsKeepTheirFrames : Obligations.FabricCommandsKeepTheirFrames := by
  rintro c s t ps p (h | h | h | h | h) he hp
  · exact (touchesStep_listed s _ h).same he hp
  · exact (touchesTime_listed s _ h).same he hp
  · exact (touchesNet_listed s _ h).same he hp
  · exact (touchesLake_listed s _ h).same he hp
  · exact (touchesLink_listed s _ h).same he hp

/-- Settles O7: the frames of the chapters on DMA, the host, the teardown and the spares. -/
theorem attachmentCommandsKeepTheirFrames : Obligations.AttachmentCommandsKeepTheirFrames := by
  rintro c s t ps p (h | h | h | h) he hp
  · exact (touchesDma_listed s _ h).same he hp
  · exact (touchesHost_listed s _ h).same he hp
  · exact (touchesTeardown_listed s _ h).same he hp
  · exact (touchesSpare_listed s _ h).same he hp

/-- The blade's rise in `OFF` powers up, and what follows leaves the package number alone. -/
theorem completes_bladePowerUp_off {s : State} (straps : Nat) (hu : s.pkg.under = psOff) (hb : s.pkg.blade = false) :
    Completes (everyPart.erase .lpn) s.powerUp (exec (.bladePowerUp straps false) s) := by
  change Completes _ _ (execBladePowerUp straps false s)
  unfold execBladePowerUp
  rw [if_neg (by simp [hb]), if_neg (by simp [hu])]
  exact .ok (.step .pkg <| .step .setUnder <| .step .sampleStraps <| .of .tryBoot)

/-- Refutes O8: the blade's rise in `OFF` resets every part of the package, the package number with them, which its table's list does not name. -/
theorem not_managementCommandsKeepTheirFrames : ¬ Obligations.ManagementCommandsKeepTheirFrames := by
  intro h
  let s : State := { State.reset with lpn := 5 }
  obtain ⟨t, ht, hc⟩ := completes_bladePowerUp_off (s := s) 0 rfl rfl
  have zero : Part.same s.powerUp t .lpn := hc.same .lpn (by decide)
  have kept : Part.same s t .lpn := h (.bladePowerUp 0 false) s t _ .lpn (.inr (.inr (.inr (.inr rfl)))) ht (by simp)
  have five : (5 : Nat) = 0 := Eq.trans kept (Eq.symm zero)
  exact absurd five (by decide)

end Sys2Proof.Safety
end

section
/-!
PROOFS. The state after reset: every unit of an empty table reads as its own reset value.
-/
set_option Elab.async false
namespace Sys2Proof.Safety
open Sys2Proof Sys2Proof.Machine

/-- Settles O4: every table of `State.reset` is empty, so each unit reads as its own reset value. -/
theorem resetStateIsOffAndEmpty : Obligations.ResetStateIsOffAndEmpty := by
  refine ⟨rfl, rfl, ⟨rfl, rfl, rfl, rfl⟩, rfl, rfl, rfl, rfl, rfl, rfl, rfl, rfl, rfl, rfl, fun _ => ⟨rfl, rfl, rfl, rfl⟩, fun _ => rfl, fun _ => rfl, rfl, rfl, rfl, rfl, rfl⟩

end Sys2Proof.Safety
end

section
/-!
PROOFS. Scalar, branch and loop syllables: each command issues its syllable, whose effect is its rule's (R89 to R100).
-/
set_option Elab.async false
namespace Sys2Proof.Laws
open Sys2Proof Sys2Proof.Machine Sys2Proof.Safety

/-- A command that issues a syllable has that syllable's effect where it issues. -/
theorem exec_of_issue {c : Instr} {s : State} {tid slot w : Nat} (eff : Tile → Tile) (h : issues s tid slot w = true) (hc : exec c s = ok (s.issue tid slot w eff) := by rfl) :
    exec c s = .next (issueOn s tid slot eff) := by
  rw [hc, issue_of_issues eff h]
  rfl

theorem exec_of_issueHold {c : Instr} {s : State} {tid slot w : Nat} (eff : Tile → Tile) (h : issues s tid slot w = true) (hc : exec c s = ok (s.issueHold tid slot w eff) := by rfl) :
    exec c s = .next (issueOn s tid slot eff) := by
  rw [hc, issueHold_of_issues eff h]
  rfl

theorem beq_one {n : Nat} : (n == 1) = decide (n = 1) := rfl

/-- Effects that agree on the tile after its slot has issued give one state. -/
theorem issueOn_congr {s : State} {tid slot : Nat} {eff eff' : Tile → Tile} (h : eff ((s.ltile tid).mark slot) = eff' ((s.ltile tid).mark slot)) :
    issueOn s tid slot eff = issueOn s tid slot eff' := onTid_congr fun _ => h

theorem aluOp_cmplt (a b : Word) : aluOp 0x0A a b = if a.toInt < b.toInt then 1#32 else 0#32 := by
  simp only [aluOp, BitVec.slt, decide_eq_true_eq]

theorem aluOp_cmpltu (a b : Word) : aluOp 0x0B a b = if a.toNat < b.toNat then 1#32 else 0#32 := by
  simp only [aluOp, BitVec.ult, decide_eq_true_eq]

end Sys2Proof.Laws

namespace Sys2Proof.Safety
open Sys2Proof Sys2Proof.Machine Sys2Proof.Laws

/-- Settles O9: each command issues its syllable, whose effect is its rule's. -/
theorem scalarResults : Obligations.ScalarResults := by
  refine ⟨fun s tid d a b => ⟨?add, ?sub, ?and, ?or, ?xor, ?shl, ?shr, ?sra, ?cmpeq, ?cmplt, ?cmpltu, ?mul⟩,
    fun s tid slot d a l lane word f pre imm fv hl hLane hPre => ⟨?nop, ?addi, ?movi, ?movl, ?bcast, ?ext, ?adw, ?adwi, ?fset, ?feed⟩⟩
  case add | sub | and | or | xor | shl | shr | sra | cmpeq | mul | nop | bcast | adw | fset => exact exec_of_issue _
  case cmplt =>
    intro h
    rw [exec_of_issue (effAlu 0x0A d a b) h]
    exact congrArg _ (issueOn_congr (by rw [effAlu, aluOp_cmplt]; rfl))
  case cmpltu =>
    intro h
    rw [exec_of_issue (effAlu 0x0B d a b) h]
    exact congrArg _ (issueOn_congr (by rw [effAlu, aluOp_cmpltu]; rfl))
  case addi =>
    intro h
    rw [exec_of_issue (effAddi d a imm.toNat) h]
    exact congrArg _ (issueOn_congr (by simp [effAddi]))
  case movi =>
    intro h
    rw [exec_of_issue (effMovi d imm.toNat) h]
    exact congrArg _ (issueOn_congr (by simp [effMovi]))
  case adwi =>
    intro h
    rw [exec_of_issue (effAdwi d word imm.toNat) h]
    exact congrArg _ (issueOn_congr (by simp [effAdwi]))
  case movl =>
    intro h
    have hc : exec (.movl tid d l) s = ok (s.issue tid slotSC (encSC 0x1A d 0 0 (l % 4) 0) (effMovl d (l % 4))) := rfl
    rw [Nat.mod_eq_of_lt hl] at hc
    exact exec_of_issue _ h hc
  case ext =>
    intro h
    have hc : exec (.ext tid d a lane) s = ok (s.issue tid slotSC (encSC 0x21 d a 0 (lane % 256) 0) (effExt d a (lane % 256))) := rfl
    rw [Nat.mod_eq_of_lt hLane] at hc
    exact exec_of_issue _ h hc
  case feed =>
    intro h
    have hc : exec (.feed tid a pre) s = ok (s.issue tid slotSC (encSC 0x31 a 0 0 (pre % 2) 0) (effFeed a (pre % 2))) := rfl
    rw [Nat.mod_eq_of_lt hPre] at hc
    rw [exec_of_issue _ h hc]
    exact congrArg _ (issueOn_congr (by simp [effFeed, Nat.mod_eq_of_lt hPre, beq_one]))

/-- Settles O10. -/
theorem branchesAndLoopsDecideTheNextBundle : Obligations.BranchesAndLoopsDecideTheNextBundle := by
  refine fun s tid sr l count target => ⟨?br, ?brz, ?brnz, ?call, ?ret, ?loopi, ?loops, ?lexit⟩
  case br | brz | call | ret | loopi | loops | lexit => exact exec_of_issue _
  case brnz =>
    intro h
    rw [exec_of_issue (effBrnz sr target) h]
    exact congrArg _ (issueOn_congr (by simp only [effBrnz, effBr, ne_eq, ite_not]))

end Sys2Proof.Safety
end

section
/-!
PROOFS. Waits, flag increments and the watchdog (R32 to R34, R95, R97, R136).
-/
set_option Elab.async false
namespace Sys2Proof.Laws
open Sys2Proof Sys2Proof.Machine Sys2Proof.Safety

theorem waitOf_of_waitf {w : Nat} (h : opOf w = 0x10) (t : Tile) : waitOf w t = effWait (fld w 50 45) (fld w 44 29) t := by
  rw [waitOf, if_pos h]

/-- An increment that has arrived, of no transfer that is complete, registers while the flag has a place. -/
theorem flagDone_of_arrive {t : Tile} {f : Nat} (hXf : t.iss.xf.find? (fun o => o.flag == f && o.answers == 0 && !o.failed) = none)
    (hArr : t.iss.arrive.contains f = true) (hRoom : Tab.get 0 t.r.regNow f < 4) :
    t.flagDone f = { t with iss := { t.iss with arrive := dropFirst f t.iss.arrive },
                            r := { t.r with regNow := Tab.upd 0 t.r.regNow f (· + 1), flags := Tab.put 0 t.r.flags f (t.flag f + 1) } } := by
  simp only [Tile.flagDone, hXf, hArr, if_true, Tile.incFlag, if_pos hRoom]
  rfl

theorem regHeld_of_held {t : Tile} {f : Nat} (hHeld : t.r.heldInc.any (fun e => e.1 == f) = true) (hRoom : Tab.get 0 t.r.regNow f < 4) :
    t.regHeld f = { t with r := { t.r with heldInc := dropHeld f t.r.heldInc, regNow := Tab.upd 0 t.r.regNow f (· + 1), flags := Tab.put 0 t.r.flags f (t.flag f + 1) } } := by
  obtain ⟨e, he⟩ : ∃ e, t.r.heldInc.find? (fun e => e.1 == f) = some e := by
    rw [← Option.isSome_iff_exists, List.find?_isSome]
    simpa using hHeld
  simp only [Tile.regHeld, he, if_pos hRoom, Tile.incFlag]
  rfl

end Sys2Proof.Laws

namespace Sys2Proof.Safety
open Sys2Proof Sys2Proof.Machine Sys2Proof.Laws

/-- Settles O13: a met wait issues, an unmet one holds its bundle, a held one is released when met; an increment registers while its flag has a place, and the watchdog raises its fault. -/
theorem waitsFlagsAndWatchdog : Obligations.WaitsFlagsAndWatchdog := by
  refine ⟨fun s tid f count sr => ⟨?waitf, ?waitfs, ?stepEnd, ?holds, ?pass, ?ends⟩, fun s tid f hOn => ⟨?arrives, ?held, ?watchdog⟩⟩
  case waitf | stepEnd => exact exec_of_issueHold _
  case waitfs =>
    intro h
    rw [exec_of_issueHold (fun t => effWait f (fld (t.sreg sr).toNat 15 0) t) h]
    exact congrArg _ (issueOn_congr (by simp [effWait, fld]))
  case holds => exact fun _ hAt hNone hFault hFree hSyl hUnmet => congrArg ok (issueHold_holds (effWait f count) hAt hNone hFault hFree hSyl hUnmet)
  case pass =>
    intro _ hReady hOp
    refine (congrArg ok (release_of_ready isWait waitOf hReady (by simp [isWait, hOp]))).trans (congrArg Host.Outcome.next (onTid_congr fun _ => ?_))
    rw [waitOf_of_waitf hOp]
    rfl
  case ends =>
    intro _ hReady hOp
    exact congrArg ok (release_of_ready (fun w => opOf w == 0x1F) (fun _ => effStepEnd) hReady (by simp [hOp]))
  case arrives =>
    intro hXf hArr hRoom
    exact congrArg ok (onTid_congr fun _ => flagDone_of_arrive hXf hArr hRoom)
  case held =>
    intro hHeld hRoom
    exact congrArg ok (onTid_congr fun _ => regHeld_of_held hHeld hRoom)
  case watchdog =>
    intro hActive hUsed hFirst
    exact congrArg ok (onTid_congr fun _ => by simp [Tile.watchdog, hActive, hUsed, hFirst])

end Sys2Proof.Safety
end

section
/-!
PROOFS. Loads, stores, palette writes and vector arithmetic (R101 to R107, R115): an access in its space that meets no other in a bank is made.
-/
set_option Elab.async false
namespace Sys2Proof.Laws
open Sys2Proof Sys2Proof.Machine Sys2Proof.Safety

/-- An access in its space that meets no other in a bank is made and recorded. -/
theorem touch_of_free {t : Tile} {unit space n : Nat} {a : Int} (hIn : inSpace space a n = true) (hFree : t.iss.acc.filter (bankMeet (unit, space, a.toNat, n)) = []) :
    t.touch unit space a n = ({ t with iss := { t.iss with acc := (unit, space, a.toNat, n) :: t.iss.acc } }, true) := by
  simp [Tile.touch, hIn, hFree]

theorem effLoad_of_free {t : Tile} {slot a al n : Nat} (mk : List Byte → Wr) (hIn : inSpace (t.desc a).space (alignDown (t.desc a).addr al) n = true)
    (hFree : t.iss.acc.filter (bankMeet (lsUnit slot, (t.desc a).space, (alignDown (t.desc a).addr al).toNat, n)) = []) :
    effLoad slot a al n mk t =
      let r := ({ t with iss := { t.iss with acc := (lsUnit slot, (t.desc a).space, (alignDown (t.desc a).addr al).toNat, n) :: t.iss.acc } }).readT (t.desc a).space
        (alignDown (t.desc a).addr al).toNat (n / 4) slot
      (r.1.pend (loadLat (t.desc a).space) (mk r.2)).advance a 1 := by
  simp only [effLoad, touch_of_free hIn hFree, if_true]

theorem effVst_of_free {t : Tile} {slot reg a q p : Nat} (hIn : inSpace (t.desc a).space (alignDown (t.desc a).addr 64) 256 = true)
    (hFree : t.iss.acc.filter (bankMeet (lsUnit slot, (t.desc a).space, (alignDown (t.desc a).addr 64).toNat, 256)) = []) :
    effVst slot reg a q p t =
      ((((List.range 64).filter fun j => bitAt (t.pred p) (64 * q + j)).map fun j =>
          Wr.mem (t.desc a).space ((alignDown (t.desc a).addr 64).toNat + 4 * j) (leBytes 4 (t.lane reg (64 * q + j)).toNat)).foldl (fun (x : Tile) y => x.pend 1 y)
        { t with iss := { t.iss with acc := (lsUnit slot, (t.desc a).space, (alignDown (t.desc a).addr 64).toNat, 256) :: t.iss.acc } }).advance a 1 := by
  simp only [effVst, touch_of_free hIn hFree, if_true, List.foldl_map]

theorem effSst_of_free {t : Tile} {slot reg a : Nat} (hIn : inSpace (t.desc a).space (alignDown (t.desc a).addr 4) 4 = true)
    (hFree : t.iss.acc.filter (bankMeet (lsUnit slot, (t.desc a).space, (alignDown (t.desc a).addr 4).toNat, 4)) = []) :
    effSst slot reg a t =
      (({ t with iss := { t.iss with acc := (lsUnit slot, (t.desc a).space, (alignDown (t.desc a).addr 4).toNat, 4) :: t.iss.acc } }).pend 1
        (.mem (t.desc a).space (alignDown (t.desc a).addr 4).toNat (leBytes 4 (t.sreg reg).toNat))).advance a 1 := by
  simp only [effSst, touch_of_free hIn hFree, if_true]

theorem effPalw_of_free {t : Tile} {a pslot pcnt pt f : Nat} (hIn : inSpace (t.desc a).space (alignDown (t.desc a).addr 32) (32 * (pcnt + 1)) = true)
    (hFree : t.iss.acc.filter (bankMeet (1, (t.desc a).space, (alignDown (t.desc a).addr 32).toNat, 32 * (pcnt + 1))) = []) :
    effPalw a pslot pcnt pt f t =
      let r := ({ t with iss := { t.iss with acc := (1, (t.desc a).space, (alignDown (t.desc a).addr 32).toNat, 32 * (pcnt + 1)) :: t.iss.acc } }).readT (t.desc a).space
        (alignDown (t.desc a).addr 32).toNat (32 * (pcnt + 1) / 4) slotLS1
      ({ r.1 with iss := { r.1.iss with palw := r.1.iss.palw ++ [PalWrite.mk pslot (palsOf r.2 (pcnt + 1) (pt == 1)) f t.iss.cyc] } }).advance a 1 := by
  simp only [effPalw, touch_of_free hIn hFree, if_true]

/-- Where an instruction issues, effects that agree on its tile give one outcome. -/
theorem exec_of_issue_congr {c : Instr} {s : State} {tid slot w : Nat} (eff : Tile → Tile) {eff' : Tile → Tile} (h : issues s tid slot w = true)
    (e : eff ((s.ltile tid).mark slot) = eff' ((s.ltile tid).mark slot)) (hc : exec c s = ok (s.issue tid slot w eff) := by rfl) :
    exec c s = .next (issueOn s tid slot eff') :=
  (exec_of_issue eff h hc).trans (congrArg Host.Outcome.next (issueOn_congr e))

section
variable {c : Instr} {s : State} {tid u w a : Nat}

theorem lsSlot_of_lt (hu : u < 2) : lsSlot u = u + 2 := by rw [lsSlot, Nat.mod_eq_of_lt hu]

theorem vxU_of_lt (hu : u < 2) : vxU u = u := Nat.mod_eq_of_lt hu

/-- A load whose access is free reads at the descriptor's address, and its write is due after the latency of the space. -/
theorem exec_of_load {al n : Nat} {mk : List Byte → Wr} (hu : u < 2) (h : issues s tid (u + 2) w = true)
    (hFree : inSpace ((s.ltile tid).desc a).space (alignDown ((s.ltile tid).desc a).addr al) n = true ∧
      (s.ltile tid).iss.acc.filter (bankMeet (u, ((s.ltile tid).desc a).space, (alignDown ((s.ltile tid).desc a).addr al).toNat, n)) = [])
    (hc : exec c s = ok (s.issue tid (lsSlot u) w (effLoad (lsSlot u) a al n mk)) := by rfl) :
    exec c s = .next (issueOn s tid (u + 2) fun t =>
      let r := ({ t with iss := { t.iss with acc := (u, ((s.ltile tid).desc a).space, (alignDown ((s.ltile tid).desc a).addr al).toNat, n) :: t.iss.acc } }).readT
        ((s.ltile tid).desc a).space (alignDown ((s.ltile tid).desc a).addr al).toNat (n / 4) (u + 2)
      (r.1.pend (loadLat ((s.ltile tid).desc a).space) (mk r.2)).advance a 1) := by
  rw [lsSlot_of_lt hu] at hc
  exact exec_of_issue_congr _ h (effLoad_of_free (t := (s.ltile tid).mark (u + 2)) (slot := u + 2) mk hFree.1 hFree.2) hc

/-- What a vector unit's syllable does where it issues. -/
theorem exec_of_vector {eff : Nat → Tile → Tile} (hu : u < 2) (h : issues s tid (u + 5) w = true)
    (hc : exec c s = ok (s.issue tid (vxSlot (vxU u)) w (eff (vxU u))) := by rfl) : exec c s = .next (issueOn s tid (u + 5) (eff u)) := by
  rw [vxU_of_lt hu] at hc
  exact exec_of_issue (eff u) h hc
end

end Sys2Proof.Laws

namespace Sys2Proof.Safety
open Sys2Proof Sys2Proof.Machine Sys2Proof.Laws

/-- Settles O14: an access that is in its space and meets no other is made, and a palette write completes while the execution clock runs. -/
theorem loadsStoresAndPaletteWrites : Obligations.LoadsStoresAndPaletteWrites := by
  refine ⟨fun s tid u reg a q p hu => ?slots, fun s tid wb a off len pslot pcnt pt f => ⟨?wbf, ?palw, ?stands, ?completes⟩⟩
  case slots =>
    refine ⟨fun h hf => (exec_of_load (c := .vld tid u reg a q) hu h hf rfl :), fun h hf => (exec_of_load (c := .vldx8 tid u reg a) hu h hf rfl :),
      fun h hf => (exec_of_load (c := .vldx4 tid u reg a) hu h hf rfl :), fun h hf => (exec_of_load (c := .sld tid u reg a) hu h hf rfl :), fun h hf => ?vst, fun h hf => ?sst⟩
    case vst =>
      have hc : exec (.vst tid u reg a q p) s = ok (s.issue tid (lsSlot u) (encLS 0x08 reg a q p 0 0 0 0 0 0 0) (effVst (lsSlot u) reg a q p)) := rfl
      rw [lsSlot_of_lt hu] at hc
      exact exec_of_issue_congr _ h (effVst_of_free (t := (s.ltile tid).mark (u + 2)) (slot := u + 2) hf.1 hf.2) hc
    case sst =>
      have hc : exec (.sst tid u reg a) s = ok (s.issue tid (lsSlot u) (encLS 0x09 reg a 0 0 0 0 0 0 0 0 0) (effSst (lsSlot u) reg a)) := rfl
      rw [lsSlot_of_lt hu] at hc
      exact exec_of_issue_congr _ h (effSst_of_free (t := (s.ltile tid).mark (u + 2)) (slot := u + 2) hf.1 hf.2) hc
  case wbf =>
    intro h hIn
    refine exec_of_issue_congr (effWbf wb a off len) h ?_
    have hIn' : inSpace (((s.ltile tid).mark slotLS1).desc a).space (alignDown (((s.ltile tid).mark slotLS1).desc a).addr 64) 64 = true := hIn
    simp only [effWbf, if_pos hIn']
    rfl
  case palw =>
    intro h hIn hFree
    refine exec_of_issue_congr (effPalw a pslot pcnt pt f) h ?_
    exact effPalw_of_free (t := (s.ltile tid).mark slotLS1) hIn hFree
  case stands =>
    intro h
    exact congrArg ok (onTid_congr fun _ => if_neg (by obtain h | h := h <;> simp [h]))
  case completes =>
    intro w0 rest hOn hRuns hDbg hPalw
    refine congrArg ok (onTid_congr fun _ => ?_)
    dsimp only
    rw [if_pos (by simp [hRuns, hDbg]), Tile.palComplete, hPalw]

/-- Settles O16: each command issues its syllable, whose effect is its rule's. -/
theorem vectorArithmeticResults : Obligations.VectorArithmeticResults := by
  refine ⟨fun s tid u d a b c p ty elem delta hu => ⟨?vfma, ?vmul, ?vadd, ?vsub, ?vfmax, ?vfmin⟩,
    fun s tid u d a b p hu => ⟨?viadd, ?visub, ?vand, ?vor, ?vxor, ?vshl, ?vshr, ?vsra, ?vsel, ?vperm⟩⟩
  case vfma => exact exec_of_vector (eff := fun u => effVfma u d a b c p ty elem delta) hu
  case vmul => exact exec_of_vector (eff := fun u => effVmul u d a b p ty elem delta) hu
  case vadd => exact exec_of_vector (eff := fun u => effVadd u d a b p ty elem delta) hu
  case vsub => exact exec_of_vector (eff := fun u => effVsub u d a b p ty elem delta) hu
  case vfmax => exact exec_of_vector (eff := fun _ => effVmax d a b p ty) hu
  case vfmin => exact exec_of_vector (eff := fun _ => effVmin d a b p ty) hu
  case viadd => exact exec_of_vector (eff := fun _ => effVint 0x08 d a b p) hu
  case visub => exact exec_of_vector (eff := fun _ => effVint 0x09 d a b p) hu
  case vand => exact exec_of_vector (eff := fun _ => effVint 0x0A d a b p) hu
  case vor => exact exec_of_vector (eff := fun _ => effVint 0x0B d a b p) hu
  case vxor => exact exec_of_vector (eff := fun _ => effVint 0x0C d a b p) hu
  case vshl => exact exec_of_vector (eff := fun _ => effVint 0x0D d a b p) hu
  case vshr => exact exec_of_vector (eff := fun _ => effVint 0x0E d a b p) hu
  case vsra => exact exec_of_vector (eff := fun _ => effVint 0x0F d a b p) hu
  case vsel => exact exec_of_vector (eff := fun _ => effVsel d a b p) hu
  case vperm => exact exec_of_vector (eff := fun _ => effVperm d a b p) hu

end Sys2Proof.Safety
end

section
/-!
PROOFS. The matrix engine and the vector operations that are not plain lane arithmetic (R108 to R117).
-/
set_option Elab.async false
namespace Sys2Proof.Laws
open Sys2Proof Sys2Proof.Machine Sys2Proof.Safety

/-- The oldest closed block is committed once its sum is due, unless its accumulator was cleared in that cycle. -/
theorem commit_of_due {t : Tile} {b : Block} {rest : List Block} (elem : Nat) (delta : Int) (hClosed : t.mx.closed = b :: rest) (hDue : b.closedAt + 8 < t.iss.cyc)
    (hKept : (Tab.has t.mx.lastClear b.acc && Tab.get 0 t.mx.lastClear b.acc == b.closedAt + 8) = false) :
    t.commit elem delta = (List.range 64).foldl (fun u r => u.setAccRow b.acc r (blockRow b elem delta r (u.accRow b.acc r)))
      { t with mx := { t.mx with closed := rest, mxChecks := t.mx.mxChecks ++ [Chk.mk b.closedAt slotMX (decide (delta.emod 7 ≠ 0))] } } := by
  simp only [Tile.commit, hClosed]
  rw [if_neg (by omega), if_neg (by simp [hKept])]

theorem mxCheckDone_of_cons {t : Tile} {c : Chk} {rest : List Chk} (h : t.mx.mxChecks = c :: rest) :
    t.mxCheckDone = if c.bad = true ∧ bitAt t.blk.chkEff 0 = true then
        ({ t with mx := { t.mx with mxChecks := rest } }).raise .residueMx slotMX t.pcNow false else { t with mx := { t.mx with mxChecks := rest } } := by
  simp only [Tile.mxCheckDone, h, Bool.and_eq_true]
  rfl

theorem vxCheckDone_of_some {t : Tile} {u : Nat} {c : Chk} {rest : List Chk} (h : takeCheck (u + 5) t.mx.vxChecks = some (c, rest)) :
    t.vxCheckDone u = if c.bad = true ∧ bitAt t.blk.chkEff 1 = true then
        ({ t with mx := { t.mx with vxChecks := rest } }).raise .residueVx (u + 5) t.pcNow false else { t with mx := { t.mx with vxChecks := rest } } := by
  simp only [Tile.vxCheckDone, vxSlot, h, Bool.and_eq_true]
  rfl

end Sys2Proof.Laws

namespace Sys2Proof.Safety
open Sys2Proof Sys2Proof.Machine Sys2Proof.Laws

/-- Settles O15: the syllables issue, a closed block whose sum is due is committed, and the oldest residue check is answered. -/
theorem matrixCommandsComplete : Obligations.MatrixCommandsComplete := by
  refine fun s tid fa fb acc wb half sp last fmt cc a m elem delta => ⟨?mks, ?mclr, ?mdrn, ?commit, ?check⟩
  case mks | mclr | mdrn => exact exec_of_issue _
  case commit => exact fun b rest _ hClosed hDue hKept => congrArg ok (onTid_congr fun _ => commit_of_due elem delta hClosed hDue hKept)
  case check => exact fun c rest _ hChecks => congrArg ok (onTid_congr fun _ => mxCheckDone_of_cons hChecks)

/-- Settles O17: the syllables issue, and the oldest residue check of a vector slot is answered. -/
theorem vectorSpecialResults : Obligations.VectorSpecialResults := by
  refine fun s tid u d a b p ty t2 cc fn q pk sel imm8 hu => ⟨?vcmp, ?vcvt, ?vred, ?vpal, ?vtr, ?check⟩
  case vcmp => exact exec_of_vector (eff := fun _ => effVcmp d a b p ty fn) hu
  case vcvt => exact exec_of_vector (eff := fun u => effVcvt tid u d a p ty t2 cc fn q pk) hu
  case vred => exact exec_of_vector (eff := fun _ => effVred d a p ty fn) hu
  case vpal => exact exec_of_vector (eff := fun _ => effVpal d a p sel imm8) hu
  case vtr => exact exec_of_issue _
  case check =>
    intro c rest _ hCheck
    have hc : exec (.residueVxCheck tid u) s = ok (s.onTid tid fun t => t.vxCheckDone (vxU u)) := rfl
    rw [vxU_of_lt hu] at hc
    exact hc.trans (congrArg ok (onTid_congr fun _ => vxCheckDone_of_some hCheck))

end Sys2Proof.Safety
end

section
/-!
PROOFS. A transfer that issues in range is taken on its tile and sends its requests (R118 to R120).
-/
set_option Elab.async false
namespace Sys2Proof.Laws
open Sys2Proof Sys2Proof.Machine Sys2Proof.Safety

/-- Where the tile answers to its number, an operation's result stands there, its raised faults recorded. -/
theorem ltile_onTid {s : State} {tid : Nat} {f : Tile → Tile} (h : onTile s tid = true) :
    (s.onTid tid f).ltile tid = { f (s.ltile tid) with blk := { (f (s.ltile tid)).blk with raised := [] } } := by
  have hNet : (s.onTid tid f).net = s.net := by rw [onTid_eq, if_pos h, State.onTile_net]
  have hPti : (s.onTid tid f).ptiOf tid = s.ptiOf tid := by simp only [State.ptiOf, State.die, hNet]
  rw [State.ltile, hPti, onTid_eq, if_pos h, State.onTile, State.putTile]
  have hRec {u : State} {p : Nat} {x : Tile} : u.tiles = (u.recordTile p x).tiles := Changes.recordTile.same .tiles (by simp)
  rw [State.tile, ← hRec]
  exact Tab.get_set_same _ _ _ _

@[simp] theorem advance_issued (t : Tile) (a n : Nat) : (t.advance a n).iss.issued = t.iss.issued := rfl

@[simp] theorem count_iss (t : Tile) (i n : Nat) : (t.count i n).iss = t.iss := by
  unfold Tile.count
  split <;> rfl

/-- What a transfer in range leaves on its tile: its descriptor advances (`XZERO` has none), it is outstanding and its words are counted. -/
def xfTaken (w : Nat) (t : Tile) : Tile :=
  let t1 := if xfKind w = .zero then t else t.advance (xfA w) 1
  ({ t1 with iss := { t1.iss with xf := t1.iss.xf ++ [XfOp.mk t.iss.xfSeq (xfKind w) (xfF w) t.blk.gen 0 true], xfSeq := t1.iss.xfSeq + 1 } }).count 259 (t.xfWords w)

theorem effXf_of_inRange {t : Tile} {w : Nat} (h : t.xfInRange w = true) : effXf w t = xfTaken w t := by
  rw [effXf, if_pos h]
  rfl

@[simp] theorem mark_xfInRange (t : Tile) (n w : Nat) : (t.mark n).xfInRange w = t.xfInRange w := rfl

theorem unheld_xfInRange (t : Tile) (w : Nat) : ({ t with iss := { t.iss with held := false } }).xfInRange w = t.xfInRange w := rfl

theorem bitAt_eq_testBit (v n : Nat) : bitAt v n = v.testBit n := by
  rw [bitAt, Nat.testBit_eq_decide_div_mod_eq, Nat.shiftRight_eq_div_pow]

@[simp] theorem mark_hasIssued (t : Tile) (n : Nat) : (t.mark n).hasIssued n = true := by
  simp only [Tile.hasIssued, mark_issued, bitAt_eq_testBit, Nat.testBit_or, Nat.testBit_two_pow_self, Bool.or_true]

theorem effXf_hasIssued {t : Tile} {w n : Nat} (h : t.xfInRange w = true) : (effXf w t).hasIssued n = t.hasIssued n := by
  have hIss : (if xfKind w = .zero then t else t.advance (xfA w) 1).iss.issued = t.iss.issued := by split <;> rfl
  simp only [Tile.hasIssued, effXf_of_inRange h, xfTaken, count_iss, hIss]

/-- An operation in range that its tile issues by `act` sends its requests. -/
theorem sent_of_issued {s : State} {tid w : Nat} {act : Tile → Tile} (hOn : onTile s tid = true) (h0 : (s.ltile tid).hasIssued slotXF = false)
    (h1 : (act (s.ltile tid)).hasIssued slotXF = true) (hIn : (s.ltile tid).xfInRange w = true) :
    (if issuedBetween s (s.onTid tid act) tid slotXF && (s.ltile tid).xfInRange w then (s.onTid tid act).sendXf (s.ptiOf tid) (s.ltile tid) w else s.onTid tid act) =
      (s.onTid tid act).sendXf (s.ptiOf tid) (s.ltile tid) w := by
  have hl : ((s.onTid tid act).ltile tid).hasIssued slotXF = true := by
    rw [ltile_onTid hOn]
    exact h1
  rw [if_pos (by simp [issuedBetween, h0, hl, hIn])]

theorem heldReady_hasIssued {t : Tile} {run barOk : Bool} {n : Nat} (h : heldReady t run barOk = true) : t.hasIssued n = false := by
  simp only [heldReady, Bool.and_eq_true, beq_iff_eq] at h
  obtain ⟨⟨_, h0⟩, _⟩ := h
  simp [Tile.hasIssued, bitAt, h0]

theorem issues_hasIssued {s : State} {tid slot w : Nat} (h : issues s tid slot w = true) : (s.ltile tid).hasIssued slot = false := by
  have h' := issues_tile h
  simp only [tileIssues, Bool.and_eq_true, Bool.not_eq_true'] at h'
  obtain ⟨⟨⟨⟨_, h1⟩, _⟩, _⟩, _⟩ := h'
  exact h1

/-- An `XF` syllable that issues in range is taken on its tile and sends its requests. -/
theorem exec_of_issueXf {c : Instr} {s : State} {tid w : Nat} (h : issues s tid slotXF w = true ∧ (s.ltile tid).xfInRange w = true)
    (hc : exec c s = ok (s.issueXf tid w) := by rfl) : exec c s = .next ((issueOn s tid slotXF (xfTaken w)).sendXf (s.ptiOf tid) (s.ltile tid) w) := by
  have hIn : ((s.ltile tid).mark slotXF).xfInRange w = true := (mark_xfInRange _ _ _).trans h.2
  have hTaken : issueOn s tid slotXF (effXf w) = issueOn s tid slotXF (xfTaken w) := issueOn_congr (effXf_of_inRange hIn)
  rw [hc, State.issueXf, issueHold_of_issues (effXf w) h.1, ← hTaken]
  exact congrArg ok (sent_of_issued (issues_onTile h.1) (issues_hasIssued h.1) ((effXf_hasIssued hIn).trans (mark_hasIssued _ _)) h.2)

end Sys2Proof.Laws

namespace Sys2Proof.Safety
open Sys2Proof Sys2Proof.Machine Sys2Proof.Laws

/-- Settles O18: an operation in range issues on its tile, whose slot had not issued before, so its requests go out. -/
theorem transfersSendTheirRequests : Obligations.TransfersSendTheirRequests := by
  refine fun s tid f a sa sb fmt rop es len => ⟨exec_of_issueXf, exec_of_issueXf, exec_of_issueXf, exec_of_issueXf, exec_of_issueXf, exec_of_issueXf, exec_of_issueXf, exec_of_issueXf,
    fun hOn hReady hSyl hIn => ?released⟩
  case released =>
    have hRel := release_of_ready (fun x => decide (x ≠ 0)) effXf hReady (by simpa using hSyl)
    have hIn' := (mark_xfInRange _ slotXF _).trans ((unheld_xfInRange (s.ltile tid) _).trans hIn)
    change ok _ = _
    rw [hRel]
    exact congrArg ok (sent_of_issued hOn (heldReady_hasIssued hReady) ((effXf_hasIssued hIn').trans (mark_hasIssued _ _)) hIn)

end Sys2Proof.Safety
end

section
/-!
PROOFS. A faulting bundle raises its fault and issues nothing (R84, R85).
-/
set_option Elab.async false
namespace Sys2Proof.Laws
open Sys2Proof Sys2Proof.Machine Sys2Proof.Safety

/-- A faulting bundle of which nothing has issued raises its fault, whichever slot asks: with `PC_RANGE` nothing was fetched, else the corrected words of the fetch are counted. -/
theorem issue_of_bundleFault {t : Tile} {run barOk : Bool} {f : TileFault} {n : Nat} (slot w : Nat) (eff : Tile → Tile) (hAt : t.atIssue run = true) (hNone : t.iss.issued = 0)
    (hFault : t.bundleFault = some (f, n)) :
    t.issue run barOk slot w eff =
      (if f = .pcRange then t else { t with blk := { t.blk with sbe := t.blk.sbe + t.fetch.2.1 } }).raise f n (if f = .pcRange then 4095 else t.iss.pc) true := by
  simp only [Tile.issue, hAt, hNone, hFault, if_true, Bool.not_true, Bool.false_eq_true, if_false]
  split <;> rfl

theorem issueHold_of_bundleFault {t : Tile} {run barOk : Bool} {f : TileFault} {n : Nat} (slot w : Nat) (eff : Tile → Tile) (hNone : t.iss.issued = 0)
    (hFault : t.bundleFault = some (f, n)) : t.issueHold run barOk slot w eff = t.issue run barOk slot w eff := by
  simp [Tile.issueHold, hNone, hFault]

/-- The first fault since the information was cleared is recorded with its address and slot. -/
theorem raise_info {t : Tile} {f : TileFault} {n pc : Nat} {precise : Bool} (h : t.blk.infoSet = false) :
    (t.raise f n pc precise).blk.faultPc = pc % 4096 ∧ (t.raise f n pc precise).blk.faultSlot = n ∧ (t.raise f n pc precise).blk.precise = precise ∧
      (t.raise f n pc precise).blk.faultGen = t.blk.gen := by
  simp [Tile.raise, h]

end Sys2Proof.Laws

namespace Sys2Proof.Safety
open Sys2Proof Sys2Proof.Machine Sys2Proof.Laws

/-- Settles O19: the issue of any slot of a faulting bundle is the raise of its fault. -/
theorem undefinedBundleRaisesAndDoesNotIssue : Obligations.UndefinedBundleRaisesAndDoesNotIssue := by
  intro s tid slot w eff f n t pc seen t' hOn hAt hNone hFault
  have hRaise : t.issue (s.runs (s.ptiOf tid)) (s.barOk t) slot w eff = (seen t).raise f n pc true := issue_of_bundleFault slot w eff hAt hNone hFault
  have hSeen : (seen t).blk.fault = t.blk.fault ∧ (seen t).r = t.r ∧ (seen t).mx = t.mx ∧ (seen t).mem = t.mem ∧ (seen t).iss = t.iss ∧ (seen t).blk.infoSet = t.blk.infoSet ∧
      (seen t).blk.gen = t.blk.gen := by
    dsimp only [seen]
    split <;> exact ⟨rfl, rfl, rfl, rfl, rfl, rfl, rfl⟩
  obtain ⟨hBits, hr, hmx, hmem, hiss, hInfo, hGen⟩ := hSeen
  refine ⟨onTid_congr fun _ => hRaise, onTid_congr fun _ => (issueHold_of_bundleFault slot w eff hNone hFault).trans hRaise, ?bits, raise_stopped .., ?r, ?mx, ?mem, ?inflight, ?info⟩
  case bits => rw [raise_fault, hBits]
  case r => rw [raise_r, hr]
  case mx => rw [raise_mx, hmx]
  case mem => rw [raise_mem, hmem]
  case inflight => rw [raise_inflight, hiss]
  case info =>
    intro h
    have := raise_info (t := seen t) (f := f) (n := n) (pc := pc) (precise := true) (hInfo.trans h)
    rwa [hGen] at this

end Sys2Proof.Safety
end

section
/-!
PROOFS. No requester of a shared arbiter starves (R169): a reserved grant takes away one of the requests ahead of a waiting one, and what registers later comes behind.
-/
set_option Elab.async false
namespace Sys2Proof.Machine

/-! ### The requests before one in the order of the waits -/

/-- `outwaits` as a flag. -/
def outwaitsFlag (y x : Nat × Nat × Nat) : Bool := decide (y.2.1 < x.2.1 ∨ (y.2.1 = x.2.1 ∧ y.1 < x.1))

theorem outwaitsFlag_iff {y x : Nat × Nat × Nat} : outwaitsFlag y x = true ↔ outwaits y x := decide_eq_true_iff

/-- The waiting requests that outwait `r`. -/
def Arb.ahead (a : Arb) (r : Nat × Nat × Nat) : List (Nat × Nat × Nat) := a.waiting.filter (outwaitsFlag · r)

/-- The number of decisions after which a request that nothing but the reserved grants helps has been granted: a reserved grant for each request ahead of it, and its own. -/
def Arb.bound (n : Nat) (a : Arb) (r : Nat × Nat × Nat) : Nat := n * (a.ahead r).length + (n - a.grants % n)

variable {n m : Nat} {r : Nat × Nat × Nat}

theorem filter_swap {α : Type} {p q : α → Bool} {l : List α} : (l.filter p).filter q = (l.filter q).filter p := by
  rw [List.filter_filter, List.filter_filter]
  exact List.filter_congr fun x _ => Bool.and_comm _ _

/-! ### Requests that register -/

theorem Arb.register_keeps {a : Arb} {x : Nat × Nat × Nat} (hx : r.2.1 < x.2.1) (h : r ∈ a.waiting) :
    r ∈ (a.register x.1 x.2.1 x.2.2).waiting ∧ (a.register x.1 x.2.1 x.2.2).ahead r = a.ahead r := by
  have hLater : outwaitsFlag x r = false := by
    rw [Bool.eq_false_iff, ne_eq, outwaitsFlag_iff, outwaits]
    omega
  rw [Arb.ahead, Arb.register_waiting]
  split
  · exact ⟨h, rfl⟩
  · exact ⟨List.mem_append_left _ h, by simp [Arb.ahead, hLater]⟩

/-- What registers later outwaits no waiting request. -/
theorem Arb.batch_keeps {q : List (Nat × Nat × Nat)} (hq : ∀ x ∈ q, r.2.1 < x.2.1) :
    ∀ {a : Arb}, r ∈ a.waiting → let u := q.foldl (fun (u : Arb) x => u.register x.1 x.2.1 x.2.2) a
      r ∈ u.waiting ∧ u.ahead r = a.ahead r ∧ u.grants = a.grants := by
  induction q with
  | nil => exact fun h => ⟨h, rfl, rfl⟩
  | cons x q ih =>
    intro a h
    obtain ⟨hMem, hAhead⟩ := Arb.register_keeps (hq x List.mem_cons_self) h
    obtain ⟨h1, h2, h3⟩ := ih (fun y hy => hq y (List.mem_cons_of_mem x hy)) hMem
    exact ⟨h1, h2.trans hAhead, h3.trans (a.register_grants ..)⟩

/-! ### A decision brings a request nearer -/

/-- A decision grants the request or leaves it waiting, and nearer by one decision at least. -/
theorem Arb.decide_nearer {a : Arb} (hn : 0 < n) (h : r ∈ a.waiting) :
    (a.decide n).inUse = some r.1 ∨ (r ∈ (a.decide n).waiting ∧ (a.decide n).bound n r < a.bound n r) := by
  have hWaits : a.waiting ≠ [] := List.ne_nil_of_mem h
  have stays {w : Nat × Nat × Nat} (hw : w.1 ≠ r.1) : r ∈ a.waiting.filter (fun x => Decidable.decide (x.1 ≠ w.1)) := by
    simpa using ⟨h, Ne.symm hw⟩
  have hMod := Nat.mod_lt a.grants hn
  by_cases hk : a.grants % n = n - 1
  · obtain ⟨w, hWinner, hFirst⟩ := Arb.winner_of_reserved hk hWaits
    rw [Arb.decide_of_winner hWinner]
    by_cases hw : w.1 = r.1
    · exact .inl (congrArg some hw)
    · refine .inr ⟨stays hw, ?_⟩
      have hAhead : w ∈ a.ahead r := by
        refine List.mem_filter.mpr ⟨hFirst.mem, outwaitsFlag_iff.mpr ?_⟩
        have := not_outwaits_iff.mp (hFirst.notAhead r h)
        rw [outwaits]
        omega
      have hFewer : ((a.ahead r).filter (fun x => Decidable.decide (x.1 ≠ w.1))).length < (a.ahead r).length :=
        List.length_filter_lt_length_iff_exists.mpr ⟨w, hAhead, by simp⟩
      have hNext : (a.grants + 1) % n = 0 := by
        rw [Nat.add_mod, hk]
        obtain rfl | h1 := Nat.eq_or_lt_of_le (Nat.succ_le_of_lt hn)
        · rfl
        · rw [Nat.mod_eq_of_lt h1, Nat.sub_add_cancel hn, Nat.mod_self]
      simp only [Arb.bound, Arb.ahead, hNext, hk]
      rw [filter_swap]
      have := Nat.mul_le_mul_left n (Nat.succ_le_of_lt hFewer)
      rw [Nat.mul_succ, Arb.ahead] at this
      omega
  · obtain ⟨w, hWinner, -⟩ := Arb.winner_of_not_reserved hk hWaits
    rw [Arb.decide_of_winner hWinner]
    by_cases hw : w.1 = r.1
    · exact .inl (congrArg some hw)
    · refine .inr ⟨stays hw, ?_⟩
      have hNext : (a.grants + 1) % n = a.grants % n + 1 := by
        rw [Nat.add_mod, Nat.mod_eq_of_lt (a := 1) (by omega), Nat.mod_eq_of_lt (by omega)]
      simp only [Arb.bound, Arb.ahead, hNext]
      rw [filter_swap]
      have := Nat.mul_le_mul_left n (List.length_filter_le (fun x => Decidable.decide (x.1 ≠ w.1)) (a.waiting.filter (outwaitsFlag · r)))
      omega

/-- Within its bound a waiting request is granted, whatever registers later. -/
theorem Arb.granted_within_bound (hn : 0 < n) {batches : List (List (Nat × Nat × Nat))} :
    ∀ {a : Arb}, r ∈ a.waiting → (∀ q ∈ batches, ∀ x ∈ q, r.2.1 < x.2.1) → a.bound n r ≤ batches.length →
      ∃ k, 0 < k ∧ k ≤ a.bound n r ∧ (Safety.arbRun n a (batches.take k)).inUse = some r.1 := by
  induction batches with
  | nil =>
    intro a _ _ hLen
    have := Nat.mod_lt a.grants hn
    simp only [Arb.bound, List.length_nil] at hLen
    omega
  | cons q rest ih =>
    intro a h hLater hLen
    obtain ⟨hMem, hAhead, hGrants⟩ := Arb.batch_keeps (hLater q List.mem_cons_self) h
    have hBound : (q.foldl (fun (u : Arb) x => u.register x.1 x.2.1 x.2.2) a).bound n r = a.bound n r := by rw [Arb.bound, hAhead, hGrants, Arb.bound]
    obtain hNow | ⟨hStays, hNearer⟩ := Arb.decide_nearer hn hMem
    · refine ⟨1, Nat.one_pos, ?_, hNow⟩
      have := Nat.mod_lt a.grants hn
      rw [Arb.bound]
      omega
    · rw [hBound] at hNearer
      rw [List.length_cons] at hLen
      obtain ⟨k, _, hk, hGrant⟩ := ih hStays (fun q' hq' => hLater q' (List.mem_cons_of_mem q hq')) (by omega)
      exact ⟨k + 1, Nat.succ_pos k, by omega, hGrant⟩

/-- Among requesters of `m` ranks, each with at most one request, fewer than `m` are ahead of one. -/
theorem Arb.ahead_lt {a : Arb} (h : r ∈ a.waiting) (hNodup : (a.waiting.map Prod.fst).Nodup) (hRanks : ∀ x ∈ a.waiting, x.1 < m) : (a.ahead r).length < m := by
  have hFewer : (a.ahead r).length < a.waiting.length := by
    refine List.length_filter_lt_length_iff_exists.mpr ⟨r, h, ?_⟩
    rw [outwaitsFlag_iff, outwaits]
    omega
  have hAll : (a.waiting.map Prod.fst).length ≤ (List.range m).length := by
    refine hNodup.length_le_of_subset fun k hk => ?_
    obtain ⟨x, hx, rfl⟩ := List.mem_map.mp hk
    exact List.mem_range.mpr (hRanks x hx)
  rw [List.length_map, List.length_range] at hAll
  omega

end Sys2Proof.Machine

namespace Sys2Proof.Safety
open Sys2Proof Sys2Proof.Machine

/-- Settles O31: each reserved grant before a request's own takes away one of those ahead of it, and nothing that registers later comes ahead. -/
theorem arbiterGrantsWithinItsBound : Obligations.ArbiterGrantsWithinItsBound := by
  intro a n m rank cycle beats batches hn h hNodup hRanks hLater hLen
  have hBound : a.bound n (rank, cycle, beats) ≤ n * m := by
    have := Nat.mul_le_mul_left n (Nat.succ_le_of_lt (Arb.ahead_lt h hNodup hRanks))
    rw [Nat.mul_succ] at this
    rw [Arb.bound]
    omega
  obtain ⟨k, hk, hkBound, hGrant⟩ := Arb.granted_within_bound hn h (fun q hq x hx => (hLater q hq x hx).2) (hLen ▸ hBound)
  exact ⟨k, hk, Nat.le_trans hkBound hBound, hGrant⟩

end Sys2Proof.Safety
end

section
/-!
PROOFS. A patrol scrub visit, decided by the number of flipped bits of its word (R50, R51).
-/
set_option Elab.async false
namespace Sys2Proof.Laws
open Sys2Proof

theorem length_leBytes : ∀ n v : Nat, (leBytes n v).length = n
  | 0, _ => rfl
  | n + 1, v => congrArg (· + 1) (length_leBytes n (v / 256))

end Sys2Proof.Laws

namespace Sys2Proof.Machine

theorem State.tile_onTile (s : State) (p : Nat) (f : Tile → Tile) : (s.onTile p f).tile p = { f (s.tile p) with blk := { (f (s.tile p)).blk with raised := [] } } :=
  State.tile_putTile ..

/-! ### The check of a word by its number of flipped bits -/

theorem eccCheck_of_none {data flips : Nat} (h : popN 39 flips = 0) : eccCheck data flips = .ok data := by simp only [eccCheck, h]

theorem eccCheck_of_one {data flips : Nat} (h : popN 39 flips = 1) : eccCheck data flips = .fixed data := by simp only [eccCheck, h]

theorem eccCheck_of_two {data flips : Nat} (h : popN 39 flips = 2) : eccCheck data flips = .dbe (data ^^^ (flips % 2 ^ 32)) := by simp only [eccCheck, h]

/-! ### A scrub visit as an operation on a tile -/

/-- The next word of local store is visited through port X. -/
def Tile.scrubLocal (ups : List (Nat × Nat)) (t : Tile) : Tile :=
  let a := 4 * t.blk.scrubLs
  let t0 := { t with mem := { t.mem with lsFlips := strike t.mem.lsFlips ups } }
  let e := eccCheck (Mem.le t0.mem.ls a 4) (Tab.get 0 t0.mem.lsFlips (a / 4))
  let t1 := if e.isFixed then t0.writeX 0 a (leBytes 4 e.val) else t0
  let t2 := { t1 with blk := { t1.blk with scrubLs := (t.blk.scrubLs + 1) % 2 ^ 18, sbe := t.blk.sbe + b2n e.isFixed } }
  if e.isDbe then t2.raise .dbeLocal slotCT t2.pcNow false else t2

/-- The next word of the bundle store is visited. -/
def Tile.scrubBundle (ups : List (Nat × Nat)) (t : Tile) : Tile :=
  let q := scrubWord t.mem.bundles (strike t.mem.bundleFlips ups) (4 * t.blk.scrubBs)
  let t1 := { t with mem := { t.mem with bundles := q.1, bundleFlips := q.2.1 },
                     blk := { t.blk with scrubBs := (t.blk.scrubBs + 1) % 2 ^ 16, sbe := t.blk.sbe + b2n q.2.2.isFixed } }
  if q.2.2.isDbe then t1.raise .dbeBundle slotCT t1.pcNow false else t1

section
variable {s : State} {pti space : Nat} {ups : List (Nat × Nat)}

theorem exec_tileScrub_off (h : bitAt (s.tile pti).blk.chkEff 2 = false ∨ (s.row (rowOf pti)).power = 3) : exec (.tileScrub pti space ups) s = .next s :=
  if_pos (by simpa using h)

theorem exec_tileScrub (hEn : bitAt (s.tile pti).blk.chkEff 2 = true) (hRow : (s.row (rowOf pti)).power ≠ 3) :
    exec (.tileScrub pti space ups) s = .next (s.onTile pti fun t => if space = 0 then t.scrubLocal ups else t.scrubBundle ups) :=
  if_neg (by simp [hEn, hRow])

end

/-! ### What a visit of the bundle store leaves -/

section
variable {t : Tile} {ups : List (Nat × Nat)}

theorem Tab.get_clearFlips (flips : Tab Nat) {a n k : Nat} (h1 : a / 4 ≤ k) (h2 : k < (a + n + 3) / 4) : Tab.get 0 (clearFlips flips a n) k = 0 := by
  induction flips with
  | nil => rfl
  | cons e r ih =>
    rw [clearFlips, List.filter_cons]
    split
    · next hKeep =>
      have hne : k ≠ e.1 := by
        simp only [Bool.or_eq_true, decide_eq_true_eq] at hKeep
        omega
      exact (if_neg hne).trans ih
    · exact ih

@[simp] theorem Tile.raise_scrub (t : Tile) (f : TileFault) (slot pc : Nat) (p : Bool) :
    (t.raise f slot pc p).blk.scrubBs = t.blk.scrubBs ∧ (t.raise f slot pc p).blk.scrubLs = t.blk.scrubLs := by
  unfold Tile.raise
  dsimp only
  split <;> exact ⟨rfl, rfl⟩

theorem Tile.scrubBundle_keeps (t : Tile) (ups : List (Nat × Nat)) :
    (t.scrubBundle ups).blk.scrubBs = (t.blk.scrubBs + 1) % 2 ^ 16 ∧ (t.scrubBundle ups).mem.glaze = t.mem.glaze ∧ (t.scrubBundle ups).mem.ls = t.mem.ls := by
  unfold Tile.scrubBundle
  dsimp only
  split
  · exact ⟨by rw [(Tile.raise_scrub ..).1], by rw [Laws.raise_mem], by rw [Laws.raise_mem]⟩
  · exact ⟨rfl, rfl, rfl⟩

/-- A scrubbed word, by whether its check corrects one. -/
theorem scrubWord_of_check {m : Mem} {flips : Tab Nat} {k : Nat} {e : Ecc} (h : eccCheck (Mem.le m (4 * k) 4) (Tab.get 0 flips k) = e) :
    scrubWord m flips (4 * k) = if e.isFixed then (Mem.store m (4 * k) (leBytes 4 e.val), Tab.del flips k, e) else (m, flips, e) := by
  unfold scrubWord
  rw [Nat.mul_div_cancel_left k (by decide), h]
  clear h
  cases e <;> rfl

theorem Tile.scrubBundle_of_none (h : popN 39 (Tab.get 0 (strike t.mem.bundleFlips ups) t.blk.scrubBs) = 0) :
    (t.scrubBundle ups).blk.fault = t.blk.fault ∧ (t.scrubBundle ups).mem.bundles = t.mem.bundles := by
  rw [Tile.scrubBundle, scrubWord_of_check (eccCheck_of_none h)]
  exact ⟨rfl, rfl⟩

theorem Tile.scrubBundle_of_one (h : popN 39 (Tab.get 0 (strike t.mem.bundleFlips ups) t.blk.scrubBs) = 1) :
    (t.scrubBundle ups).blk.fault = t.blk.fault ∧ (t.scrubBundle ups).blk.sbe = t.blk.sbe + 1 ∧ Tab.get 0 (t.scrubBundle ups).mem.bundleFlips t.blk.scrubBs = 0 := by
  rw [Tile.scrubBundle, scrubWord_of_check (eccCheck_of_one h)]
  exact ⟨rfl, rfl, Tab.get_del_same ..⟩

theorem Tile.scrubBundle_of_two (h : popN 39 (Tab.get 0 (strike t.mem.bundleFlips ups) t.blk.scrubBs) = 2) :
    (t.scrubBundle ups).blk.fault = t.blk.fault ||| 2 ^ TileFault.dbeBundle.bit ∧ (t.scrubBundle ups).mem.bundles = t.mem.bundles := by
  rw [Tile.scrubBundle, scrubWord_of_check (eccCheck_of_two h)]
  exact ⟨Laws.raise_fault .., rfl⟩

/-! ### What a visit of local store leaves -/

/-- A visit of local store by what its check finds. -/
theorem Tile.scrubLocal_of_check {e : Ecc} (h : eccCheck (Mem.le t.mem.ls (4 * t.blk.scrubLs) 4) (Tab.get 0 (strike t.mem.lsFlips ups) t.blk.scrubLs) = e) :
    t.scrubLocal ups =
      let t0 := { t with mem := { t.mem with lsFlips := strike t.mem.lsFlips ups } }
      let t1 := if e.isFixed then t0.writeX 0 (4 * t.blk.scrubLs) (leBytes 4 e.val) else t0
      let t2 := { t1 with blk := { t1.blk with scrubLs := (t.blk.scrubLs + 1) % 2 ^ 18, sbe := t.blk.sbe + b2n e.isFixed } }
      if e.isDbe then t2.raise .dbeLocal slotCT t2.pcNow false else t2 := by
  subst h
  rw [Tile.scrubLocal, Nat.mul_div_cancel_left _ (by decide)]

theorem Tile.scrubLocal_keeps (t : Tile) (ups : List (Nat × Nat)) :
    (t.scrubLocal ups).blk.scrubLs = (t.blk.scrubLs + 1) % 2 ^ 18 ∧ (t.scrubLocal ups).mem.glaze = t.mem.glaze ∧ (t.scrubLocal ups).mem.bundles = t.mem.bundles := by
  rw [Tile.scrubLocal_of_check rfl]
  generalize eccCheck _ _ = e
  cases e with
  | ok v => exact ⟨rfl, rfl, rfl⟩
  | fixed v => exact ⟨rfl, rfl, rfl⟩
  | dbe v => exact ⟨by rw [if_pos (show (Ecc.dbe v).isDbe = true from rfl), (Tile.raise_scrub ..).2], rfl, rfl⟩

theorem Tile.scrubLocal_of_none (h : popN 39 (Tab.get 0 (strike t.mem.lsFlips ups) t.blk.scrubLs) = 0) :
    (t.scrubLocal ups).blk.fault = t.blk.fault ∧ (t.scrubLocal ups).mem.ls = t.mem.ls := by
  rw [Tile.scrubLocal_of_check (eccCheck_of_none h)]
  exact ⟨rfl, rfl⟩

theorem Tile.scrubLocal_of_one (h : popN 39 (Tab.get 0 (strike t.mem.lsFlips ups) t.blk.scrubLs) = 1) :
    (t.scrubLocal ups).blk.fault = t.blk.fault ∧ (t.scrubLocal ups).blk.sbe = t.blk.sbe + 1 ∧ Tab.get 0 (t.scrubLocal ups).mem.lsFlips t.blk.scrubLs = 0 := by
  rw [Tile.scrubLocal_of_check (eccCheck_of_one h)]
  refine ⟨rfl, rfl, Tab.get_clearFlips _ (by omega) ?_⟩
  rw [Laws.length_leBytes]
  omega

theorem Tile.scrubLocal_of_two (h : popN 39 (Tab.get 0 (strike t.mem.lsFlips ups) t.blk.scrubLs) = 2) :
    (t.scrubLocal ups).blk.fault = t.blk.fault ||| 2 ^ 6 ∧ (t.scrubLocal ups).mem.ls = t.mem.ls := by
  rw [Tile.scrubLocal_of_check (eccCheck_of_two h)]
  exact ⟨Laws.raise_fault .., rfl⟩

end

end Sys2Proof.Machine

namespace Sys2Proof.Safety
open Sys2Proof Sys2Proof.Machine

/-- Settles O24: the visit is an operation on its tile, decided by the number of flipped bits of its word. -/
theorem scrubCorrectsAndReports : Obligations.ScrubCorrectsAndReports := by
  intro s pti space ups t w fl b bf
  refine ⟨exec_tileScrub_off, fun hEn hRow hs => ⟨_, exec_tileScrub hEn hRow, ?_⟩, fun hEn hRow hs => ⟨_, exec_tileScrub hEn hRow, ?_⟩⟩
  · rw [State.tile_onTile, if_neg hs]
    obtain ⟨hAt, hGlaze, hLs⟩ := Tile.scrubBundle_keeps (s.tile pti) ups
    dsimp only
    exact ⟨hAt, hGlaze, hLs, Tile.scrubBundle_of_none (t := s.tile pti), Tile.scrubBundle_of_one (t := s.tile pti), Tile.scrubBundle_of_two (t := s.tile pti)⟩
  · rw [State.tile_onTile, if_pos hs]
    obtain ⟨hAt, hGlaze, hBundles⟩ := Tile.scrubLocal_keeps (s.tile pti) ups
    dsimp only
    exact ⟨hAt, hGlaze, hBundles, Tile.scrubLocal_of_none (t := s.tile pti), Tile.scrubLocal_of_one (t := s.tile pti), Tile.scrubLocal_of_two (t := s.tile pti)⟩

end Sys2Proof.Safety
end

section
/-!
PROOFS. The end of a tile clock period: the engines of a cycle leave its step, and a period without one is the flag unit's alone (R13, R34, R135).
-/
set_option Elab.async false
namespace Sys2Proof.Machine

/-! ### What the engines of an execution cycle leave alone -/

/-- From `t` to `u` the step, the cycle and the bundle in issue stand. -/
structure Tile.SameIssue (t u : Tile) : Prop where
  st : u.st = t.st
  cyc : u.iss.cyc = t.iss.cyc
  pc : u.iss.pc = t.iss.pc
  held : u.iss.held = t.iss.held
  bundles : u.mem.bundles = t.mem.bundles
  bundleFlips : u.mem.bundleFlips = t.mem.bundleFlips

namespace Tile.SameIssue
variable {t u v : Tile}

theorem refl : t.SameIssue t := ⟨rfl, rfl, rfl, rfl, rfl, rfl⟩

theorem trans (h : t.SameIssue u) (k : u.SameIssue v) : t.SameIssue v :=
  ⟨k.st.trans h.st, k.cyc.trans h.cyc, k.pc.trans h.pc, k.held.trans h.held, k.bundles.trans h.bundles, k.bundleFlips.trans h.bundleFlips⟩

theorem ite {c : Prop} [Decidable c] {a b : Tile} (h : t.SameIssue a) (k : t.SameIssue b) : t.SameIssue (if c then a else b) := by
  split
  · exact h
  · exact k

theorem raise {f : TileFault} {slot pc : Nat} {p : Bool} : t.SameIssue (t.raise f slot pc p) := ⟨rfl, rfl, rfl, rfl, rfl, rfl⟩

theorem pend {lat : Nat} {w : Wr} : t.SameIssue (t.pend lat w) := ⟨rfl, rfl, rfl, rfl, rfl, rfl⟩

theorem mx {x : TileMx} : t.SameIssue { t with mx := x } := ⟨rfl, rfl, rfl, rfl, rfl, rfl⟩

theorem setWb {n : Nat} {w : WbReg} : t.SameIssue (t.setWb n w) := ite mx mx

theorem count {i n : Nat} : t.SameIssue (t.count i n) := ite refl ⟨rfl, rfl, rfl, rfl, rfl, rfl⟩

theorem touch {unit space len : Nat} {a : Int} : t.SameIssue (t.touch unit space a len).1 := by
  unfold Tile.touch
  dsimp only
  split
  · split
    · exact ⟨rfl, rfl, rfl, rfl, rfl, rfl⟩
    · exact raise
  · exact raise

theorem readT {space a n slot : Nat} : t.SameIssue (t.readT space a n slot).1 := by
  have corrected {b : TileBlk} : t.SameIssue { t with blk := b } := ⟨rfl, rfl, rfl, rfl, rfl, rfl⟩
  exact ite (trans corrected raise) corrected

section
variable {unit space len sp ad n slot : Nat} {a : Int} {x : TileMx}

theorem touchMx : t.SameIssue { (t.touch unit space a len).1 with mx := x } := trans touch mx

theorem readMx : t.SameIssue { ((t.touch unit space a len).1.readT sp ad n slot).1 with mx := x } := trans touch (trans readT mx)

theorem readPendMx {lat : Nat} {w : Wr} : t.SameIssue { ((t.touch unit space a len).1.readT sp ad n slot).1.pend lat w with mx := x } :=
  trans touch (trans readT (trans pend mx))

end

theorem fillCycle : t.SameIssue t.fillCycle := by
  unfold Tile.fillCycle
  split
  · exact refl
  · extract_lets n _ t0 r
    have loaded : t.SameIssue t0 := ite setWb refl
    clear_value t0
    exact trans loaded (ite readPendMx touchMx)

theorem drainCycle {tid : Nat} : t.SameIssue (t.drainCycle tid) := by
  have touchPend {u : Tile} {unit space len sp ad : Nat} {a : Int} {bs : List Byte} :
      u.SameIssue (if (u.touch unit space a len).2 then (u.touch unit space a len).1.pend 1 (.mem sp ad bs) else (u.touch unit space a len).1) :=
    ite (trans touch pend) touch
  unfold Tile.drainCycle
  split
  · exact refl
  · exact ite (trans (ite (trans touchPend touchPend) touchPend) mx) (ite (trans touchPend touchPend) touchPend)

theorem feedRead : t.SameIssue t.feedRead := by
  unfold Tile.feedRead
  exact ite readMx touchMx

theorem feedCycle : t.SameIssue t.feedCycle := by
  unfold Tile.feedCycle
  extract_lets f0 _ _ _ t1
  have begun : t.SameIssue t1 := by
    dsimp only [t1]
    split
    · exact refl
    · exact mx
  exact trans begun (trans (ite feedRead refl) mx)

theorem countCycle : t.SameIssue t.countCycle := by
  unfold Tile.countCycle
  exact ite count (trans (ite (trans count count) count) (trans count count))

theorem budgetLimit (h : t.SameIssue u) : u.budgetLimit = t.budgetLimit := by simp only [Tile.budgetLimit, h.st]

theorem barrierWait (h : t.SameIssue u) (live : Nat → Bool) : u.barrierWait live = t.barrierWait live := by
  simp only [Tile.barrierWait, Tile.syl, Tile.fetch, h.st, h.pc, h.held, h.bundles, h.bundleFlips]

end Tile.SameIssue

/-! ### What the end of a cycle leaves alone -/

/-- From `t` to `u` the step stands and the cycle's number. -/
structure Tile.SameStep (t u : Tile) : Prop where
  st : u.st = t.st
  cyc : u.iss.cyc = t.iss.cyc

namespace Tile.SameStep
variable {t u v : Tile}

theorem trans (h : t.SameStep u) (k : u.SameStep v) : t.SameStep v := ⟨k.st.trans h.st, k.cyc.trans h.cyc⟩

theorem writeT {space : Nat} {bs : List Byte} : ∀ {t : Tile} {a : Nat}, t.SameStep (t.writeT space a bs) := by
  induction bs with
  | nil => exact ⟨rfl, rfl⟩
  | cons b r ih =>
    intro t a
    have first : t.SameStep (if Tab.has (t.preOf space) a then t
        else if space = 0 then { t with mem := { t.mem with ls := Mem.write t.mem.ls a b, lsFlips := Tab.del t.mem.lsFlips (a / 4) } }
        else { t with mem := { t.mem with glaze := Mem.write t.mem.glaze a b, glazeFlips := Tab.del t.mem.glazeFlips (a / 4) } }) := by
      split
      · exact ⟨rfl, rfl⟩
      · split <;> exact ⟨rfl, rfl⟩
    exact trans first ih

theorem applyWr {w : Wr} : t.SameStep (t.applyWr w) := by
  cases w with
  | mem sp a bs => exact writeT
  | wbuf w off bs =>
    have h : t.SameIssue (t.setWb w { t.wbReg w with data := Mem.store (t.wbReg w).data off bs }) := .setWb
    exact ⟨h.st, h.cyc⟩
  | _ => exact ⟨rfl, rfl⟩

theorem applyAll {l : List Pend} : ∀ {t : Tile}, t.SameStep (t.applyAll l) := by
  induction l with
  | nil => exact ⟨rfl, rfl⟩
  | cons p r ih => exact trans applyWr ih

theorem writeback : t.SameStep t.writeback := by
  have rest : t.SameStep { t with iss := { t.iss with inflight := t.iss.inflight.filter (fun p => !decide (p.due ≤ t.iss.cyc)) } } := ⟨rfl, rfl⟩
  exact trans rest applyAll

end Tile.SameStep

/-- Some flag is above 65,535. -/
def Tile.flagsFull (t : Tile) : Bool := t.r.flags.any fun e => decide (65535 < e.2)

theorem Tile.capFlags_of_not_full {t : Tile} (h : t.flagsFull = false) : t.capFlags = { t with r := { t.r with regNow := [] } } :=
  if_neg (by rw [Tile.flagsFull] at h; rw [h]; exact Bool.false_ne_true)

theorem Tile.capFlags_of_full {t : Tile} (h : t.flagsFull = true) : t.capFlags =
    ({ t with r := { t.r with regNow := [], flags := t.r.flags.map fun (e : Nat × Nat) => (e.1, min 65535 e.2) } }).raise .flagOverflow slotCT t.pcNow false :=
  if_pos h

theorem Tile.capFlags_keeps (t : Tile) : t.SameStep t.capFlags ∧ t.capFlags.r.regNow = [] := by
  cases h : t.flagsFull with
  | false => rw [Tile.capFlags_of_not_full h]; exact ⟨⟨rfl, rfl⟩, rfl⟩
  | true => rw [Tile.capFlags_of_full h]; exact ⟨⟨rfl, rfl⟩, rfl⟩

/-! ### What the step to the next bundle leaves alone -/

/-- From `t` to `u` the step stands, the cycle's number and the increments that the period registered. -/
structure Tile.SameCycle (t u : Tile) : Prop where
  st : u.st = t.st
  cyc : u.iss.cyc = t.iss.cyc
  regNow : u.r.regNow = t.r.regNow

namespace Tile.SameCycle
variable {t u v : Tile}

theorem trans (h : t.SameCycle u) (k : u.SameCycle v) : t.SameCycle v := ⟨k.st.trans h.st, k.cyc.trans h.cyc, k.regNow.trans h.regNow⟩

theorem setLoop {l : Nat} {w : Loop} : t.SameCycle (t.setLoop l w) := ⟨rfl, rfl, rfl⟩

theorem jump {pc b : Nat} {ct : CtAct} : t.SameCycle { t with iss := { t.iss with pc := pc, bubble := b, ct := ct } } := ⟨rfl, rfl, rfl⟩

theorem loopEnd {pc n : Nat} : ∀ {t : Tile}, t.SameCycle (t.loopEnd pc n).1 := by
  induction n with
  | zero => exact ⟨rfl, rfl, rfl⟩
  | succ n ih =>
    intro t
    unfold Tile.loopEnd
    split
    · exact ⟨rfl, rfl, rfl⟩
    · dsimp only
      split
      · exact setLoop
      · exact trans setLoop ih

theorem nextBundle : t.SameCycle t.nextBundle := by
  have loopsEnd {u : Tile} {ct : CtAct} {n pc : Nat} : u.SameCycle { (u.loopEnd pc n).1 with iss := { (u.loopEnd pc n).1.iss with pc := (u.loopEnd pc n).2, ct := ct } } :=
    trans loopEnd ⟨rfl, rfl, rfl⟩
  unfold Tile.nextBundle
  cases t.iss.ct with
  | seq => exact trans loopEnd ⟨rfl, rfl, rfl⟩
  | stop => exact ⟨rfl, rfl, rfl⟩
  | jump tgt => exact ⟨rfl, rfl, rfl⟩
  | loopSkip l tgt => exact trans setLoop jump
  | loopOff l => exact trans setLoop loopsEnd
  | loopOn l count endPc => exact trans setLoop (trans loopEnd (trans setLoop ⟨rfl, rfl, rfl⟩))

end Tile.SameCycle

/-! ### A period with an execution cycle -/

/-- What a count of the period leaves: the step's used periods, one more where the period counts (R135). -/
theorem Tile.countPeriod_used (t : Tile) (live : Nat → Bool) : (t.countPeriod live).st.used =
    if t.st.active = true ∧ t.st.used < t.budgetLimit ∧ t.barrierWait live = false then t.st.used + 1 else t.st.used := by
  unfold Tile.countPeriod
  simp only [Bool.and_eq_true, decide_eq_true_eq, Bool.not_eq_true', and_assoc]
  split <;> rfl

theorem Tile.countPeriod_cyc (t : Tile) (live : Nat → Bool) : (t.countPeriod live).iss.cyc = t.iss.cyc := by
  unfold Tile.countPeriod
  split <;> rfl

/-- The engines of an execution cycle: the fill, the drain, the operand feed and the activity counters. -/
def Tile.enginesRun (t : Tile) (tid : Nat) : Tile := (((if t.fillPaused then t else t.fillCycle).drainCycle tid).feedCycle).countCycle

theorem Tile.SameIssue.enginesRun {t : Tile} {tid : Nat} : t.SameIssue (t.enginesRun tid) :=
  trans (ite refl fillCycle) (trans drainCycle (trans feedCycle countCycle))

theorem Tile.endPeriod_of_cycle {t : Tile} {tid : Nat} {live : Nat → Bool} (hd : t.iss.dbgFreeze = false) (hm : t.mayEnd = true) :
    (t.endPeriod tid true live).iss.cyc = t.iss.cyc + 1 ∧ (t.endPeriod tid true live).iss.issued = 0 ∧ (t.endPeriod tid true live).iss.acc = [] ∧
      (t.endPeriod tid true live).r.regNow = [] ∧ (t.endPeriod tid true live).st.used = ((t.enginesRun tid).countPeriod live).st.used := by
  have enter : (!true || (t.iss.dbgFreeze && t.iss.issued == 0)) = false := by rw [hd]; rfl
  unfold Tile.endPeriod
  rw [if_neg (by rw [enter]; exact Bool.false_ne_true), if_neg (by rw [hm]; exact Bool.false_ne_true)]
  extract_lets ends t1 t2 t3 t4 _ t5 _ t5a t6
  have wrote : t3.SameStep t3.writeback := .writeback
  obtain ⟨capStep, capNow⟩ := Tile.capFlags_keeps t3.writeback
  have counted : t3.iss.cyc = t.iss.cyc := (Tile.countPeriod_cyc t2 live).trans (Tile.SameIssue.enginesRun (tid := tid)).cyc
  have toNext : t4.SameCycle t5 := by
    dsimp only [t5]
    split
    · exact .nextBundle
    · exact ⟨rfl, rfl, rfl⟩
  have ended : t6.iss.cyc = t5.iss.cyc ∧ t6.r.regNow = t5.r.regNow ∧ t6.st.used = t5.st.used := by
    dsimp only [t6, t5a]
    split <;> split <;> exact ⟨rfl, rfl, rfl⟩
  obtain ⟨endCyc, endNow, endUsed⟩ := ended
  refine ⟨congrArg (· + 1) (endCyc.trans (toNext.cyc.trans (capStep.cyc.trans (wrote.cyc.trans counted)))), rfl, rfl, ?_, ?_⟩
  · exact endNow.trans (toNext.regNow.trans capNow)
  · exact endUsed.trans (congrArg TileStep.used (toNext.st.trans (capStep.st.trans wrote.st)))

/-! ### A period without one -/

theorem get_map_of_zero {f : Nat → Nat} (h0 : f 0 = 0) (l : Tab Nat) (k : Nat) : Tab.get 0 (l.map fun (e : Nat × Nat) => (e.1, f e.2)) k = f (Tab.get 0 l k) := by
  induction l with
  | nil => exact h0.symm
  | cons e r ih =>
    simp only [List.map_cons, Tab.get]
    split
    · rfl
    · exact ih

theorem Tile.raise_frozen (t : Tile) (f : TileFault) (slot pc : Nat) (p : Bool) : (t.raise f slot pc p).blk.frozen = t.blk.frozen := by
  unfold Tile.raise
  dsimp only
  split <;> rfl

end Sys2Proof.Machine

namespace Sys2Proof.Safety
open Sys2Proof Sys2Proof.Machine

/-- Settles O21: the engines of the cycle leave the step and the bundle in issue, so the period counts as it would at its start; without a cycle only the flag unit ends its period. -/
theorem periodEndAdvancesTheTile : Obligations.PeriodEndAdvancesTheTile := by
  intro s tid hon t run t' full
  refine ⟨rfl, fun hrun hd hm => ?_, fun hrun => ?_⟩
  · have ended := Tile.endPeriod_of_cycle (tid := tid) (live := s.noticeLive) hd hm
    obtain ⟨cyc, issued, acc, regNow, used⟩ := ended
    have ran : t' = t.endPeriod tid true s.noticeLive := by rw [← hrun]
    have same := Tile.SameIssue.enginesRun (t := t) (tid := tid)
    rw [Tile.countPeriod_used, same.st, same.budgetLimit, same.barrierWait] at used
    rw [ran]
    exact ⟨cyc, issued, acc, regNow, used⟩
  · have froze : t' = t.frozenPeriod := by
      show t.endPeriod tid run s.noticeLive = _
      rw [hrun]
      rfl
    clear_value t'
    subst froze
    cases hf : t.flagsFull with
    | false =>
      have hfull : full = false := hf
      have capped := Tile.capFlags_of_not_full hf
      unfold Tile.frozenPeriod
      rw [capped]
      refine ⟨rfl, rfl, rfl, rfl, rfl, rfl, rfl, ?_, fun _ => ⟨rfl, rfl, ?_⟩, fun h => absurd (hfull.symm.trans h) Bool.false_ne_true⟩
      all_goals dsimp only; split <;> rfl
    | true =>
      have hfull : full = true := hf
      have capped := Tile.capFlags_of_full hf
      unfold Tile.frozenPeriod
      rw [capped]
      refine ⟨rfl, rfl, rfl, rfl, rfl, rfl, rfl, ?_, fun h => absurd (hfull.symm.trans h) (Ne.symm Bool.false_ne_true), fun _ => ⟨?_, ?_⟩⟩
      · dsimp only
        split
        · exact congrArg (fun n => min 0xFFFFFFFF (n + 1)) (Tile.raise_frozen _ _ _ _ _)
        · exact Tile.raise_frozen _ _ _ _ _
      · dsimp only
        split <;> exact Laws.raise_fault _ _ _ _ _
      · exact get_map_of_zero (f := min 65535) rfl t.r.flags

end Sys2Proof.Safety
end

section
/-!
PROOFS. The write-back of a cycle: of the writes due for a register the latest is kept, and a write reaches what it names (R13 to R15).
-/
set_option Elab.async false
namespace Sys2Proof.Machine

/-! ### One write, seen through one register -/

namespace Tile

/-- What a write of port T leaves: everything but the bytes and flipped bits of the two spaces. -/
theorem writeT_keeps (bs : List Byte) : ∀ (t : Tile) (space a : Nat),
    (t.writeT space a bs).r = t.r ∧ (t.writeT space a bs).mx = t.mx ∧ (t.writeT space a bs).st = t.st ∧ (t.writeT space a bs).blk = t.blk ∧
      (t.writeT space a bs).mem.bundles = t.mem.bundles := by
  induction bs with
  | nil => exact fun _ _ _ => ⟨rfl, rfl, rfl, rfl, rfl⟩
  | cons b rest ih =>
    intro t space a
    unfold writeT
    extract_lets _ t1
    have first : t1.r = t.r ∧ t1.mx = t.mx ∧ t1.st = t.st ∧ t1.blk = t.blk ∧ t1.mem.bundles = t.mem.bundles := by
      dsimp only [t1]
      split
      · exact ⟨rfl, rfl, rfl, rfl, rfl⟩
      · split <;> exact ⟨rfl, rfl, rfl, rfl, rfl⟩
    obtain ⟨r1, mx1, st1, blk1, bundles1⟩ := first
    obtain ⟨r2, mx2, st2, blk2, bundles2⟩ := ih t1 space (a + 1)
    exact ⟨r2.trans r1, mx2.trans mx1, st2.trans st1, blk2.trans blk1, bundles2.trans bundles1⟩

theorem setWb_keeps (t : Tile) (n : Nat) (w : WbReg) :
    (t.setWb n w).r = t.r ∧ (t.setWb n w).mx.accs = t.mx.accs ∧ (t.setWb n w).st = t.st ∧ (t.setWb n w).blk = t.blk ∧ (t.setWb n w).mem = t.mem := by
  unfold setWb
  split <;> exact ⟨rfl, rfl, rfl, rfl, rfl⟩

/-- What no write of an operation in flight reaches. -/
theorem applyWr_keeps (t : Tile) (w : Wr) :
    (t.applyWr w).r.loops = t.r.loops ∧ (t.applyWr w).r.heldInc = t.r.heldInc ∧ (t.applyWr w).mem.bundles = t.mem.bundles ∧ (t.applyWr w).st = t.st ∧
      (t.applyWr w).blk = t.blk := by
  cases w with
  | mem sp ad bs =>
    obtain ⟨r, _, st, blk, bundles⟩ := writeT_keeps bs t sp ad
    exact ⟨congrArg TileRegs.loops r, congrArg TileRegs.heldInc r, bundles, st, blk⟩
  | wbuf w off bs =>
    obtain ⟨r, _, st, blk, mem⟩ := setWb_keeps t w { t.wbReg w with data := Mem.store (t.wbReg w).data off bs }
    exact ⟨congrArg TileRegs.loops r, congrArg TileRegs.heldInc r, congrArg TileMem.bundles mem, st, blk⟩
  | _ => exact ⟨rfl, rfl, rfl, rfl, rfl⟩

theorem applyWr_mem_r (t : Tile) (sp ad : Nat) (bs : List Byte) : (t.applyWr (.mem sp ad bs)).r = t.r := (writeT_keeps bs t sp ad).1

theorem applyWr_wbuf_r (t : Tile) (w off : Nat) (bs : List Byte) : (t.applyWr (.wbuf w off bs)).r = t.r := (setWb_keeps t w _).1

theorem sreg_applyWr_of_ne {w : Wr} {d : Nat} (h : w.reg ≠ some (0, d)) (t : Tile) : (t.applyWr w).sreg d = t.sreg d := by
  cases w with
  | sreg e v => exact Tab.get_put_ne _ _ _ _ _ fun hde => h (by rw [hde]; rfl)
  | mem sp ad bs => unfold sreg; rw [applyWr_mem_r]
  | wbuf w off bs => unfold sreg; rw [applyWr_wbuf_r]
  | _ => rfl

theorem vreg_applyWr_of_ne {w : Wr} {d : Nat} (h : w.reg ≠ some (1, d)) (t : Tile) : (t.applyWr w).vreg d = t.vreg d := by
  cases w with
  | vreg e ls => exact Tab.get_put_ne _ _ _ _ _ fun hde => h (by rw [hde]; rfl)
  | vconv e ls sc => exact Tab.get_put_ne _ _ _ _ _ fun hde => h (by rw [hde]; rfl)
  | mem sp ad bs => unfold vreg; rw [applyWr_mem_r]
  | wbuf w off bs => unfold vreg; rw [applyWr_wbuf_r]
  | _ => rfl

theorem pregs_applyWr_of_ne {w : Wr} {d : Nat} (h : w.reg ≠ some (2, d)) (t : Tile) : Tab.get 0 (t.applyWr w).r.pregs d = Tab.get 0 t.r.pregs d := by
  cases w with
  | preg e m b => exact Tab.get_put_ne _ _ _ _ _ fun hde => h (by rw [hde]; rfl)
  | mem sp ad bs => rw [applyWr_mem_r]
  | wbuf w off bs => rw [applyWr_wbuf_r]
  | _ => rfl

theorem pred_applyWr_of_ne {w : Wr} {d : Nat} (h : w.reg ≠ some (2, d)) (t : Tile) : (t.applyWr w).pred d = t.pred d := by
  unfold pred
  rw [pregs_applyWr_of_ne h]

/-- A write that names no word of descriptor `a` leaves its words. -/
theorem descWord_applyWr {w : Wr} {a : Nat} (h : ∀ k v, w ≠ .dword a k v) (n : Nat) (t : Tile) : ((t.applyWr w).desc a).word n = (t.desc a).word n := by
  cases w with
  | dword b k v => exact congrArg (fun (x : Desc) => x.word n) (Tab.get_put_ne _ _ _ _ _ fun hab => h k v (by rw [hab]))
  | dpos b p =>
    have got : (t.applyWr (.dpos b p)).desc a = if a = b then { t.desc b with pos := p } else t.desc a := by
      split
      · next hab => subst hab; exact Tab.get_put_same _ _ _ _
      · next hab => exact Tab.get_put_ne _ _ _ _ _ hab
    rw [got]
    split
    · next hab =>
      subst hab
      unfold Desc.word
      split <;> rfl
    · rfl
  | mem sp ad bs => unfold desc; rw [applyWr_mem_r]
  | wbuf w off bs => unfold desc; rw [applyWr_wbuf_r]
  | _ => rfl

/-- A write that names neither a word nor the position of descriptor `a` leaves its position. -/
theorem descPos_applyWr {w : Wr} {a : Nat} (hw : ∀ k v, w ≠ .dword a k v) (hp : w.reg ≠ some (4, a)) (t : Tile) : ((t.applyWr w).desc a).pos = (t.desc a).pos := by
  cases w with
  | dword b k v => exact congrArg Desc.pos (Tab.get_put_ne _ _ _ _ _ fun hab => hw k v (by rw [hab]))
  | dpos b p => exact congrArg Desc.pos (Tab.get_put_ne _ _ _ _ _ fun hab => hp (by rw [hab]; rfl))
  | mem sp ad bs => unfold desc; rw [applyWr_mem_r]
  | wbuf w off bs => unfold desc; rw [applyWr_wbuf_r]
  | _ => rfl

theorem get_filter_of_keep {α : Type} {d : α} {f : Nat × α → Bool} {k : Nat} (h : ∀ v, f (k, v) = true) (l : Tab α) : Tab.get d (l.filter f) k = Tab.get d l k := by
  induction l with
  | nil => rfl
  | cons e r ih =>
    obtain ⟨j, v⟩ := e
    by_cases hk : k = j
    · subst hk
      rw [List.filter_cons_of_pos (h v)]
      simp only [Tab.get, if_true]
    · by_cases hf : f (j, v) = true
      · rw [List.filter_cons_of_pos hf]
        simp only [Tab.get, if_neg hk, ih]
      · rw [List.filter_cons_of_neg hf]
        simp only [Tab.get, if_neg hk, ih]

theorem get_filter_of_drop {α : Type} {d : α} {f : Nat × α → Bool} {k : Nat} (h : ∀ v, f (k, v) = false) (l : Tab α) : Tab.get d (l.filter f) k = d := by
  induction l with
  | nil => rfl
  | cons e r ih =>
    obtain ⟨j, v⟩ := e
    by_cases hf : f (j, v) = true
    · have hk : k ≠ j := fun hk => by rw [← hk, h v] at hf; exact Bool.false_ne_true hf
      rw [List.filter_cons_of_pos hf]
      simp only [Tab.get, if_neg hk, ih]
    · rw [List.filter_cons_of_neg hf]
      exact ih

theorem accRow_applyWr_macc (t : Tile) (a : Nat) {r : Nat} (hr : r < 64) : (t.applyWr (.macc a)).accRow a r = List.replicate 128 0#32 :=
  get_filter_of_drop (fun _ => decide_eq_false (by omega)) t.mx.accs

theorem accRow_applyWr_of_ne {w : Wr} {a r : Nat} (h : w.reg ≠ some (6, a)) (hr : r < 64) (t : Tile) : (t.applyWr w).accRow a r = t.accRow a r := by
  cases w with
  | macc b =>
    have hne : b ≠ a := fun hab => h (by rw [hab]; rfl)
    exact get_filter_of_keep (fun _ => decide_eq_true (by omega)) t.mx.accs
  | mem sp ad bs => unfold accRow; exact congrArg (fun (x : TileMx) => Tab.get (List.replicate 128 0#32) x.accs (a * 64 + r)) (writeT_keeps bs t sp ad).2.1
  | wbuf w off bs => unfold accRow; exact congrArg (fun x => Tab.get (List.replicate 128 0#32) x (a * 64 + r)) (setWb_keeps t w _).2.1
  | _ => rfl

theorem read_writeT_outside {bs : List Byte} {space sp a : Nat} : ∀ {t : Tile} {ad : Nat}, ((sp = 0 ↔ space = 0) → ¬ (ad ≤ a ∧ a < ad + bs.length)) →
    Mem.read ((t.writeT sp ad bs).memOf space) a = Mem.read (t.memOf space) a := by
  induction bs with
  | nil => exact fun _ => rfl
  | cons b rest ih =>
    intro t ad h
    have later : (sp = 0 ↔ space = 0) → ¬ (ad + 1 ≤ a ∧ a < ad + 1 + rest.length) := fun hs hin => h hs (by rw [List.length_cons]; omega)
    have here : (sp = 0 ↔ space = 0) → a ≠ ad := fun hs hin => h hs (by rw [List.length_cons]; omega)
    unfold writeT
    dsimp only
    rw [ih later]
    split
    · rfl
    · split
      · next hsp =>
        by_cases hspace : space = 0
        · simp only [memOf, if_pos hspace]
          exact Mem.read_write_ne _ _ _ _ (here (iff_of_true hsp hspace))
        · simp only [memOf, if_neg hspace]
      · next hsp =>
        by_cases hspace : space = 0
        · simp only [memOf, if_pos hspace]
        · simp only [memOf, if_neg hspace]
          exact Mem.read_write_ne _ _ _ _ (here (iff_of_false hsp hspace))

/-- A write that stores no byte at `a` leaves it. -/
theorem read_applyWr_outside {w : Wr} {space a : Nat} (h : ∀ sp ad bs, w = .mem sp ad bs → (sp = 0 ↔ space = 0) → ¬ (ad ≤ a ∧ a < ad + bs.length)) (t : Tile) :
    Mem.read ((t.applyWr w).memOf space) a = Mem.read (t.memOf space) a := by
  cases w with
  | mem sp ad bs => exact read_writeT_outside (h sp ad bs rfl)
  | wbuf w off bs => exact congrArg (fun (m : TileMem) => Mem.read (if space = 0 then m.ls else m.glaze) a) (setWb_keeps t w _).2.2.2.2
  | _ => rfl

/-! ### All the writes of a cycle, seen through one register -/

theorem applyAll_keeps_of {α : Type} {f : Tile → α} {l : List Pend} (h : ∀ q ∈ l, ∀ t : Tile, f (t.applyWr q.wr) = f t) : ∀ t : Tile, f (t.applyAll l) = f t := by
  induction l with
  | nil => exact fun _ => rfl
  | cons q r ih => exact fun t => (ih (fun x hx => h x (List.mem_cons_of_mem q hx)) _).trans (h q List.mem_cons_self t)

/-- Where each write of the cycle is `w` or leaves what `f` reads, and `w` writes `g` of the old value (once or again makes no difference), the cycle leaves `g` of the old value. -/
theorem applyAll_of_only {α : Type} {f : Tile → α} {g : α → α} {w : Wr} {p : Pend} {l : List Pend} (hw : ∀ t : Tile, f (t.applyWr w) = g (f t)) (hg : ∀ x, g (g x) = g x)
    (hl : ∀ q ∈ l, q.wr = w ∨ ∀ t : Tile, f (t.applyWr q.wr) = f t) (hp : p ∈ l) (hpw : p.wr = w) (t : Tile) : f (t.applyAll l) = g (f t) := by
  have either : ∀ l : List Pend, (∀ q ∈ l, q.wr = w ∨ ∀ t : Tile, f (t.applyWr q.wr) = f t) → ∀ t : Tile, f t = g (f t) → f (t.applyAll l) = f t := by
    intro l
    induction l with
    | nil => exact fun _ _ _ => rfl
    | cons q r ih =>
      intro hl t ht
      have first : f (t.applyWr q.wr) = f t := by
        rcases hl q List.mem_cons_self with h | h
        · rw [h, hw, ← ht]
        · exact h t
      exact (ih (fun x hx => hl x (List.mem_cons_of_mem q hx)) _ (by rw [first]; exact ht)).trans first
  induction l generalizing t with
  | nil => exact absurd hp (List.not_mem_nil)
  | cons q r ih =>
    have rest := fun x hx => hl x (List.mem_cons_of_mem q hx)
    rcases hl q List.mem_cons_self with h | h
    · have first : f (t.applyWr q.wr) = g (f t) := by rw [h, hw]
      exact (either r rest _ (by rw [first, hg])).trans first
    · rcases List.mem_cons.mp hp with hq | hr
      · have same : g (f t) = f t := by rw [← hw t, ← hpw, hq]; exact h t
        exact ((either r rest _ (by rw [h t, same])).trans (h t)).trans same.symm
      · exact (ih rest hr _).trans (congrArg g (h t))

end Tile

/-! ### Lanes and masks written twice -/

/-- What lane writes make of lane `i`. -/
def laneAfter (i : Nat) : List (Nat × Word) → Word → Word
  | [], x => x
  | (j, v) :: r, x => laneAfter i r (if j = i then v else x)

/-- What scale writes make of lane `i`. -/
def scaleAfter (i : Nat) : List (Nat × Nat) → Word → Word
  | [], x => x
  | (j, b) :: r, x => scaleAfter i r (if j = i then (x &&& 0xFFFF00FF#32) ||| BitVec.ofNat 32 (b % 256 * 256) else x)

theorem setLanes_getElem? (ls : List (Nat × Word)) (i : Nat) : ∀ old : List Word, (setLanes old ls)[i]? = old[i]?.map (laneAfter i ls) := by
  induction ls with
  | nil => exact fun old => (Option.map_id_apply (x := old[i]?)).symm
  | cons e r ih =>
    obtain ⟨j, v⟩ := e
    intro old
    rw [setLanes, ih, List.getElem?_set]
    by_cases hj : j = i
    · subst hj
      by_cases hlt : j < old.length
      · simp [laneAfter, hlt]
      · simp [hlt]
    · simp [laneAfter, hj]

theorem setScales_getElem? (ls : List (Nat × Nat)) (i : Nat) : ∀ old : List Word, (setScales old ls)[i]? = old[i]?.map (scaleAfter i ls) := by
  induction ls with
  | nil => exact fun old => (Option.map_id_apply (x := old[i]?)).symm
  | cons e r ih =>
    obtain ⟨j, v⟩ := e
    intro old
    rw [setScales, ih, List.getElem?_set]
    by_cases hj : j = i
    · subst hj
      by_cases hlt : j < old.length
      · simp [scaleAfter, hlt]
      · simp [hlt]
    · simp [scaleAfter, hj]

/-- The last write of a lane decides it. -/
theorem laneAfter_cases (i : Nat) (ls : List (Nat × Word)) : (∀ x, laneAfter i ls x = x) ∨ ∃ c, ∀ x, laneAfter i ls x = c := by
  induction ls with
  | nil => exact .inl fun _ => rfl
  | cons e r ih =>
    obtain ⟨j, v⟩ := e
    by_cases hj : j = i
    · exact .inr ⟨laneAfter i r v, fun x => by rw [laneAfter, if_pos hj]⟩
    · simpa only [laneAfter, if_neg hj] using ih

theorem or_and_or_self {n : Nat} (x m y : BitVec n) : (((x &&& m) ||| y) &&& m) ||| y = (x &&& m) ||| y := by
  ext i hi
  simp only [BitVec.getElem_or, BitVec.getElem_and]
  cases x[i] <;> cases m[i] <;> cases y[i] <;> rfl

/-- Scale writes clear bits [15:8] of their lane and set others. -/
theorem scaleAfter_cases (i : Nat) (ls : List (Nat × Nat)) : (∀ x, scaleAfter i ls x = x) ∨ ∃ c, ∀ x, scaleAfter i ls x = (x &&& 0xFFFF00FF#32) ||| c := by
  induction ls with
  | nil => exact .inl fun _ => rfl
  | cons e r ih =>
    obtain ⟨j, b⟩ := e
    by_cases hj : j = i
    · refine .inr ?_
      simp only [scaleAfter, if_pos hj]
      rcases ih with h | ⟨y, h⟩
      · exact ⟨_, fun x => h _⟩
      · refine ⟨(BitVec.ofNat 32 (b % 256 * 256) &&& 0xFFFF00FF#32) ||| y, fun x => ?_⟩
        rw [h]
        ext k hk
        simp only [BitVec.getElem_or, BitVec.getElem_and]
        cases x[k] <;> cases (0xFFFF00FF#32)[k] <;> cases y[k] <;> cases (BitVec.ofNat 32 (b % 256 * 256))[k] <;> rfl
    · simpa only [scaleAfter, if_neg hj] using ih

theorem setLanes_idem (ls : List (Nat × Word)) (old : List Word) : setLanes (setLanes old ls) ls = setLanes old ls := by
  refine List.ext_getElem? fun i => ?_
  rw [setLanes_getElem?, setLanes_getElem?, Option.map_map]
  congr 1
  funext x
  rcases laneAfter_cases i ls with h | ⟨c, h⟩ <;> simp only [Function.comp, h]

theorem setScales_setLanes_idem (ls : List (Nat × Word)) (sc : List (Nat × Nat)) (old : List Word) :
    setScales (setLanes (setScales (setLanes old ls) sc) ls) sc = setScales (setLanes old ls) sc := by
  refine List.ext_getElem? fun i => ?_
  simp only [setLanes_getElem?, setScales_getElem?, Option.map_map]
  congr 1
  funext x
  rcases laneAfter_cases i ls with h | ⟨c, h⟩
  · rcases scaleAfter_cases i sc with k | ⟨d, k⟩
    · simp only [Function.comp, h, k]
    · simp only [Function.comp, h, k, or_and_or_self]
  · simp only [Function.comp, h]

theorem Nat.or_and_or_self (x m c : Nat) : (((x &&& m) ||| c) &&& m) ||| c = (x &&& m) ||| c := by
  refine Nat.eq_of_testBit_eq fun i => ?_
  simp only [Nat.testBit_or, Nat.testBit_and]
  cases x.testBit i <;> cases m.testBit i <;> cases c.testBit i <;> rfl

/-- The word a descriptor write leaves is the same over any descriptor. -/
theorem Desc.word_setWord_self (d e : Desc) (n : Nat) (v : Word) : (d.setWord n v).word n = (e.setWord n v).word n := by
  match n with
  | 0 | 1 | 2 | 3 | 4 | 5 | _ + 6 => rfl

/-! ### The writes that are kept (R15) -/

theorem mem_of_mem_keptWrites {l : List Pend} {q : Pend} (h : q ∈ keptWrites l) : q ∈ l := (List.mem_filter.mp h).1

section
variable {l : List Pend} {p : Pend} (hp : p ∈ l) (hlast : ∀ q ∈ l, q.wr.reg = p.wr.reg → q = p ∨ q.at_ < p.at_)
include hp hlast

theorem mem_keptWrites_of_last : p ∈ keptWrites l := by
  refine List.mem_filter.mpr ⟨hp, ?_⟩
  have none_later : l.any (fun q => q.wr.reg == p.wr.reg && decide (p.at_ < q.at_)) = false := by
    refine List.any_eq_false.mpr fun q hq hlater => ?_
    rw [Bool.and_eq_true, beq_iff_eq, decide_eq_true_eq] at hlater
    obtain ⟨hreg, hat⟩ := hlater
    rcases hlast q hq hreg with rfl | hlt
    · exact Nat.lt_irrefl _ hat
    · exact Nat.lt_asymm hat hlt
  rw [none_later]
  exact Bool.or_true _

theorem eq_of_mem_keptWrites {q : Pend} (hq : q ∈ keptWrites l) (hreg : q.wr.reg = p.wr.reg) (hsome : p.wr.reg ≠ none) : q = p := by
  obtain ⟨hmem, hkept⟩ := List.mem_filter.mp hq
  rcases hlast q hmem hreg with h | hlt
  · exact h
  · have overtaken : l.any (fun x => x.wr.reg == q.wr.reg && decide (q.at_ < x.at_)) = true :=
      List.any_eq_true.mpr ⟨p, hp, by rw [hreg, beq_self_eq_true, decide_eq_true hlt]; rfl⟩
    rw [overtaken, hreg, beq_eq_false_iff_ne.mpr hsome] at hkept
    exact absurd hkept Bool.false_ne_true

end

/-! ### The write-back of a cycle, seen through one register -/

namespace Tile
variable {α : Type} {f : Tile → α} {t : Tile}

theorem mem_due_iff {q : Pend} : q ∈ t.iss.inflight.filter (fun p => decide (p.due ≤ t.iss.cyc)) ↔ q ∈ t.iss.inflight ∧ q.due ≤ t.iss.cyc := by
  rw [List.mem_filter, decide_eq_true_eq]

/-- What no due operation writes stands. -/
theorem writeback_keeps_of (hf : ∀ l, f { t with iss := { t.iss with inflight := l } } = f t)
    (h : ∀ q ∈ t.iss.inflight, q.due ≤ t.iss.cyc → ∀ u : Tile, f (u.applyWr q.wr) = f u) : f t.writeback = f t := by
  unfold writeback
  refine (applyAll_keeps_of (fun q hq => ?_) _).trans (hf _)
  obtain ⟨hin, hdue⟩ := mem_due_iff.mp (mem_of_mem_keptWrites hq)
  exact h q hin hdue

/-- The register of the operation issued last of those due for it stands as that operation leaves it. -/
theorem writeback_of_last {g : α → α} {p : Pend} {w : Wr} (hp : p ∈ t.iss.inflight) (hdue : p.due ≤ t.iss.cyc)
    (hlast : ∀ q ∈ t.iss.inflight, q.due ≤ t.iss.cyc → q.wr.reg = p.wr.reg → q = p ∨ q.at_ < p.at_) (hsome : w.reg ≠ none)
    (hf : ∀ l, f { t with iss := { t.iss with inflight := l } } = f t) (hg : ∀ x, g (g x) = g x) (hwr : p.wr = w) (hw : ∀ u : Tile, f (u.applyWr w) = g (f u))
    (hother : ∀ q ∈ t.iss.inflight, q.due ≤ t.iss.cyc → q.wr.reg ≠ w.reg → ∀ u : Tile, f (u.applyWr q.wr) = f u) : f t.writeback = g (f t) := by
  have hlast' : ∀ q ∈ t.iss.inflight.filter (fun p => decide (p.due ≤ t.iss.cyc)), q.wr.reg = p.wr.reg → q = p ∨ q.at_ < p.at_ := fun q hq =>
    hlast q (mem_due_iff.mp hq).1 (mem_due_iff.mp hq).2
  have hp' := mem_due_iff.mpr ⟨hp, hdue⟩
  unfold writeback
  refine (applyAll_of_only hw hg (fun q hq => ?_) (mem_keptWrites_of_last hp' hlast') hwr _).trans (congrArg g (hf _))
  by_cases hreg : q.wr.reg = p.wr.reg
  · rw [eq_of_mem_keptWrites hp' hlast' hq hreg (hwr ▸ hsome)]
    exact .inl hwr
  · obtain ⟨hin, hd⟩ := mem_due_iff.mp (mem_of_mem_keptWrites hq)
    exact .inr (hother q hin hd (hwr ▸ hreg))

end Tile

end Sys2Proof.Machine

namespace Sys2Proof.Safety
open Sys2Proof Sys2Proof.Machine

/-- Settles O22: of the writes due for a register only the latest is kept, and each write reaches nothing but what it names. -/
theorem writebackKeepsTheLaterIssueAndTheRest : Obligations.WritebackKeepsTheLaterIssueAndTheRest := by
  refine ⟨fun t p hp hdue hlast => ?later, fun t => ?rest⟩
  case later =>
    intro t'
    refine ⟨fun d v hw => ?sreg, fun d ls hw => ?vreg, fun d ls sc hw => ?vconv, fun d m b hw hd => ?preg, fun a w v hw hdw => ?dword, fun a x hw hdw => ?dpos,
      fun a r hw hr => ?macc, ?fault⟩
    case sreg =>
      exact Tile.writeback_of_last (f := fun u => u.sreg d) (g := fun _ => v) hp hdue hlast (w := .sreg d v) (Option.some_ne_none _) (fun _ => rfl) (fun _ => rfl) hw
        (fun _ => Tab.get_put_same _ _ _ _) (fun q _ _ => Tile.sreg_applyWr_of_ne)
    case vreg =>
      exact Tile.writeback_of_last (f := fun u => u.vreg d) (g := fun old => setLanes old ls) hp hdue hlast (w := .vreg d ls) (Option.some_ne_none _) (fun _ => rfl) (setLanes_idem ls) hw
        (fun _ => Tab.get_put_same _ _ _ _) (fun q _ _ => Tile.vreg_applyWr_of_ne)
    case vconv =>
      exact Tile.writeback_of_last (f := fun u => u.vreg d) (g := fun old => setScales (setLanes old ls) sc) hp hdue hlast (w := .vconv d ls sc) (Option.some_ne_none _) (fun _ => rfl)
        (setScales_setLanes_idem ls sc) hw (fun _ => Tab.get_put_same _ _ _ _) (fun q _ _ => Tile.vreg_applyWr_of_ne)
    case preg =>
      have wrote := Tile.writeback_of_last (f := fun u => Tab.get 0 u.r.pregs d) (g := fun old => (old &&& (2 ^ 256 - 1 - m)) ||| (b &&& m)) hp hdue hlast (w := .preg d m b) (Option.some_ne_none _)
        (fun _ => rfl) (fun _ => Nat.or_and_or_self _ _ _) hw (fun _ => Tab.get_put_same _ _ _ _) (fun q _ _ => Tile.pregs_applyWr_of_ne)
      rw [Tile.pred, if_neg hd, Tile.pred, if_neg hd]
      exact wrote
    case dword =>
      have wrote := Tile.writeback_of_last (f := fun u => (u.desc a).word w) (g := fun _ => (Desc.zero.setWord w v).word w) hp hdue hlast (w := .dword a w v) (Option.some_ne_none _) (fun _ => rfl)
        (fun _ => rfl) hw (fun u => (congrArg (fun (x : Desc) => x.word w) (Tile.desc_applyWr_dword_same u a w v)).trans (Desc.word_setWord_self _ _ w v))
        (fun q hq hqd hreg => Tile.descWord_applyWr (hdw q hq hqd (fun hqp => hreg (by rw [hqp, hw]))) w)
      exact wrote.trans (Desc.word_setWord_self _ _ w v)
    case dpos =>
      exact Tile.writeback_of_last (f := fun u => (u.desc a).pos) (g := fun _ => x) hp hdue hlast (w := .dpos a x) (Option.some_ne_none _) (fun _ => rfl) (fun _ => rfl) hw
        (fun _ => congrArg Desc.pos (Tab.get_put_same _ _ _ _)) (fun q hq hqd hreg => Tile.descPos_applyWr (hdw q hq hqd) hreg)
    case macc =>
      exact Tile.writeback_of_last (f := fun u => u.accRow a r) (g := fun _ => List.replicate 128 0#32) hp hdue hlast (w := .macc a) (Option.some_ne_none _) (fun _ => rfl) (fun _ => rfl) hw
        (fun u => Tile.accRow_applyWr_macc u a hr) (fun q _ _ hreg => Tile.accRow_applyWr_of_ne hreg hr)
    case fault =>
      exact congrArg TileBlk.fault (Tile.writeback_keeps_of (f := Tile.blk) (fun _ => rfl) fun q _ _ u => (Tile.applyWr_keeps u q.wr).2.2.2.2)
  case rest =>
    intro t'
    refine ⟨?loops, ?heldInc, ?bundles, ?st, fun d h => ?sreg, fun d h => ?vreg, fun d h => ?pred, fun space a _ h => ?mem⟩
    case loops => exact Tile.writeback_keeps_of (f := fun u => u.r.loops) (fun _ => rfl) fun q _ _ u => (Tile.applyWr_keeps u q.wr).1
    case heldInc => exact Tile.writeback_keeps_of (f := fun u => u.r.heldInc) (fun _ => rfl) fun q _ _ u => (Tile.applyWr_keeps u q.wr).2.1
    case bundles => exact Tile.writeback_keeps_of (f := fun u => u.mem.bundles) (fun _ => rfl) fun q _ _ u => (Tile.applyWr_keeps u q.wr).2.2.1
    case st => exact Tile.writeback_keeps_of (f := Tile.st) (fun _ => rfl) fun q _ _ u => (Tile.applyWr_keeps u q.wr).2.2.2.1
    case sreg => exact Tile.writeback_keeps_of (f := fun u => u.sreg d) (fun _ => rfl) fun q hq hd => Tile.sreg_applyWr_of_ne (h q hq hd)
    case vreg => exact Tile.writeback_keeps_of (f := fun u => u.vreg d) (fun _ => rfl) fun q hq hd => Tile.vreg_applyWr_of_ne (h q hq hd)
    case pred => exact Tile.writeback_keeps_of (f := fun u => u.pred d) (fun _ => rfl) fun q hq hd => Tile.pred_applyWr_of_ne (h q hq hd)
    case mem =>
      exact Tile.writeback_keeps_of (f := fun u => Mem.read (u.memOf space) a) (fun _ => rfl) fun q hq hd => Tile.read_applyWr_outside fun sp ad bs => h q hq hd sp ad bs

end Sys2Proof.Safety
end

section
/-!
PROOFS. The formats of the syllables (R82 to R118): the fields of a format read back, and a number is spelled by its fields.
-/
set_option Elab.async false
namespace Sys2Proof.Machine

/-! ### Fields of a number -/

theorem fld_eq (v hi lo : Nat) : fld v hi lo = v / 2 ^ lo % 2 ^ (hi + 1 - lo) := by rw [fld, Nat.shiftRight_eq_div_pow]

theorem place_eq (v k lo : Nat) : place v k lo = v % 2 ^ k * 2 ^ lo := by rw [place, Nat.shiftLeft_eq]

theorem fld_lt_of {w hi lo n : Nat} (h : 2 ^ (hi + 1 - lo) ≤ n) : fld w hi lo < n :=
  Nat.lt_of_lt_of_le (fld_eq w hi lo ▸ Nat.mod_lt _ (Nat.two_pow_pos _)) h

/-- A field of a sum is not reached by the fields above it. -/
theorem fld_place_add_of_le {v k y hi lo lo' : Nat} (h : hi + 1 ≤ lo') : fld (place v k lo' + y) hi lo = fld y hi lo := by
  by_cases hlo : lo ≤ hi + 1
  · have hsplit : v % 2 ^ k * 2 ^ lo' = 2 ^ lo * (2 ^ (hi + 1 - lo) * (v % 2 ^ k * 2 ^ (lo' - (hi + 1)))) := by
      have hpow : 2 ^ lo' = 2 ^ lo * 2 ^ (hi + 1 - lo) * 2 ^ (lo' - (hi + 1)) := by rw [← Nat.pow_add, ← Nat.pow_add]; congr 1; omega
      rw [hpow]; ac_rfl
    rw [fld_eq, fld_eq, place_eq, hsplit, Nat.mul_add_div (Nat.two_pow_pos lo), Nat.mul_add_mod]
  · rw [fld_eq, fld_eq, Nat.sub_eq_zero_of_le (Nat.le_of_not_le hlo), Nat.pow_zero, Nat.mod_one, Nat.mod_one]

/-- The field at the head of a sum of fields below it. -/
theorem fld_place_add_self {v y hi lo : Nat} (hv : v < 2 ^ (hi + 1 - lo)) (hy : y < 2 ^ lo) : fld (place v (hi + 1 - lo) lo + y) hi lo = v := by
  rw [fld_eq, place_eq, Nat.mod_eq_of_lt hv, Nat.mul_comm,
    Nat.mul_add_div (Nat.two_pow_pos lo), Nat.div_eq_of_lt hy, Nat.add_zero, Nat.mod_eq_of_lt hv]

/-- Fields (value, width, lowest bit) put together, as the formats of the syllables do. -/
def joinFields : List (Nat × Nat × Nat) → Nat
  | [] => 0
  | (v, k, lo) :: r => place v k lo + joinFields r

/-- The fields stand from bit `top` downwards, each below the one before. -/
def Descending : Nat → List (Nat × Nat × Nat) → Prop
  | _, [] => True
  | top, (_, k, lo) :: r => lo + k ≤ top ∧ Descending lo r

theorem joinFields_lt : ∀ {l : List (Nat × Nat × Nat)} {top : Nat}, Descending top l → joinFields l < 2 ^ top
  | [], top, _ => Nat.two_pow_pos top
  | (v, k, lo) :: r, top, ⟨htop, hr⟩ => by
    have rest := joinFields_lt hr
    have head : v % 2 ^ k + 1 ≤ 2 ^ k := Nat.mod_lt v (Nat.two_pow_pos k)
    calc place v k lo + joinFields r < v % 2 ^ k * 2 ^ lo + 2 ^ lo := by rw [place_eq]; exact Nat.add_lt_add_left rest _
      _ = (v % 2 ^ k + 1) * 2 ^ lo := (Nat.succ_mul _ _).symm
      _ ≤ 2 ^ k * 2 ^ lo := Nat.mul_le_mul_right _ head
      _ = 2 ^ (lo + k) := by rw [← Nat.pow_add, Nat.add_comm]
      _ ≤ 2 ^ top := Nat.pow_le_pow_right (by decide) htop

/-- Each field reads back. -/
theorem fld_joinFields {v hi lo : Nat} : ∀ {l : List (Nat × Nat × Nat)} {top : Nat}, Descending top l → (v, hi + 1 - lo, lo) ∈ l → v < 2 ^ (hi + 1 - lo) →
    lo ≤ hi → fld (joinFields l) hi lo = v
  | (v', k', lo') :: r, top, ⟨htop, hr⟩, hmem, hv, hlo => by
    rcases List.mem_cons.mp hmem with heq | hrest
    · cases heq
      exact fld_place_add_self hv (joinFields_lt hr)
    · have below : hi + 1 ≤ lo' := by
        have hend := end_le_of_mem hr hrest
        omega
      rw [joinFields, fld_place_add_of_le below]
      exact fld_joinFields hr hrest hv hlo
where
  end_le_of_mem {v k lo : Nat} : ∀ {l : List (Nat × Nat × Nat)} {top : Nat}, Descending top l → (v, k, lo) ∈ l → lo + k ≤ top
    | (v', k', lo') :: r, top, ⟨htop, hr⟩, hmem => by
      rcases List.mem_cons.mp hmem with heq | hrest
      · cases heq
        exact htop
      · have := end_le_of_mem hr hrest
        omega

/-- A number's field, put in its place, and the bits below it. -/
theorem place_fld_add (w : Nat) {hi lo k y : Nat} (hk : k = hi + 1 - lo) (hlo : lo ≤ hi + 1) (hy : y = w % 2 ^ lo) : place (fld w hi lo) k lo + y = w % 2 ^ (hi + 1) := by
  subst hk hy
  have hpow : 2 ^ (hi + 1) = 2 ^ lo * 2 ^ (hi + 1 - lo) := by rw [← Nat.pow_add]; congr 1; omega
  rw [place_eq, fld_eq, Nat.mod_mod, hpow, Nat.mod_mul, Nat.mul_comm, Nat.add_comm]

/-- A field of zeros in its place adds none. -/
theorem mod_of_fld_zero {w hi lo y : Nat} (hlo : lo ≤ hi + 1) (hz : fld w hi lo = 0) (hy : y = w % 2 ^ lo) : y = w % 2 ^ (hi + 1) := by
  rw [← place_fld_add w rfl hlo hy, hz, place_eq, Nat.zero_mod, Nat.zero_mul, Nat.zero_add]

theorem fld_testBit {w hi lo i : Nat} : (fld w hi lo).testBit i = (decide (i < hi + 1 - lo) && w.testBit (lo + i)) := by
  rw [fld_eq, Nat.testBit_mod_two_pow, Nat.testBit_div_two_pow, Nat.add_comm i lo]

/-- A field outside the mask of a syllable is zero. -/
theorem fld_of_onlyIn {w m hi lo : Nat} (h : onlyIn w m = true) (hhi : hi < 56) (hz : fld m hi lo = 0) : fld w hi lo = 0 := by
  have hm : (w % 2 ^ 56) ||| m = m := beq_iff_eq.mp h
  refine Nat.eq_of_testBit_eq fun i => ?_
  have hbit := congrArg (fun n => n.testBit (lo + i)) hm
  have hmask := congrArg (fun n => n.testBit i) hz
  simp only [fld_testBit, Nat.testBit_or, Nat.testBit_mod_two_pow, Nat.zero_testBit, Bool.and_eq_false_iff, decide_eq_false_iff_not] at hbit hmask ⊢
  rcases hmask with hout | hmask
  · exact .inl hout
  · by_cases hi' : i < hi + 1 - lo
    · rw [hmask, Bool.or_false, decide_eq_true (by omega), Bool.true_and] at hbit
      exact .inr hbit
    · exact .inl hi'

/-- A field whose upper bits lie outside the mask is its lower part. -/
theorem fld_narrow {w m hi lo top : Nat} (h : onlyIn w m = true) (hhi : hi < 56) (htop : top ≤ hi) (hlo : lo ≤ top) (hz : fld m hi (top + 1) = 0) : fld w top lo = fld w hi lo := by
  have hupper := fld_of_onlyIn h hhi hz
  refine Nat.eq_of_testBit_eq fun i => ?_
  have hbit := congrArg (fun n => n.testBit (lo + i - (top + 1))) hupper
  simp only [fld_testBit, Nat.zero_testBit] at hbit ⊢
  by_cases hi' : i < top + 1 - lo
  · rw [decide_eq_true hi', decide_eq_true (by omega : i < hi + 1 - lo)]
  · by_cases hin : i < hi + 1 - lo
    · rw [decide_eq_true (by omega : lo + i - (top + 1) < hi + 1 - (top + 1)), show top + 1 + (lo + i - (top + 1)) = lo + i by omega, Bool.true_and] at hbit
      rw [hbit, Bool.and_false, Bool.and_false]
    · rw [decide_eq_false hi', decide_eq_false hin]

/-! ### The eight formats: a syllable's fields read back, and they spell it -/

section
variable {op s l imm target f count die rows d a b x reg q p wb off len pslot pcnt pt fa fb acc half sp last fmt cc m c t t2 fn pk sel imm8 sa sb rop es w : Nat}

theorem encCTB_join : encCTB op s l imm target = joinFields [(op, 8, 56), (s, 5, 51), (l, 2, 49), (imm, 20, 29), (target, 12, 0)] := by
  simp only [encCTB, joinFields, Nat.add_assoc, Nat.add_zero]

theorem encCTW_join : encCTW op s f count die rows = joinFields [(op, 8, 56), (s, 5, 51), (f, 6, 45), (count, 16, 29), (die, 2, 27), (rows, 12, 15)] := by
  simp only [encCTW, joinFields, Nat.add_assoc, Nat.add_zero]

theorem encSC_join : encSC op d a b x imm = joinFields [(op, 8, 56), (d, 5, 51), (a, 5, 46), (b, 5, 41), (x, 9, 32), (imm, 32, 0)] := by
  simp only [encSC, joinFields, Nat.add_assoc, Nat.add_zero]

theorem encLS_join : encLS op reg a q p wb off len f pslot pcnt pt =
    joinFields [(op, 8, 56), (reg, 5, 51), (a, 4, 47), (q, 2, 45), (p, 3, 42), (wb, 1, 41), (off, 7, 34), (len, 7, 27), (f, 6, 21), (pslot, 8, 13), (pcnt, 3, 10), (pt, 1, 9)] := by
  simp only [encLS, joinFields, Nat.add_assoc, Nat.add_zero]

theorem encMXK_join : encMXK op fa fb acc wb half sp last =
    joinFields [(op, 8, 56), (fa, 4, 52), (fb, 4, 48), (acc, 2, 46), (wb, 1, 45), (half, 1, 44), (sp, 1, 43), (last, 1, 42)] := by
  simp only [encMXK, joinFields, Nat.add_assoc, Nat.add_zero]

theorem encMXD_join : encMXD op acc fmt cc a m = joinFields [(op, 8, 56), (acc, 2, 54), (fmt, 4, 50), (cc, 2, 48), (a, 4, 44), (m, 4, 40)] := by
  simp only [encMXD, joinFields, Nat.add_assoc, Nat.add_zero]

theorem encVX_join : encVX op d a b c p t t2 cc fn q pk sel imm8 =
    joinFields [(op, 8, 56), (d, 5, 51), (a, 5, 46), (b, 5, 41), (c, 5, 36), (p, 3, 33), (t, 4, 29), (t2, 4, 25), (cc, 2, 23), (fn, 4, 19), (q, 2, 17), (pk, 1, 16), (sel, 1, 15), (imm8, 8, 7)] := by
  simp only [encVX, joinFields, Nat.add_assoc, Nat.add_zero]

theorem encXF_join : encXF op f a sa sb fmt rop es len =
    joinFields [(op, 8, 56), (f, 6, 50), (a, 4, 46), (sa, 5, 41), (sb, 5, 36), (fmt, 4, 32), (rop, 2, 30), (es, 4, 26), (len, 20, 6)] := by
  simp only [encXF, joinFields, Nat.add_assoc, Nat.add_zero]

theorem encCTB_reads (hop : op < 256) (hs : s < 32) (hl : l < 4) (himm : imm < 1048576) (htarget : target < 4096) :
    encCTB op s l imm target < 2 ^ 64 ∧ opOf (encCTB op s l imm target) = op ∧ fld (encCTB op s l imm target) 55 51 = s ∧ fld (encCTB op s l imm target) 50 49 = l ∧ fld (encCTB op s l imm target) 48 29 = imm ∧ fld (encCTB op s l imm target) 11 0 = target := by
  have desc : Descending 64 [(op, 8, 56), (s, 5, 51), (l, 2, 49), (imm, 20, 29), (target, 12, 0)] := by simp [Descending]
  rw [encCTB_join]
  refine ⟨joinFields_lt desc, ?_, ?_, ?_, ?_, ?_⟩
  all_goals exact fld_joinFields desc (by simp) (by assumption) (by decide)

theorem encCTB_self (hw : w < 2 ^ 64) (h12 : fld w 28 12 = 0) : encCTB (opOf w) (fld w 55 51) (fld w 50 49) (fld w 48 29) (fld w 11 0) = w := by
  rw [encCTB_join]
  exact Eq.trans (place_fld_add w rfl (by decide) (place_fld_add w rfl (by decide) (place_fld_add w rfl (by decide) (place_fld_add w rfl (by decide) (mod_of_fld_zero (by decide) h12 (place_fld_add w rfl (by decide) (Nat.mod_one w).symm)))))) (Nat.mod_eq_of_lt hw)

theorem encCTW_reads (hop : op < 256) (hs : s < 32) (hf : f < 64) (hcount : count < 65536) (hdie : die < 4) (hrows : rows < 4096) :
    encCTW op s f count die rows < 2 ^ 64 ∧ opOf (encCTW op s f count die rows) = op ∧ fld (encCTW op s f count die rows) 55 51 = s ∧ fld (encCTW op s f count die rows) 50 45 = f ∧ fld (encCTW op s f count die rows) 44 29 = count ∧ fld (encCTW op s f count die rows) 28 27 = die ∧ fld (encCTW op s f count die rows) 26 15 = rows := by
  have desc : Descending 64 [(op, 8, 56), (s, 5, 51), (f, 6, 45), (count, 16, 29), (die, 2, 27), (rows, 12, 15)] := by simp [Descending]
  rw [encCTW_join]
  refine ⟨joinFields_lt desc, ?_, ?_, ?_, ?_, ?_, ?_⟩
  all_goals exact fld_joinFields desc (by simp) (by assumption) (by decide)

theorem encCTW_self (hw : w < 2 ^ 64) (h0 : fld w 14 0 = 0) : encCTW (opOf w) (fld w 55 51) (fld w 50 45) (fld w 44 29) (fld w 28 27) (fld w 26 15) = w := by
  rw [encCTW_join]
  exact Eq.trans (place_fld_add w rfl (by decide) (place_fld_add w rfl (by decide) (place_fld_add w rfl (by decide) (place_fld_add w rfl (by decide) (place_fld_add w rfl (by decide) (place_fld_add w rfl (by decide) (mod_of_fld_zero (Nat.zero_le _) h0 (Nat.mod_one w).symm))))))) (Nat.mod_eq_of_lt hw)

theorem encSC_reads (hop : op < 256) (hd : d < 32) (ha : a < 32) (hb : b < 32) (hx : x < 512) (himm : imm < 4294967296) :
    encSC op d a b x imm < 2 ^ 64 ∧ opOf (encSC op d a b x imm) = op ∧ fld (encSC op d a b x imm) 55 51 = d ∧ fld (encSC op d a b x imm) 50 46 = a ∧ fld (encSC op d a b x imm) 45 41 = b ∧ fld (encSC op d a b x imm) 40 32 = x ∧ fld (encSC op d a b x imm) 31 0 = imm := by
  have desc : Descending 64 [(op, 8, 56), (d, 5, 51), (a, 5, 46), (b, 5, 41), (x, 9, 32), (imm, 32, 0)] := by simp [Descending]
  rw [encSC_join]
  refine ⟨joinFields_lt desc, ?_, ?_, ?_, ?_, ?_, ?_⟩
  all_goals exact fld_joinFields desc (by simp) (by assumption) (by decide)

theorem encSC_self (hw : w < 2 ^ 64)  : encSC (opOf w) (fld w 55 51) (fld w 50 46) (fld w 45 41) (fld w 40 32) (fld w 31 0) = w := by
  rw [encSC_join]
  exact Eq.trans (place_fld_add w rfl (by decide) (place_fld_add w rfl (by decide) (place_fld_add w rfl (by decide) (place_fld_add w rfl (by decide) (place_fld_add w rfl (by decide) (place_fld_add w rfl (by decide) (Nat.mod_one w).symm)))))) (Nat.mod_eq_of_lt hw)

theorem encLS_reads (hop : op < 256) (hreg : reg < 32) (ha : a < 16) (hq : q < 4) (hp : p < 8) (hwb : wb < 2) (hoff : off < 128) (hlen : len < 128) (hf : f < 64) (hpslot : pslot < 256) (hpcnt : pcnt < 8) (hpt : pt < 2) :
    encLS op reg a q p wb off len f pslot pcnt pt < 2 ^ 64 ∧ opOf (encLS op reg a q p wb off len f pslot pcnt pt) = op ∧ fld (encLS op reg a q p wb off len f pslot pcnt pt) 55 51 = reg ∧ fld (encLS op reg a q p wb off len f pslot pcnt pt) 50 47 = a ∧ fld (encLS op reg a q p wb off len f pslot pcnt pt) 46 45 = q ∧ fld (encLS op reg a q p wb off len f pslot pcnt pt) 44 42 = p ∧ fld (encLS op reg a q p wb off len f pslot pcnt pt) 41 41 = wb ∧ fld (encLS op reg a q p wb off len f pslot pcnt pt) 40 34 = off ∧ fld (encLS op reg a q p wb off len f pslot pcnt pt) 33 27 = len ∧ fld (encLS op reg a q p wb off len f pslot pcnt pt) 26 21 = f ∧ fld (encLS op reg a q p wb off len f pslot pcnt pt) 20 13 = pslot ∧ fld (encLS op reg a q p wb off len f pslot pcnt pt) 12 10 = pcnt ∧ fld (encLS op reg a q p wb off len f pslot pcnt pt) 9 9 = pt := by
  have desc : Descending 64 [(op, 8, 56), (reg, 5, 51), (a, 4, 47), (q, 2, 45), (p, 3, 42), (wb, 1, 41), (off, 7, 34), (len, 7, 27), (f, 6, 21), (pslot, 8, 13), (pcnt, 3, 10), (pt, 1, 9)] := by simp [Descending]
  rw [encLS_join]
  refine ⟨joinFields_lt desc, ?_, ?_, ?_, ?_, ?_, ?_, ?_, ?_, ?_, ?_, ?_, ?_⟩
  all_goals exact fld_joinFields desc (by simp) (by assumption) (by decide)

theorem encLS_self (hw : w < 2 ^ 64) (h0 : fld w 8 0 = 0) : encLS (opOf w) (fld w 55 51) (fld w 50 47) (fld w 46 45) (fld w 44 42) (fld w 41 41) (fld w 40 34) (fld w 33 27) (fld w 26 21) (fld w 20 13) (fld w 12 10) (fld w 9 9) = w := by
  rw [encLS_join]
  exact Eq.trans (place_fld_add w rfl (by decide) (place_fld_add w rfl (by decide) (place_fld_add w rfl (by decide) (place_fld_add w rfl (by decide) (place_fld_add w rfl (by decide) (place_fld_add w rfl (by decide) (place_fld_add w rfl (by decide) (place_fld_add w rfl (by decide) (place_fld_add w rfl (by decide) (place_fld_add w rfl (by decide) (place_fld_add w rfl (by decide) (place_fld_add w rfl (by decide) (mod_of_fld_zero (Nat.zero_le _) h0 (Nat.mod_one w).symm))))))))))))) (Nat.mod_eq_of_lt hw)

theorem encMXK_reads (hop : op < 256) (hfa : fa < 16) (hfb : fb < 16) (hacc : acc < 4) (hwb : wb < 2) (hhalf : half < 2) (hsp : sp < 2) (hlast : last < 2) :
    encMXK op fa fb acc wb half sp last < 2 ^ 64 ∧ opOf (encMXK op fa fb acc wb half sp last) = op ∧ fld (encMXK op fa fb acc wb half sp last) 55 52 = fa ∧ fld (encMXK op fa fb acc wb half sp last) 51 48 = fb ∧ fld (encMXK op fa fb acc wb half sp last) 47 46 = acc ∧ fld (encMXK op fa fb acc wb half sp last) 45 45 = wb ∧ fld (encMXK op fa fb acc wb half sp last) 44 44 = half ∧ fld (encMXK op fa fb acc wb half sp last) 43 43 = sp ∧ fld (encMXK op fa fb acc wb half sp last) 42 42 = last := by
  have desc : Descending 64 [(op, 8, 56), (fa, 4, 52), (fb, 4, 48), (acc, 2, 46), (wb, 1, 45), (half, 1, 44), (sp, 1, 43), (last, 1, 42)] := by simp [Descending]
  rw [encMXK_join]
  refine ⟨joinFields_lt desc, ?_, ?_, ?_, ?_, ?_, ?_, ?_, ?_⟩
  all_goals exact fld_joinFields desc (by simp) (by assumption) (by decide)

theorem encMXK_self (hw : w < 2 ^ 64) (h0 : fld w 41 0 = 0) : encMXK (opOf w) (fld w 55 52) (fld w 51 48) (fld w 47 46) (fld w 45 45) (fld w 44 44) (fld w 43 43) (fld w 42 42) = w := by
  rw [encMXK_join]
  exact Eq.trans (place_fld_add w rfl (by decide) (place_fld_add w rfl (by decide) (place_fld_add w rfl (by decide) (place_fld_add w rfl (by decide) (place_fld_add w rfl (by decide) (place_fld_add w rfl (by decide) (place_fld_add w rfl (by decide) (place_fld_add w rfl (by decide) (mod_of_fld_zero (Nat.zero_le _) h0 (Nat.mod_one w).symm))))))))) (Nat.mod_eq_of_lt hw)

theorem encMXD_reads (hop : op < 256) (hacc : acc < 4) (hfmt : fmt < 16) (hcc : cc < 4) (ha : a < 16) (hm : m < 16) :
    encMXD op acc fmt cc a m < 2 ^ 64 ∧ opOf (encMXD op acc fmt cc a m) = op ∧ fld (encMXD op acc fmt cc a m) 55 54 = acc ∧ fld (encMXD op acc fmt cc a m) 53 50 = fmt ∧ fld (encMXD op acc fmt cc a m) 49 48 = cc ∧ fld (encMXD op acc fmt cc a m) 47 44 = a ∧ fld (encMXD op acc fmt cc a m) 43 40 = m := by
  have desc : Descending 64 [(op, 8, 56), (acc, 2, 54), (fmt, 4, 50), (cc, 2, 48), (a, 4, 44), (m, 4, 40)] := by simp [Descending]
  rw [encMXD_join]
  refine ⟨joinFields_lt desc, ?_, ?_, ?_, ?_, ?_, ?_⟩
  all_goals exact fld_joinFields desc (by simp) (by assumption) (by decide)

theorem encMXD_self (hw : w < 2 ^ 64) (h0 : fld w 39 0 = 0) : encMXD (opOf w) (fld w 55 54) (fld w 53 50) (fld w 49 48) (fld w 47 44) (fld w 43 40) = w := by
  rw [encMXD_join]
  exact Eq.trans (place_fld_add w rfl (by decide) (place_fld_add w rfl (by decide) (place_fld_add w rfl (by decide) (place_fld_add w rfl (by decide) (place_fld_add w rfl (by decide) (place_fld_add w rfl (by decide) (mod_of_fld_zero (Nat.zero_le _) h0 (Nat.mod_one w).symm))))))) (Nat.mod_eq_of_lt hw)

theorem encVX_reads (hop : op < 256) (hd : d < 32) (ha : a < 32) (hb : b < 32) (hc : c < 32) (hp : p < 8) (ht : t < 16) (ht2 : t2 < 16) (hcc : cc < 4) (hfn : fn < 16) (hq : q < 4) (hpk : pk < 2) (hsel : sel < 2) (himm8 : imm8 < 256) :
    encVX op d a b c p t t2 cc fn q pk sel imm8 < 2 ^ 64 ∧ opOf (encVX op d a b c p t t2 cc fn q pk sel imm8) = op ∧ fld (encVX op d a b c p t t2 cc fn q pk sel imm8) 55 51 = d ∧ fld (encVX op d a b c p t t2 cc fn q pk sel imm8) 50 46 = a ∧ fld (encVX op d a b c p t t2 cc fn q pk sel imm8) 45 41 = b ∧ fld (encVX op d a b c p t t2 cc fn q pk sel imm8) 40 36 = c ∧ fld (encVX op d a b c p t t2 cc fn q pk sel imm8) 35 33 = p ∧ fld (encVX op d a b c p t t2 cc fn q pk sel imm8) 32 29 = t ∧ fld (encVX op d a b c p t t2 cc fn q pk sel imm8) 28 25 = t2 ∧ fld (encVX op d a b c p t t2 cc fn q pk sel imm8) 24 23 = cc ∧ fld (encVX op d a b c p t t2 cc fn q pk sel imm8) 22 19 = fn ∧ fld (encVX op d a b c p t t2 cc fn q pk sel imm8) 18 17 = q ∧ fld (encVX op d a b c p t t2 cc fn q pk sel imm8) 16 16 = pk ∧ fld (encVX op d a b c p t t2 cc fn q pk sel imm8) 15 15 = sel ∧ fld (encVX op d a b c p t t2 cc fn q pk sel imm8) 14 7 = imm8 := by
  have desc : Descending 64 [(op, 8, 56), (d, 5, 51), (a, 5, 46), (b, 5, 41), (c, 5, 36), (p, 3, 33), (t, 4, 29), (t2, 4, 25), (cc, 2, 23), (fn, 4, 19), (q, 2, 17), (pk, 1, 16), (sel, 1, 15), (imm8, 8, 7)] := by simp [Descending]
  rw [encVX_join]
  refine ⟨joinFields_lt desc, ?_, ?_, ?_, ?_, ?_, ?_, ?_, ?_, ?_, ?_, ?_, ?_, ?_, ?_⟩
  all_goals exact fld_joinFields desc (by simp) (by assumption) (by decide)

theorem encVX_self (hw : w < 2 ^ 64) (h0 : fld w 6 0 = 0) : encVX (opOf w) (fld w 55 51) (fld w 50 46) (fld w 45 41) (fld w 40 36) (fld w 35 33) (fld w 32 29) (fld w 28 25) (fld w 24 23) (fld w 22 19) (fld w 18 17) (fld w 16 16) (fld w 15 15) (fld w 14 7) = w := by
  rw [encVX_join]
  exact Eq.trans (place_fld_add w rfl (by decide) (place_fld_add w rfl (by decide) (place_fld_add w rfl (by decide) (place_fld_add w rfl (by decide) (place_fld_add w rfl (by decide) (place_fld_add w rfl (by decide) (place_fld_add w rfl (by decide) (place_fld_add w rfl (by decide) (place_fld_add w rfl (by decide) (place_fld_add w rfl (by decide) (place_fld_add w rfl (by decide) (place_fld_add w rfl (by decide) (place_fld_add w rfl (by decide) (place_fld_add w rfl (by decide) (mod_of_fld_zero (Nat.zero_le _) h0 (Nat.mod_one w).symm))))))))))))))) (Nat.mod_eq_of_lt hw)

theorem encXF_reads (hop : op < 256) (hf : f < 64) (ha : a < 16) (hsa : sa < 32) (hsb : sb < 32) (hfmt : fmt < 16) (hrop : rop < 4) (hes : es < 16) (hlen : len < 1048576) :
    encXF op f a sa sb fmt rop es len < 2 ^ 64 ∧ opOf (encXF op f a sa sb fmt rop es len) = op ∧ fld (encXF op f a sa sb fmt rop es len) 55 50 = f ∧ fld (encXF op f a sa sb fmt rop es len) 49 46 = a ∧ fld (encXF op f a sa sb fmt rop es len) 45 41 = sa ∧ fld (encXF op f a sa sb fmt rop es len) 40 36 = sb ∧ fld (encXF op f a sa sb fmt rop es len) 35 32 = fmt ∧ fld (encXF op f a sa sb fmt rop es len) 31 30 = rop ∧ fld (encXF op f a sa sb fmt rop es len) 29 26 = es ∧ fld (encXF op f a sa sb fmt rop es len) 25 6 = len := by
  have desc : Descending 64 [(op, 8, 56), (f, 6, 50), (a, 4, 46), (sa, 5, 41), (sb, 5, 36), (fmt, 4, 32), (rop, 2, 30), (es, 4, 26), (len, 20, 6)] := by simp [Descending]
  rw [encXF_join]
  refine ⟨joinFields_lt desc, ?_, ?_, ?_, ?_, ?_, ?_, ?_, ?_, ?_⟩
  all_goals exact fld_joinFields desc (by simp) (by assumption) (by decide)

theorem encXF_self (hw : w < 2 ^ 64) (h0 : fld w 5 0 = 0) : encXF (opOf w) (fld w 55 50) (fld w 49 46) (fld w 45 41) (fld w 40 36) (fld w 35 32) (fld w 31 30) (fld w 29 26) (fld w 25 6) = w := by
  rw [encXF_join]
  exact Eq.trans (place_fld_add w rfl (by decide) (place_fld_add w rfl (by decide) (place_fld_add w rfl (by decide) (place_fld_add w rfl (by decide) (place_fld_add w rfl (by decide) (place_fld_add w rfl (by decide) (place_fld_add w rfl (by decide) (place_fld_add w rfl (by decide) (place_fld_add w rfl (by decide) (mod_of_fld_zero (Nat.zero_le _) h0 (Nat.mod_one w).symm)))))))))) (Nat.mod_eq_of_lt hw)

end

end Sys2Proof.Machine
end

section
/-!
PROOFS. A slot that defines a syllable reads from it the command that spelled it.
-/
set_option Elab.async false
namespace Sys2Proof.Machine
open Sys2Proof

/-! ### The commands read back -/

theorem ne_zero_of_opOf {w op : Nat} (h : opOf w = op) (hop : op ≠ 0) : w ≠ 0 := fun hw => hop (by rw [← h, hw]; rfl)

section
variable {tid w : Nat} (h0 : w ≠ 0)
include h0

theorem syllableInstr_ct (hd : sylDefined 0 w = true) : syllableInstr tid 0 w = ctInstr tid w := by unfold syllableInstr; rw [hd, if_neg h0]; rfl
theorem syllableInstr_sc (hd : sylDefined 1 w = true) : syllableInstr tid 1 w = scInstr tid w := by unfold syllableInstr; rw [hd, if_neg h0]; rfl
theorem syllableInstr_mx (hd : sylDefined 4 w = true) : syllableInstr tid 4 w = mxInstr tid w := by unfold syllableInstr; rw [hd, if_neg h0]; rfl
theorem syllableInstr_xf (hd : sylDefined 7 w = true) : syllableInstr tid 7 w = xfInstr tid w := by unfold syllableInstr; rw [hd, if_neg h0]; rfl

theorem syllableInstr_ls {u : Nat} (hu : u < 2) (hd : sylDefined (u + 2) w = true) : syllableInstr tid (u + 2) w = lsInstr tid u w := by
  rcases (by omega : u = 0 ∨ u = 1) with rfl | rfl
  · unfold syllableInstr; rw [hd, if_neg h0]; rfl
  · unfold syllableInstr; rw [hd, if_neg h0]; rfl

theorem syllableInstr_vx {u : Nat} (hu : u < 2) (hd : sylDefined (u + 5) w = true) : syllableInstr tid (u + 5) w = vxInstr tid u w := by
  rcases (by omega : u = 0 ∨ u = 1) with rfl | rfl
  · unfold syllableInstr; rw [hd, if_neg h0]; rfl
  · unfold syllableInstr; rw [hd, if_neg h0]; rfl

theorem sylDefined_sc : sylDefined 1 w = definedSC w := by rw [sylDefined, if_neg h0]

end

section
variable {tid u op s l imm target f count die rows d a b x reg q p wb off len pslot pcnt pt fa fb acc half sp last fmt cc m c t t2 fn pk sel imm8 sa sb rop es : Nat} {i : Instr}

theorem reads_ctb (hop : op < 256) (hop0 : op ≠ 0) (hs : s < 32) (hl : l < 4) (hi : imm < 2 ^ 20) (ht : target < 4096)
    (h : ∀ w, opOf w = op → fld w 55 51 = s → fld w 50 49 = l → fld w 48 29 = imm → fld w 11 0 = target → ctInstr tid w = some i) :
    encCTB op s l imm target < 2 ^ 64 ∧ (sylDefined 0 (encCTB op s l imm target) = true → syllableInstr tid 0 (encCTB op s l imm target) = some i) := by
  obtain ⟨lt, op', s', l', imm', target'⟩ := encCTB_reads hop hs hl hi ht
  exact ⟨lt, fun hd => (syllableInstr_ct (ne_zero_of_opOf op' hop0) hd).trans (h _ op' s' l' imm' target')⟩

theorem reads_ctw (hop : op < 256) (hop0 : op ≠ 0) (hs : s < 32) (hf : f < 64) (hc : count < 65536) (hdie : die < 4) (hr : rows < 4096)
    (h : ∀ w, opOf w = op → fld w 55 51 = s → fld w 50 45 = f → fld w 44 29 = count → fld w 28 27 = die → fld w 26 15 = rows → ctInstr tid w = some i) :
    encCTW op s f count die rows < 2 ^ 64 ∧ (sylDefined 0 (encCTW op s f count die rows) = true → syllableInstr tid 0 (encCTW op s f count die rows) = some i) := by
  obtain ⟨lt, op', s', f', count', die', rows'⟩ := encCTW_reads hop hs hf hc hdie hr
  exact ⟨lt, fun hd => (syllableInstr_ct (ne_zero_of_opOf op' hop0) hd).trans (h _ op' s' f' count' die' rows')⟩

theorem reads_sc (hop : op < 256) (hop0 : op ≠ 0) (hd : d < 32) (ha : a < 32) (hb : b < 32) (hx : x < 512) (hi : imm < 2 ^ 32)
    (h : ∀ w, opOf w = op → fld w 55 51 = d → fld w 50 46 = a → fld w 45 41 = b → fld w 40 32 = x → fld w 31 0 = imm → definedSC w = true → scInstr tid w = some i) :
    encSC op d a b x imm < 2 ^ 64 ∧ (sylDefined 1 (encSC op d a b x imm) = true → syllableInstr tid 1 (encSC op d a b x imm) = some i) := by
  obtain ⟨lt, op', d', a', b', x', imm'⟩ := encSC_reads hop hd ha hb hx hi
  have h0 := ne_zero_of_opOf op' hop0
  exact ⟨lt, fun hd => (syllableInstr_sc h0 hd).trans (h _ op' d' a' b' x' imm' (sylDefined_sc h0 ▸ hd))⟩

theorem reads_ls (hu : u < 2) (hop : op < 256) (hop0 : op ≠ 0) (hreg : reg < 32) (ha : a < 16) (hq : q < 4) (hp : p < 8) (hwb : wb < 2) (hoff : off < 128) (hlen : len < 128) (hf : f < 64)
    (hps : pslot < 256) (hpc : pcnt < 8) (hpt : pt < 2)
    (h : ∀ w, opOf w = op → fld w 55 51 = reg → fld w 50 47 = a → fld w 46 45 = q → fld w 44 42 = p → fld w 41 41 = wb → fld w 40 34 = off → fld w 33 27 = len → fld w 26 21 = f →
      fld w 20 13 = pslot → fld w 12 10 = pcnt → fld w 9 9 = pt → lsInstr tid u w = some i) :
    encLS op reg a q p wb off len f pslot pcnt pt < 2 ^ 64 ∧
      (sylDefined (u + 2) (encLS op reg a q p wb off len f pslot pcnt pt) = true → syllableInstr tid (u + 2) (encLS op reg a q p wb off len f pslot pcnt pt) = some i) := by
  obtain ⟨lt, op', reg', a', q', p', wb', off', len', f', pslot', pcnt', pt'⟩ := encLS_reads hop hreg ha hq hp hwb hoff hlen hf hps hpc hpt
  exact ⟨lt, fun hd => (syllableInstr_ls (ne_zero_of_opOf op' hop0) hu hd).trans (h _ op' reg' a' q' p' wb' off' len' f' pslot' pcnt' pt')⟩

theorem reads_mxk (hop : op < 256) (hop0 : op ≠ 0) (hfa : fa < 16) (hfb : fb < 16) (hacc : acc < 4) (hwb : wb < 2) (hhalf : half < 2) (hsp : sp < 2) (hlast : last < 2)
    (h : ∀ w, opOf w = op → fld w 55 52 = fa → fld w 51 48 = fb → fld w 47 46 = acc → fld w 45 45 = wb → fld w 44 44 = half → fld w 43 43 = sp → fld w 42 42 = last →
      mxInstr tid w = some i) :
    encMXK op fa fb acc wb half sp last < 2 ^ 64 ∧
      (sylDefined 4 (encMXK op fa fb acc wb half sp last) = true → syllableInstr tid 4 (encMXK op fa fb acc wb half sp last) = some i) := by
  obtain ⟨lt, op', fa', fb', acc', wb', half', sp', last'⟩ := encMXK_reads hop hfa hfb hacc hwb hhalf hsp hlast
  exact ⟨lt, fun hd => (syllableInstr_mx (ne_zero_of_opOf op' hop0) hd).trans (h _ op' fa' fb' acc' wb' half' sp' last')⟩

theorem reads_mxd (hop : op < 256) (hop0 : op ≠ 0) (hacc : acc < 4) (hfmt : fmt < 16) (hcc : cc < 4) (ha : a < 16) (hm : m < 16)
    (h : ∀ w, opOf w = op → fld w 55 54 = acc → fld w 53 50 = fmt → fld w 49 48 = cc → fld w 47 44 = a → fld w 43 40 = m → mxInstr tid w = some i) :
    encMXD op acc fmt cc a m < 2 ^ 64 ∧ (sylDefined 4 (encMXD op acc fmt cc a m) = true → syllableInstr tid 4 (encMXD op acc fmt cc a m) = some i) := by
  obtain ⟨lt, op', acc', fmt', cc', a', m'⟩ := encMXD_reads hop hacc hfmt hcc ha hm
  exact ⟨lt, fun hd => (syllableInstr_mx (ne_zero_of_opOf op' hop0) hd).trans (h _ op' acc' fmt' cc' a' m')⟩

theorem reads_vx (hu : u < 2) (hop : op < 256) (hop0 : op ≠ 0) (hd : d < 32) (ha : a < 32) (hb : b < 32) (hc : c < 32) (hp : p < 8) (ht : t < 16) (ht2 : t2 < 16) (hcc : cc < 4) (hfn : fn < 16)
    (hq : q < 4) (hpk : pk < 2) (hsel : sel < 2) (himm : imm8 < 256)
    (h : ∀ w, opOf w = op → fld w 55 51 = d → fld w 50 46 = a → fld w 45 41 = b → fld w 40 36 = c → fld w 35 33 = p → fld w 32 29 = t → fld w 28 25 = t2 → fld w 24 23 = cc →
      fld w 22 19 = fn → fld w 18 17 = q → fld w 16 16 = pk → fld w 15 15 = sel → fld w 14 7 = imm8 → vxInstr tid u w = some i) :
    encVX op d a b c p t t2 cc fn q pk sel imm8 < 2 ^ 64 ∧
      (sylDefined (u + 5) (encVX op d a b c p t t2 cc fn q pk sel imm8) = true → syllableInstr tid (u + 5) (encVX op d a b c p t t2 cc fn q pk sel imm8) = some i) := by
  obtain ⟨lt, op', d', a', b', c', p', t', t2', cc', fn', q', pk', sel', imm8'⟩ := encVX_reads hop hd ha hb hc hp ht ht2 hcc hfn hq hpk hsel himm
  exact ⟨lt, fun hd => (syllableInstr_vx (ne_zero_of_opOf op' hop0) hu hd).trans (h _ op' d' a' b' c' p' t' t2' cc' fn' q' pk' sel' imm8')⟩

theorem reads_xf (hop : op < 256) (hop0 : op ≠ 0) (hf : f < 64) (ha : a < 16) (hsa : sa < 32) (hsb : sb < 32) (hfmt : fmt < 16) (hrop : rop < 4) (hes : es < 16) (hlen : len < 2 ^ 20)
    (h : ∀ w, opOf w = op → fld w 55 50 = f → fld w 49 46 = a → fld w 45 41 = sa → fld w 40 36 = sb → fld w 35 32 = fmt → fld w 31 30 = rop → fld w 29 26 = es → fld w 25 6 = len →
      xfInstr tid w = some i) :
    encXF op f a sa sb fmt rop es len < 2 ^ 64 ∧
      (sylDefined 7 (encXF op f a sa sb fmt rop es len) = true → syllableInstr tid 7 (encXF op f a sa sb fmt rop es len) = some i) := by
  obtain ⟨lt, op', f', a', sa', sb', fmt', rop', es', len'⟩ := encXF_reads hop hf ha hsa hsb hfmt hrop hes hlen
  exact ⟨lt, fun hd => (syllableInstr_xf (ne_zero_of_opOf op' hop0) hd).trans (h _ op' f' a' sa' sb' fmt' rop' es' len')⟩

end

/-- A field holding a small value is its lower part. -/
theorem fld_of_lt {w hi lo top v : Nat} (h : fld w hi lo = v) (htop : top ≤ hi) (hv : v < 2 ^ (top + 1 - lo)) : fld w top lo = v := by
  rw [fld_eq] at h ⊢
  rw [← Nat.mod_mod_of_dvd _ (Nat.pow_dvd_pow 2 (by omega : top + 1 - lo ≤ hi + 1 - lo)), h, Nat.mod_eq_of_lt hv]

/-- A well-formed command that spells a syllable is what a slot that defines the syllable reads back from it. -/
def ReadsBack (i : Instr) : Prop := i.wf = true → upsetFree i = true → ∀ tid slot w : Nat, syllableOf i = some (tid, slot, w) →
  w < 2 ^ 64 ∧ (sylDefined slot w = true → syllableInstr tid slot w = some i)

theorem ReadsBack.of_not_spelled {i : Instr} (h : syllableOf i = none) : ReadsBack i := fun _ _ _ _ _ h' => nomatch h.symm.trans h'

theorem ReadsBack.of_spelled {i : Instr} {tid slot w : Nat} (h : syllableOf i = some (tid, slot, w))
    (k : i.wf = true → upsetFree i = true → w < 2 ^ 64 ∧ (sylDefined slot w = true → syllableInstr tid slot w = some i)) : ReadsBack i := by
  intro hwf hu tid' slot' w' h'
  cases h.symm.trans h'
  exact k hwf hu

/-- What the descriptor operations of `SC` leave zero: the upper bit of `D` and, but for `FEED`, the word above 7. -/
theorem definedSC_desc {w op : Nat} (hop : opOf w = op) (h : definedSC w = true) :
    (op = 0x28 ∨ op = 0x29 ∨ op = 0x31 → fld w 54 51 = fld w 55 51) ∧ (op = 0x28 ∨ op = 0x29 → fld w 34 32 = fld w 40 32) := by
  refine ⟨fun hops => ?_, fun hops => ?_⟩
  · rcases hops with rfl | rfl | rfl <;> simp only [definedSC, hop] at h
    · exact fld_narrow (And.left ((Bool.and_eq_true _ _).mp h)) (by decide) (by decide) (by decide) (by decide)
    · exact fld_narrow (And.left ((Bool.and_eq_true _ _).mp h)) (by decide) (by decide) (by decide) (by decide)
    · exact fld_narrow h (by decide) (by decide) (by decide) (by decide)
  · rcases hops with rfl | rfl <;> simp only [definedSC, hop] at h
    · exact fld_narrow (And.left ((Bool.and_eq_true _ _).mp h)) (by decide) (by decide) (by decide) (by decide)
    · exact fld_narrow (And.left ((Bool.and_eq_true _ _).mp h)) (by decide) (by decide) (by decide) (by decide)

set_option linter.unusedSimpArgs false in
theorem readsBack {i : Instr} : ReadsBack i := by
  induction i with
  | nop =>
    refine .of_spelled rfl fun _ _ => ?_
    exact ⟨by decide, fun hd => by unfold syllableInstr; rw [hd]; rfl⟩
  | br | brz | brnz | call | ret | loopi | loops | lexit =>
    refine .of_spelled rfl fun hwf _ => ?_
    replace hwf := Bool.and_eq_true_iff.mp hwf
    simp only [Bool.and_eq_true, decide_eq_true_eq] at hwf
    exact reads_ctb (by decide) (by decide) (by simp [hwf]) (by simp [hwf]) (by omega) (by simp [hwf]) fun w hop hs hl hi ht => by simp only [ctInstr, hop, hs, hl, hi, ht]
  | stepEnd =>
    refine .of_spelled rfl fun _ _ => ?_
    exact reads_ctw (by decide) (by decide) (by decide) (by decide) (by decide) (by decide) (by decide) fun w hop _ _ _ _ _ => by simp only [ctInstr, hop]
  | waitf | waitfs | barrier | wake =>
    refine .of_spelled rfl fun hwf _ => ?_
    replace hwf := Bool.and_eq_true_iff.mp hwf
    simp only [Bool.and_eq_true, decide_eq_true_eq] at hwf
    exact reads_ctw (by decide) (by decide) (by simp [hwf]) (by simp [hwf]) (by simp [hwf]) (by simp [hwf]) (by simp [hwf]) fun w hop hs hf hc hd hr => by simp only [ctInstr, hop, hs, hf, hc, hd, hr]
  | add | sub | and | or | xor | shl | shr | sra | cmpeq | cmplt | cmpltu | mul | bcast =>
    refine .of_spelled rfl fun hwf _ => ?_
    replace hwf := Bool.and_eq_true_iff.mp hwf
    simp only [Bool.and_eq_true, decide_eq_true_eq] at hwf
    exact reads_sc (by decide) (by decide) (by simp [hwf]) (by simp [hwf]) (by simp [hwf]) (by simp [hwf]) (by simp [hwf]) fun w hop hd ha hb _ _ _ => by simp only [scInstr, hop, hd, ha, hb]
  | addi tid d a imm | movi tid d imm =>
    refine .of_spelled rfl fun hwf _ => ?_
    replace hwf := Bool.and_eq_true_iff.mp hwf
    simp only [Bool.and_eq_true, decide_eq_true_eq] at hwf
    exact reads_sc (by decide) (by decide) (by omega) (by omega) (by omega) (by omega) imm.isLt fun w hop hd ha _ _ hi _ => by
      simp only [scInstr, hop, hd, ha, hi, BitVec.ofNat_toNat, BitVec.setWidth_eq]
  | movl tid d l =>
    refine .of_spelled rfl fun hwf _ => ?_
    replace hwf := Bool.and_eq_true_iff.mp hwf
    simp only [Bool.and_eq_true, decide_eq_true_eq] at hwf
    exact reads_sc (by decide) (by decide) (by omega) (by omega) (by omega) (by omega) (by omega) fun w hop hd _ _ hx _ _ => by
      simp only [scInstr, hop, hd, fld_of_lt hx (by decide : 33 ≤ 40) (by simp [hwf])]
  | ext tid d a lane =>
    refine .of_spelled rfl fun hwf _ => ?_
    replace hwf := Bool.and_eq_true_iff.mp hwf
    simp only [Bool.and_eq_true, decide_eq_true_eq] at hwf
    exact reads_sc (by decide) (by decide) (by omega) (by omega) (by omega) (by omega) (by omega) fun w hop hd ha _ hx _ _ => by
      simp only [scInstr, hop, hd, ha, fld_of_lt hx (by decide : 39 ≤ 40) (by simp [hwf])]
  | adw tid d word a =>
    refine .of_spelled rfl fun hwf _ => ?_
    replace hwf := Bool.and_eq_true_iff.mp hwf
    simp only [Bool.and_eq_true, decide_eq_true_eq] at hwf
    exact reads_sc (by decide) (by decide) (by omega) (by omega) (by omega) (by omega) (by omega) fun w hop hd ha _ hx _ hdef => by
      simp only [scInstr, hop, (definedSC_desc hop hdef).1 (.inl rfl), (definedSC_desc hop hdef).2 (.inl rfl), hd, ha, hx]
  | adwi tid d word imm =>
    refine .of_spelled rfl fun hwf _ => ?_
    replace hwf := Bool.and_eq_true_iff.mp hwf
    simp only [Bool.and_eq_true, decide_eq_true_eq] at hwf
    exact reads_sc (by decide) (by decide) (by omega) (by omega) (by omega) (by omega) imm.isLt fun w hop hd _ _ hx hi hdef => by
      simp only [scInstr, hop, (definedSC_desc hop hdef).1 (.inr (.inl rfl)), (definedSC_desc hop hdef).2 (.inr rfl), hd, hx, hi, BitVec.ofNat_toNat, BitVec.setWidth_eq]
  | fset tid f imm =>
    refine .of_spelled rfl fun hwf _ => ?_
    replace hwf := Bool.and_eq_true_iff.mp hwf
    simp only [Bool.and_eq_true, decide_eq_true_eq] at hwf
    exact reads_sc (by decide) (by decide) (by omega) (by omega) (by omega) (by omega) (by omega) fun w hop _ _ _ hx hi _ => by
      simp only [scInstr, hop, fld_of_lt hx (by decide : 37 ≤ 40) (by simp [hwf]), fld_of_lt hi (by decide : 15 ≤ 31) imm.isLt, BitVec.ofNat_toNat, BitVec.setWidth_eq]
  | feed tid a pre =>
    refine .of_spelled rfl fun hwf _ => ?_
    replace hwf := Bool.and_eq_true_iff.mp hwf
    simp only [Bool.and_eq_true, decide_eq_true_eq] at hwf
    exact reads_sc (by decide) (by decide) (by omega) (by omega) (by omega) (by omega) (by omega) fun w hop hd _ _ hx _ hdef => by
      simp only [scInstr, hop, (definedSC_desc hop hdef).1 (.inr (.inr rfl)), hd, fld_of_lt hx (by decide : 32 ≤ 40) (by simp [hwf])]
  | vld tid u | vldx8 tid u | vldx4 tid u | sld tid u | vst tid u | sst tid u =>
    refine .of_spelled rfl fun hwf _ => ?_
    replace hwf := Bool.and_eq_true_iff.mp hwf
    simp only [Bool.and_eq_true, decide_eq_true_eq] at hwf
    exact reads_ls (u := u) (by simp [hwf]) (by decide) (by decide) (by simp [hwf]) (by simp [hwf]) (by simp [hwf]) (by simp [hwf]) (by simp [hwf]) (by simp [hwf]) (by simp [hwf]) (by simp [hwf]) (by simp [hwf]) (by simp [hwf]) (by simp [hwf])
      fun w hop hreg ha hq hp _ _ _ _ _ _ _ => by simp only [lsInstr, hop, hreg, ha, hq, hp]
  | wbf | palw =>
    refine .of_spelled rfl fun hwf _ => ?_
    replace hwf := Bool.and_eq_true_iff.mp hwf
    simp only [Bool.and_eq_true, decide_eq_true_eq] at hwf
    exact reads_ls (u := 1) (by decide) (by decide) (by decide) (by simp [hwf]) (by simp [hwf]) (by simp [hwf]) (by simp [hwf]) (by simp [hwf]) (by simp [hwf]) (by simp [hwf]) (by simp [hwf]) (by simp [hwf]) (by simp [hwf]) (by simp [hwf])
      fun w hop _ ha _ _ hwb hoff hlen hf hps hpc hpt => by simp only [lsInstr, hop, ha, hwb, hoff, hlen, hf, hps, hpc, hpt]
  | mks =>
    refine .of_spelled rfl fun hwf _ => ?_
    replace hwf := Bool.and_eq_true_iff.mp hwf
    simp only [Bool.and_eq_true, decide_eq_true_eq] at hwf
    exact reads_mxk (by decide) (by decide) (by simp [hwf]) (by simp [hwf]) (by simp [hwf]) (by simp [hwf]) (by simp [hwf]) (by simp [hwf]) (by simp [hwf]) fun w hop h1 h2 h3 h4 h5 h6 h7 => by
      simp only [mxInstr, hop, h1, h2, h3, h4, h5, h6, h7]
  | mclr | mdrn =>
    refine .of_spelled rfl fun hwf _ => ?_
    replace hwf := Bool.and_eq_true_iff.mp hwf
    simp only [Bool.and_eq_true, decide_eq_true_eq] at hwf
    exact reads_mxd (by decide) (by decide) (by simp [hwf]) (by simp [hwf]) (by simp [hwf]) (by simp [hwf]) (by simp [hwf]) fun w hop h1 h2 h3 h4 h5 => by simp only [mxInstr, hop, h1, h2, h3, h4, h5]
  | vfma tid u d a b c p ty elem delta | vmul tid u d a b p ty elem delta | vadd tid u d a b p ty elem delta | vsub tid u d a b p ty elem delta =>
    refine .of_spelled rfl fun hwf hu => ?_
    replace hwf := Bool.and_eq_true_iff.mp hwf
    simp only [Bool.and_eq_true, decide_eq_true_eq] at hwf
    replace hu := Bool.and_eq_true_iff.mp hu
    simp only [Bool.and_eq_true, decide_eq_true_eq] at hu
    obtain ⟨rfl, rfl⟩ := hu
    exact reads_vx (u := u) (by simp [hwf]) (by decide) (by decide) (by simp [hwf]) (by simp [hwf]) (by simp [hwf]) (by simp [hwf]) (by simp [hwf]) (by simp [hwf]) (by simp [hwf]) (by simp [hwf]) (by simp [hwf]) (by simp [hwf]) (by simp [hwf]) (by simp [hwf])
      (by simp [hwf]) fun w hop hd ha hb hc hp ht _ _ _ _ _ _ _ => by simp only [vxInstr, hop, hd, ha, hb, hc, hp, ht]
  | viadd tid u | visub tid u | vand tid u | vor tid u | vxor tid u | vshl tid u | vshr tid u | vsra tid u | vsel tid u | vfmax tid u | vfmin tid u | vcmp tid u | vperm tid u | vcvt tid u
  | vred tid u | vpal tid u =>
    refine .of_spelled rfl fun hwf _ => ?_
    replace hwf := Bool.and_eq_true_iff.mp hwf
    simp only [Bool.and_eq_true, decide_eq_true_eq] at hwf
    exact reads_vx (u := u) (by simp [hwf]) (by decide) (by decide) (by simp [hwf]) (by simp [hwf]) (by simp [hwf]) (by simp [hwf]) (by simp [hwf]) (by simp [hwf]) (by simp [hwf]) (by simp [hwf]) (by simp [hwf]) (by simp [hwf]) (by simp [hwf]) (by simp [hwf])
      (by simp [hwf]) fun w hop hd ha hb _ hp ht ht2 hcc hfn hq hpk hsel himm => by simp only [vxInstr, hop, hd, ha, hb, hp, ht, ht2, hcc, hfn, hq, hpk, hsel, himm]
  | vtr =>
    refine .of_spelled rfl fun hwf _ => ?_
    replace hwf := Bool.and_eq_true_iff.mp hwf
    simp only [Bool.and_eq_true, decide_eq_true_eq] at hwf
    exact reads_vx (u := 1) (by decide) (by decide) (by decide) (by simp [hwf]) (by simp [hwf]) (by simp [hwf]) (by simp [hwf]) (by simp [hwf]) (by simp [hwf]) (by simp [hwf]) (by simp [hwf]) (by simp [hwf]) (by simp [hwf]) (by simp [hwf]) (by simp [hwf])
      (by simp [hwf]) fun w hop hd ha _ _ hp _ _ _ hfn _ _ _ _ => by simp only [vxInstr, hop, hd, ha, hp, hfn]
  | xrd | xwr | xwrb | xred | xgath | xscat | xpdec | xzero =>
    refine .of_spelled rfl fun hwf _ => ?_
    replace hwf := Bool.and_eq_true_iff.mp hwf
    simp only [Bool.and_eq_true, decide_eq_true_eq] at hwf
    exact reads_xf (by decide) (by decide) (by simp [hwf]) (by simp [hwf]) (by simp [hwf]) (by simp [hwf]) (by simp [hwf]) (by simp [hwf]) (by simp [hwf]) (by omega) fun w hop hf ha hsa hsb hfmt hrop hes hlen => by
      simp only [xfInstr, hop, hf, ha, hsa, hsb, hfmt, hrop, hes, hlen]
  | _ => exact .of_not_spelled rfl

end Sys2Proof.Machine
end

section
/-!
PROOFS. Every defined syllable is spelled by the command read from it (R83, R84, R88).
-/
set_option Elab.async false
namespace Sys2Proof.Machine
open Sys2Proof

/-! ### Each defined syllable is spelled by the command read from it -/

/-- A well-formed command, read from the syllable `w` of `slot` by `read`, spells it. -/
def Spells (tid slot w : Nat) (read : Option Instr) : Prop :=
  ∃ i, read = some i ∧ i.wf = true ∧ upsetFree i = true ∧ syllableOf i = some (tid, slot, w)

theorem Spells.of_enc {tid slot w e : Nat} {i : Instr} (h : e = w) (hwf : i.wf = true) (hu : upsetFree i = true) (hi : syllableOf i = some (tid, slot, e)) : Spells tid slot w (some i) :=
  ⟨i, rfl, hwf, hu, by rw [hi, h]⟩

section
variable {tid w : Nat} (htid : tid < 576) (hw : w < 2 ^ 64)
include htid hw

theorem spells_ct (hd : definedCT w = true) : Spells tid 0 w (ctInstr tid w) := by
  unfold definedCT at hd
  split at hd
  case h_14 => exact absurd hd Bool.false_ne_true
  all_goals rename_i hop
  all_goals simp only [ctInstr, hop]
  case h_1 | h_2 | h_3 | h_4 | h_5 | h_6 | h_7 | h_8 =>
    have spelled := encCTB_self hw (fld_of_onlyIn hd (by decide) (by decide))
    simp (disch := decide) only [hop, fld_of_onlyIn hd] at spelled
    exact .of_enc spelled (by change (_ && _) = true; simp (disch := decide) only [fld_lt_of, htid, decide_true, Bool.and_true]) rfl rfl
  case h_13 =>
    have spelled := encCTW_self hw (fld_of_onlyIn hd (by decide) (by decide))
    simp (disch := decide) only [hop, fld_of_onlyIn hd] at spelled
    exact .of_enc spelled (decide_eq_true htid) rfl rfl
  all_goals
    have spelled := encCTW_self hw (fld_of_onlyIn hd (by decide) (by decide))
    simp (disch := decide) only [hop, fld_of_onlyIn hd] at spelled
    exact .of_enc spelled (by change (_ && _) = true; simp (disch := decide) only [fld_lt_of, htid, decide_true, Bool.and_true]) rfl rfl

theorem spells_sc_registers (hops : 1 ≤ opOf w ∧ opOf w ≤ 0x0B ∨ opOf w = 0x10) (hd : onlyIn w (fmask 55 51 + fmask 50 46 + fmask 45 41) = true) : Spells tid 1 w (scInstr tid w) := by
  have spelled := encSC_self hw
  simp (disch := decide) only [fld_of_onlyIn hd] at spelled
  obtain ⟨low, high⟩ | hop := hops
  · have listed : opOf w = 1 ∨ opOf w = 2 ∨ opOf w = 3 ∨ opOf w = 4 ∨ opOf w = 5 ∨ opOf w = 6 ∨ opOf w = 7 ∨ opOf w = 8 ∨ opOf w = 9 ∨ opOf w = 10 ∨ opOf w = 11 := by omega
    rcases listed with hop | hop | hop | hop | hop | hop | hop | hop | hop | hop | hop
    all_goals
      rw [hop] at spelled
      simp only [scInstr, hop]
      exact .of_enc spelled (by change (_ && _) = true; simp (disch := decide) only [fld_lt_of, htid, decide_true, Bool.and_true]) rfl rfl
  · rw [hop] at spelled
    simp only [scInstr, hop]
    exact .of_enc spelled (by change (_ && _) = true; simp (disch := decide) only [fld_lt_of, htid, decide_true, Bool.and_true]) rfl rfl

theorem spells_sc (hd : definedSC w = true) : Spells tid 1 w (scInstr tid w) := by
  have imm32 : fld w 31 0 = (BitVec.ofNat 32 (fld w 31 0)).toNat := by rw [BitVec.toNat_ofNat, Nat.mod_eq_of_lt (fld_lt_of (by decide))]
  have desc := fun op (hop : opOf w = op) => definedSC_desc hop hd
  unfold definedSC at hd
  dsimp only at hd
  split at hd
  next hops => exact spells_sc_registers htid hw (by simpa only [Bool.or_eq_true, Bool.and_eq_true, decide_eq_true_eq, beq_iff_eq] using hops) hd
  next =>
  split at hd
  case h_10 => exact absurd hd Bool.false_ne_true
  all_goals rename_i hop
  all_goals have spelled := encSC_self hw
  all_goals simp only [scInstr, hop]
  case h_1 | h_2 =>
    simp (disch := decide) only [hop, fld_of_onlyIn hd] at spelled
    rw [imm32] at spelled
    exact .of_enc spelled (by change (_ && _) = true; simp (disch := decide) only [fld_lt_of, htid, decide_true, Bool.and_true]) rfl rfl
  case h_3 =>
    rw [← fld_narrow (hi := 40) (top := 33) hd (by decide) (by decide) (by decide) (by decide)] at spelled
    simp (disch := decide) only [hop, fld_of_onlyIn hd] at spelled
    exact .of_enc spelled (by change (_ && _) = true; simp (disch := decide) only [fld_lt_of, htid, decide_true, Bool.and_true]) rfl rfl
  case h_4 =>
    simp (disch := decide) only [hop, fld_of_onlyIn hd] at spelled
    exact .of_enc spelled (by change (_ && _) = true; simp (disch := decide) only [fld_lt_of, htid, decide_true, Bool.and_true]) rfl rfl
  case h_5 =>
    rw [← fld_narrow (hi := 40) (top := 39) hd (by decide) (by decide) (by decide) (by decide)] at spelled
    simp (disch := decide) only [hop, fld_of_onlyIn hd] at spelled
    exact .of_enc spelled (by change (_ && _) = true; simp (disch := decide) only [fld_lt_of, htid, decide_true, Bool.and_true]) rfl rfl
  case h_6 =>
    obtain ⟨hm, _⟩ := (Bool.and_eq_true _ _).mp hd
    obtain ⟨narrowD, narrowWord⟩ := desc _ hop
    rw [← narrowD (.inl rfl), ← narrowWord (.inl rfl)] at spelled
    simp (disch := decide) only [hop, fld_of_onlyIn hm] at spelled
    exact .of_enc spelled (by change (_ && _) = true; simp (disch := decide) only [fld_lt_of, htid, decide_true, Bool.and_true]) rfl rfl
  case h_7 =>
    obtain ⟨hm, _⟩ := (Bool.and_eq_true _ _).mp hd
    obtain ⟨narrowD, narrowWord⟩ := desc _ hop
    rw [← narrowD (.inr (.inl rfl)), ← narrowWord (.inr rfl), imm32] at spelled
    simp (disch := decide) only [hop, fld_of_onlyIn hm] at spelled
    exact .of_enc spelled (by change (_ && _) = true; simp (disch := decide) only [fld_lt_of, htid, decide_true, Bool.and_true]) rfl rfl
  case h_8 =>
    have imm16 : fld w 31 0 = (BitVec.ofNat 16 (fld w 15 0)).toNat := by
      rw [BitVec.toNat_ofNat, Nat.mod_eq_of_lt (fld_lt_of (by decide)), ← fld_narrow (top := 15) hd (by decide) (by decide) (by decide) (by decide)]
    rw [imm16, ← fld_narrow (hi := 40) (top := 37) hd (by decide) (by decide) (by decide) (by decide)] at spelled
    simp (disch := decide) only [hop, fld_of_onlyIn hd] at spelled
    exact .of_enc spelled (by change (_ && _) = true; simp (disch := decide) only [fld_lt_of, htid, decide_true, Bool.and_true]) rfl rfl
  case h_9 =>
    obtain ⟨narrowD, _⟩ := desc _ hop
    rw [← narrowD (.inr (.inr rfl)), ← fld_narrow (hi := 40) (top := 32) hd (by decide) (by decide) (by decide) (by decide)] at spelled
    simp (disch := decide) only [hop, fld_of_onlyIn hd] at spelled
    exact .of_enc spelled (by change (_ && _) = true; simp (disch := decide) only [fld_lt_of, htid, decide_true, Bool.and_true]) rfl rfl

theorem spells_ls {u : Nat} (hu : u < 2) (hd : definedLS (u + 2) w = true) : Spells tid (u + 2) w (lsInstr tid u w) := by
  unfold definedLS at hd
  split at hd
  case h_9 => exact absurd hd Bool.false_ne_true
  all_goals rename_i hop
  all_goals simp only [lsInstr, hop]
  case h_7 | h_8 =>
    simp only [Bool.and_eq_true, beq_iff_eq, and_assoc] at hd
    obtain ⟨hslot, hm, _⟩ := hd
    obtain rfl : u = 1 := by omega
    have spelled := encLS_self hw (fld_of_onlyIn hm (by decide) (by decide))
    simp (disch := decide) only [hop, fld_of_onlyIn hm] at spelled
    exact .of_enc spelled (by change (_ && _) = true; simp (disch := decide) only [fld_lt_of, htid, decide_true, Bool.and_true]) rfl rfl
  all_goals
    have spelled := encLS_self hw (fld_of_onlyIn hd (by decide) (by decide))
    simp (disch := decide) only [hop, fld_of_onlyIn hd] at spelled
    exact .of_enc spelled (by change (_ && _) = true; simp (disch := decide) only [fld_lt_of, htid, hu, decide_true, Bool.and_true]) rfl rfl

theorem spells_mx (hd : definedMX w = true) : Spells tid 4 w (mxInstr tid w) := by
  unfold definedMX at hd
  split at hd
  case h_4 => exact absurd hd Bool.false_ne_true
  all_goals rename_i hop
  all_goals simp only [mxInstr, hop]
  case h_1 =>
    obtain ⟨hm, _⟩ := (Bool.and_eq_true _ _).mp hd
    have spelled := encMXK_self hw (fld_of_onlyIn hm (by decide) (by decide))
    rw [hop] at spelled
    exact .of_enc spelled (by change (_ && _) = true; simp (disch := decide) only [fld_lt_of, htid, decide_true, Bool.and_true]) rfl rfl
  case h_2 =>
    have spelled := encMXD_self hw (fld_of_onlyIn hd (by decide) (by decide))
    simp (disch := decide) only [hop, fld_of_onlyIn hd] at spelled
    exact .of_enc spelled (by change (_ && _) = true; simp (disch := decide) only [fld_lt_of, htid, decide_true, Bool.and_true]) rfl rfl
  case h_3 =>
    obtain ⟨hm, _⟩ := (Bool.and_eq_true _ _).mp hd
    have spelled := encMXD_self hw (fld_of_onlyIn hm (by decide) (by decide))
    rw [hop] at spelled
    exact .of_enc spelled (by change (_ && _) = true; simp (disch := decide) only [fld_lt_of, htid, decide_true, Bool.and_true]) rfl rfl

theorem spells_xf (hd : definedXF w = true) : Spells tid 7 w (xfInstr tid w) := by
  unfold definedXF at hd
  dsimp only at hd
  obtain ⟨_, hd⟩ := (Bool.and_eq_true _ _).mp hd
  split at hd
  case h_9 => exact absurd hd Bool.false_ne_true
  all_goals rename_i hop
  all_goals simp only [xfInstr, hop]
  case h_1 | h_2 | h_3 | h_8 =>
    have spelled := encXF_self hw (fld_of_onlyIn hd (by decide) (by decide))
    simp (disch := decide) only [hop, fld_of_onlyIn hd] at spelled
    exact .of_enc spelled (by change (_ && _) = true; simp (disch := decide) only [fld_lt_of, htid, decide_true, Bool.and_true]) rfl rfl
  all_goals
    simp only [Bool.and_eq_true, and_assoc] at hd
    obtain ⟨hm, _⟩ := hd
    have spelled := encXF_self hw (fld_of_onlyIn hm (by decide) (by decide))
    simp (disch := decide) only [hop, fld_of_onlyIn hm] at spelled
    exact .of_enc spelled (by change (_ && _) = true; simp (disch := decide) only [fld_lt_of, htid, decide_true, Bool.and_true]) rfl rfl

theorem spells_vx {u : Nat} (hu : u < 2) (hd : definedVX (u + 5) w = true) : Spells tid (u + 5) w (vxInstr tid u w) := by
  unfold definedVX at hd
  dsimp only at hd
  split at hd
  next hop =>
    obtain ⟨hm, _⟩ := (Bool.and_eq_true _ _).mp hd
    simp only [vxInstr, hop]
    have spelled := encVX_self hw (fld_of_onlyIn hm (by decide) (by decide))
    simp (disch := decide) only [hop, fld_of_onlyIn hm] at spelled
    exact .of_enc spelled (by change (_ && _) = true; simp (disch := decide) only [fld_lt_of, htid, hu, decide_true, Bool.and_true, (by decide : 0 < 4096)]) rfl rfl
  next =>
  split at hd
  next range =>
    obtain ⟨low, high⟩ := range
    obtain ⟨hm, _⟩ := (Bool.and_eq_true _ _).mp hd
    have spelled := encVX_self hw (fld_of_onlyIn hm (by decide) (by decide))
    have listed : opOf w = 2 ∨ opOf w = 3 ∨ opOf w = 4 := by omega
    rcases listed with hop | hop | hop
    all_goals
      rw [hop] at spelled
      simp only [vxInstr, hop]
      simp (disch := decide) only [fld_of_onlyIn hm] at spelled
      exact .of_enc spelled (by change (_ && _) = true; simp (disch := decide) only [fld_lt_of, htid, hu, decide_true, Bool.and_true, (by decide : 0 < 4096)]) rfl rfl
  next =>
  split at hd
  next range =>
    obtain ⟨low, high⟩ := range
    obtain ⟨hm, hty⟩ := (Bool.and_eq_true _ _).mp hd
    have spelled := encVX_self hw (fld_of_onlyIn hm (by decide) (by decide))
    rw [beq_iff_eq.mp hty] at spelled
    have listed : opOf w = 8 ∨ opOf w = 9 ∨ opOf w = 10 ∨ opOf w = 11 ∨ opOf w = 12 ∨ opOf w = 13 ∨ opOf w = 14 ∨ opOf w = 15 := by omega
    rcases listed with hop | hop | hop | hop | hop | hop | hop | hop
    all_goals
      rw [hop] at spelled
      simp only [vxInstr, hop]
      simp (disch := decide) only [fld_of_onlyIn hm] at spelled
      exact .of_enc spelled (by change (_ && _) = true; simp (disch := decide) only [fld_lt_of, htid, hu, decide_true, Bool.and_true]) rfl rfl
  next =>
  split at hd
  case h_10 => exact absurd hd Bool.false_ne_true
  all_goals rename_i hop
  all_goals simp only [vxInstr, hop]
  case h_1 | h_5 | h_8 =>
    have spelled := encVX_self hw (fld_of_onlyIn hd (by decide) (by decide))
    simp (disch := decide) only [hop, fld_of_onlyIn hd] at spelled
    exact .of_enc spelled (by change (_ && _) = true; simp (disch := decide) only [fld_lt_of, htid, hu, decide_true, Bool.and_true]) rfl rfl
  case h_9 =>
    simp only [Bool.and_eq_true, beq_iff_eq, and_assoc] at hd
    obtain ⟨hslot, hm, _⟩ := hd
    obtain rfl : u = 1 := by omega
    have spelled := encVX_self hw (fld_of_onlyIn hm (by decide) (by decide))
    simp (disch := decide) only [hop, fld_of_onlyIn hm] at spelled
    exact .of_enc spelled (by change (_ && _) = true; simp (disch := decide) only [fld_lt_of, htid, decide_true, Bool.and_true]) rfl rfl
  all_goals
    simp only [Bool.and_eq_true, and_assoc] at hd
    obtain ⟨hm, _⟩ := hd
    have spelled := encVX_self hw (fld_of_onlyIn hm (by decide) (by decide))
    simp (disch := decide) only [hop, fld_of_onlyIn hm] at spelled
    exact .of_enc spelled (by change (_ && _) = true; simp (disch := decide) only [fld_lt_of, htid, hu, decide_true, Bool.and_true]) rfl rfl

end

/-- Every defined syllable of a slot is spelled by the command that the slot reads from it. -/
theorem spells_of_defined {tid slot w : Nat} (htid : tid < 576) (hslot : slot < 8) (hw : w < 2 ^ 64) (hd : sylDefined slot w = true) : Spells tid slot w (syllableInstr tid slot w) := by
  by_cases h0 : w = 0
  · subst h0
    have read : syllableInstr tid slot 0 = some (.nop tid slot) := by unfold syllableInstr; rw [hd]; rfl
    rw [read]
    exact .of_enc rfl (by change (_ && _) = true; simp only [htid, hslot, decide_true, Bool.and_true]) rfl rfl
  · have defined := hd
    unfold sylDefined at defined
    rw [if_neg h0] at defined
    have listed : slot = 0 ∨ slot = 1 ∨ slot = 2 ∨ slot = 3 ∨ slot = 4 ∨ slot = 5 ∨ slot = 6 ∨ slot = 7 := by omega
    rcases listed with rfl | rfl | rfl | rfl | rfl | rfl | rfl | rfl
    · exact syllableInstr_ct h0 hd ▸ spells_ct htid hw defined
    · exact syllableInstr_sc h0 hd ▸ spells_sc htid hw defined
    · exact syllableInstr_ls h0 (u := 0) (by decide) hd ▸ spells_ls htid hw (u := 0) (by decide) defined
    · exact syllableInstr_ls h0 (u := 1) (by decide) hd ▸ spells_ls htid hw (u := 1) (by decide) defined
    · exact syllableInstr_mx h0 hd ▸ spells_mx htid hw defined
    · exact syllableInstr_vx h0 (u := 0) (by decide) hd ▸ spells_vx htid hw (u := 0) (by decide) defined
    · exact syllableInstr_vx h0 (u := 1) (by decide) hd ▸ spells_vx htid hw (u := 1) (by decide) defined
    · exact syllableInstr_xf h0 hd ▸ spells_xf htid hw defined

end Sys2Proof.Machine

namespace Sys2Proof.Safety
open Sys2Proof Sys2Proof.Machine

/-- Settles O20: the fields of each format read back and spell its syllables, and the test for undefined syllables leaves exactly the unused fields zero. -/
theorem syllablesAndCommandsAgree : Obligations.SyllablesAndCommandsAgree :=
  ⟨fun _ tid slot w hwf hu h => readsBack hwf hu tid slot w h, fun _ _ _ htid hslot hw hd => spells_of_defined htid hslot hw hd⟩

end Sys2Proof.Safety
end

section
/-!
PROOFS. The control period (R369, R370, R378): its steps after the measurement leave what was read, and each run fraction is within the allotment and its regulator's limit.
-/
set_option Elab.async false
namespace Sys2Proof.Machine

/-! ### What the steps of a control period leave alone -/

/-- From `s` to `u` the times, the caps found at the period's start, the holder's settings and lake memory stand. -/
structure State.SamePeriod (s u : State) : Prop where
  periodAt : u.pw.periodAt = s.pw.periodAt
  hwFreeze : u.pw.hwFreeze = s.pw.hwFreeze
  overAt : u.pw.overAt = s.pw.overAt
  capHostWas : u.pw.capHostWas = s.pw.capHostWas
  capMgrWas : u.pw.capMgrWas = s.pw.capMgrWas
  time : u.time = s.time
  mgmt : u.m = s.m
  lakeMem : u.lake.mem = s.lake.mem

/-- From `s` to `u` the readings of the period stand. -/
structure State.SameReadings (s u : State) : Prop where
  est : u.pw.est = s.pw.est
  chipLimit : u.pw.chipLimit = s.pw.chipLimit
  dieTemp : u.pw.dieTemp = s.pw.dieTemp
  net : u.net = s.net

/-- From `s` to `u` both stand. -/
def State.Measured (s u : State) : Prop := s.SamePeriod u ∧ s.SameReadings u

namespace State
variable {s u v : State}

theorem SamePeriod.refl : s.SamePeriod s := ⟨rfl, rfl, rfl, rfl, rfl, rfl, rfl, rfl⟩

theorem SamePeriod.trans (h : s.SamePeriod u) (k : u.SamePeriod v) : s.SamePeriod v :=
  ⟨k.periodAt.trans h.periodAt, k.hwFreeze.trans h.hwFreeze, k.overAt.trans h.overAt, k.capHostWas.trans h.capHostWas, k.capMgrWas.trans h.capMgrWas, k.time.trans h.time,
    k.mgmt.trans h.mgmt, k.lakeMem.trans h.lakeMem⟩

theorem SameReadings.trans (h : s.SameReadings u) (k : u.SameReadings v) : s.SameReadings v :=
  ⟨k.est.trans h.est, k.chipLimit.trans h.chipLimit, k.dieTemp.trans h.dieTemp, k.net.trans h.net⟩

namespace Measured

theorem refl : s.Measured s := ⟨.refl, rfl, rfl, rfl, rfl⟩

theorem trans (h : s.Measured u) (k : u.Measured v) : s.Measured v := ⟨h.1.trans k.1, h.2.trans k.2⟩

theorem ite {c : Prop} [Decidable c] {a b : State} (h : s.Measured a) (k : s.Measured b) : s.Measured (if c then a else b) := by
  split
  · exact h
  · exact k

theorem recordFault {bit stepId location detail : Nat} {kills : Bool} : s.Measured (s.recordFault bit kills stepId location detail) := by
  have changes : Laws.Changes [.context, .faults, .logs] s (s.recordFault bit kills stepId location detail) := .recordFault
  have power := changes.same .power (by simp)
  have time := changes.same .time (by simp)
  have mgmt := changes.same .mgmt (by simp)
  have lake := changes.same .lake (by simp)
  have net := changes.same .net (by simp)
  simp only [Safety.Part.same] at power time mgmt lake net
  exact ⟨⟨by rw [power], by rw [power], by rw [power], by rw [power], by rw [power], time.symm, mgmt.symm, by rw [lake]⟩,
    ⟨by rw [power], by rw [power], by rw [power], net.symm⟩⟩

theorem setSuspect {b : Bool} : s.Measured (s.setSuspect b) := by
  have marked {p : Power} (hp : p = { s.pw with winBad := true, clearN := 0 } ∨ p = { s.pw with winBad := true, clearN := 0, suspect := true }) : s.Measured { s with pw := p } := by
    rcases hp with rfl | rfl <;> exact ⟨⟨rfl, rfl, rfl, rfl, rfl, rfl, rfl, rfl⟩, rfl, rfl, rfl, rfl⟩
  unfold State.setSuspect
  exact ite (ite (trans (marked (.inl rfl)) recordFault) (marked (.inl rfl)))
    (ite (trans (trans (marked (.inr rfl)) recordFault) recordFault) (trans (marked (.inr rfl)) recordFault))

/-- A step that writes other figures of the power manager keeps these. -/
theorem power {p : Power} (h1 : p.periodAt = s.pw.periodAt) (h2 : p.hwFreeze = s.pw.hwFreeze) (h3 : p.overAt = s.pw.overAt) (h4 : p.capHostWas = s.pw.capHostWas)
    (h5 : p.capMgrWas = s.pw.capMgrWas) (h6 : p.est = s.pw.est) (h7 : p.chipLimit = s.pw.chipLimit) (h8 : p.dieTemp = s.pw.dieTemp) : s.Measured { s with pw := p } :=
  ⟨⟨h1, h2, h3, h4, h5, rfl, rfl, rfl⟩, h6, h7, h8, rfl⟩

theorem setCapHw {n : Nat} : s.Measured (s.setCapHw n) := by
  unfold State.setCapHw
  exact ite refl ⟨⟨rfl, rfl, rfl, rfl, rfl, rfl, rfl, rfl⟩, rfl, rfl, rfl, rfl⟩

theorem capBoundary : s.Measured s.capBoundary := by
  have set {n : Nat} {r : Option Nat} {b : Bool} : s.Measured { s.setCapHw n with pw := { (s.setCapHw n).pw with rampAt := r, rampLow := b } } :=
    trans setCapHw (power rfl rfl rfl rfl rfl rfl rfl rfl)
  unfold State.capBoundary
  refine ite set ?_
  split
  · exact setCapHw
  · exact ite (trans setCapHw (power rfl rfl rfl rfl rfl rfl rfl rfl)) (ite set refl)

theorem sprintTick : s.Measured s.sprintTick := by
  unfold State.sprintTick
  exact ite (power rfl rfl rfl rfl rfl rfl rfl rfl) refl

theorem endSprint : s.Measured s.endSprint := by
  unfold State.endSprint
  exact ite (trans sprintTick (power rfl rfl rfl rfl rfl rfl rfl rfl)) refl

theorem sprint {want : Bool} : s.Measured (s.sprint want) := by
  have ticked {l : Option Nat} : s.Measured { s.sprintTick with pw := { s.sprintTick.pw with sprintLow := l } } := trans sprintTick (power rfl rfl rfl rfl rfl rfl rfl rfl)
  unfold State.sprint
  extract_lets p
  split
  · exact ite (power rfl rfl rfl rfl rfl rfl rfl rfl) refl
  · exact ite (trans ticked endSprint) ticked

theorem terms : s.Measured s.terms := power rfl rfl rfl rfl rfl rfl rfl rfl

theorem setStackTemps {l : List Nat} {f : Nat → Nat} : s.Measured (l.foldl (fun (u : State) k => u.setStackTemp k (f k)) s) := by
  induction l generalizing s with
  | nil => exact refl
  | cons k r ih =>
    have first : s.Measured (s.setStackTemp k (f k)) := ⟨⟨rfl, rfl, rfl, rfl, rfl, rfl, rfl, rfl⟩, rfl, rfl, rfl, rfl⟩
    exact trans first ih

theorem thermal {ts : List (Nat × Nat)} : s.Measured (s.thermal ts) := by
  obtain ⟨⟨_, _, _, _, _, time, mgmt, lakeMem⟩, _, _, _, net⟩ :=
    setStackTemps (s := s) (l := List.range 8) (f := fun k => max (ts.getD (76 + k) (0, 0)).1 (ts.getD (76 + k) (0, 0)).2)
  exact ⟨⟨rfl, rfl, rfl, rfl, rfl, time, mgmt, lakeMem⟩, rfl, rfl, rfl, net⟩

end Measured

theorem setSuspect_pw (s : State) (b : Bool) : ∃ x y z, (s.setSuspect b).pw = { s.pw with winBad := x, clearN := y, suspect := z } := by
  have recorded (u : State) (bit : Nat) : (u.recordFault bit false 0xFFFF 0 0).pw = u.pw :=
    ((Laws.Changes.recordFault (s := u) (bit := bit) (kills := false) (stepId := 0xFFFF) (location := 0) (detail := 0)).same .power (by simp)).symm
  unfold State.setSuspect
  dsimp only
  split
  · split
    · exact ⟨_, _, _, recorded _ _⟩
    · exact ⟨_, _, _, rfl⟩
  · split
    · exact ⟨_, _, _, (recorded _ _).trans (recorded _ _)⟩
    · exact ⟨_, _, _, recorded _ _⟩

/-- The measurement of a period: E, and the limit of the stage-1 chiplets at the voltages read (R370, R386). -/
theorem measure_spec (s : State) (a b va vb : Nat) :
    s.SamePeriod (s.measure a b va vb) ∧ (s.measure a b va vb).pw.est = s.estimate ∧ (s.measure a b va vb).pw.chipLimit = 300000 * 20 / (va + vb) ∧
      (s.measure a b va vb).pw.dieTemp = s.pw.dieTemp := by
  unfold State.measure
  extract_lets a1 b1 agree m e since _ s1 s2 s3
  have written : s.SamePeriod s1 ∧ s1.pw.est = s.estimate ∧ s1.pw.chipLimit = 300000 * 20 / (va + vb) ∧ s1.pw.dieTemp = s.pw.dieTemp :=
    ⟨⟨rfl, rfl, rfl, rfl, rfl, rfl, rfl, rfl⟩, rfl, rfl, rfl⟩
  clear_value s1
  have implausible : s1.Measured s2 := .ite .setSuspect .refl
  have disagreed : s2.Measured s3 := by
    dsimp only [s3]
    clear_value since
    split
    · exact .ite .setSuspect .refl
    · exact .refl
  have suspected := implausible.trans disagreed
  clear_value s3
  obtain ⟨samePeriod, est, chipLimit, dieTemp⟩ := written
  obtain ⟨later, later_est, later_chip, later_temp, _⟩ := suspected
  exact ⟨samePeriod.trans (later.trans ⟨rfl, rfl, rfl, rfl, rfl, rfl, rfl, rfl⟩), later_est.trans est, later_chip.trans chipLimit, later_temp.trans dieTemp⟩

/-! ### The end of a period -/

theorem setFrozen_pw (s : State) (d : Nat) (b : Bool) : ∃ f, (s.setFrozen d b).pw = { s.pw with frozenAt := f } := by
  unfold State.setFrozen
  split
  · exact ⟨_, rfl⟩
  · split <;> exact ⟨_, rfl⟩

theorem applyDuties_pw (l : List Nat) : ∀ s : State, ∃ f, (l.foldl State.applyDuty s).pw = { s.pw with frozenAt := f } := by
  induction l with
  | nil => exact fun s => ⟨_, rfl⟩
  | cons d r ih =>
    intro s
    obtain ⟨f, first⟩ := setFrozen_pw s d (s.pw.hwFreeze.contains d || dutyFrozen (s.pw.run.getD d 16) d s.time.now)
    obtain ⟨g, rest⟩ := ih (s.applyDuty d)
    exact ⟨g, by rw [List.foldl_cons, rest, State.applyDuty, first]⟩

end State

/-! ### Run fractions (R366, R368, R378) -/

theorem allot_le (limit : Nat) (dem : List Nat) : allot limit dem ≤ 16 := by
  unfold allot
  extract_lets used budget n core fixed
  have hn : n ≤ 16 := by
    dsimp only [n]
    split
    · exact Nat.zero_le _
    · split
      · exact Nat.le_refl _
      · exact Nat.min_le_left _ _
  split
  · exact hn
  · exact Nat.le_trans (Nat.min_le_left _ _) hn

theorem allot_core (limit : Nat) (dem : List Nat) : allot limit dem * (demand dem 5 + demand dem 6 + demand dem 7 + demand dem 8) ≤
    16 * (3200 - (demand dem 9 + demand dem 10 + demand dem 11 + demand dem 12 + demand dem 13 + demand dem 14)) := by
  unfold allot
  extract_lets used budget n core fixed
  change _ * core ≤ 16 * (3200 - fixed)
  split
  · next h0 => rw [h0, Nat.mul_zero]; exact Nat.zero_le _
  · exact Nat.le_trans (Nat.mul_le_mul_right _ (Nat.min_le_right _ _)) (Nat.div_mul_le_self _ _)

/-- A fraction is the safe one, none, or within the allotment and the regulator's limit. -/
theorem Power.fraction_cases (p : Power) (dem : List Nat) (alloc d : Nat) :
    (p.safeCap = true ∧ p.fraction dem alloc d = 4) ∨ p.fraction dem alloc d = 0 ∨ p.fraction dem alloc d ≤ alloc ∧ p.fraction dem alloc d ≤ p.phaseLimit dem d := by
  have rest {c : Prop} [Decidable c] {m : Nat} : (if c then 0 else min (min alloc m) (p.phaseLimit dem d)) = 0 ∨
      (if c then 0 else min (min alloc m) (p.phaseLimit dem d)) ≤ alloc ∧ (if c then 0 else min (min alloc m) (p.phaseLimit dem d)) ≤ p.phaseLimit dem d := by
    split
    · exact .inl rfl
    · exact .inr ⟨Nat.le_trans (Nat.min_le_left _ _) (Nat.min_le_left _ _), Nat.min_le_right _ _⟩
  unfold Power.fraction
  split
  · next h => exact .inl ⟨h, rfl⟩
  · refine .inr ?_
    split
    · exact .inl rfl
    · exact rest

theorem Power.fraction_le (p : Power) (limit : Nat) (dem : List Nat) (d : Nat) : p.fraction dem (allot limit dem) d ≤ 16 := by
  rcases p.fraction_cases dem (allot limit dem) d with ⟨_, h⟩ | h | ⟨h, _⟩
  · rw [h]; decide
  · rw [h]; decide
  · exact Nat.le_trans h (allot_le limit dem)

theorem Power.fraction_rated (p : Power) (dem : List Nat) (alloc d : Nat) (hs : p.safeCap = false) :
    p.fraction dem alloc d * demand dem (5 + d) ≤ 16 * (p.rated d - demand dem (11 + d)) := by
  rcases p.fraction_cases dem alloc d with ⟨h, _⟩ | h | ⟨_, h⟩
  · exact absurd (hs.symm.trans h) Bool.false_ne_true
  · rw [h, Nat.zero_mul]; exact Nat.zero_le _
  · refine Nat.le_trans (Nat.mul_le_mul_right _ h) ?_
    unfold Power.phaseLimit
    split
    · next h0 => rw [h0, Nat.mul_zero]; exact Nat.zero_le _
    · exact Nat.div_mul_le_self _ _

/-! ### The control period -/

/-- P has been above the limit for 10 ms less one period at a time (R370). -/
def overLate (since : Option Nat) (now : Nat) : Bool :=
  match since with
  | some a => decide (a + 9900 * us ≤ now)
  | none => false

namespace State

theorem holdTo_eq (s : State) (limit : Nat) (since : Option Nat) :
    s.holdTo limit since = if overLate since s.time.now then 0 else limit - (s.pw.winP + s.pw.p - (s.pw.winL + limit)) := by
  cases since <;> rfl

/-- What a control period has found and set when its limit and fractions are due. -/
def periodReady (s : State) (a b va vb : Nat) (ts : List (Nat × Nat)) (dem : List Nat) : State :=
  ((((((s.periodBegin.passCode).sense ts).measure a b va vb).clearCounts).thermal ts).terms).capBoundary.sprint
    (decide (2800 * demand dem 0 < (demand dem 1 + demand dem 2 + demand dem 3 + demand dem 4) * 1000))

theorem passCode_eq (s : State) : ∃ f, s.passCode = { s with fw := f } := by
  unfold State.passCode
  split <;> exact ⟨_, rfl⟩

theorem periodReady_spec (s : State) (a b va vb : Nat) (ts : List (Nat × Nat)) (dem : List Nat) :
    s.periodBegin.SamePeriod (s.periodReady a b va vb ts dem) ∧ (s.periodReady a b va vb ts dem).pw.est = (s.sense ts).estimate ∧
      (s.periodReady a b va vb ts dem).pw.chipLimit = 300000 * 20 / (va + vb) ∧ (s.periodReady a b va vb ts dem).pw.dieTemp = (s.sense ts).pw.dieTemp ∧
      (s.periodReady a b va vb ts dem).net.flits = 0 := by
  obtain ⟨f, passed⟩ := passCode_eq s.periodBegin
  unfold periodReady
  rw [passed]
  have begun : s.periodBegin.SamePeriod (({ s.periodBegin with fw := f } : State).sense ts) := ⟨rfl, rfl, rfl, rfl, rfl, rfl, rfl, rfl⟩
  have sensed : (({ s.periodBegin with fw := f } : State).sense ts).estimate = (s.sense ts).estimate := rfl
  have temps : (({ s.periodBegin with fw := f } : State).sense ts).pw.dieTemp = (s.sense ts).pw.dieTemp := rfl
  generalize (({ s.periodBegin with fw := f } : State).sense ts) = s1 at *
  obtain ⟨period, est, chipLimit, dieTemp⟩ := measure_spec s1 a b va vb
  generalize s1.measure a b va vb = s2 at *
  have cleared : s2.SamePeriod s2.clearCounts ∧ s2.clearCounts.pw.est = s2.pw.est ∧ s2.clearCounts.pw.chipLimit = s2.pw.chipLimit ∧
      s2.clearCounts.pw.dieTemp = s2.pw.dieTemp ∧ s2.clearCounts.net.flits = 0 := ⟨⟨rfl, rfl, rfl, rfl, rfl, rfl, rfl, rfl⟩, rfl, rfl, rfl, rfl⟩
  obtain ⟨clearPeriod, clearEst, clearChip, clearTemp, flits⟩ := cleared
  generalize s2.clearCounts = s3 at *
  generalize (decide (2800 * demand dem 0 < (demand dem 1 + demand dem 2 + demand dem 3 + demand dem 4) * 1000)) = want
  have found : s3.Measured (((s3.thermal ts).terms).capBoundary.sprint want) := Measured.thermal.trans (Measured.terms.trans (Measured.capBoundary.trans Measured.sprint))
  obtain ⟨later, later_est, later_chip, later_temp, later_net⟩ := found
  exact ⟨begun.trans (period.trans (clearPeriod.trans later)), later_est.trans (clearEst.trans (est.trans sensed)), later_chip.trans (clearChip.trans chipLimit),
    later_temp.trans (clearTemp.trans (dieTemp.trans temps)), (congrArg Net.flits later_net).trans flits⟩

end State

end Sys2Proof.Machine

namespace Sys2Proof.Safety
open Sys2Proof Sys2Proof.Machine

section
variable {s : State} {a b va vb d t : Nat} {ts : List (Nat × Nat)} {dem : List Nat}

/-- What a period does once its limit and fractions are set: it gates and wakes rows and freezes dies. -/
theorem dutiesApplied {s4 u : State} (h : Laws.Changes [.rows] s4 u) :
    (∃ f, (allDies.foldl State.applyDuty u).pw = { s4.pw with frozenAt := f }) ∧ Laws.Changes [.rows, .seq, .dieFrozen, .power] s4 (allDies.foldl State.applyDuty u) := by
  have kept : s4.pw = u.pw := h.same .power (by simp)
  obtain ⟨f, hf⟩ := State.applyDuties_pw allDies u
  exact ⟨⟨f, by rw [hf, kept]⟩, .step h <| .foldl fun _ _ => .of .applyDuty⟩

theorem exec_controlPeriod (hdue : (s.advance t).pw.periodAt + 100 * us ≤ (s.advance t).time.now) (hrun : (s.advance t).pkg.watchStall = false) :
    ∃ u, exec (.controlPeriod a b va vb ts dem t) s = .next (allDies.foldl State.applyDuty u) ∧
      Laws.Changes [.rows] (((s.advance t).periodReady a b va vb ts dem).periodSet (s.advance t).pw dem) u := by
  refine ⟨_, (if_neg (Nat.not_lt.mpr hdue)).trans (if_neg (by rw [hrun]; exact Bool.false_ne_true)), ?_⟩
  exact (Laws.Changes.foldl fun _ _ => .gateRow).trans .wakeRows

theorem controlPeriod_running (hdue : (s.advance t).pw.periodAt + 100 * us ≤ (s.advance t).time.now) (hrun : (s.advance t).pkg.watchStall = false) :
    ∃ u, exec (.controlPeriod a b va vb ts dem t) s = .next u ∧
      u.pw.periodAt = (s.advance t).time.now ∧ u.pw.hwFreeze = [] ∧
      u.pw.limit = (if u.pw.sprintAt.isSome then 3400 else min u.m.capHost (min u.m.capMgr u.pw.capHw)) ∧
      u.pw.overAt = (if u.pw.limit < u.pw.p then some ((s.advance t).pw.overAt.getD (s.advance t).time.now) else none) ∧ u.pw.chipLimit = 300000 * 20 / (va + vb) ∧
      u.pw.est = ((s.advance t).sense ts).estimate ∧ u.pw.dieTemp = ((s.advance t).sense ts).pw.dieTemp ∧ u.net.flits = 0 ∧
      u.pw.run = allDies.map (fun d => u.pw.fraction dem (allot (if overLate u.pw.overAt (s.advance t).time.now then 0 else u.pw.limit - (u.pw.winP - u.pw.winL)) dem) d) ∧ (∀ n ∈ u.pw.run, n ≤ 16) ∧
      u.m = (s.advance t).m ∧ u.lake.mem = (s.advance t).lake.mem := by
  obtain ⟨u, hexec, hrows⟩ := exec_controlPeriod (a := a) (b := b) (va := va) (vb := vb) (ts := ts) (dem := dem) hdue hrun
  obtain ⟨⟨f, hpw⟩, hkept⟩ := dutiesApplied hrows
  obtain ⟨period, est, chipLimit, dieTemp, flits⟩ := State.periodReady_spec (s.advance t) a b va vb ts dem
  generalize (s.advance t).periodReady a b va vb ts dem = s3 at *
  generalize s.advance t = s0 at *
  have mgmt : s3.m = (allDies.foldl State.applyDuty u).m := hkept.same .mgmt (by simp)
  have lake : s3.lake = (allDies.foldl State.applyDuty u).lake := hkept.same .lake (by simp)
  have net : s3.net = (allDies.foldl State.applyDuty u).net := hkept.same .net (by simp)
  obtain ⟨periodAt, hwFreeze, overAt, capHostWas, capMgrWas, time, mgmt3, lakeMem⟩ := period
  have now : s3.time.now = s0.time.now := congrArg TimeSt.now time
  have caps : s3.capEff = min s3.m.capHost (min s3.m.capMgr s3.pw.capHw) := by
    unfold State.capEff
    rw [capHostWas, capMgrWas, mgmt3]
    exact ite_self _
  refine ⟨_, hexec, ?_⟩
  rw [hpw, ← mgmt, ← lake, ← net]
  refine ⟨periodAt, hwFreeze, ?_, ?_, chipLimit, est, dieTemp, flits, ?_, ?_, mgmt3, lakeMem⟩
  · exact congrArg (fun n => if s3.pw.sprintAt.isSome then 3400 else n) caps
  · show s3.overSince = if s3.periodLimit < s3.pw.p then some (s0.pw.overAt.getD s0.time.now) else none
    rw [State.overSince, overAt, now]
    rfl
  · show allDies.map (fun d => s3.pw.fraction dem (allot (s3.holdTo s3.periodLimit s3.overSince) dem) d) = _
    rw [State.holdTo_eq, now]
    rfl
  · intro n hn
    obtain ⟨d, _, rfl⟩ := List.mem_map.mp hn
    exact Power.fraction_le _ _ _ _

theorem controlPeriod_stalled (hdue : (s.advance t).pw.periodAt + 100 * us ≤ (s.advance t).time.now) (hstall : (s.advance t).pkg.watchStall = true) :
    ∃ u, exec (.controlPeriod a b va vb ts dem t) s = .next u ∧ u.pw.periodAt = (s.advance t).time.now ∧ u.pw.hwFreeze = [] ∧ u.pw.run = (s.advance t).pw.run ∧
      u.pw.limit = (s.advance t).pw.limit ∧ u.pw.capHw = (s.advance t).pw.capHw := by
  obtain ⟨⟨f, hpw⟩, _⟩ := dutiesApplied (Laws.Changes.wakeRows (s := (s.advance t).periodBegin))
  refine ⟨_, (if_neg (Nat.not_lt.mpr hdue)).trans (if_pos hstall), ?_⟩
  rw [hpw]
  exact ⟨rfl, rfl, rfl, rfl, rfl⟩

/-! ### The calibration window, the ramp and the sprint bins -/

/-- The factor k stays in 0.75 to 1.33, in 1/4,096 (R387). -/
theorem clampK (k : Int) : 3072 ≤ (if k < 3072 then 3072 else if 5447 < k then 5447 else k.toNat) ∧ (if k < 3072 then 3072 else if 5447 < k then 5447 else k.toNat) ≤ 5447 := by
  split
  · exact ⟨by decide, by decide⟩
  · split
    · exact ⟨by decide, by decide⟩
    · omega

theorem calibrationWindow_due (hrun : (s.advance t).pkg.watchStall = false) (hdue : (s.advance t).pw.winAt + 100 * ms ≤ (s.advance t).time.now) :
    ∃ u, exec (.calibrationWindow t) s = .next u ∧ 3072 ≤ u.pw.k ∧ u.pw.k ≤ 5447 ∧
      u.pw.winM = 0 ∧ u.pw.winE = 0 ∧ u.pw.winP = 0 ∧ u.pw.winL = 0 ∧ u.pw.winAt = (s.advance t).time.now := by
  have waits : ¬ ((s.advance t).pkg.watchStall = true ∨ (s.advance t).time.now < (s.advance t).pw.winAt + 100 * ms) := by
    rw [hrun]
    simpa using hdue
  show ∃ u, execCalibrationWindow t s = .next u ∧ _
  unfold execCalibrationWindow
  rw [if_neg waits]
  extract_lets mx dv exceeds bad k k1 divN okN clearN s1 s2
  have closed : s1.pw.k = k1 ∧ s1.pw.winM = 0 ∧ s1.pw.winE = 0 ∧ s1.pw.winP = 0 ∧ s1.pw.winL = 0 ∧ s1.pw.winAt = (s.advance t).time.now := ⟨rfl, rfl, rfl, rfl, rfl, rfl⟩
  obtain ⟨low, high⟩ := clampK k
  obtain ⟨hk, hM, hE, hP, hL, hAt⟩ := closed
  split
  · obtain ⟨x, y, z, suspected⟩ := State.setSuspect_pw s1 false
    refine ⟨_, rfl, ?_⟩
    change 3072 ≤ s2.pw.k ∧ s2.pw.k ≤ 5447 ∧ s2.pw.winM = 0 ∧ s2.pw.winE = 0 ∧ s2.pw.winP = 0 ∧ s2.pw.winL = 0 ∧ s2.pw.winAt = _
    rw [show s2.pw = _ from suspected]
    exact ⟨hk ▸ low, hk ▸ high, hM, hE, hP, hL, hAt⟩
  · exact ⟨s1, rfl, hk ▸ low, hk ▸ high, hM, hE, hP, hL, hAt⟩

theorem setCapHw_pw (s : State) (n : Nat) : (s.setCapHw n).pw = { s.pw with capHw := n } := by
  unfold State.setCapHw
  split
  · next h => rw [h]
  · rfl

theorem capHwRamp_due {r : Nat} (hr : (s.advance t).pw.rampAt = some r) (h0 : r ≠ 0) (hdue : r ≤ (s.advance t).time.now) (hheld : (s.advance t).rampHeld = false)
    (hlow : (s.advance t).pw.rampLow = false) (hrun : (s.advance t).pkg.watchStall = false) :
    ∃ u, exec (.capHwRamp t) s = .next u ∧ u.pw.capHw = (s.advance t).rise ∧
      u.pw.rampAt = (if u.pw.capHw < (s.advance t).pw.termMin then some ((s.advance t).time.now + 10 * ms) else none) := by
  have rises : r ≠ 0 ∧ r ≤ (s.advance t).time.now ∧ !(s.advance t).pkg.watchStall ∧ !(s.advance t).rampHeld ∧ !(s.advance t).pw.rampLow := by
    rw [hrun, hheld, hlow]
    exact ⟨h0, hdue, rfl, rfl, rfl⟩
  show ∃ u, execCapHwRamp t s = .next u ∧ _
  unfold execCapHwRamp
  dsimp only
  rw [hr]
  dsimp only
  rw [if_pos rises]
  refine ⟨_, rfl, ?_⟩
  dsimp only
  rw [setCapHw_pw]
  exact ⟨rfl, rfl⟩

theorem sprintBinRoll_due (hrun : (s.advance t).pkg.watchStall = false) (hdue : (s.advance t).pw.binAt + 60000 * ms ≤ (s.advance t).time.now) :
    ∃ u, exec (.sprintBinRoll t) s = .next u ∧ u.pw.bins = ((s.advance t).sprintTick.pw.curBin :: (s.advance t).pw.bins).take 1439 ∧ u.pw.curBin = 0 ∧
      u.pw.binAt = (s.advance t).time.now ∧ u.pw.flashBins = 0 :: u.pw.bins := by
  have ticked : ∃ c m, (s.advance t).sprintTick = { s.advance t with pw := { (s.advance t).pw with curBin := c, sprintMark := m } } := by
    unfold State.sprintTick
    split <;> exact ⟨_, _, rfl⟩
  obtain ⟨c, m, hTick⟩ := ticked
  show ∃ u, execSprintBinRoll t s = .next u ∧ _
  unfold execSprintBinRoll
  rw [hTick]
  have due : ¬ ((s.advance t).pkg.watchStall = true ∨ (s.advance t).time.now < (s.advance t).pw.binAt + 60000 * ms) := by
    rw [hrun]
    simpa using hdue
  dsimp only
  rw [if_neg due]
  exact ⟨_, rfl, rfl, rfl, rfl, rfl⟩

end

/-- Settles O56: a period's steps after its measurement leave what was read, and each run fraction is within the allotment and its regulator's limit. -/
theorem controlPeriodSetsLimitAndFractions : Obligations.ControlPeriodSetsLimitAndFractions := by
  intro s a b va vb d t ts dem s0
  refine ⟨fun hdue hrun => ?period, fun hdue hstall => controlPeriod_stalled hdue hstall, rfl, fun hrun hdue => calibrationWindow_due hrun hdue, fun lim => allot_core lim dem,
    fun lim hs => Power.fraction_rated _ _ _ _ hs, fun r hr h0 hdue hheld hlow hrun => capHwRamp_due hr h0 hdue hheld hlow hrun, fun hrun hdue => sprintBinRoll_due hrun hdue⟩
  case period =>
    obtain ⟨u, hexec, periodAt, hwFreeze, limit, overAt, chip, est, temp, flits, run, runs, mgmt, lake⟩ :=
      controlPeriod_running (a := a) (b := b) (va := va) (vb := vb) (ts := ts) (dem := dem) hdue hrun
    exact ⟨u, hexec, periodAt, hwFreeze, limit, overAt, chip, est, temp, flits, run, runs, mgmt, lake⟩

end Sys2Proof.Safety
end

section
/-!
PROOFS. Barriers and wakes (R45, R96, R139 to R141).
-/
set_option Elab.async false
namespace Sys2Proof.Laws
open Sys2Proof Sys2Proof.Machine Sys2Proof.Safety

/-! ### A syllable that issued has an effect beyond its tile -/

section
variable {s : State} {tid slot : Nat} {act : Tile → Tile}

@[simp] theorem ptiOf_onTid : (s.onTid tid act).ptiOf tid = s.ptiOf tid := by simp only [State.ptiOf, State.die, State.onTid_net]

theorem issuedBetween_onTid (hOn : onTile s tid = true) : issuedBetween s (s.onTid tid act) tid slot = (!(s.ltile tid).hasIssued slot && (act (s.ltile tid)).hasIssued slot) := by
  unfold issuedBetween
  rw [ltile_onTid hOn]
  rfl

theorem issuedBetween_of_issues {w : Nat} (h : issues s tid slot w = true) : issuedBetween s (issueOn s tid slot fun t => t) tid slot = true := by
  rw [issueOn, issuedBetween_onTid (issues_onTile h), issues_hasIssued h, mark_hasIssued]
  rfl

end

/-! ### A unicast slot at its link (R141, R272) -/

section
variable {s u : State} {l kind : Nat} {m : Mgt} {f : State → Mgt → State}

theorem takeMgt_live (h : s.takeRx l (isMgt kind) = some (.mgt m, u)) (hDisp : u.spr.displaced = false) (hLpn : m.dlpn = u.lpn) (hLive : u.ctx.genLive = true) (hGen : m.gen = u.ctx.gen) :
    s.takeMgt l kind f = f u m := by
  unfold State.takeMgt
  rw [h]
  exact (if_neg (by simp [hLpn, hDisp])).trans (if_neg (by simp [hLive, hGen]))

theorem takeMgt_stale (h : s.takeRx l (isMgt kind) = some (.mgt m, u)) (hDisp : u.spr.displaced = false) (hLpn : m.dlpn = u.lpn) (hGen : m.gen ≠ u.ctx.gen) :
    s.takeMgt l kind f = u.linkGenDrop l := by
  unfold State.takeMgt
  rw [h]
  exact (if_neg (by simp [hLpn, hDisp])).trans (if_pos (.inr hGen))

end

end Sys2Proof.Laws

namespace Sys2Proof.Safety
open Sys2Proof Sys2Proof.Machine Sys2Proof.Laws

/-- Settles O25: a syllable that issued arrives or wakes, and a slot of the live generation reaches the unit of its group. -/
theorem barrierCommandsComplete : Obligations.BarrierCommandsComplete := by
  refine ⟨fun s tid f die rows => ⟨fun h => ?arrives, fun hOn h1 h2 h3 h4 h5 h6 => ?holds, fun hOn hReady hSyl hf => ?released, fun h => ?wakes, fun r extra h1 h2 h3 h4 => ?row⟩,
    fun s u l t m => ?slots⟩
  case arrives =>
    change ok _ = _
    rw [issueHold_of_issues _ h, issuedBetween_of_issues h, if_pos rfl, issueOn, ptiOf_onTid]
    rfl
  case holds =>
    change ok _ = _
    have unissued : issuedBetween s (s.onTid tid fun t => { t with iss := { t.iss with held := true } }) tid slotCT = false := by
      rw [issuedBetween_onTid hOn]
      simp [Tile.hasIssued, bitAt, h2]
    rw [issueHold_holds _ h1 h2 h3 h4 h5 h6, unissued, if_neg Bool.false_ne_true]
    rfl
  case released =>
    obtain ⟨_, hop, _, hFlag, _⟩ := encCTW_reads (op := 0x18) (s := 0) (f := f) (count := 0) (die := 0) (rows := 0) (by decide) (by decide) hf (by decide) (by decide) (by decide)
    have flagOf : fld ((s.ltile tid).syl 0) 50 45 = f := by rw [show (s.ltile tid).syl 0 = _ from hSyl, hFlag]
    have selected : (fun w => opOf w == 0x18) ((s.ltile tid).syl slotCT) = true := by rw [hSyl]; simp [hop]
    change ok _ = _
    rw [release_of_ready _ _ hReady selected, issuedBetween_onTid hOn, heldReady_hasIssued hReady, mark_hasIssued, ptiOf_onTid, flagOf]
    rfl
  case wakes =>
    change ok _ = _
    rw [State.wakeOp, issue_of_issues _ h, issuedBetween_of_issues h, if_pos rfl]
    rfl
  case row =>
    unfold State.wakeRow State.wakeNow
    rw [if_neg h1, if_neg (by simp [h3]), if_neg (by simp [h1, h2, h4])]
  case slots =>
    intro g b i hDisp hLpn
    refine ⟨fun h hLive hGen hOpen hKid hNew => ?_, fun h hLive hGen hOpen hUp hDone => ?_, fun h hGen => congrArg ok (takeMgt_stale h hDisp hLpn hGen),
      fun h hGen => congrArg ok (takeMgt_stale h hDisp hLpn hGen)⟩
    · refine congrArg ok ((takeMgt_live h hDisp hLpn hLive hGen).trans ?_)
      exact (if_neg (not_or.mpr ⟨Nat.not_le.mpr hOpen, by rw [show (u.treeKids (fld m.arg 7 0)).contains m.slpn = true from hKid]; decide⟩)).trans (if_neg (by rw [hNew]; exact Bool.false_ne_true))
    · refine congrArg ok ((takeMgt_live h hDisp hLpn hLive hGen).trans ?_)
      exact if_neg (by simp only [not_or, Nat.not_le]; exact ⟨hOpen, by rw [hUp]; decide, by rw [hDone]; decide⟩)

end Sys2Proof.Safety
end

section
/-!
PROOFS. Row wakes and freeze notices (R42, R45, R143, R381, R417).
-/
set_option Elab.async false
namespace Sys2Proof.Laws
open Sys2Proof Sys2Proof.Machine Sys2Proof.Safety

/-! ### A waiting debug access leaves an ACTIVE row alone -/

/-- A row reads the same where the rows stand. -/
theorem row_of_changes {ps : List Part} {s u : State} (h : Changes ps s u) (hp : Part.rows ∉ ps) (r : Nat) : u.row r = s.row r :=
  congrArg (fun x => Tab.get Row.reset x r) (h.same .rows hp).symm

section
variable {s : State} {r : Nat}

@[simp] theorem row_setRow_same {w : Row} : (s.setRow r w).row r = w := Tab.get_set_same _ _ _ _

/-- A wake on demand of any row leaves a row that is ACTIVE. -/
theorem row_wakeNow {k extra : Nat} (h : (s.row r).power = 0) : (s.wakeNow k extra).row r = s.row r := by
  unfold State.wakeNow
  dsimp only
  split
  · rfl
  · next hk =>
    exact Tab.get_set_ne _ _ _ _ _ fun hrk => hk (.inl (hrk ▸ h))

theorem row_tileReady {pti : Nat} (h : (s.row r).power = 0) : (s.tileReady pti).1.row r = s.row r := by
  unfold State.tileReady
  split
  · rfl
  · dsimp only
    split
    · exact row_wakeNow h
    · exact row_wakeNow (s := { s with tiles := Tab.set s.tiles pti _ }) h

/-- The debug access under way asks for its tile's row, and then leaves the rows. -/
theorem dapServe_cases (s : State) : s.dapServe = s ∨ ∃ pti, Changes [.tiles, .net, .context, .faults, .logs, .jtag] (s.tileReady pti).1 s.dapServe := by
  unfold State.dapServe
  split
  · exact .inl rfl
  · next x _ =>
    refine .inr ⟨x.pti, ?_⟩
    split
    · next hready => rw [hready]; exact .refl
    · next hready =>
      rw [hready]
      refine .ite .refl ?_
      dsimp only
      split
      · exact .trans (.ite (.of .dbgTake) .refl) <| .step .jtag <| .step .onTile <| .of .dapEnd
      · split <;> exact .trans (.ite (.of .dbgTake) .refl) <| .step .jtag <| .step (.ofFst .portRead ‹_›) <| .of .dapEnd

theorem row_dapServe (h : (s.row r).power = 0) : s.dapServe.row r = s.row r := by
  rcases dapServe_cases s with hs | ⟨pti, hs⟩
  · rw [hs]
  · rw [row_of_changes hs (by simp), row_tileReady h]

end

end Sys2Proof.Laws

namespace Sys2Proof.Safety
open Sys2Proof Sys2Proof.Machine Sys2Proof.Laws

/-- Settles O27: each command's guard holds, and what follows the wake of a row leaves the row. -/
theorem rowsAndNoticesFollowTheirTimes : Obligations.RowsAndNoticesFollowTheirTimes := by
  intro s t r d g l s0
  have h0 : s.advance t = s0 := rfl
  clear_value s0
  refine ⟨fun a hAt hDue => ?wake, fun h1 h2 h3 h4 h5 => ?retain, fun a rs root hg hRuns hFrozen hDue hSent hRanges hRoot => ?send,
    fun u m h hLpn hDisp hLive hGen hNear => ?note, fun e hFind hLate => ?lapse, fun e hFind hEarly => ?stands⟩
  case wake =>
    change ∃ u, execRowWakeComplete r t s = .next u ∧ _
    unfold execRowWakeComplete
    rw [h0]
    dsimp only
    rw [hAt]
    dsimp only
    refine ⟨_, if_neg (Nat.not_lt.mpr hDue), ?_⟩
    rw [row_dapServe]
    all_goals
      rw [row_of_changes (Changes.foldl (ps := [.tiles, .context, .faults, .logs]) fun u pti => ?_) (by simp), row_setRow_same]
    all_goals
      split
      · exact .step .tiles .onTile
      · exact .of .tiles
  case retain =>
    change execRowRetain r t s = _
    unfold execRowRetain
    rw [h0]
    exact if_pos ⟨h1, h2, h3, h4, h5⟩
  case send =>
    change execFreezeNoteSend d g t s = _
    unfold execFreezeNoteSend
    rw [h0]
    dsimp only
    rw [hFrozen]
    dsimp only
    rw [hSent, if_neg (by simp [hg, hRuns, hDue])]
    split
    · next hNone => exact nomatch (hRanges.symm.trans hNone)
    · next found hSome =>
      obtain rfl : rs = found := Option.some.inj (hRanges.symm.trans hSome)
      rw [hRoot]
      dsimp only
      split <;> rfl
  case note =>
    subst h0
    refine congrArg ok ((takeMgt_live h hDisp hLpn hLive hGen).trans ?_)
    dsimp only
    rw [hNear, if_neg Bool.false_ne_true]
  case lapse =>
    change execFreezeNoteLapse g t s = _
    unfold execFreezeNoteLapse
    rw [h0]
    dsimp only
    rw [hFind]
    exact if_pos hLate
  case stands =>
    change execFreezeNoteLapse g t s = _
    unfold execFreezeNoteLapse
    rw [h0]
    dsimp only
    rw [hFind]
    exact if_neg (Nat.not_lt.mpr hEarly)

end Sys2Proof.Safety
end

section
/-!
PROOFS. The TIM exchange of a link (R147, R148, R257).
-/
set_option Elab.async false
namespace Sys2Proof.Machine
open Sys2Proof

/-! ### What a change of the parent leaves alone -/

/-- From `s` to `u` the clock stands, the end of a listen, and what every link has measured. -/
structure State.SameClock (s u : State) : Prop where
  now : u.time.now = s.time.now
  ft : u.time.ft = s.time.ft
  listenEnd : u.time.listenEnd = s.time.listenEnd
  links : u.time.links = s.time.links

namespace State.SameClock
variable {s u v : State}

theorem refl : s.SameClock s := ⟨rfl, rfl, rfl, rfl⟩

theorem trans (h : s.SameClock u) (k : u.SameClock v) : s.SameClock v := ⟨k.now.trans h.now, k.ft.trans h.ft, k.listenEnd.trans h.listenEnd, k.links.trans h.links⟩

theorem timLink (h : s.SameClock u) (l : Nat) : u.timLink l = s.timLink l := congrArg (fun x => Tab.get TimLink.zero x l) h.links

theorem of_time (h : u.time = s.time) : s.SameClock u := ⟨by rw [h], by rw [h], by rw [h], by rw [h]⟩

theorem takeParent {l : Nat} : s.SameClock (s.takeParent l) := ⟨rfl, rfl, rfl, rfl⟩

theorem reparent {since : Nat} : s.SameClock (s.reparent since) := by
  unfold State.reparent
  split
  · exact takeParent
  · exact ⟨rfl, rfl, rfl, rfl⟩

theorem holdCheck : s.SameClock s.holdCheck := by
  unfold State.holdCheck
  dsimp only
  split
  · split
    · exact ⟨rfl, rfl, rfl, rfl⟩
    · exact refl
  · exact refl

theorem timParent {l : Nat} : s.SameClock (s.timParent l) := by
  unfold State.timParent
  split
  · exact refl
  · split
    · split
      · exact takeParent
      · exact refl
    · split
      · split
        · exact ⟨rfl, rfl, rfl, rfl⟩
        · exact reparent
      · exact refl

theorem queueSlot {l : Nat} {x : Slot} {sch : Option Nat} : s.SameClock (s.queueSlot l x sch) :=
  of_time ((Laws.Changes.queueSlot (s := s) (l := l) (slot := x) (sch := sch)).same .time (by simp)).symm

theorem nearMissEvent {timer : Nat} : s.SameClock (s.nearMissEvent timer) :=
  of_time ((Laws.Changes.nearMissEvent (s := s) (timer := timer)).same .time (by simp)).symm

end State.SameClock

namespace State
variable {s u : State}

/-- Judging the parent keeps the clock, and of a link all but what its far end told. -/
theorem parentCheck_keeps (s : State) : s.parentCheck.time.now = s.time.now ∧ s.parentCheck.time.ft = s.time.ft ∧ s.parentCheck.time.listenEnd = s.time.listenEnd ∧
    ∀ l, (s.parentCheck.timLink l).t1 = (s.timLink l).t1 ∧ (s.parentCheck.timLink l).t1Seq = (s.timLink l).t1Seq := by
  have of_same {v : State} (h : s.SameClock v) : v.time.now = s.time.now ∧ v.time.ft = s.time.ft ∧ v.time.listenEnd = s.time.listenEnd ∧
      ∀ l, (v.timLink l).t1 = (s.timLink l).t1 ∧ (v.timLink l).t1Seq = (s.timLink l).t1Seq :=
    ⟨h.now, h.ft, h.listenEnd, fun l => by rw [h.timLink l]; exact ⟨rfl, rfl⟩⟩
  unfold State.parentCheck
  dsimp only
  split
  · exact of_same .refl
  · split
    · exact of_same .holdCheck
    · split
      · have forgotten : ∀ l, ((s.setTim s.time.parent { s.timLink s.time.parent with known := false }).timLink l).t1 = (s.timLink l).t1 ∧
            ((s.setTim s.time.parent { s.timLink s.time.parent with known := false }).timLink l).t1Seq = (s.timLink l).t1Seq := by
          intro l
          by_cases hl : l = s.time.parent
          · rw [hl, timLink_setTim]
            exact ⟨rfl, rfl⟩
          · rw [timLink_setTim_ne _ _ _ _ hl]
            exact ⟨rfl, rfl⟩
        have judged := (SameClock.reparent (s := s.setTim s.time.parent { s.timLink s.time.parent with known := false })
          (since := max (s.timLink s.time.parent).lastAt s.time.parentAt)).trans .holdCheck
        exact ⟨judged.now, judged.ft, judged.listenEnd, fun l => by rw [judged.timLink l]; exact forgotten l⟩
      · split
        · exact of_same .refl
        · exact of_same (.trans .reparent .holdCheck)

/-- What a TIM tells is kept, and the clock, the end of a listen and the link's own `SYNC` stand. -/
theorem timHeard_spec (u : State) (l : Nat) (x : TimS) :
    (u.timHeard l x).time.ft = u.time.ft ∧ (u.timHeard l x).time.listenEnd = u.time.listenEnd ∧ ((u.timHeard l x).timLink l).t1 = (u.timLink l).t1 ∧
      ((u.timHeard l x).timLink l).t1Seq = (u.timLink l).t1Seq ∧ ((u.timHeard l x).timLink l).tstate = x.tstate ∧ ((u.timHeard l x).timLink l).hops = x.hops ∧
      ((u.timHeard l x).timLink l).mlpn = x.mlpn ∧ ((u.timHeard l x).timLink l).tai = sext 64 x.tai ∧ ((u.timHeard l x).timLink l).lastAt = u.time.now ∧
      ((u.timHeard l x).timLink l).known = true := by
  obtain ⟨now, ft, listenEnd, links⟩ := parentCheck_keeps u
  obtain ⟨t1, t1Seq⟩ := links l
  unfold State.timHeard
  extract_lets s v conflict edge s1
  have kept : s1.SameClock (if edge then s1.nearMissEvent 6 else s1) := by
    split
    · exact .nearMissEvent
    · exact .refl
  have told : s1.timLink l = _ := timLink_setTim s l _
  rw [kept.timLink l, told]
  exact ⟨kept.ft.trans ft, kept.listenEnd.trans listenEnd, t1, t1Seq, rfl, rfl, rfl, rfl, now, rfl⟩

end State
end Sys2Proof.Machine

namespace Sys2Proof.Safety
open Sys2Proof Sys2Proof.Machine

/-- Settles O28: hearing a TIM keeps the clock, and judging the parent keeps what the links have measured. -/
theorem timSlotsMeasureTheLink : Obligations.TimSlotsMeasureTheLink := by
  intro s u l t x h
  obtain ⟨ft, listenEnd, t1, t1Seq, tstate, hops, mlpn, tai, lastAt, known⟩ := State.timHeard_spec u l x
  have heard : u.timHeard l x = h := rfl
  clear_value h
  rw [heard] at ft listenEnd t1 t1Seq tstate hops mlpn tai lastAt known
  refine ⟨⟨tstate, hops, mlpn, tai, lastAt, known⟩, fun hTake => ?sync, fun hTake => ?dreq, fun hTake => ?resp⟩
  case sync =>
    intro w
    refine ⟨_, ?_, rfl, ?_⟩
    · change execSync l t s = _
      unfold execSync
      dsimp only
      rw [hTake]
      dsimp only
      rw [heard, ft]
      rfl
    · exact ((State.SameClock.queueSlot.trans .timParent).timLink l).trans (State.timLink_setTim _ _ _)
  case dreq =>
    change execDreq l t s = _
    unfold execDreq
    dsimp only
    rw [hTake]
    dsimp only
    rw [heard, ft, listenEnd, t1, t1Seq]
    by_cases hAnswers : u.time.listenEnd = none ∧ (u.timLink l).t1Seq = x.seq
    · obtain ⟨hListen, hSeq⟩ := hAnswers
      rw [if_neg (by simp [hListen, hSeq]), if_pos ⟨hListen, hSeq⟩]
      rfl
    · rw [if_pos (by rwa [Option.isSome_iff_ne_none, ← Classical.not_and_iff_not_or_not]), if_neg hAnswers]
      rfl
  case resp =>
    intro r v asym delay off w
    change execResp l t s = _
    unfold execResp
    dsimp only
    rw [hTake]
    dsimp only
    rw [heard]
    by_cases hSeq : v.seq ≠ x.seq
    · rw [if_pos hSeq]
      exact congrArg ok (if_pos hSeq).symm
    · rw [if_neg hSeq]
      refine Eq.trans ?_ (congrArg ok (if_neg hSeq).symm)
      by_cases hParent : w.time.parent = l ∧ w.isMaster = false
      · obtain ⟨hl, hm⟩ := hParent
        exact (if_pos ⟨hl, congrArg not hm⟩).trans (congrArg ok (if_pos ⟨hl, hm⟩).symm)
      · exact (if_neg fun ⟨hl, hm⟩ => hParent ⟨hl, (Bool.not_eq_true' _).mp hm⟩).trans (congrArg ok (if_neg hParent).symm)

end Sys2Proof.Safety
end

section
/-!
PROOFS. The timers of fabric time, the pulses, PTP and the reads of FT (R144 to R161).
-/
set_option Elab.async false
namespace Sys2Proof.Machine
open Sys2Proof

theorem queueSlot_time (s : State) (l : Nat) (x : Slot) (sch : Option Nat) : (s.queueSlot l x sch).time = s.time :=
  ((Laws.Changes.queueSlot (s := s) (l := l) (slot := x) (sch := sch)).same .time (by simp)).symm

theorem clampRate (r : Int) : -50000000 ≤ (if r < -50000000 then -50000000 else if 50000000 < r then 50000000 else r) ∧
    (if r < -50000000 then -50000000 else if 50000000 < r then 50000000 else r) ≤ 50000000 := by
  split
  · omega
  · split <;> omega

theorem ppsReject_bad (s : State) : s.ppsReject.time.ppsBad = s.time.ppsBad + 1 := by
  unfold State.ppsReject
  dsimp only
  split <;> rfl

theorem ppsUnlock_locked (s : State) : s.ppsUnlock.time.ppsLocked = false := by
  unfold State.ppsUnlock
  dsimp only
  split
  · next h => exact (Bool.not_eq_true' _).mp h
  · rfl

theorem ppsReject_locked {s : State} (h : 2 ≤ s.time.ppsBad) : s.ppsReject.time.ppsLocked = false := by
  unfold State.ppsReject
  dsimp only
  rw [if_pos (by omega)]
  exact ppsUnlock_locked s

/-! ### The timers of fabric time (R145 to R148, R153) -/

section
variable {s s0 : State} {l t : Nat} {child : Bool} (h0 : s.advance t = s0)
include h0

theorem exec_timSyncSend_waits (hSent : (s0.timLink l).sentAt ≠ 0) (hEarly : s0.time.now < (s0.timLink l).sentAt + if child = true ∨ s0.time.parent = l then timPeriod else ms) :
    exec (.timSyncSend l child t) s = .next s0 := by
  change execTimSyncSend l child t s = _
  unfold execTimSyncSend
  rw [h0]
  exact if_pos (.inr (.inr (.inr ⟨hSent, hEarly⟩)))

theorem exec_timSyncSend_due (hUp : (s0.link l).state = 3) (hFar : (s0.link l).farTim = true) (hListen : s0.time.listenEnd = none)
    (hDue : (s0.timLink l).sentAt = 0 ∨ (s0.timLink l).sentAt + (if child = true ∨ s0.time.parent = l then timPeriod else ms) ≤ s0.time.now) :
    ∃ u, exec (.timSyncSend l child t) s = .next u ∧ (u.timLink l).sentAt = s0.time.now ∧
      Tab.get 0 u.time.lastSync l = (Tab.get 0 s0.time.lastSync l + 1) % 256 ∧ u.time.ft = s0.time.ft := by
  have sends : ¬ ((s0.link l).state ≠ 3 ∨ (!(s0.link l).farTim) = true ∨ s0.time.listenEnd.isSome = true ∨
      ((s0.timLink l).sentAt ≠ 0 ∧ s0.time.now < (s0.timLink l).sentAt + if child = true ∨ s0.time.parent = l then timPeriod else ms)) := by
    rw [hUp, hFar, hListen]
    simp only [ne_eq, not_true_eq_false, Bool.not_true, Bool.false_eq_true, Option.isSome_none, false_or, not_and, Nat.not_lt]
    exact fun hne => hDue.resolve_left hne
  change ∃ u, execTimSyncSend l child t s = .next u ∧ _
  unfold execTimSyncSend
  rw [h0]
  refine ⟨_, if_neg sends, ?_⟩
  simp only [State.timLink, queueSlot_time]
  exact ⟨congrArg TimLink.sentAt (Tab.get_set_same ..), Tab.get_set_same .., rfl⟩

theorem exec_timParentTimeout_parent (hp : s0.time.parent ≠ 0x7F) (hm : s0.time.tstate ≠ 5) (hLost : s0.timHeardLately s0.time.parent = false ∨ s0.timUsable s0.time.parent = false) :
    let since := if s0.timHeardLately s0.time.parent then s0.time.now else max (s0.timLink s0.time.parent).lastAt s0.time.parentAt
    let q := if s0.timHeardLately s0.time.parent then s0 else s0.setTim s0.time.parent { s0.timLink s0.time.parent with known := false }
    exec (.timParentTimeout t) s = .next ((q.reparent since).holdCheck) := by
  have member : s0.isMaster = false := beq_eq_false_iff_ne.mpr hm
  change ok (s.advance t).parentCheck = _
  rw [h0]
  refine congrArg ok ?_
  unfold State.parentCheck
  dsimp only
  rw [if_neg (by rw [member]; exact Bool.false_ne_true), if_neg hp]
  cases hHeard : s0.timHeardLately s0.time.parent with
  | false => exact if_pos rfl
  | true =>
    have unusable : s0.timUsable s0.time.parent = false := hLost.resolve_left (by rw [hHeard]; exact Bool.noConfusion)
    exact (if_neg Bool.false_ne_true).trans (if_neg (by rw [unusable]; exact Bool.false_ne_true))

theorem exec_timParentTimeout_none {a : Nat} (hp : s0.time.parent = 0x7F) (hNone : s0.time.noParent = some a) (hst : s0.time.tstate = 1 ∨ s0.time.tstate = 2 ∨ s0.time.tstate = 3) :
    exec (.timParentTimeout t) s = .next (if a + timTimeout ≤ s0.time.now then { s0 with time := { s0.time with tstate := 4, holdSince := s0.time.now } } else s0) := by
  have member : s0.isMaster = false := beq_eq_false_iff_ne.mpr (by rcases hst with h | h | h <;> rw [h] <;> decide)
  change ok (s.advance t).parentCheck = _
  rw [h0]
  refine congrArg ok ?_
  unfold State.parentCheck
  dsimp only
  rw [if_neg (by rw [member]; exact Bool.false_ne_true), if_pos hp]
  unfold State.holdCheck
  dsimp only
  rw [hNone]
  dsimp only
  by_cases hLate : a + timTimeout ≤ s0.time.now
  · rw [if_pos ⟨hp, hst, hLate⟩, if_pos hLate]
  · rw [if_neg fun h => hLate h.2.2, if_neg hLate]

/-- The far end whose time a listening master takes (R153): heard and measured in the listen, in holdover of the same master. -/
def givesTime (s : State) (e k : Nat) : Bool :=
  (s.link k).state == 3 && (s.timLink k).known && (s.timLink k).tstate == 4 && some (s.timLink k).mlpn == s.master && decide (e ≤ (s.timLink k).lastAt + 10 * ms) &&
    (s.timLink k).measAt.any fun a => decide (e ≤ a + 10 * ms)

theorem exec_masterListenEnd_keeps {e : Nat} (hListen : s0.time.listenEnd = some e) (hDue : e ≤ s0.time.now) (hKeeps : s0.ctx.accepted = true ∨ allLinks.find? (givesTime s0 e) = none) :
    exec (.masterListenEnd t) s = .next { s0 with time := { s0.time with listenEnd := none } } := by
  change execMasterListenEnd t s = _
  unfold execMasterListenEnd
  rw [h0]
  dsimp only
  rw [hListen]
  dsimp only
  rw [if_neg (Nat.not_lt.mpr hDue)]
  split
  · next k hk =>
    rcases hKeeps with hAcc | hNone
    · rw [if_pos hAcc] at hk
      exact nomatch hk
    · split at hk
      · exact nomatch hk
      · exact nomatch (hNone.symm.trans hk)
  · rfl

theorem exec_masterListenEnd_takes {e k : Nat} (hListen : s0.time.listenEnd = some e) (hDue : e ≤ s0.time.now) (hAcc : s0.ctx.accepted = false)
    (hGives : allLinks.find? (givesTime s0 e) = some k) :
    exec (.masterListenEnd t) s = .next (({ s0 with time := { s0.time with listenEnd := none } } : State).setFt ((s0.time.ft : Int) - (s0.timLink k).off).toNat) := by
  change execMasterListenEnd t s = _
  unfold execMasterListenEnd
  rw [h0]
  dsimp only
  rw [hListen]
  dsimp only
  rw [if_neg (Nat.not_lt.mpr hDue), hAcc, if_neg Bool.false_ne_true]
  split
  · next j hj =>
    obtain rfl : k = j := Option.some.inj (hGives.symm.trans hj)
    rfl
  · next hNone => exact nomatch (hGives.symm.trans hNone)

/-! ### The pulses (R156 to R158) -/

theorem exec_ppsInEdge_accepts (hm : s0.isMaster = true) (hEn : s0.timeEn 0 = true)
    (hIn : ∀ p, s0.time.ppsPrev = some p → p + ppsSecond ≤ s0.time.ft + 400000 ∧ s0.time.ft ≤ p + ppsSecond + 400000) :
    ∃ u, exec (.ppsInEdge t) s = .next u ∧ u.time.ppsPrev = some s0.time.ft ∧ u.time.ppsBad = 0 ∧ -50000000 ≤ u.time.rate ∧ u.time.rate ≤ 50000000 ∧ u.time.ft = s0.time.ft := by
  change ∃ u, execPpsInEdge t s = .next u ∧ _
  unfold execPpsInEdge
  rw [h0]
  extract_lets _ x inTime e recent done pick step r rate since lock
  have accepted : inTime = true := by
    dsimp only [inTime]
    split
    · rfl
    · next p hp =>
      obtain ⟨early, late⟩ := hIn p hp
      rw [decide_eq_true early, decide_eq_true late]
      rfl
  rw [if_neg (by rw [hm, hEn]; decide), accepted, if_neg (by decide)]
  obtain ⟨low, high⟩ := clampRate r
  exact ⟨_, rfl, rfl, rfl, low, high, rfl⟩

theorem exec_ppsInEdge_rejects {p : Nat} (hm : s0.isMaster = true) (hEn : s0.timeEn 0 = true) (hp : s0.time.ppsPrev = some p)
    (hOut : s0.time.ft + 400000 < p + ppsSecond ∨ p + ppsSecond + 400000 < s0.time.ft) : exec (.ppsInEdge t) s = .next s0.ppsReject := by
  change execPpsInEdge t s = _
  unfold execPpsInEdge
  rw [h0]
  dsimp only
  rw [if_neg (by rw [hm, hEn]; decide), hp, if_pos]
  · rfl
  · rw [Bool.not_eq_true', Bool.and_eq_false_iff, decide_eq_false_iff_not, decide_eq_false_iff_not, Nat.not_le, Nat.not_le]
    exact hOut

theorem exec_ppsInMissed {p : Nat} (hm : s0.isMaster = true) (hEn : s0.timeEn 0 = true) (hp : s0.time.ppsPrev = some p)
    (hLate : p + (s0.time.ppsBad + 1) * ppsSecond + 400000 < s0.time.ft) : exec (.ppsInMissed t) s = .next s0.ppsReject := by
  change execPpsInMissed t s = _
  unfold execPpsInMissed
  rw [h0]
  dsimp only
  rw [hp]
  exact if_pos ⟨hm, hEn, hLate⟩

theorem exec_ppsOutRise_off (hOff : s0.pkg.under = psOff) : exec (.ppsOutRise t) s = .next s0 := by
  change execPpsOutRise t s = _
  unfold execPpsOutRise
  rw [h0]
  exact if_neg fun h => h.2 hOff

theorem exec_ppsOutRise (hk : s0.time.ppsK < s0.ppsNow) (hOn : s0.pkg.under ≠ psOff) : ∃ u, exec (.ppsOutRise t) s = .next u ∧ u.time.ppsOut = !s0.gate ∧ u.time.ppsK = s0.ppsNow ∧
    u.time.ppsEdge = (s0.ppsNow * (ppsSecond : Int) - s0.time.tai).toNat ∧ u.time.ppsRose = s0.time.now - (s0.time.ft - u.time.ppsEdge) := by
  change ∃ u, execPpsOutRise t s = .next u ∧ _
  unfold execPpsOutRise
  rw [h0]
  exact ⟨_, if_pos ⟨hk, hOn⟩, rfl, rfl, rfl, rfl⟩

theorem exec_ppsOutFall (hOut : s0.time.ppsOut = true) (hDue : s0.time.ppsRose + 400000 ≤ s0.time.now) :
    exec (.ppsOutFall t) s = .next { s0 with time := { s0.time with ppsOut := false } } := by
  change execPpsOutFall t s = _
  unfold execPpsOutFall
  rw [h0]
  exact if_pos ⟨hOut, hDue⟩

theorem exec_syncAuxTimecode (hFrame : s0.time.ppsFrameDue = true) (hDue : s0.time.ppsRose + 800000 ≤ s0.time.now) (hEn : s0.timeEn 5 = true) :
    exec (.syncAuxTimecode t) s = .next { s0 with
      time := { s0.time with ppsFrameDue := false },
      out := s0.out ++ (if s0.gate = true then [] else [.value 5 (1 + 2 * (s0.time.ppsEdge % 2 ^ 64) + place s0.ftState 8 65)]) } := by
  change execSyncAuxTimecode t s = _
  unfold execSyncAuxTimecode
  rw [h0]
  refine (if_pos ⟨hFrame, hDue, hEn⟩).trans (congrArg ok ?_)
  dsimp only
  cases hGate : s0.gate with
  | true => rw [if_pos rfl, if_pos rfl, List.append_nil]
  | false => rfl

/-! ### PTP (R159, R160) -/

theorem exec_ptpSyncSend (hEn : s0.timeEn 1 = true) (hGate : s0.gate = false) (hDue : s0.time.ptpSyncAt + logTicks (s0.ptpField 3) ≤ s0.time.now) :
    ∃ u, exec (.ptpSyncSend t) s = .next u ∧ u.time.ptpSyncAt = s0.time.now ∧ u.time.ptpSyncTx = s0.time.ptpSyncTx + 1 ∧ u.out.length = s0.out.length + 2 := by
  change ∃ u, execPtpSyncSend t s = .next u ∧ _
  unfold execPtpSyncSend
  rw [h0]
  refine ⟨_, if_pos ⟨hEn, congrArg not hGate, hDue⟩, rfl, rfl, ?_⟩
  simp only [State.ptpMsg, State.emit, List.length_append, List.length_cons, List.length_nil]

theorem exec_ptpAnnounceSend (hEn : s0.timeEn 1 = true) (hGate : s0.gate = false) (hDue : s0.time.ptpAnnAt + logTicks (s0.ptpField 4) ≤ s0.time.now) :
    ∃ u, exec (.ptpAnnounceSend t) s = .next u ∧ u.time.ptpAnnAt = s0.time.now ∧ u.time.ptpAnnounceTx = s0.time.ptpAnnounceTx + 1 ∧ u.out.length = s0.out.length + 1 := by
  change ∃ u, execPtpAnnounceSend t s = .next u ∧ _
  unfold execPtpAnnounceSend
  rw [h0]
  refine ⟨_, if_pos ⟨hEn, congrArg not hGate, hDue⟩, rfl, rfl, ?_⟩
  simp only [State.ptpMsg, State.emit, List.length_append, List.length_cons, List.length_nil]

section
variable {domain : Nat} (hEn : s0.timeEn 1 = true)
include hEn

theorem exec_delayReq_own (hDomain : domain = s0.ptpField 0) (hGate : s0.gate = false) : ∃ u, exec (.delayReq domain t) s = .next u ∧
    u.time.ptpDelayResp = satInc 32 s0.time.ptpDelayResp ∧ u.out = s0.out ++ [.value 6 (9 + place 2 4 4 + place 1 4 8 + place (b2n (s0.timeEn 2)) 1 12 + place (s0.ptpField 0) 8 16 +
      place (s0.ptpField 5) 8 24 + 2 ^ 32 * toBits 80 s0.ptpTime)] := by
  change ∃ u, execDelayReq domain t s = .next u ∧ _
  unfold execDelayReq
  rw [h0]
  exact ⟨_, (if_neg (by rw [hEn]; decide)).trans ((if_neg (not_not_intro hDomain)).trans (if_neg (by rw [hGate]; decide))), rfl, rfl⟩

theorem exec_delayReq_other (hDomain : domain ≠ s0.ptpField 0) : exec (.delayReq domain t) s = .next { s0 with time := { s0.time with ptpDrop := satInc 32 s0.time.ptpDrop } } := by
  change execDelayReq domain t s = _
  unfold execDelayReq
  rw [h0]
  exact (if_neg (by rw [hEn]; decide)).trans (if_pos hDomain)

end

end

theorem exec_ptpMessageRx {s : State} {domain kind : Nat} (hEn : s.timeEn 1 = true) (hDomain : domain = s.ptpField 0) : exec (.ptpMessageRx kind domain) s =
    if kind = 11 then ok { s with time := { s.time with ptpAnnounceRx := satInc 32 s.time.ptpAnnounceRx } }
    else if kind = 0 then ok { s with time := { s.time with ptpSyncRx := satInc 32 s.time.ptpSyncRx } } else ok s.ptpDropped :=
  (if_neg (by rw [hEn]; decide)).trans (if_neg (not_not_intro hDomain))

end Sys2Proof.Machine

namespace Sys2Proof.Safety
open Sys2Proof Sys2Proof.Machine

/-- Settles O29: each timer's guard holds, and the rate of an accepted edge is clamped. -/
theorem timersPulsesAndTimeReads : Obligations.TimersPulsesAndTimeReads := by
  refine ⟨fun s l t child => ?timers, fun s t => ?pulses, fun s domain t => ?ptp⟩
  case timers =>
    intro s0 p gap
    have h0 : s.advance t = s0 := rfl
    refine ⟨exec_timSyncSend_waits h0, exec_timSyncSend_due h0, fun hp hm hLost => ?_, fun a => exec_timParentTimeout_none h0, fun e hListen hDue => ?_⟩
    · intro since q
      refine (exec_timParentTimeout_parent h0 hp hm hLost).trans ?_
      change Host.Outcome.next ((q.reparent since).holdCheck) = _
      clear_value since q
      unfold State.reparent
      dsimp only
      cases q.bestParent <;> rfl
    · exact ⟨exec_masterListenEnd_keeps h0 hListen hDue, fun k => exec_masterListenEnd_takes h0 hListen hDue⟩
  case pulses =>
    intro s0 x
    have h0 : s.advance t = s0 := rfl
    exact ⟨exec_ppsInEdge_accepts h0, fun p hm hEn hp hOut => ⟨exec_ppsInEdge_rejects h0 hm hEn hp hOut, ppsReject_bad s0, ppsReject_locked⟩,
      fun p => exec_ppsInMissed h0, exec_ppsOutRise_off h0, exec_ppsOutRise h0, exec_ppsOutFall h0, exec_syncAuxTimecode h0⟩
  case ptp =>
    intro s0
    have h0 : s.advance t = s0 := rfl
    exact ⟨exec_ptpSyncSend h0, exec_ptpAnnounceSend h0, exec_delayReq_own h0, exec_delayReq_other h0, fun hEn hDomain => ⟨exec_ptpMessageRx hEn hDomain, exec_ptpMessageRx hEn hDomain⟩,
      rfl, rfl⟩

end Sys2Proof.Safety
end

section
/-!
PROOFS. Hops and bridge crossings (R166, R172, R175, R180, R182, R184).
-/
set_option Elab.async false
namespace Sys2Proof.Laws
open Sys2Proof Sys2Proof.Machine

/-! ### Packets in flight -/

theorem pkt_id {s : State} {id : Nat} {p : Pkt} (h : s.pkt id = some p) : p.id = id := of_decide_eq_true (List.find?_some (p := fun q : Pkt => q.id == id) h)

theorem pkt_setPkt {s : State} {id : Nat} {p q : Pkt} (h : s.pkt id = some p) (hq : q.id = id) : (s.setPkt q).pkt id = some q := by
  have sameId : ((fun r : Pkt => r.id == id) ∘ fun r => if r.id = q.id then q else r) = fun r => r.id == id := by
    funext r
    by_cases hr : r.id = q.id
    · simp [hr]
    · simp [hr]
  change List.find? _ (s.net.pkts.map fun r => if r.id = q.id then q else r) = _
  rw [List.find?_map, sameId]
  change (s.pkt id).map _ = _
  rw [h, Option.map_some, if_pos ((pkt_id h).trans hq.symm)]

theorem pkt_delPkt (s : State) (id : Nat) : (s.delPkt id).pkt id = none :=
  List.find?_eq_none.mpr fun q hq => by
    have hne : q.id ≠ id := of_decide_eq_true (List.mem_filter.mp hq).2
    simpa using hne

theorem mem_addPkt (s : State) (p : Pkt) : ({ p with id := s.net.seq } : Pkt) ∈ (s.addPkt p).net.pkts := List.mem_append_right _ (List.mem_singleton.mpr rfl)

@[simp] theorem hopFound_pkts (s : State) (d plane loc input : Nat) (h : HopChk) : (s.hopFound d plane loc input h).net.pkts = s.net.pkts := by
  unfold State.hopFound
  dsimp only
  split <;> rfl

@[simp] theorem hopFound_bridge (s : State) (d plane loc input : Nat) (h : HopChk) (b : Nat) : (s.hopFound d plane loc input h).bridge b = s.bridge b := by
  unfold State.hopFound
  dsimp only
  split <;> rfl

theorem hopFound_netDbe (s : State) (d plane loc input : Nat) {h : HopChk} (hBad : h.badHdr = true) : bitAt (s.hopFound d plane loc input h).faults.sticky 1 = true := by
  unfold State.hopFound
  dsimp only
  rw [if_pos (by rw [hBad, Bool.true_or]), bitAt_eq_testBit]
  exact (Nat.testBit_or ..).trans (Bool.or_eq_true_iff.mpr (.inr (by decide)))

@[simp] theorem bridge_setBridge (s : State) (b : Nat) (es : List BrEnt) : (s.setBridge b es).bridge b = es := Tab.get_put_same ..

/-! ### What the check of a packet's words leaves -/

/-- A packet has the identity, the asker and the way of another. -/
def SameWay (p q : Pkt) : Prop := q.id = p.id ∧ q.copyOf = p.copyOf ∧ q.asker = p.asker ∧ q.via = p.via ∧ q.dest = p.dest

theorem sameWay_setWord {p q : Pkt} (h : SameWay p q) (i v : Nat) : SameWay p (q.setWord i v) := by
  unfold Pkt.setWord
  split
  · exact h
  split
  · exact h
  split
  · exact h
  · exact h

theorem sameWay_checkHop (p : Pkt) (errs : List (Nat × Nat)) : SameWay p (checkHop p errs).p := by
  refine List.foldlRecOn (motive := fun h : HopChk => SameWay p h.p) errs _ ⟨rfl, rfl, rfl, rfl, rfl⟩ fun h hh e _ => ?_
  split
  · split
    · exact sameWay_setWord hh ..
    · exact sameWay_setWord hh ..
    · split
      · exact sameWay_setWord hh ..
      · exact sameWay_setWord hh ..
  · exact hh

theorem sameWay_freshSrc (s : State) (p : Pkt) : SameWay p (s.freshSrc p) := by
  unfold State.freshSrc
  split
  · split
    · exact ⟨rfl, rfl, rfl, rfl, rfl⟩
    · split
      · exact ⟨rfl, rfl, rfl, rfl, rfl⟩
      · exact ⟨rfl, rfl, rfl, rfl, rfl⟩
  · exact ⟨rfl, rfl, rfl, rfl, rfl⟩

/-- Two flipped bits of a header word are found. -/
theorem checkHop_badHdr (p : Pkt) {w x : Nat} (hw : w < 16) (hx : popN 39 x = 2) : (checkHop p [(w, x)]).badHdr = true := by
  simp only [checkHop, List.foldl_cons, List.foldl_nil]
  rw [if_pos (by omega), eccCheck_of_two hx]
  dsimp only
  rw [if_pos hw]

end Sys2Proof.Laws

namespace Sys2Proof.Machine
open Sys2Proof Sys2Proof.Laws

/-! ### Hops -/

section
variable {s : State} {id : Nat} {p : Pkt} {errs : List (Nat × Nat)} (hp : s.pkt id = some p)
include hp

theorem exec_packetHop_closed (hOpen : s.hopOpen p = false) : exec (.packetHop id errs) s = .next s := by
  change execPacketHop id errs s = _
  unfold execPacketHop
  rw [hp]
  exact if_pos (.inr (.inr (congrArg not hOpen)))

theorem hopGrant_pkt : (s.hopGrant p).pkt id = some p := by
  unfold State.hopGrant
  split <;> exact hp

variable (hIn : p.inHub = false ∧ p.arrived = false) (hOpen : s.hopOpen p = true)
include hIn hOpen

omit hp in
theorem hop_not_held : ¬ (p.inHub = true ∨ p.arrived = true ∨ (!s.hopOpen p) = true) := by rw [hIn.1, hIn.2, hOpen]; decide

theorem exec_packetHop_asks (hGrant : s.hopGranted p = false) : exec (.packetHop id errs) s = .next (s.askGrant 0 (s.portOf p) (p.rankFor (s.outOf p))) := by
  change execPacketHop id errs s = _
  unfold execPacketHop
  rw [hp]
  exact (if_neg (hop_not_held hIn hOpen)).trans (if_pos (congrArg not hGrant))

variable (hGrant : s.hopGranted p = true)
include hGrant

theorem exec_packetHop_leaves (hExit : p.atExit = true) : ∃ u, exec (.packetHop id errs) s = .next u ∧ u.pkt id = some { p with arrived := true, since := s.time.now } := by
  change ∃ u, execPacketHop id errs s = .next u ∧ _
  unfold execPacketHop
  rw [hp]
  exact ⟨_, (if_neg (hop_not_held hIn hOpen)).trans ((if_neg (by rw [hGrant]; decide)).trans (if_pos hExit)), pkt_setPkt (hopGrant_pkt hp) (show p.id = id from pkt_id hp)⟩

variable (hStays : p.atExit = false)
include hStays

theorem exec_packetHop_moves (hGood : (checkHop (s.freshSrc p) errs).badHdr = false) :
    let f := checkHop (s.freshSrc p) errs
    let n := s.hopTo p
    let moved := { f.p with row := n.1, col := n.2.1, inp := n.2.2, hops := p.hops + 1, poisoned := p.poisoned || f.badData }
    ∃ v : State, v.pkt id = some moved ∧ exec (.packetHop id errs) s = .next (v.bcastTurn moved) ∧ (p.copyOf = none → v.bcastTurn moved = v) := by
  intro f n moved
  obtain ⟨sameId, sameCopy, -⟩ := sameWay_checkHop (s.freshSrc p) errs
  obtain ⟨freshId, freshCopy, -⟩ := sameWay_freshSrc s p
  have runs : exec (.packetHop id errs) s = .next (State.bcastTurn (State.setPkt
      { (s.hopGrant p).hopFound p.die p.plane (n.1 * 12 + n.2.1) n.2.2 f with
        net := { ((s.hopGrant p).hopFound p.die p.plane (n.1 * 12 + n.2.1) n.2.2 f).net with
          flits := ((s.hopGrant p).hopFound p.die p.plane (n.1 * 12 + n.2.1) n.2.2 f).net.flits + 1 + beatsOf p } } moved) moved) := by
    change execPacketHop id errs s = _
    unfold execPacketHop
    rw [hp]
    exact (if_neg (hop_not_held hIn hOpen)).trans ((if_neg (by rw [hGrant]; decide)).trans ((if_neg (by rw [hStays]; decide)).trans (if_neg (by rw [hGood]; decide))))
  refine ⟨_, pkt_setPkt (p := p) ?_ (sameId.trans (freshId.trans (pkt_id hp))), runs, fun hc => ?_⟩
  · change List.find? _ (State.net (State.hopFound ..)).pkts = _
    rw [hopFound_pkts]
    exact hopGrant_pkt hp
  · unfold State.bcastTurn
    rw [show moved.copyOf = none from sameCopy.trans (freshCopy.trans hc)]

theorem exec_packetHop_dropped (hBad : (checkHop (s.freshSrc p) errs).badHdr = true) :
    ∃ u, exec (.packetHop id errs) s = .next u ∧ u.pkt id = none ∧ bitAt u.faults.sticky 1 = true := by
  change ∃ u, execPacketHop id errs s = .next u ∧ _
  unfold execPacketHop
  rw [hp]
  exact ⟨_, (if_neg (hop_not_held hIn hOpen)).trans ((if_neg (by rw [hGrant]; decide)).trans ((if_neg (by rw [hStays]; decide)).trans (if_pos hBad))),
    pkt_delPkt .., hopFound_netDbe _ _ _ _ _ hBad⟩

end

theorem atExit_iff (p : Pkt) : p.atExit = true ↔ p.hops ≠ 0 ∧ p.row = p.trow ∧ p.col = p.tcol := by
  simp only [Pkt.atExit, Bool.and_eq_true, bne_iff_ne, beq_iff_eq, ne_eq, and_assoc]

/-! ### Bridges -/

section
variable {s : State} {id : Nat} {p : Pkt} {errs : List (Nat × Nat)} (hp : s.pkt id = some p)
include hp

theorem exec_bridgeCrossing_in {st : Nat} (hHub : p.inHub = false) (hArr : p.arrived = true) (hEp : 0xD0 ≤ p.dstEp) (hKind : p.kind ≠ 0x05) (hGood : (checkHop p errs).badHdr = false)
    (hReq : isRsp (checkHop p errs).p.kind = false) (hDest : p.dest = .lake st) (hRoom : (s.bridge (bridgeNo p.die p.dstEp)).length < 512) :
    let h := checkHop p errs
    let b := bridgeNo p.die p.dstEp
    let k := freeSlot b (s.bridge b) 512 0
    ∃ u q, exec (.bridgeCrossing id errs) s = .next u ∧ u.bridge b = s.bridge b ++ [⟨b * 512 + k, h.p.srcEp, h.p.tag, p.asker, p.via⟩] ∧
      q ∈ u.net.pkts ∧ q.tag = b * 512 + k ∧ q.inHub = true ∧ q.hub = b % 2 ∧ q.via = b :: p.via ∧ q.addr = h.p.addr ∧ q.data = h.p.data := by
  intro h b k
  obtain ⟨-, -, sameAsker, sameVia, sameDest⟩ := sameWay_checkHop p errs
  have entry : (((s.hopFound p.die p.plane p.dstEp 4 h).delPkt id).bridge b) = s.bridge b := hopFound_bridge ..
  have waits : ¬ 512 ≤ ((s.hopFound p.die p.plane p.dstEp 4 h).bridge b).length := by rw [hopFound_bridge]; exact Nat.not_le.mpr hRoom
  let r := ((s.hopFound p.die p.plane p.dstEp 4 h).delPkt id).bridgeTake b { h.p with poisoned := p.poisoned || h.badData, hops := 0 }
  have runs : exec (.bridgeCrossing id errs) s = .next (r.1.addPkt { r.2 with inHub := true, hub := b % 2, arrived := false }) := by
    change execBridgeCrossing id errs s = _
    unfold execBridgeCrossing
    rw [hp]
    refine (if_pos (congrArg not hHub)).trans ((if_neg ?_).trans ((if_neg (by rw [hGood]; decide)).trans ((if_neg (by rw [hReq]; decide)).trans ((if_neg waits).trans ?_))))
    · rw [hArr]
      exact fun hc => hc.elim (fun h1 => nomatch h1) fun hc => hc.elim (fun h2 => absurd hEp (Nat.not_le.mpr h2)) hKind
    · extract_lets r' q2
      split
      · next hd => exact nomatch (hDest.symm.trans (sameDest.symm.trans hd))
      · rfl
  refine ⟨_, _, runs, ?_, mem_addPkt .., ?_, rfl, rfl, ?_, rfl, rfl⟩
  · change (State.setBridge _ b _).bridge b = _
    rw [bridge_setBridge, entry]
    change s.bridge b ++ [⟨_, _, _, h.p.asker, h.p.via⟩] = _
    rw [sameAsker, sameVia]
  · change b * 512 + freeSlot b (State.bridge _ b) 512 0 = _
    rw [entry]
  · exact congrArg (b :: ·) sameVia

theorem exec_bridgeCrossing_back {e : BrEnt} {b : Nat} (hHub : p.inHub = true) (hArr : p.arrived = false) (hRsp : isRsp p.kind = true) (hVia : p.via.head? = some b)
    (hGood : (checkHop p errs).badHdr = false) (hRsp' : isRsp (checkHop p errs).p.kind = true) (hEnt : (s.bridge b).find? (fun x => x.tag == (checkHop p errs).p.tag) = some e) :
    let h := checkHop p errs
    ∃ u q, exec (.bridgeCrossing id errs) s = .next u ∧ (u.bridge b).any (fun x => x.tag == h.p.tag) = false ∧
      q ∈ u.net.pkts ∧ q.tag = e.origTag ∧ q.asker = e.asker ∧ q.inHub = false ∧ q.data = h.p.data := by
  intro h
  let s1 := (s.hopFound (b / 2) 0 (epB0 + b % 2) 4 h).delPkt id
  let q : Pkt := { h.p with poisoned := p.poisoned || h.badData }
  have entry : s1.bridge b = s.bridge b := hopFound_bridge ..
  have gives : s1.bridgeGive b q = (s1.setBridge b ((s.bridge b).filter fun x => decide (x.tag ≠ h.p.tag)), { q with tag := e.origTag, asker := e.asker, via := e.via }, e.srcEp) := by
    unfold State.bridgeGive
    dsimp only
    rw [entry, show (s.bridge b).find? (fun x => x.tag == q.tag) = some e from hEnt]
  have freed (u : State) : ((u.setBridge b ((s.bridge b).filter fun x => decide (x.tag ≠ h.p.tag))).bridge b).any (fun x => x.tag == h.p.tag) = false := by
    rw [bridge_setBridge]
    simp only [List.any_filter, List.any_eq_false, Bool.and_eq_true, decide_eq_true_eq, beq_iff_eq, not_and]
    exact fun x _ hne heq => hne heq
  change ∃ u q, execBridgeCrossing id errs s = .next u ∧ _
  unfold execBridgeCrossing
  rw [hp]
  dsimp only
  rw [if_neg (by rw [hHub]; decide), if_neg (by rw [hArr]; decide), if_pos hRsp, hVia]
  dsimp only
  rw [if_neg (by rw [hGood]; decide), if_pos hRsp']
  change ∃ u q', (match q.asker with | .tile pti _ => _ | _ => _) = Host.Outcome.next u ∧ _
  simp only [show State.bridgeGive (State.delPkt (s.hopFound (b / 2) 0 (epB0 + b % 2) 4 (checkHop p errs)) id) b
    { (checkHop p errs).p with poisoned := p.poisoned || (checkHop p errs).badData } = _ from gives]
  split
  · exact ⟨_, _, rfl, freed _, mem_addPkt .., rfl, rfl, rfl, rfl⟩
  · exact ⟨_, _, rfl, freed _, mem_addPkt .., rfl, rfl, rfl, rfl⟩

end

end Sys2Proof.Machine

namespace Sys2Proof.Safety
open Sys2Proof Sys2Proof.Machine Sys2Proof.Laws

/-- Settles O32: a hop and a crossing move the packet that the check of its words left, whose identity and asker the check keeps. -/
theorem packetsCrossHopsAndBridges : Obligations.PacketsCrossHopsAndBridges := by
  intro s id p errs hp f h n moved inMesh leaves
  have stays : ¬ leaves → p.atExit = false := fun hl => Bool.eq_false_iff.mpr (hl ∘ (atExit_iff p).mp)
  refine ⟨fun _ hOpen => exec_packetHop_closed hp hOpen, exec_packetHop_asks hp, fun hIn hOpen hGrant hl => exec_packetHop_leaves hp hIn hOpen hGrant ((atExit_iff p).mpr hl),
    fun hIn hOpen hGrant hl => exec_packetHop_moves hp hIn hOpen hGrant (stays hl), fun hIn hOpen hGrant hl => exec_packetHop_dropped hp hIn hOpen hGrant (stays hl), ?_, ?_, ?_⟩
  · rintro w x rfl hw hx
    exact checkHop_badHdr _ hw hx
  · intro st hHub hArr hEp hKind hGood hReq hDest b k hRoom
    exact exec_bridgeCrossing_in hp hHub hArr hEp hKind hGood hReq hDest hRoom
  · intro e pti seq b hHub hArr hRsp hVia _ hGood hRsp' hEnt
    exact exec_bridgeCrossing_back hp hHub hArr hRsp hVia hGood hRsp' hEnt

end Sys2Proof.Safety
end

section
/-!
PROOFS. The beats of an access to a glaze slice (R163, R164, R166): an access of at most 256 bytes whose banks are free is made whole.
-/
set_option Elab.async false
namespace Sys2Proof.Laws
open Sys2Proof Sys2Proof.Machine Sys2Proof.Safety

/-! ### The arbiter of a glaze bank in the beats of one access -/

theorem arb_setArb_same (s : State) (kind idx : Nat) (a : Arb) : (s.setArb kind idx a).arb kind idx = a := Tab.get_put_same ..

theorem arb_setArb_ne (s : State) {kind idx j : Nat} (a : Arb) (h : j ≠ idx) : (s.setArb kind idx a).arb kind j = s.arb kind j :=
  Tab.get_put_ne _ _ _ _ _ fun hk => h (Nat.add_left_cancel hk)

theorem mayUse_of_inUse {s : State} {kind idx rank : Nat} (h : (s.arb kind idx).inUse = some rank) : s.mayUse kind idx rank = true := by
  unfold State.mayUse
  dsimp only
  rw [h]
  exact beq_self_eq_true rank

theorem mayUse_setArb_ne (s : State) {kind idx j : Nat} (a : Arb) (rank : Nat) (h : j ≠ idx) : (s.setArb kind idx a).mayUse kind j rank = s.mayUse kind j rank := by
  unfold State.mayUse
  rw [arb_setArb_ne s a h]
  rfl

/-- A transfer that may begin is in use once it has. -/
theorem inUse_startGrant {s : State} {kind idx rank : Nat} (h : s.mayUse kind idx rank = true) : ((s.startGrant kind idx rank).arb kind idx).inUse = some rank := by
  unfold State.startGrant
  rw [arb_setArb_same]
  unfold Arb.start
  split
  · assumption
  · next hFree =>
    unfold State.mayUse at h
    dsimp only at h
    split at h
    · unfold Arb.decide
      split
      · next hNone => rw [hNone] at h; exact nomatch h
      · next w hWin =>
        rw [hWin] at h
        exact congrArg some (beq_iff_eq.mp h)
    · next r hUse => exact absurd (hUse.trans (congrArg some (beq_iff_eq.mp h))) hFree

theorem bankOpen_congr (s : State) (pti : Nat) {a b : Nat} (h : bankOf 1 a = bankOf 1 b) : s.bankOpen pti a = s.bankOpen pti b := by
  unfold State.bankOpen Tile.usesBank
  rw [h]

/-- Every byte of a range lies in a bank that is open to a requester. -/
def BanksFree (s : State) (pti rank lo hi : Nat) : Prop := ∀ c, lo ≤ c → c < hi → s.bankOpen pti c = true ∧ s.mayUse 1 (bankIdx pti c) rank = true

theorem banksFree_of_bankFree {s : State} {pti a len rank : Nat} (h : s.bankFree pti a len rank = true) : BanksFree s pti rank a (a + len) := by
  intro c low high
  have sameBank : bankOf 1 (c / 64 * 64) = bankOf 1 c := by
    simp only [bankOf, Nat.one_ne_zero, if_false]
    omega
  have line : (a / 64 + (c / 64 - a / 64)) * 64 = c / 64 * 64 := by omega
  have found := List.all_eq_true.mp h (c / 64 - a / 64) (List.mem_range.mpr (by omega))
  dsimp only at found
  rw [line, decide_eq_false (by omega), Bool.false_or, Bool.and_eq_true, bankOpen_congr s pti sameBank, bankIdx, sameBank] at found
  exact found

/-- What a beat at `a` leaves of a free range: the bytes above it. The bank of the beat stays in use while the beat has not ended its line of 128 bytes. -/
theorem banksFree_beat {s : State} {pti rank a m hi : Nat} (h : BanksFree s pti rank a hi) (hm : 0 < m) (hhi : hi ≤ a + 256) (hlo : a < hi) :
    BanksFree (if a + m = hi ∨ (a + m) % 128 = 0 then (s.startGrant 1 (bankIdx pti a) rank).endGrant 1 (bankIdx pti a) else s.startGrant 1 (bankIdx pti a) rank) pti rank (a + m) hi := by
  intro c low high
  obtain ⟨bankOpen, may⟩ := h c (by omega) high
  have idx : bankIdx pti c = bankIdx pti a ↔ c / 128 % 40 = a / 128 % 40 := by
    simp only [bankIdx, bankOf, Nat.one_ne_zero, if_false]
    omega
  by_cases same : bankIdx pti c = bankIdx pti a
  · have line : c / 128 = a / 128 := by have := idx.mp same; omega
    rw [if_neg (by omega)]
    refine ⟨bankOpen, mayUse_of_inUse ?_⟩
    rw [same]
    exact inUse_startGrant (h a (Nat.le_refl a) hlo).2
  · split
    · exact ⟨bankOpen, ((mayUse_setArb_ne _ _ _ same).trans (mayUse_setArb_ne _ _ _ same)).trans may⟩
    · exact ⟨bankOpen, (mayUse_setArb_ne _ _ _ same).trans may⟩

/-- An access of at most 256 bytes in free banks is made whole. -/
theorem glazeBeats_all {pti rank off len : Nat} (hlen : len ≤ 256) : ∀ (n : Nat) (s : State) (done : Nat), BanksFree s pti rank (off + done) (off + len) → done ≤ len →
    (done < len → (len - done) + (off + done) % 64 ≤ 64 * n) → (s.glazeBeats pti rank off len n done).2 = len
  | 0, s, done, _, hdone, fuel => by
    change done = len
    by_cases hEnd : done = len
    · exact hEnd
    · have := fuel (by omega)
      omega
  | n + 1, s, done, hfree, hdone, fuel => by
    unfold State.glazeBeats
    by_cases hEnd : len ≤ done
    · rw [if_pos hEnd]
      exact Nat.le_antisymm hdone hEnd
    · obtain ⟨bankOpen, may⟩ := hfree (off + done) (Nat.le_refl _) (by omega)
      have beat := banksFree_beat (m := min (len - done) (64 - (off + done) % 64)) hfree (by omega) (by omega) (by omega)
      dsimp only
      rw [if_neg hEnd, if_neg (by rw [bankOpen]; decide), if_neg (by rw [may]; decide)]
      have last : off + done + min (len - done) (64 - (off + done) % 64) = off + len ↔ done + min (len - done) (64 - (off + done) % 64) = len := by omega
      simp only [last] at beat
      exact glazeBeats_all hlen n _ _ (by rw [← Nat.add_assoc off]; exact beat) (by omega) fun _ => by have := fuel (by omega); omega

theorem glazeMove_all {s : State} {pti rank off len : Nat} (hlen : len ≤ 256) (h : s.bankFree pti off len rank = true) : (s.glazeMove pti rank off len 0).2 = len :=
  glazeBeats_all hlen _ s 0 (banksFree_of_bankFree h) (Nat.zero_le _) fun _ => by omega

theorem glazeMove_closed {s : State} {pti rank off len : Nat} (hlen : len ≠ 0) (h : s.bankOpen pti off = false) : s.glazeMove pti rank off len 0 = (s, 0) := by
  unfold State.glazeMove State.glazeBeats
  dsimp only
  rw [if_neg (by omega), Nat.add_zero, h]
  rfl

theorem glazeBeats_glazeQ (pti rank off len : Nat) : ∀ (n : Nat) (s : State) (done : Nat), (s.glazeBeats pti rank off len n done).1.net.glazeQ = s.net.glazeQ
  | 0, _, _ => rfl
  | n + 1, s, done => by
    unfold State.glazeBeats
    dsimp only
    split
    · rfl
    split
    · rfl
    split
    · rfl
    · refine (glazeBeats_glazeQ pti rank off len n _ _).trans ?_
      split <;> rfl

/-! ### Tiles and their memory -/

theorem tile_of_changes {ps : List Part} {s u : State} (h : Changes ps s u) (hp : Part.tiles ∉ ps) (pti : Nat) : u.tile pti = s.tile pti :=
  congrArg (fun x => Tab.get Tile.reset x pti) (h.same .tiles hp).symm

theorem pkt_onTile (s : State) (pti : Nat) (f : Tile → Tile) (id : Nat) : (s.onTile pti f).pkt id = s.pkt id :=
  congrArg (fun n : Net => n.pkts.find? fun q : Pkt => q.id == id) (State.onTile_net s pti f)

theorem tile_delPkt (s : State) (id pti : Nat) : (s.delPkt id).tile pti = s.tile pti := rfl

theorem tile_reply (s : State) (q : Pkt) (d src kind : Nat) (ext : List Nat) (data : List Word) (pti : Nat) : (s.reply q d src kind ext data).tile pti = s.tile pti :=
  tile_of_changes Changes.reply (by simp) pti

theorem writeX_local (t : Tile) (a : Nat) (bs : List Byte) : (t.writeX 0 a bs).mem.ls = Mem.store t.mem.ls a bs ∧ (t.writeX 0 a bs).mem.glaze = t.mem.glaze ∧ (t.writeX 0 a bs).r = t.r :=
  ⟨rfl, rfl, rfl⟩

theorem writeX_glaze (t : Tile) (a : Nat) (bs : List Byte) : (t.writeX 1 a bs).mem.glaze = Mem.store t.mem.glaze a bs ∧ (t.writeX 1 a bs).mem.ls = t.mem.ls ∧ (t.writeX 1 a bs).r = t.r :=
  ⟨rfl, rfl, rfl⟩

/-- An access to a glaze slice that no earlier beat has begun and whose banks are free is written whole. -/
theorem glazePut_all {s : State} {p : Pkt} {pti rank off : Nat} {bs : List Byte} (hlen : bs.length ≤ 256) (hMade : p.made = 0) (h : s.bankFree pti off bs.length rank = true) :
    s.glazePut p pti rank off bs = ((s.glazeMove pti rank off bs.length 0).1.onTile pti fun t => t.writeX 1 off bs, true) := by
  unfold State.glazePut
  dsimp only
  rw [hMade, glazeMove_all hlen h, if_pos (Nat.le_refl _)]
  unfold State.putBytes
  rw [List.take_length, Nat.add_zero]
  rfl

theorem glazePut_glaze {s : State} {p : Pkt} {pti rank off : Nat} {bs : List Byte} (hlen : bs.length ≤ 256) (hMade : p.made = 0) (h : s.bankFree pti off bs.length rank = true) :
    ∃ v, s.glazePut p pti rank off bs = (v, true) ∧ (v.tile pti).mem.glaze = Mem.store (s.tile pti).mem.glaze off bs ∧ (v.tile pti).mem.ls = (s.tile pti).mem.ls ∧ (v.tile pti).r = (s.tile pti).r := by
  have kept : (s.glazeMove pti rank off bs.length 0).1.tile pti = s.tile pti := tile_of_changes Changes.glazeMove (by simp) pti
  refine ⟨_, glazePut_all hlen hMade h, ?_⟩
  rw [State.tile_onTile, kept]
  exact ⟨rfl, rfl, rfl⟩

theorem glazePut_closed {s : State} {p : Pkt} {pti rank off : Nat} {bs : List Byte} (hbs : bs ≠ []) (hMade : p.made = 0) (h : s.bankOpen pti off = false) :
    s.glazePut p pti rank off bs = (((s.onTile pti fun t => t.writeX 1 off []).setPkt p), false) := by
  have hlen : bs.length ≠ 0 := fun h0 => hbs (List.eq_nil_of_length_eq_zero h0)
  unfold State.glazePut
  dsimp only
  rw [hMade, glazeMove_closed hlen h, if_neg (by omega)]
  cases p
  cases hMade
  rfl

theorem tileReady_awake {s : State} {pti : Nat} (h : (s.row (rowOf pti)).power = 0) : s.tileReady pti = (s, true) := if_pos h

theorem length_bytesOfWords (ws : List Word) : (bytesOfWords ws).length = 4 * ws.length := by
  induction ws with
  | nil => rfl
  | cons w r ih =>
    rw [bytesOfWords, List.flatMap_cons, List.length_append, length_leBytes]
    change 4 + (bytesOfWords r).length = _
    rw [ih, List.length_cons, Nat.mul_add, Nat.add_comm]

theorem length_bytesOfWords_take {ws : List Word} {n : Nat} (h : n ≤ 64) : (bytesOfWords (ws.take n)).length ≤ 256 := by
  rw [length_bytesOfWords, List.length_take]
  omega

theorem length_eccBytes_eccWords (m : Mem) (f : Tab Nat) : ∀ (n a : Nat), (eccBytes (eccWords m f a n)).length = 4 * n
  | 0, _ => rfl
  | n + 1, a => by
    rw [eccWords, eccBytes, List.flatMap_cons, List.length_append, length_leBytes]
    change 4 + (eccBytes (eccWords m f (a + 4) n)).length = _
    rw [length_eccBytes_eccWords m f n, Nat.mul_add, Nat.add_comm]

/-- A read that no double-bit error stops gives the bytes asked for. -/
theorem portRead_length {s v : State} {pti space a n : Nat} {bs : List Byte} (h : s.portRead pti space a n = (v, some bs)) : bs.length = 4 * n := by
  unfold State.portRead at h
  dsimp only at h
  split at h
  · split at h
    · exact nomatch (Prod.mk.inj h).2
    · obtain rfl := Option.some.inj (Prod.mk.inj h).2
      exact length_eccBytes_eccWords ..
  · split at h
    · exact nomatch (Prod.mk.inj h).2
    · obtain rfl := Option.some.inj (Prod.mk.inj h).2
      exact length_eccBytes_eccWords ..

theorem portRead_none (s : State) (pti a : Nat) : s.portRead pti 1 a 0 = (s, some []) := rfl

/-- A state in which upsets have struck the glaze slice of a tile. -/
def struck (s : State) (pti : Nat) (ups : List (Nat × Nat)) : State :=
  { s with tiles := Tab.set s.tiles pti { s.tile pti with mem := { (s.tile pti).mem with glazeFlips := strike (s.tile pti).mem.glazeFlips ups } } }

/-- Upsets of a glaze slice do not close its banks. -/
theorem bankOpen_struck (s : State) (pti a : Nat) (ups : List (Nat × Nat)) : (struck s pti ups).bankOpen pti a = s.bankOpen pti a := by
  have tile : (struck s pti ups).tile pti = { s.tile pti with mem := { (s.tile pti).mem with glazeFlips := strike (s.tile pti).mem.glazeFlips ups } } := Tab.get_set_same ..
  unfold State.bankOpen State.runs
  rw [tile]
  rfl

theorem bankFree_struck {s : State} {pti off len rank : Nat} (ups : List (Nat × Nat)) : (struck s pti ups).bankFree pti off len rank = s.bankFree pti off len rank := by
  unfold State.bankFree
  simp only [bankOpen_struck]
  rfl

end Sys2Proof.Laws
end

section
/-!
PROOFS. The endpoints of a tile (R35, R46, R121 to R124, R178 to R181, R185, R412): requests are served, broadcasts combine, answers are taken.
-/
set_option Elab.async false
namespace Sys2Proof.Laws
open Sys2Proof Sys2Proof.Machine

/-! ### How the answers of a broadcast's branches combine (R180) -/

theorem foldl_min_eq {c : Nat} : ∀ (l : List (Nat × Nat)) (m : Nat), c ≤ m → (∀ a ∈ l, c ≤ a.2) → (m = c ∨ ∃ a ∈ l, a.2 = c) → l.foldl (fun m a => min m a.2) m = c
  | [], m, _, _, h => h.elim id fun ⟨_, ha, _⟩ => nomatch ha
  | x :: r, m, hm, hl, h => by
    have hx := hl x List.mem_cons_self
    refine foldl_min_eq r (min m x.2) (by omega) (fun a ha => hl a (List.mem_cons_of_mem x ha)) ?_
    rcases h with rfl | ⟨a, ha, rfl⟩
    · exact .inl (by omega)
    · rcases List.mem_cons.mp ha with rfl | hr
      · exact .inl (by omega)
      · exact .inr ⟨a, hr, rfl⟩

theorem combine_error {as : List (Nat × Nat)} {c : Nat} (hmem : (0x21, c) ∈ as) (hleast : ∀ a ∈ as, a.1 = 0x21 → c ≤ a.2) : combine as = (0x21, c) := by
  have hin : ((0x21, c) : Nat × Nat) ∈ as.filter (fun a => a.1 == 0x21) := List.mem_filter.mpr ⟨hmem, rfl⟩
  have hle : ∀ a ∈ as.filter (fun a => a.1 == 0x21), c ≤ a.2 := fun a ha => hleast a (List.mem_filter.mp ha).1 (beq_iff_eq.mp (List.mem_filter.mp ha).2)
  unfold combine
  split
  · next e r heq =>
    rw [heq] at hin hle
    refine congrArg (Prod.mk 0x21) (foldl_min_eq r e.2 (hle e List.mem_cons_self) (fun a ha => hle a (List.mem_cons_of_mem e ha)) ?_)
    rcases List.mem_cons.mp hin with h | h
    · exact .inl (h ▸ rfl)
    · exact .inr ⟨_, h, rfl⟩
  · next heq => exact nomatch (heq ▸ hin)

theorem filter_error_nil {as : List (Nat × Nat)} (h : ∀ a ∈ as, a.1 ≠ 0x21) : as.filter (fun a => a.1 == 0x21) = [] :=
  List.filter_eq_nil_iff.mpr fun a ha => by rw [beq_iff_eq]; exact h a ha

theorem combine_nack {as : List (Nat × Nat)} {w : Nat} (hmem : (0x20, w) ∈ as) (hNone : ∀ a ∈ as, a.1 ≠ 0x21) : ∃ v, combine as = (0x20, v) ∧ (0x20, v) ∈ as := by
  unfold combine
  rw [filter_error_nil hNone]
  dsimp only
  split
  · next a ha =>
    have kind : a.1 = 0x20 := beq_iff_eq.mp (List.find?_some (p := fun a : Nat × Nat => a.1 == 0x20) ha)
    obtain ⟨k, v⟩ := a
    cases kind
    exact ⟨v, rfl, List.mem_of_find?_eq_some ha⟩
  · next hNo => exact absurd rfl (fun h => List.find?_eq_none.mp hNo _ hmem (beq_iff_eq.mpr h))

theorem combine_acks {as : List (Nat × Nat)} (h : ∀ a ∈ as, a.1 = 0x06) : combine as = (0x06, (as.map Prod.snd).sum) := by
  have noNack : as.find? (fun a => a.1 == 0x20) = none := List.find?_eq_none.mpr fun a ha => by rw [h a ha]; decide
  unfold combine
  rw [filter_error_nil fun a ha => by rw [h a ha]; decide, noNack]

end Sys2Proof.Laws

namespace Sys2Proof.Machine
open Sys2Proof Sys2Proof.Laws

/-! ### Requests at a tile -/

theorem bcastGot_last {s : State} {g : Nat} {b : Bcast} (a : Nat × Nat) (hb : s.net.bcasts.find? (fun x => x.pkt.id == g) = some b) (hLeft : b.left = 1) (hTop : b.pkt.copyOf = none) :
    s.bcastGot g a 4 = State.reply { s with net := { s.net with bcasts := s.net.bcasts.filter (fun x => decide (x.pkt.id ≠ g)) } } b.pkt b.pkt.die b.pkt.srcEp (combine (b.answers ++ [a])).1
      (ext4 (combine (b.answers ++ [a])).2) [] := by
  unfold State.bcastGot
  rw [hb]
  dsimp only
  rw [hLeft, if_pos (by decide)]
  split
  · unfold State.bcastBack
    rw [hTop]
  · next hSome => exact nomatch (hTop.symm.trans hSome)

theorem bcastOne_local {s : State} {p : Pkt} {pti : Nat} (hGen : s.tileGenBad pti p = false) (h25 : bitAt (p.extWord 0) 25 = false) (h24 : bitAt (p.extWord 0) 24 = false)
    (hEnd : p.addr + (bytesOfWords (p.data.take p.words)).length ≤ 2 ^ 20) :
    s.bcastOne p pti = (s.onTile pti fun t => t.writeX 0 p.addr (bytesOfWords (p.data.take p.words)), some (0x06, 0)) := by
  have space : fld (p.extWord 0) 24 24 = 0 := by
    have bit := of_decide_eq_false h24
    change p.extWord 0 >>> 24 % 2 = 0
    omega
  unfold State.bcastOne
  dsimp only
  rw [hGen, h25, h24, space, if_neg Bool.false_ne_true, if_neg Bool.false_ne_true, if_neg (by rw [spaceSize, if_pos rfl]; omega), if_neg Bool.false_ne_true, if_neg Bool.false_ne_true]

section
variable {s : State} {id pti off tid : Nat} {p : Pkt} (hp : s.pkt id = some p) (hHere : p.atTile = some pti ∧ (s.row (rowOf pti)).power = 0)
include hp hHere

theorem serveTile_awake {kind : Nat} (hKind : p.kind = kind) (f : State → Nat → Pkt → State) :
    s.serveTile id kind f = if s.tileGenBad pti p = true then s.tileNack pti p else f s pti p := by
  unfold State.serveTile
  rw [hp]
  dsimp only
  rw [hHere.1]
  dsimp only
  rw [if_neg (not_not_intro hKind), tileReady_awake hHere.2]

theorem exec_wr_nack (hGen : s.tileGenBad pti p = true) (hKind : p.kind = 0x03) : exec (.wr id) s = .next (s.tileNack pti p) :=
  congrArg ok ((serveTile_awake hp hHere hKind _).trans (if_pos hGen))

section
variable (hLive : s.tileGenBad pti p = false ∧ p.poisoned = false)
include hLive

theorem exec_rdReq_glaze (hKind : p.kind = 0x01) (hRegion : regionOf p.addr = .glaze tid off) :
    exec (.rdReq id) s = .next { s.delPkt id with net := { (s.delPkt id).net with glazeQ := (s.delPkt id).net.glazeQ ++ [⟨p, pti, off, []⟩] } } := by
  refine congrArg ok ((serveTile_awake hp hHere hKind _).trans ((if_neg (by rw [hLive.1]; decide)).trans ?_))
  dsimp only
  rw [hRegion]

theorem exec_rdReq_local {u : State} {bs : List Byte} (hKind : p.kind = 0x01) (hRegion : regionOf p.addr = .localStore tid off) (hRead : s.portRead pti 0 off p.words = (u, some bs)) :
    exec (.rdReq id) s = .next ((u.delPkt id).reply p (pti / 156) (pti % 156) 0x02 [0, 0, 0, 0] (wordsOf bs)) := by
  refine congrArg ok ((serveTile_awake hp hHere hKind _).trans ((if_neg (by rw [hLive.1]; decide)).trans ?_))
  dsimp only
  rw [hRegion]
  dsimp only
  rw [hRead]

variable (hKind : p.kind = 0x03)
include hKind

theorem exec_wr_local (hRegion : regionOf p.addr = .localStore tid off) :
    exec (.wr id) s = .next (State.reply ((s.onTile pti fun t => t.writeX 0 off (bytesOfWords (p.data.take p.words))).delPkt id) p (pti / 156) (pti % 156) 0x04 [0, 0, 0, 0] []) := by
  refine congrArg ok ((serveTile_awake hp hHere hKind _).trans ((if_neg (by rw [hLive.1]; decide)).trans ?_))
  dsimp only
  rw [hLive.2, if_neg Bool.false_ne_true, hRegion]

theorem exec_wr_glaze {u : State} (hRegion : regionOf p.addr = .glaze tid off) (hPut : s.glazePut p pti rankEject off (bytesOfWords (p.data.take p.words)) = (u, true)) :
    exec (.wr id) s = .next ((u.delPkt id).reply p (pti / 156) (pti % 156) 0x04 [0, 0, 0, 0] []) := by
  refine congrArg ok ((serveTile_awake hp hHere hKind _).trans ((if_neg (by rw [hLive.1]; decide)).trans ?_))
  dsimp only
  rw [hLive.2, if_neg Bool.false_ne_true, hRegion]
  dsimp only
  rw [hPut]

theorem exec_wr_glaze_waits {u : State} (hRegion : regionOf p.addr = .glaze tid off) (hPut : s.glazePut p pti rankEject off (bytesOfWords (p.data.take p.words)) = (u, false)) :
    exec (.wr id) s = .next u := by
  refine congrArg ok ((serveTile_awake hp hHere hKind _).trans ((if_neg (by rw [hLive.1]; decide)).trans ?_))
  dsimp only
  rw [hLive.2, if_neg Bool.false_ne_true, hRegion]
  dsimp only
  rw [hPut]

end

end

theorem exec_bcastWr_source {s : State} {id : Nat} {p : Pkt} (hp : s.pkt id = some p) (hKind : p.kind = 0x05) (hHub : p.inHub = false) (hTop : p.copyOf = none) :
    exec (.bcastWr id) s = .next (s.bcastFork p) := by
  change execBcastWr id s = _
  unfold execBcastWr
  rw [hp]
  dsimp only
  rw [if_neg (by rw [hHub]; exact fun h => h.elim (absurd hKind) (fun h => nomatch h)), hTop]
  rfl

theorem exec_bcastWr_copy {s : State} {id pti g : Nat} {p : Pkt} (hp : s.pkt id = some p) (hKind : p.kind = 0x05) (hHere : p.atTile = some pti ∧ (s.row (rowOf pti)).power = 0) (hCopy : p.copyOf = some g)
    (hSound : p.poisoned = false) (v : State) : (∀ a, s.bcastOne (s.freshSrc p) pti = (v, some a) → exec (.bcastWr id) s = .next ((v.delPkt id).bcastGot g a 4)) ∧
      (s.bcastOne (s.freshSrc p) pti = (v, none) → exec (.bcastWr id) s = .next v) := by
  have hHub : p.inHub = false := by
    have arrived := hHere.1
    unfold Pkt.atTile at arrived
    split at arrived
    · split at arrived
      · next h => exact (Bool.not_eq_true' _).mp (And.right ((Bool.and_eq_true _ _).mp h))
      · exact nomatch arrived
    · exact nomatch arrived
  change (∀ a, _ → execBcastWr id s = _) ∧ (_ → execBcastWr id s = _)
  unfold execBcastWr
  rw [hp]
  dsimp only
  rw [if_neg (by rw [hHub]; exact fun h => h.elim (absurd hKind) (fun h => nomatch h)), hCopy]
  dsimp only
  rw [hHere.1]
  dsimp only
  rw [tileReady_awake hHere.2]
  dsimp only
  rw [if_neg (by rw [hSound]; decide)]
  exact ⟨fun a h => by rw [h]; rfl, fun h => by rw [h]; rfl⟩

/-! ### A waiting read of a glaze slice -/

section
variable {s : State} {g : GlazeReq} (ups : List (Nat × Nat)) (hg : s.net.glazeQ.find? (fun x => x.pkt.id == g.pkt.id) = some g) (hGot : g.got = [])
include hg hGot

theorem exec_glazeArbiterRead_all {v : State} {bs : List Byte} (hWords : g.pkt.words ≤ 64) (hFree : s.bankFree g.pti g.off (4 * g.pkt.words) rankEject = true)
    (hRead : (((struck s g.pti ups).glazeMove g.pti rankEject g.off (4 * g.pkt.words) 0).1.portRead g.pti 1 g.off g.pkt.words) = (v, some bs)) :
    exec (.glazeArbiterRead g.pkt.id ups) s = .next (State.reply { v with net := { v.net with glazeQ := s.net.glazeQ.filter (fun x => decide (x.pkt.id ≠ g.pkt.id)) } }
      g.pkt (g.pti / 156) (g.pti % 156) 0x02 [0, 0, 0, 0] (wordsOf bs)) := by
  have moved : ((struck s g.pti ups).glazeMove g.pti rankEject g.off (4 * g.pkt.words) 0).2 = 4 * g.pkt.words := glazeMove_all (by omega) ((bankFree_struck ups).trans hFree)
  have queue : ((struck s g.pti ups).glazeMove g.pti rankEject g.off (4 * g.pkt.words) 0).1.net.glazeQ = s.net.glazeQ := glazeBeats_glazeQ ..
  change execGlazeArbiterRead g.pkt.id ups s = _
  unfold execGlazeArbiterRead
  rw [hg]
  change ok ((struck s g.pti ups).glazeServe g) = _
  unfold State.glazeServe
  dsimp only
  rw [hGot, List.length_nil, moved, queue, Nat.add_zero, Nat.sub_zero, Nat.mul_div_cancel_left _ (by decide : 0 < 4), hRead]
  dsimp only
  rw [List.nil_append, if_neg (by rw [portRead_length hRead]; exact Nat.lt_irrefl _)]
  rfl

theorem exec_glazeArbiterRead_waits (hWords : g.pkt.words ≠ 0) (hClosed : s.bankOpen g.pti g.off = false) : ∃ u, exec (.glazeArbiterRead g.pkt.id ups) s = .next u ∧ g ∈ u.net.glazeQ := by
  have still : (struck s g.pti ups).glazeMove g.pti rankEject g.off (4 * g.pkt.words) 0 = (struck s g.pti ups, 0) := glazeMove_closed (by omega) ((bankOpen_struck ..).trans hClosed)
  have served : (struck s g.pti ups).glazeServe g =
      { struck s g.pti ups with net := { s.net with glazeQ := s.net.glazeQ.map (fun x => if x.pkt.id = g.pkt.id then { x with got := [] } else x) } } := by
    unfold State.glazeServe
    dsimp only
    rw [hGot, List.length_nil, still]
    dsimp only
    rw [Nat.zero_sub, Nat.zero_div, portRead_none]
    dsimp only
    rw [List.append_nil, if_pos (by rw [List.length_nil]; omega)]
    rfl
  refine ⟨(struck s g.pti ups).glazeServe g, ?_, ?_⟩
  · change execGlazeArbiterRead g.pkt.id ups s = _
    unfold execGlazeArbiterRead
    rw [hg]
    rfl
  · rw [served]
    refine List.mem_map.mpr ⟨g, List.mem_of_find?_eq_some hg, ?_⟩
    rw [if_pos rfl, ← hGot]

end

/-! ### Answers at the tile that asked -/

section
variable {s : State} {id pti kind : Nat} {p : Pkt} {c : XfPiece} (hGen : s.tileGenBad pti p = false) (hSound : p.poisoned = false) (hAt : s.answerAt id kind = some (p, pti, c))
include hGen hSound hAt

theorem takeAnswer_empty (f : State → Nat → Pkt → XfPiece → State) (hData : p.data = []) : s.takeAnswer id kind f = f (s.delPkt id) pti p c := by
  unfold State.takeAnswer
  rw [hAt]
  dsimp only
  rw [hGen, hSound, if_neg Bool.false_ne_true, if_neg Bool.false_ne_true, hData]
  rfl

theorem takeAnswer_other (f : State → Nat → Pkt → XfPiece → State) (hAwake : (s.row (rowOf pti)).power = 0) (hSpace : c.space ≠ 1) : s.takeAnswer id kind f = f (s.delPkt id) pti p c := by
  unfold State.takeAnswer
  rw [hAt]
  dsimp only
  rw [hGen, hSound, if_neg Bool.false_ne_true, if_neg Bool.false_ne_true]
  by_cases hData : p.data.isEmpty = true
  · exact if_pos hData
  · rw [if_neg hData, tileReady_awake hAwake]
    exact if_neg hSpace

theorem takeAnswer_glaze (f : State → Nat → Pkt → XfPiece → State) (hData : p.data ≠ []) (hAwake : (s.row (rowOf pti)).power = 0) (hSpace : c.space = 1) (v : State) :
    (s.glazePut p pti rankSu3 c.laddr ((bytesOfWords p.data).take c.bytes) = (v, true) → s.takeAnswer id kind f = (v.delPkt id).onTile pti fun t => t.answered c) ∧
    (s.glazePut p pti rankSu3 c.laddr ((bytesOfWords p.data).take c.bytes) = (v, false) → s.takeAnswer id kind f = v) := by
  unfold State.takeAnswer
  rw [hAt]
  dsimp only
  rw [hGen, hSound, if_neg Bool.false_ne_true, if_neg Bool.false_ne_true, if_neg (by rw [List.isEmpty_iff]; exact hData), tileReady_awake hAwake]
  dsimp only
  rw [if_pos hSpace]
  exact ⟨fun h => by rw [h], fun h => by rw [h]⟩

end

end Sys2Proof.Machine

namespace Sys2Proof.Safety
open Sys2Proof Sys2Proof.Machine Sys2Proof.Laws

/-- Settles O33: a tile that is awake serves a sound request at once, a glaze access whole where each of its beats finds its bank free, and takes a sound answer. -/
theorem endpointsAndAnswersComplete : Obligations.EndpointsAndAnswersComplete := by
  refine ⟨?requests, ?answers⟩
  case requests =>
    intro s id pti off tid p hp hId bs here live fits
    refine ⟨fun hHere hLive hKind hRegion => ?_, fun hHere hLive hFits hKind hRegion hFree => ?_, fun hHere hLive hFits hKind hRegion hBs hClosed => ?_,
      fun hHere hLive => exec_rdReq_glaze hp hHere hLive, fun u bs' hHere hLive => exec_rdReq_local hp hHere hLive, ?_, ?_, fun hHere => exec_wr_nack hp hHere,
      exec_bcastWr_source hp, fun g hKind hHere => exec_bcastWr_copy hp hKind hHere, bcastOne_local, fun as c => combine_error, fun as w => combine_nack, fun as => combine_acks,
      fun g b a => bcastGot_last a⟩
    · refine ⟨_, exec_wr_local hp hHere hLive hKind hRegion, ?_⟩
      rw [tile_reply, tile_delPkt, State.tile_onTile]
      exact ⟨rfl, fun a => Mem.read_store_outside bs _ off a, rfl, rfl⟩
    · obtain ⟨v, put, glaze, ls, r⟩ := glazePut_glaze (p := p) (length_bytesOfWords_take hFits.1) hFits.2 hFree
      have written := tile_reply (v.delPkt id) p (pti / 156) (pti % 156) 0x04 [0, 0, 0, 0] [] pti
      refine ⟨_, exec_wr_glaze hp hHere hLive hKind hRegion put, ?_⟩
      rw [written]
      exact ⟨glaze, fun a ha => (congrArg (Mem.read · a) glaze).trans (Mem.read_store_outside bs _ off a ha), ls, r⟩
    · refine ⟨_, exec_wr_glaze_waits hp hHere hLive hKind hRegion (glazePut_closed hBs hFits.2 hClosed), ?_, ?_⟩
      · have kept := State.tile_onTile s pti fun t => t.writeX 1 off []
        exact (congrArg (fun x : Tile => x.mem.glaze) kept :)
      · exact pkt_setPkt (p := p) ((pkt_onTile ..).trans hp) hId
    · exact fun g ups v bs' hg hGot hWords hFree => exec_glazeArbiterRead_all ups hg hGot hWords hFree
    · exact fun g ups hg hGot => exec_glazeArbiterRead_waits ups hg hGot
  case answers =>
    intro s id pti p c hGen hSound u awake bs wrote ended code op
    refine ⟨fun hAt hAwake hSpace => ?_, fun hAt hAwake hSpace => ?_, fun v hData hAwake hSpace hPut => ⟨fun hAt => ?_, fun hAt => ?_⟩, fun v hData hAwake hSpace hPut hAt => ?_, fun hLen hMade hFree => ?_,
      fun hData hAt => ?_, fun hData hAt => ?_, fun hData hAt => ?_, fun hData hAt => ?_⟩
    · exact (congrArg ok (takeAnswer_other hGen hSound hAt State.writeAnswer hAwake hSpace) :)
    · exact (congrArg ok (takeAnswer_other hGen hSound hAt State.writeAnswer hAwake hSpace) :)
    · exact (congrArg ok ((takeAnswer_glaze hGen hSound hAt State.writeAnswer hData hAwake hSpace v).1 hPut) :)
    · exact (congrArg ok ((takeAnswer_glaze hGen hSound hAt State.writeAnswer hData hAwake hSpace v).1 hPut) :)
    · exact (congrArg ok ((takeAnswer_glaze hGen hSound hAt State.writeAnswer hData hAwake hSpace v).2 hPut) :)
    · obtain ⟨v, put, glaze, -⟩ := glazePut_glaze (p := p) hLen hMade hFree
      exact ⟨v, put, glaze⟩
    · exact congrArg ok (takeAnswer_empty hGen hSound hAt _ hData)
    · exact congrArg ok (takeAnswer_empty hGen hSound hAt _ hData)
    · exact congrArg ok (takeAnswer_empty hGen hSound hAt _ hData)
    · exact congrArg ok (takeAnswer_empty hGen hSound hAt _ hData)

end Sys2Proof.Safety
end

section
/-!
PROOFS. The debug port at a glaze bank (R171, R466), and what a read through the arbiter path leaves.
-/
set_option Elab.async false
namespace Sys2Proof.Laws
open Sys2Proof Sys2Proof.Machine Sys2Proof.Safety

/-! ### The debug port at a glaze bank (R171, R466) -/

/-- No arbiter has counted a grant, and the debug port has had none, from one state to the other. -/
def SameGrants (s u : State) : Prop := u.net.arbs = s.net.arbs ∧ u.net.dbgLast = s.net.dbgLast

theorem SameGrants.of_net {s u : State} (h : u.net = s.net) : SameGrants s u := ⟨congrArg Net.arbs h, congrArg Net.dbgLast h⟩

theorem SameGrants.trans {s t u : State} (h : SameGrants s t) (k : SameGrants t u) : SameGrants s u := ⟨k.1.trans h.1, k.2.trans h.2⟩

theorem net_markDefect (s : State) (kind location spare : Nat) : (s.markDefect kind location spare).net = s.net := (Changes.markDefect.same .net (by simp)).symm

theorem sameGrants_glazeDbe (s : State) (pti word : Nat) (scrub : Bool) : SameGrants s (s.glazeDbe pti word scrub) := by
  unfold State.glazeDbe
  dsimp only
  split
  · exact ⟨rfl, rfl⟩
  · unfold SameGrants
    rw [net_markDefect, State.recordFault_net]
    exact ⟨rfl, rfl⟩

theorem sameGrants_portRead (s : State) (pti space a n : Nat) : SameGrants s (s.portRead pti space a n).1 := by
  unfold State.portRead
  dsimp only
  split
  · have counted (b : Nat) : State.net (if b = 0 then s else s.onTile pti fun u => { u with blk := { u.blk with sbe := u.blk.sbe + b } }) = s.net := by
      split
      · rfl
      · exact State.onTile_net ..
    split
    · refine .of_net ?_
      dsimp only
      rw [State.onTile_net]
      exact counted _
    · exact .of_net (counted _)
  · have counted (b : Nat) (r : DieReg) : SameGrants s (if b = 0 then s else { s.setDie (pti / 156) r with faults := { s.faults with sbeTotal := s.faults.sbeTotal + b } }) := by
      split <;> exact ⟨rfl, rfl⟩
    split
    · exact (counted _ _).trans (sameGrants_glazeDbe ..)
    · exact counted _ _

theorem sameGrants_of_portRead {s u : State} {pti space a n : Nat} {o : Option (List Byte)} (h : s.portRead pti space a n = (u, o)) : SameGrants s u := by
  have kept := sameGrants_portRead s pti space a n
  rw [h] at kept
  exact kept

/-- A read through the arbiter path leaves the tiles. -/
theorem tile_portRead_glaze (s : State) (pti a n p : Nat) : (s.portRead pti 1 a n).1.tile p = s.tile p := by
  have counted (b : Nat) (r : DieReg) : State.tile (if b = 0 then s else { s.setDie (pti / 156) r with faults := { s.faults with sbeTotal := s.faults.sbeTotal + b } }) p = s.tile p := by
    split <;> rfl
  unfold State.portRead
  dsimp only
  rw [if_neg (by decide)]
  split
  · exact (tile_of_changes Changes.glazeDbe (by simp) p).trans (counted _ _)
  · exact counted _ _

theorem tile_of_portRead_glaze {s u : State} {pti a n : Nat} {o : Option (List Byte)} (h : s.portRead pti 1 a n = (u, o)) (p : Nat) : u.tile p = s.tile p := by
  have kept := tile_portRead_glaze s pti a n p
  rw [h] at kept
  exact kept

/-- The debug port has taken its cycle for the access under way. -/
def dapTaken (s : State) (x : DapAccess) : State :=
  let s2 := if x.space = 1 then s.dbgTake x.pti else s
  { s2 with jtag := { s2.jtag with access := none } }

theorem arbs_dapTaken (s : State) (x : DapAccess) : (dapTaken s x).net.arbs = s.net.arbs := by
  unfold dapTaken
  dsimp only
  split <;> rfl

/-- The access under way is made on a state, and its answer is left. -/
def dapMade (s : State) (x : DapAccess) : State :=
  match x.data with
  | some v => ((dapTaken s x).onTile x.pti (fun t => t.writeX x.space x.off (leBytes 4 v))).dapEnd 0 none
  | none =>
    match (dapTaken s x).portRead x.pti x.space x.off 1 with
    | (s4, some bs) => s4.dapEnd 0 (some (leNat bs))
    | (s4, none) => s4.dapEnd 4 none

theorem dapServe_waits {s : State} {x : DapAccess} (hx : s.jtag.access = some x) (hAwake : (s.row (rowOf x.pti)).power = 0) (hSpace : x.space = 1) (hMay : s.dbgMay = false) : s.dapServe = s := by
  unfold State.dapServe
  rw [hx]
  dsimp only
  rw [tileReady_awake hAwake]
  exact if_pos ⟨hSpace, congrArg not hMay⟩

theorem dapServe_made {s : State} {x : DapAccess} (hx : s.jtag.access = some x) (hAwake : (s.row (rowOf x.pti)).power = 0) (hMay : s.dbgMay = true) : s.dapServe = dapMade s x := by
  unfold State.dapServe
  rw [hx]
  dsimp only
  rw [tileReady_awake hAwake]
  dsimp only
  rw [if_neg fun h => by rw [hMay] at h; exact nomatch h.2]
  rfl

theorem arbs_dapMade (s : State) (x : DapAccess) : (dapMade s x).net.arbs = s.net.arbs := by
  unfold dapMade
  split
  · next v _ =>
    change (State.onTile (dapTaken s x) x.pti fun t => t.writeX x.space x.off (leBytes 4 v)).net.arbs = _
    rw [State.onTile_net]
    exact arbs_dapTaken s x
  · split
    · next heq => exact (sameGrants_of_portRead heq).1.trans (arbs_dapTaken s x)
    · next heq => exact (sameGrants_of_portRead heq).1.trans (arbs_dapTaken s x)

theorem arbs_dapServe (s : State) : s.dapServe.net.arbs = s.net.arbs := by
  unfold State.dapServe
  split
  · rfl
  · next x hx =>
    have ready : (s.tileReady x.pti).1.net = s.net := (Changes.tileReady.same .net (by simp)).symm
    split
    · next s1 heq =>
      rw [heq] at ready
      exact congrArg Net.arbs ready
    · next s1 heq =>
      rw [heq] at ready
      split
      · exact congrArg Net.arbs ready
      · have made := arbs_dapMade s1 x
        unfold dapMade dapTaken at made
        exact made.trans (congrArg Net.arbs ready)

/-- At a glaze bank the debug port's access freezes the tile, and its time is kept. -/
theorem dapMade_freezes {s : State} {x : DapAccess} (hSpace : x.space = 1) : ((dapMade s x).tile x.pti).iss.dbgFreeze = true ∧ (dapMade s x).net.dbgLast = some s.time.now := by
  have taken : dapTaken s x = { s.dbgTake x.pti with jtag := { (s.dbgTake x.pti).jtag with access := none } } := by
    unfold dapTaken
    dsimp only
    rw [if_pos hSpace]
  have frozen : ((dapTaken s x).tile x.pti).iss.dbgFreeze = true := by
    rw [taken]
    exact congrArg (fun t : Tile => t.iss.dbgFreeze) (Tab.get_set_same ..)
  have last : (dapTaken s x).net.dbgLast = some s.time.now := by rw [taken]; rfl
  unfold dapMade
  rw [hSpace]
  split
  · next v _ =>
    change ((State.onTile (dapTaken s x) x.pti fun t => t.writeX 1 x.off (leBytes 4 v)).tile x.pti).iss.dbgFreeze = true ∧
      (State.onTile (dapTaken s x) x.pti fun t => t.writeX 1 x.off (leBytes 4 v)).net.dbgLast = _
    rw [State.tile_onTile, State.onTile_net]
    exact ⟨frozen, last⟩
  · split
    · next heq => exact ⟨(congrArg (fun t : Tile => t.iss.dbgFreeze) (tile_of_portRead_glaze heq x.pti)).trans frozen, (sameGrants_of_portRead heq).2.trans last⟩
    · next heq => exact ⟨(congrArg (fun t : Tile => t.iss.dbgFreeze) (tile_of_portRead_glaze heq x.pti)).trans frozen, (sameGrants_of_portRead heq).2.trans last⟩

end Sys2Proof.Laws
end

section
/-!
PROOFS. The arbiters, the package edge and the glaze scrub (R163, R166, R168, R171, R186, R265, R272, R275, R280, R412).
-/
set_option Elab.async false
namespace Sys2Proof.Laws
open Sys2Proof Sys2Proof.Machine Sys2Proof.Safety

/-! ### The frame under construction -/

theorem emq_closeFrame (s : State) (l : Nat) : ((s.closeFrame l).link l).tx.emq = (s.link l).tx.emq := (congrArg (fun k : Link => k.tx.emq) (State.link_setLink ..) :)

theorem emq_placeFlit (s : State) (l f : Nat) : ((s.placeFlit l f).link l).tx.emq = (s.link l).tx.emq := by
  unfold State.placeFlit
  dsimp only
  split
  · exact (emq_closeFrame ..).trans (congrArg (fun k : Link => k.tx.emq) (State.link_setLink ..) :)
  · exact (congrArg (fun k : Link => k.tx.emq) (State.link_setLink ..) :)

theorem mem_out_placeFlit {s : State} {l f : Nat} {x : Out} (h : x ∈ s.out) : x ∈ (s.placeFlit l f).out := by
  unfold State.placeFlit
  dsimp only
  split
  · exact List.mem_append_left _ h
  · exact h

end Sys2Proof.Laws

namespace Sys2Proof.Machine
open Sys2Proof Sys2Proof.Laws Sys2Proof.Safety

/-! ### Arbiters and emergency requesters -/

section
variable {s s0 : State} {idx t : Nat} (h0 : s.advance t = s0)
include h0

theorem arbs_advance : s0.net.arbs = s.net.arbs := h0 ▸ congrArg Net.arbs (Changes.advance.same .net (by simp)).symm

theorem exec_emergencyGrant_debug : ∃ u, exec (.emergencyGrant 1 idx t) s = .next u ∧ u.net.arbs = s.net.arbs ∧
    ((∀ x, s0.jtag.access = some x → x.pti = idx / 40 → x.space = 1 → (s0.row (rowOf x.pti)).power = 0) →
      (s0.dbgMay = true → (u.tile (idx / 40)).iss.dbgFreeze = true ∧ u.net.dbgLast = some s0.time.now) ∧ (s0.dbgMay = false → u = s0)) := by
  have arbs := arbs_advance h0
  have grant : let u := if s0.dbgMay = true then s0.dbgTake (idx / 40) else s0
      u.net.arbs = s.net.arbs ∧ (s0.dbgMay = true → (u.tile (idx / 40)).iss.dbgFreeze = true ∧ u.net.dbgLast = some s0.time.now) ∧ (s0.dbgMay = false → u = s0) := by
    intro u
    cases hMay : s0.dbgMay with
    | true =>
      have taken : u = s0.dbgTake (idx / 40) := if_pos hMay
      rw [taken]
      exact ⟨arbs, fun _ => ⟨congrArg (fun t : Tile => t.iss.dbgFreeze) (Tab.get_set_same ..), rfl⟩, nofun⟩
    | false =>
      have waits : u = s0 := if_neg (by rw [hMay]; decide)
      rw [waits]
      exact ⟨arbs, nofun, fun _ => rfl⟩
  change ∃ u, execEmergencyGrant 1 idx t s = .next u ∧ _
  unfold execEmergencyGrant
  rw [h0]
  dsimp only
  rw [if_pos rfl]
  split
  · next x hx =>
    split
    · next hGlaze =>
      refine ⟨_, rfl, (arbs_dapServe s0).trans arbs, fun awake => ?_⟩
      have hAwake := awake x hx hGlaze.1 hGlaze.2
      refine ⟨fun hMay => ?_, fun hMay => dapServe_waits hx hAwake hGlaze.2 hMay⟩
      rw [dapServe_made hx hAwake hMay, ← hGlaze.1]
      exact dapMade_freezes hGlaze.2
    · exact ⟨_, rfl, grant.1, fun _ => grant.2⟩
  · exact ⟨_, rfl, grant.1, fun _ => grant.2⟩

theorem exec_emergencyGrant_refresh : ∃ u, exec (.emergencyGrant 2 idx t) s = .next u ∧ u.net.arbs = s.net.arbs ∧ ((u.stack (idx / 32)).chan (idx % 32)).refreshed = s0.time.now := by
  change ∃ u, execEmergencyGrant 2 idx t s = .next u ∧ _
  unfold execEmergencyGrant
  rw [h0]
  refine ⟨_, (if_neg (by decide)).trans (if_pos rfl), (arbs_advance h0 :), ?_⟩
  simp only [State.stack, Stack.chan, Tab.get_set_same]

theorem exec_emergencyGrant_link : let s1 := s0.flushTx idx
    let k := s1.link idx
    ∃ u, exec (.emergencyGrant 3 idx t) s = .next u ∧ u.net.arbs = s.net.arbs ∧
      (∀ m r, s1.gate = false → k.usable = true → k.tx.curIns = 0 → k.tx.buf.length < 256 → k.tx.replayTo ≤ s1.time.now → k.handoff = none → k.tx.emq = m :: r →
        (u.link idx).tx.emq = r ∧ Out.slot idx (.mgt m) ∈ u.out) := by
  intro s1 k
  have arbs : s1.net.arbs = s.net.arbs := (congrArg Net.arbs (Changes.flushTx.same .net (by simp)).symm).trans (arbs_advance h0)
  change ∃ u, execEmergencyGrant 3 idx t s = .next u ∧ _
  unfold execEmergencyGrant
  rw [h0]
  dsimp only
  rw [if_neg (by decide), if_neg (by decide), if_pos rfl]
  split
  · next hHeld =>
    refine ⟨_, rfl, arbs, fun m r hGate hUse hIns hBuf hReplay hHand _ => absurd hHeld ?_⟩
    rw [hGate, hUse, hIns, hHand]
    simp only [Bool.false_eq_true, Bool.not_true, ne_eq, not_true_eq_false, Option.isSome_none, false_or, or_false, not_or, Nat.not_le, Nat.not_lt]
    exact ⟨hBuf, hReplay⟩
  · split
    · next hEmpty => exact ⟨_, rfl, arbs, fun m r _ _ _ _ _ _ hq => nomatch (hEmpty.symm.trans hq)⟩
    · next m r hq =>
      refine ⟨_, rfl, (congrArg Net.arbs (Changes.placeFlit.same .net (by simp)).symm).trans arbs, fun m' r' _ _ _ _ _ _ hq' => ?_⟩
      obtain ⟨rfl, rfl⟩ := List.cons.inj (hq.symm.trans hq')
      refine ⟨(emq_placeFlit ..).trans (congrArg (fun k : Link => k.tx.emq) (State.link_setLink ..) :), mem_out_placeFlit (List.mem_append_right _ (List.mem_singleton.mpr rfl))⟩

end

/-! ### The package edge -/

/-- The slots that carry packets. -/
def isPktSlot : Slot → Bool
  | .pkt _ => true
  | _ => false

/-- A request that a link brings, as the H-dies take it. -/
def edgePkt (s : State) (l : Nat) (p : LPkt) : Pkt :=
  { id := 0, kind := p.kind, addr := p.addr, lpn := s.lpn, tag := p.tag, srcEp := 0, dstEp := 0, words := p.words, gen := p.gen, genChk := !p.mir,
    ext := p.ext, data := p.data, asker := .link l p.tag p.slpn p.tc p.mir, dest := .hub 0, inHub := true, hub := if l < 48 then 0 else 1,
    die := 0, plane := 0, row := 0, col := 0, trow := 0, tcol := 0, hops := 0, arrived := false, poisoned := false, via := [], since := 0, inp := 4, copyOf := none }

/-- The count of misrouted packets of a link goes up. -/
def misrouted (s : State) (l : Nat) : State := s.setLink l { s.link l with misroute := satInc 16 (s.link l).misroute }

/-- The count of packets of another generation of a link goes up. -/
def genDropped (s : State) (l : Nat) : State := s.setLink l { s.link l with genDrop := satInc 16 (s.link l).genDrop }

/-- An answer to a packet goes back by the link it came on. -/
def edgeBack (l : Nat) (p : LPkt) (s : State) (kind w4 : Nat) : State :=
  s.sendRsp { p with hops := 0, dlpn := p.slpn, slpn := s.lpn, words := 0, kind := kind, ext := ext4 w4, data := [] } l

/-- What the package edge makes of a packet that it has taken. -/
def edgeServe (u : State) (l : Nat) (p : LPkt) : Out1 :=
  if !u.carriesPkt then ok (misrouted u l)
  else if p.dlpn ≠ u.lpn ∨ u.spr.displaced then ok (if isRsp p.kind then misrouted u l else edgeBack l p (misrouted u l) 0x21 0x0004)
  else if isRsp p.kind then
    if !p.mir ∧ !(u.ctx.genLive && p.gen == u.ctx.gen) then ok (genDropped u l)
    else if p.tag < 0x1000 then
      match (u.bridge (p.tag / 512)).find? (fun e => e.tag == p.tag) with
      | some e => ok (u.addPkt { edgePkt u l p with asker := e.asker, via := [p.tag / 512], genChk := true })
      | none => ok u
    else if p.tag < 0x5000 then ok (u.addPkt { edgePkt u l p with asker := .dma ((p.tag - 0x1000) / 1024), arrived := true })
    else ok (u.addPkt { edgePkt u l p with asker := .loader, arrived := true })
  else if p.mir then ok (u.addPkt { edgePkt u l p with arrived := true })
  else if !(u.ctx.genLive && p.gen == u.ctx.gen) then ok (edgeBack l p (genDropped u l) 0x20 (u.nackWord 3))
  else ok (u.hubIn (edgePkt u l p))

theorem exec_pkt {s u : State} {l t : Nat} {p : LPkt} (hTake : (s.advance t).takeRx l isPktSlot = some (.pkt p, u)) : exec (.pkt l t) s = edgeServe u l p := by
  change execPkt l t s = _
  unfold execPkt
  dsimp only
  split
  · next p' u' heq =>
    obtain ⟨hp, rfl⟩ := Prod.mk.inj (Option.some.inj (heq.symm.trans hTake))
    cases hp
    rfl
  · next hOther => exact absurd hTake (hOther p u)

section
variable {u : State} {l : Nat} {p : LPkt} (hCarries : u.carriesPkt = true)
include hCarries

theorem edgeServe_other (hLpn : p.dlpn ≠ u.lpn) : edgeServe u l p = ok (if isRsp p.kind = true then misrouted u l else edgeBack l p (misrouted u l) 0x21 0x0004) :=
  (if_neg (by rw [hCarries]; decide)).trans (if_pos (.inl hLpn))

variable (hLpn : p.dlpn = u.lpn) (hHere : u.spr.displaced = false)
include hLpn hHere

omit hCarries in
theorem edgeServe_mine : ¬ (p.dlpn ≠ u.lpn ∨ u.spr.displaced = true) := by rw [hLpn, hHere]; simp

theorem edgeServe_dropped (hRsp : isRsp p.kind = true) (hMir : p.mir = false) (hLive : u.ctx.genLive = false) : edgeServe u l p = ok (genDropped u l) :=
  (if_neg (by rw [hCarries]; decide)).trans ((if_neg (edgeServe_mine hLpn hHere)).trans ((if_pos hRsp).trans (if_pos ⟨congrArg not hMir, by rw [hLive]; rfl⟩)))

theorem edgeServe_stale (hReq : isRsp p.kind = false) (hMir : p.mir = false) (hGen : p.gen ≠ u.ctx.gen) : edgeServe u l p = ok (edgeBack l p (genDropped u l) 0x20 (u.nackWord 3)) := by
  have stale : (!(u.ctx.genLive && p.gen == u.ctx.gen)) = true := by rw [beq_eq_false_iff_ne.mpr hGen, Bool.and_false]; rfl
  exact (if_neg (by rw [hCarries]; decide)).trans ((if_neg (edgeServe_mine hLpn hHere)).trans
    ((if_neg (by rw [hReq]; decide)).trans ((if_neg (by rw [hMir]; decide)).trans (if_pos stale))))

variable (hLive : u.ctx.genLive = true) (hGen : p.gen = u.ctx.gen)
include hLive hGen

theorem edgeServe_request (hReq : isRsp p.kind = false) (hMir : p.mir = false) : edgeServe u l p = ok (u.hubIn (edgePkt u l p)) :=
  (if_neg (by rw [hCarries]; decide)).trans ((if_neg (edgeServe_mine hLpn hHere)).trans
    ((if_neg (by rw [hReq]; decide)).trans ((if_neg (by rw [hMir]; decide)).trans (if_neg (by rw [hLive, hGen, beq_self_eq_true]; decide)))))

theorem edgeServe_bridged {e : BrEnt} (hRsp : isRsp p.kind = true) (hTag : p.tag < 0x1000) (hEnt : (u.bridge (p.tag / 512)).find? (fun x => x.tag == p.tag) = some e) :
    edgeServe u l p = ok (u.addPkt { edgePkt u l p with asker := e.asker, via := [p.tag / 512], genChk := true }) := by
  refine (if_neg (by rw [hCarries]; decide)).trans ((if_neg (edgeServe_mine hLpn hHere)).trans
    ((if_pos hRsp).trans ((if_neg fun h => ?_).trans ((if_pos hTag).trans ?_))))
  · rw [hLive, hGen, beq_self_eq_true] at h
    exact nomatch h.2
  · rw [hEnt]

end

/-! ### The scrub of a glaze slice (R186) -/

/-- The die whose scrub has looked at its enable, at the first beat of a bank row. -/
def scrubEnabled (r : DieReg) : DieReg := { r with scrubNow := if r.scrubAt % 12480 = 0 then r.scrubEn else r.scrubNow }

/-- The tile whose slice the scrub of a die visits next, and the byte at which its beat begins. -/
def scrubTile (s : State) (d : Nat) : Nat := d * 156 + (s.die d).scrubAt % 6240 / 40

def scrubByte (s : State) (d : Nat) : Nat := (s.die d).scrubAt / 6240 / 2 * 5120 + (s.die d).scrubAt % 40 * 128 + (s.die d).scrubAt / 6240 % 2 * 64

/-- The scrub of a die stands where it stood, with the passes it had. -/
def SameScrub (d : Nat) (s u : State) : Prop := (u.die d).scrubAt = (s.die d).scrubAt ∧ (u.die d).scrubPass = (s.die d).scrubPass

theorem sameScrub_setDie {s : State} (d : Nat) {k : Nat} {r : DieReg} (hAt : r.scrubAt = (s.die k).scrubAt) (hPass : r.scrubPass = (s.die k).scrubPass) : SameScrub d s (s.setDie k r) := by
  unfold SameScrub
  by_cases hd : d = k
  · rw [hd, State.die_setDie]
    exact ⟨hAt, hPass⟩
  · rw [State.die_setDie_ne s k d r hd]
    exact ⟨rfl, rfl⟩

theorem SameScrub.trans {d : Nat} {s t u : State} (h : SameScrub d s t) (k : SameScrub d t u) : SameScrub d s u := ⟨k.1.trans h.1, k.2.trans h.2⟩

theorem SameScrub.of_net {d : Nat} {s u v : State} (h : SameScrub d s u) (k : v.net = u.net) : SameScrub d s v := by
  unfold SameScrub State.die
  rw [k]
  exact h

theorem sameScrub_glazeDbe (d : Nat) (s : State) (pti word : Nat) (scrub : Bool) : SameScrub d s (s.glazeDbe pti word scrub) := by
  have kept (r : DieReg) : SameScrub d s (s.setDie (pti / 156) (if (s.die (pti / 156)).gdbeValid = true then s.die (pti / 156)
      else { s.die (pti / 156) with gdbeValid := true, gdbeScrub := scrub, gdbeSlice := pti % 156, gdbeWord := word })) := by
    split
    · exact sameScrub_setDie d rfl rfl
    · exact sameScrub_setDie d rfl rfl
  unfold State.glazeDbe
  dsimp only
  split
  · exact kept (s.die (pti / 156))
  · exact (kept (s.die (pti / 156))).of_net (by rw [net_markDefect, State.recordFault_net])

section
variable {s : State} {d : Nat} {ups : List (Nat × Nat)} {wrote : Bool} (hOn : (scrubEnabled (s.die d)).scrubNow = true) (hZero : (s.die d).zeroing = false)
include hOn hZero

theorem scrub_not_off : ¬ ((!(scrubEnabled (s.die d)).scrubNow) = true ∨ (scrubEnabled (s.die d)).zeroing = true) := by
  rw [hOn]
  exact fun h => h.elim (fun h => nomatch h) fun h => nomatch (hZero.symm.trans h)

theorem exec_glazeScrubVisit_waits (hSlice : (s.slices d).contains ((s.die d).scrubAt % 6240 / 40) = true) (hClosed : s.bankOpen (scrubTile s d) (scrubByte s d) = false) :
    exec (.glazeScrubVisit d ups wrote) s = .next s :=
  (if_neg (scrub_not_off hOn hZero)).trans ((if_neg (by rw [Bool.not_eq_true', Bool.not_eq_false]; exact hSlice)).trans (if_pos (congrArg not hClosed)))

theorem exec_glazeScrubVisit_asks (hSlice : (s.slices d).contains ((s.die d).scrubAt % 6240 / 40) = true) (hOpen : s.bankOpen (scrubTile s d) (scrubByte s d) = true)
    (hMay : s.mayUse 1 (bankIdx (scrubTile s d) (scrubByte s d)) rankScrub = false) :
    exec (.glazeScrubVisit d ups wrote) s = .next (s.askGrant 1 (bankIdx (scrubTile s d) (scrubByte s d)) rankScrub) :=
  (if_neg (scrub_not_off hOn hZero)).trans ((if_neg (by rw [Bool.not_eq_true', Bool.not_eq_false]; exact hSlice)).trans
    ((if_neg (by rw [Bool.not_eq_true', Bool.not_eq_false]; exact hOpen)).trans (if_pos (congrArg not hMay))))

/-- A visit that is not held moves the scrub on by one beat. -/
theorem exec_glazeScrubVisit_moves (hGo : (s.slices d).contains ((s.die d).scrubAt % 6240 / 40) = false ∨
      (s.bankOpen (scrubTile s d) (scrubByte s d) = true ∧ s.mayUse 1 (bankIdx (scrubTile s d) (scrubByte s d)) rankScrub = true)) :
    ∃ v, exec (.glazeScrubVisit d ups wrote) s = .next v ∧ (v.die d).scrubAt = (if 2048 * 6240 ≤ (s.die d).scrubAt + 1 then 0 else (s.die d).scrubAt + 1) ∧
      (v.die d).scrubPass = (if 2048 * 6240 ≤ (s.die d).scrubAt + 1 then min 0xFFFFFFFF ((s.die d).scrubPass + 1) else (s.die d).scrubPass) := by
  let wrap := decide (2048 * 6240 ≤ (s.die d).scrubAt + 1)
  let s1 := s.setDie d { scrubEnabled (s.die d) with
    scrubAt := if wrap = true then 0 else (s.die d).scrubAt + 1, scrubPass := if wrap = true then min 0xFFFFFFFF ((s.die d).scrubPass + 1) else (s.die d).scrubPass }
  have moved (v : State) (h : SameScrub d s1 v) : (v.die d).scrubAt = (if 2048 * 6240 ≤ (s.die d).scrubAt + 1 then 0 else (s.die d).scrubAt + 1) ∧
      (v.die d).scrubPass = (if 2048 * 6240 ≤ (s.die d).scrubAt + 1 then min 0xFFFFFFFF ((s.die d).scrubPass + 1) else (s.die d).scrubPass) := by
    have stands : s1.die d = _ := State.die_setDie ..
    rw [h.1, h.2, stands]
    simp only [wrap, decide_eq_true_eq]
    exact ⟨trivial, trivial⟩
  have off := scrub_not_off hOn hZero
  cases hSlice : (s.slices d).contains ((s.die d).scrubAt % 6240 / 40) with
  | false => exact ⟨s1, (if_neg off).trans (if_pos (congrArg not hSlice)), moved s1 ⟨rfl, rfl⟩⟩
  | true =>
    obtain ⟨hOpen, hMay⟩ := hGo.resolve_left (by rw [hSlice]; exact Bool.noConfusion)
    unfold scrubTile scrubByte at hOpen hMay
    unfold scrubEnabled at off
    dsimp only at off
    change ∃ v, execGlazeScrubVisit d ups wrote s = .next v ∧ _
    unfold execGlazeScrubVisit
    dsimp only
    rw [if_neg off, hSlice, hOpen, hMay, if_neg (by decide), if_neg (by decide), if_neg (by decide)]
    have counted (u : State) (n : Nat) : SameScrub d u (u.setDie d { u.die d with glzSbe := n }) := sameScrub_setDie d rfl rfl
    split
    · refine ⟨_, rfl, moved _ ?_⟩
      refine .trans ?_ (sameScrub_glazeDbe d _ _ _ _)
      exact counted _ _
    · exact ⟨_, rfl, moved _ (counted _ _)⟩

end

end Sys2Proof.Machine

namespace Sys2Proof.Safety
open Sys2Proof Sys2Proof.Machine Sys2Proof.Laws

/-- Settles O34: each kind of emergency requester leaves the counts of the arbiters, the edge serves a packet by its kind and generation, and a scrub's visit moves it on by one beat. -/
theorem arbitersPackageEdgeAndGlazeScrub : Obligations.ArbitersPackageEdgeAndGlazeScrub := by
  refine ⟨⟨fun s kind idx reqs rsp => ?grant, fun s kind idx t => ?emergency⟩, fun s u l t d p ups wrote => ?edge⟩
  case grant =>
    intro taken
    refine ⟨fun hk => ?_, fun hk => ?_⟩
    · change execArbiterGrant kind idx reqs rsp s = _
      unfold execArbiterGrant
      dsimp only
      rw [if_neg hk, if_neg hk]
      rfl
    · subst hk
      rfl
  case emergency =>
    by_cases hDebug : kind = 1
    · subst hDebug
      obtain ⟨u, runs, arbs, served⟩ := exec_emergencyGrant_debug (s := s) (idx := idx) (t := t) rfl
      exact ⟨u, runs, arbs, fun _ awake => (served awake).1, fun _ awake => (served awake).2, nofun, nofun⟩
    by_cases hLake : kind = 2
    · subst hLake
      obtain ⟨u, runs, arbs, refreshed⟩ := exec_emergencyGrant_refresh (s := s) (idx := idx) (t := t) rfl
      exact ⟨u, runs, arbs, nofun, nofun, nofun, fun _ => refreshed⟩
    by_cases hLink : kind = 3
    · subst hLink
      obtain ⟨u, runs, arbs, sent⟩ := exec_emergencyGrant_link (s := s) (idx := idx) (t := t) rfl
      exact ⟨u, runs, arbs, nofun, nofun, fun _ => sent, nofun⟩
    · exact ⟨s.advance t, (if_neg hDebug).trans ((if_neg hLake).trans (if_neg hLink)), arbs_advance rfl, fun h => absurd h hDebug, fun h => absurd h hDebug, fun h => absurd h hLink,
        fun h => absurd h hLake⟩
  case edge =>
    intro isPkt k mis drop back taken mine live
    have serves : taken → exec (.pkt l t) s = edgeServe u l p := fun h => exec_pkt h
    refine ⟨fun h hc => (serves h).trans (if_pos (congrArg not hc)), fun h hc hl => (serves h).trans (edgeServe_other hc hl), fun h hm hr hMir hg => ?_, fun h hm hq hMir hg => ?_,
      fun h hm hl hq hMir => ?_, fun e h hm hl hr hMir hTag hEnt => ?_, ?_⟩
    · exact (serves h).trans (edgeServe_dropped hm.1 hm.2.1 hm.2.2 hr hMir hg)
    · exact (serves h).trans (edgeServe_stale hm.1 hm.2.1 hm.2.2 hq hMir hg)
    · exact ⟨_, (serves h).trans (edgeServe_request hm.1 hm.2.1 hm.2.2 hl.1 hl.2 hq hMir), rfl, rfl, rfl, rfl, congrArg not hMir, rfl, congrArg (Asker.link l p.tag p.slpn p.tc) hMir⟩
    · exact ⟨_, _, (serves h).trans (edgeServe_bridged hm.1 hm.2.1 hm.2.2 hl.1 hl.2 hr hTag hEnt), mem_addPkt .., rfl, rfl, rfl, rfl⟩
    · intro r slice pti a may hOn hZero
      exact ⟨exec_glazeScrubVisit_waits hOn hZero, exec_glazeScrubVisit_asks hOn hZero, exec_glazeScrubVisit_moves hOn hZero⟩

end Sys2Proof.Safety
end

section
/-!
PROOFS. The registration of a lake request (R195, R205, R208, R210, R211, R215, R217).
-/
set_option Elab.async false
namespace Sys2Proof.Laws
open Sys2Proof Sys2Proof.Machine Sys2Proof.Safety

/-! ### What a check at the pins leaves of a stack -/

/-- A stack keeps its generation, its zeroing and its count of stale requests, and lake its bytes. -/
def SameStack (k : Nat) (s u : State) : Prop :=
  (u.stack k).gen = (s.stack k).gen ∧ (u.stack k).zeroing = (s.stack k).zeroing ∧ (u.stack k).genDrop = (s.stack k).genDrop ∧ u.lake.mem = s.lake.mem

theorem SameStack.refl (k : Nat) (s : State) : SameStack k s s := ⟨rfl, rfl, rfl, rfl⟩

theorem SameStack.of_lake {k : Nat} {s u v : State} (h : SameStack k s u) (hv : v.lake = u.lake) : SameStack k s v := by
  unfold SameStack State.stack
  rw [hv]
  exact h

theorem noteDbe_keeps (st : Stack) (so op : Nat) (scrub : Bool) :
    (st.noteDbe so op scrub).gen = st.gen ∧ (st.noteDbe so op scrub).zeroing = st.zeroing ∧ (st.noteDbe so op scrub).genDrop = st.genDrop := by
  unfold Stack.noteDbe
  split <;> exact ⟨rfl, rfl, rfl⟩

theorem sameStack_setStack {k : Nat} {s : State} {st : Stack} (hGen : st.gen = (s.stack k).gen) (hZero : st.zeroing = (s.stack k).zeroing) (hDrop : st.genDrop = (s.stack k).genDrop) :
    SameStack k s (s.setStack k st) := by
  unfold SameStack
  rw [State.stack_setStack]
  exact ⟨hGen, hZero, hDrop, rfl⟩

theorem sameStack_pinNote (s : State) (k a n : Nat) (bad : Bool) : SameStack k s (s.pinNote k a n bad) := by
  have counted : SameStack k s (s.setStack k { s.stack k with sbe := min 0xFFFF ((s.stack k).sbe + n) }) := sameStack_setStack rfl rfl rfl
  unfold State.pinNote
  dsimp only
  split
  · obtain ⟨hGen, hZero, hDrop⟩ := noteDbe_keeps { s.stack k with sbe := min 0xFFFF ((s.stack k).sbe + n) } (lakeSo s.lake.mode a) 6 false
    have noted : SameStack k s (s.setStack k (Stack.noteDbe { s.stack k with sbe := min 0xFFFF ((s.stack k).sbe + n) } (lakeSo s.lake.mode a) 6 false)) := sameStack_setStack hGen hZero hDrop
    refine ⟨?_, ?_, ?_, rfl⟩
    · exact (congrArg Stack.gen (State.stack_setStack ..)).trans hGen
    · exact (congrArg Stack.zeroing (State.stack_setStack ..)).trans hZero
    · exact (congrArg Stack.genDrop (State.stack_setStack ..)).trans hDrop
  · exact counted.of_lake rfl

theorem sameStack_lakeReply (s : State) (rsp : List (Nat × Nat)) (k : Nat) (p : Pkt) (kind : Nat) (ext : List Nat) (data : List Word) : SameStack k s (s.lakeReply rsp k p kind ext data) := by
  have found : SameStack k s (s.pinFound k p (pinCheck (p.answer kind ext data) rsp)) := sameStack_pinNote ..
  unfold State.lakeReply
  dsimp only
  split
  · split
    · split <;> exact found.of_lake rfl
    split
    · exact found
    · exact found.of_lake rfl
  · split
    · exact found
    · exact found.of_lake rfl
  · split
    · exact found
    · exact found.of_lake (Changes.reply.same .lake (by simp)).symm

/-! ### The service of a request -/

theorem lakeRun_free {s : State} {k : Nat} {p : Pkt} {rsp : List (Nat × Nat)} (hAwake : s.lakeAsleep (s.lakeNeeds k p) = []) (hCopies : s.lakeCopies (s.lakeNeeds k p) = false)
    (hFirst : s.waitsBefore k p = false) (hFree : s.chanBusy (s.lakeNeeds k p) p.lakeQueue = []) :
    s.lakeRun k p rsp = (((s.lakeUse (s.lakeNeeds k p)).chanUse (s.lakeNeeds k p) p.lakeQueue).lakeCount (s.lakeRanges k p)).lakeApply k p rsp := by
  unfold State.lakeRun
  dsimp only
  rw [hAwake, hCopies, hFirst, hFree]
  rfl

theorem lakeRun_busy {s : State} {k : Nat} {p : Pkt} {rsp : List (Nat × Nat)} (hAwake : s.lakeAsleep (s.lakeNeeds k p) = []) (hCopies : s.lakeCopies (s.lakeNeeds k p) = false)
    (hFirst : s.waitsBefore k p = false) (hBusy : s.chanBusy (s.lakeNeeds k p) p.lakeQueue ≠ []) :
    s.lakeRun k p rsp = (s.chanAsk (s.lakeNeeds k p) p.lakeQueue).lakeWait k p.id := by
  have busy : (!(s.chanBusy (s.lakeNeeds k p) p.lakeQueue).isEmpty) = true := congrArg not (List.isEmpty_eq_false_iff.mpr hBusy)
  unfold State.lakeRun
  dsimp only
  rw [hAwake, hCopies, hFirst]
  exact if_pos busy

/-- A request has come to its stack and may be registered: nothing holds it, and its words came through the pins. -/
def Registers (a : State) (id k : Nat) (p : Pkt) (req : List (Nat × Nat)) : Prop :=
  a.atLake id = some (p, k) ∧ (a.stack k).waitQ.contains id = false ∧ (a.stack k).heldQ.contains id = false ∧ a.lakeRoom k p = true ∧ a.ptHeldBefore k p = false ∧
    p.since + a.ptLake k ≤ a.time.now ∧ (pinCheck p req).badHdr = false ∧ (pinCheck p req).badData = false ∧ p.poisoned = false

section
variable {a : State} {id k : Nat} {p : Pkt} {req : List (Nat × Nat)} (hComes : Registers a id k p req) {want : Pkt → Bool} (hWant : want p = true) (rsp : List (Nat × Nat))
include hComes hWant

theorem lakeServe_registered : a.lakeServe id want req rsp =
    let h := pinCheck p req
    let s1 := a.pinFound k p h
    let st1 := s1.stack k
    if h.p.genChk ∧ (!a.ctx.genLive ∨ h.p.gen ≠ st1.gen) then ((s1.setStack k { st1 with genDrop := satInc 16 st1.genDrop }).delPkt id).lakeReply rsp k h.p 0x20 (ext4 (s1.nackWord 2)) []
    else if st1.zeroing then s1.setStack k { st1 with heldQ := st1.heldQ ++ [id] }
    else if h.p.kind = 0x10 ∧ lakeEnd ≤ h.p.addr ∧ (h.p.lakeKind = 4 ∨ h.p.lakeKind = 5) then
      ((s1.setStack k { st1 with idxSkip := satInc 16 st1.idxSkip }).delPkt id).lakeReply rsp k h.p 0x11 (lakeStatus 1) (if h.p.lakeKind = 5 then List.replicate h.p.words 0#32 else [])
    else (s1.setPkt h.p).lakeRun k h.p rsp := by
  obtain ⟨hAt, hWait, hHeld, hRoom, hPt, hTime, hHdr, hData, hSound⟩ := hComes
  unfold State.lakeServe
  rw [hAt]
  dsimp only
  rw [if_neg (by rw [hWant, Bool.true_or]; decide), if_neg (by rw [hWait, hHeld, hRoom, hPt]; decide), if_neg fun h => absurd h.1 (Nat.not_lt.mpr hTime),
    if_neg (by rw [hHdr, hData]; decide), if_neg (by rw [hSound]; decide)]

theorem lakeServe_live (hGen : (pinCheck p req).p.genChk = false ∨ (a.ctx.genLive = true ∧ (pinCheck p req).p.gen = (a.stack k).gen)) (hZero : (a.stack k).zeroing = false)
    (hAddr : (pinCheck p req).p.addr < lakeEnd) : a.lakeServe id want req rsp = ((a.pinFound k p (pinCheck p req)).setPkt (pinCheck p req).p).lakeRun k (pinCheck p req).p rsp := by
  obtain ⟨gen, zero, -, -⟩ : SameStack k a (a.pinFound k p (pinCheck p req)) := sameStack_pinNote ..
  rw [lakeServe_registered hComes hWant]
  dsimp only
  rw [gen, zero, hZero, if_neg, if_neg Bool.false_ne_true, if_neg fun h => absurd h.2.1 (Nat.not_le.mpr hAddr)]
  rintro ⟨hChk, hStale⟩
  rcases hGen with hNo | ⟨hLive, hSame⟩
  · exact nomatch (hNo.symm.trans hChk)
  · rw [hLive] at hStale
    exact hStale.elim (fun h => nomatch h) fun h => h hSame

theorem lakeServe_stale (hChk : (pinCheck p req).p.genChk = true) (hGen : a.ctx.genLive = false ∨ (pinCheck p req).p.gen ≠ (a.stack k).gen) :
    (a.lakeServe id want req rsp).lake.mem = a.lake.mem ∧ ((a.lakeServe id want req rsp).stack k).genDrop = satInc 16 (a.stack k).genDrop := by
  obtain ⟨gen, -, drop, mem⟩ : SameStack k a (a.pinFound k p (pinCheck p req)) := sameStack_pinNote ..
  rw [lakeServe_registered hComes hWant]
  dsimp only
  rw [if_pos ⟨hChk, gen ▸ hGen.imp (congrArg not) fun h => h⟩]
  obtain ⟨-, -, drop', mem'⟩ := sameStack_lakeReply
    (State.delPkt ((a.pinFound k p (pinCheck p req)).setStack k { (a.pinFound k p (pinCheck p req)).stack k with genDrop := satInc 16 ((a.pinFound k p (pinCheck p req)).stack k).genDrop }) id)
    rsp k (pinCheck p req).p 0x20 (ext4 ((a.pinFound k p (pinCheck p req)).nackWord 2)) []
  exact ⟨mem'.trans mem, drop'.trans ((congrArg Stack.genDrop (State.stack_setStack ..)).trans (congrArg (satInc 16) drop))⟩

end

end Sys2Proof.Laws

namespace Sys2Proof.Safety
open Sys2Proof Sys2Proof.Machine Sys2Proof.Laws

/-- Settles O36: a request that may be registered is served through the pins' check of its words, and one of another generation only counted. -/
theorem lakeRequestsApplyAtRegistration : Obligations.LakeRequestsApplyAtRegistration := by
  intro s id t k p req rsp ups h found need eff comes calm busy free s0 su
  have applied (a : State) (want : Pkt → Bool) (hWant : want p = true) (hFree : free a) : a.lakeServe id want req rsp = eff a := by
    obtain ⟨⟨hComes, hGen, hZero, hAddr, hAwake, hCopies, hFirst⟩, hIdle⟩ := hFree
    exact (lakeServe_live hComes hWant rsp hGen hZero hAddr).trans (lakeRun_free hAwake hCopies hFirst hIdle)
  refine ⟨fun hf hk => ?_, fun hf hk => ?_, fun hf hk => ?_, fun hf hk => ?_, fun hf hk => ?_, fun hf hk => ?_, fun hf hk => ?_, fun hCalm hBusy hk => ?_, fun hComes hChk hGen hk => ?_⟩
  · exact congrArg ok (applied su (fun p => p.kind == 0x01) (beq_iff_eq.mpr hk) hf)
  · exact congrArg ok (applied s0 (fun p => p.kind == 0x03) (beq_iff_eq.mpr hk) hf)
  · exact congrArg ok (applied su (fun p => p.lakeKind == 3) (beq_iff_eq.mpr hk) hf)
  · exact congrArg ok (applied su (fun p => p.lakeKind == 4) (beq_iff_eq.mpr hk) hf)
  · exact congrArg ok (applied su (fun p => p.lakeKind == 5) (beq_iff_eq.mpr hk) hf)
  · exact congrArg ok (applied su (fun p => p.lakeKind == 6) (beq_iff_eq.mpr hk) hf)
  · exact congrArg ok (applied s0 (fun p => p.lakeKind == 7) (beq_iff_eq.mpr hk) hf)
  · obtain ⟨hComes, hGen, hZero, hAddr, hAwake, hCopies, hFirst⟩ := hCalm
    have served := lakeServe_live (want := fun p => p.kind == 0x03) hComes (beq_iff_eq.mpr hk) rsp hGen hZero hAddr
    exact congrArg ok (served.trans (lakeRun_busy hAwake hCopies hFirst hBusy))
  · exact ⟨_, rfl, lakeServe_stale (want := fun p => p.kind == 0x03) hComes (beq_iff_eq.mpr hk) rsp hChk hGen⟩

end Sys2Proof.Safety
end

section
/-!
PROOFS. The channels of a stack (R210, R211, R214, R217, R384): what a check of words leaves of them, the scrub visit and the sparing copy.
-/
set_option Elab.async false
namespace Sys2Proof.Laws
open Sys2Proof Sys2Proof.Machine Sys2Proof.Safety

/-! ### What a check of lake words leaves of the channels -/

/-- Every stack keeps its channels. -/
structure SameChans (s u : State) : Prop where
  chans : ∀ k, (u.stack k).chans = (s.stack k).chans

namespace SameChans

theorem refl (s : State) : SameChans s s := ⟨fun _ => rfl⟩

theorem trans {s t u : State} (h : SameChans s t) (g : SameChans t u) : SameChans s u := ⟨fun k => (g.chans k).trans (h.chans k)⟩

theorem of_stack {s u : State} (h : ∀ k, u.stack k = s.stack k) : SameChans s u := ⟨fun k => congrArg Stack.chans (h k)⟩

theorem setStack {s : State} {j : Nat} {st : Stack} (h : st.chans = (s.stack j).chans) : SameChans s (s.setStack j st) := ⟨fun k => by
  by_cases hk : k = j
  · rw [hk, State.stack_setStack, h]
  · rw [State.stack_setStack_ne s j k st hk]⟩

end SameChans

theorem stack_markDefect {s : State} {kind loc src : Nat} (k : Nat) : (s.markDefect kind loc src).stack k = s.stack k := by
  change Tab.get _ (s.markDefect kind loc src).lake.stackTab k = _
  rw [← (Changes.markDefect (s := s)).same .lake (by simp)]
  rfl

theorem stack_recordFault {s : State} {cls loc tid : Nat} {f : Bool} {d : Nat} (k : Nat) : (s.recordFault cls f loc tid d).stack k = s.stack k := by
  change Tab.get _ (s.recordFault cls f loc tid d).lake.stackTab k = _
  rw [← (Changes.recordFault (s := s)).same .lake (by simp)]
  rfl

theorem sameChans_markDefect (s : State) (kind loc src : Nat) : SameChans s (s.markDefect kind loc src) := .of_stack stack_markDefect

theorem chans_noteDbe (st : Stack) (so op : Nat) (scrub : Bool) : (st.noteDbe so op scrub).chans = st.chans := by
  unfold Stack.noteDbe
  split
  · rfl
  · rfl

theorem spares_noteDbe (st : Stack) (so op : Nat) (scrub : Bool) : (st.noteDbe so op scrub).spares = st.spares := by
  unfold Stack.noteDbe
  split
  · rfl
  · rfl

theorem sameChans_spareRow (s : State) (k row : Nat) : SameChans s (s.spareRow k row) := by
  unfold State.spareRow
  dsimp only
  split
  · exact .refl s
  split
  · exact .setStack rfl
  · refine .trans (.setStack ?_) (sameChans_markDefect ..)
    rfl

theorem sameChans_lakeFixed (s : State) (k a : Nat) : SameChans s (s.lakeFixed k a) := by
  have counted (st : Stack) (f : Faults) (h : st.chans = (s.stack k).chans) : SameChans s { s.setStack k st with faults := f } := SameChans.trans (.setStack h) (.of_stack fun _ => rfl)
  unfold State.lakeFixed
  dsimp only
  split
  · refine .trans (counted _ _ ?_) (sameChans_spareRow ..)
    rfl
  · refine counted _ _ ?_
    rfl

theorem sameChans_lakeDbe (s : State) (k a op : Nat) (scrub : Bool) : SameChans s (s.lakeDbe k a op scrub) := by
  have noted : SameChans s (s.setStack k ((s.stack k).noteDbe (lakeSo s.lake.mode a) op scrub)) := .setStack (chans_noteDbe ..)
  unfold State.lakeDbe
  dsimp only
  refine .trans ?_ (sameChans_spareRow ..)
  split
  · exact noted.trans (.of_stack stack_recordFault)
  · exact noted

theorem sameChans_lakeFound (op : Nat) (scrub : Bool) : ∀ (ws : List Ecc) (s : State) (a : Nat), SameChans s (s.lakeFound op scrub a ws)
  | [], s, _ => .refl s
  | w :: r, s, a => by
    unfold State.lakeFound
    refine .trans ?_ (sameChans_lakeFound op scrub r _ _)
    split
    · exact sameChans_lakeFixed ..
    split
    · exact sameChans_lakeDbe ..
    · exact .refl s

theorem chan_setChan (st : Stack) (c : Nat) (v : Chan) : (st.setChan c v).chan c = v := Tab.get_set_same ..

end Sys2Proof.Laws

namespace Sys2Proof.Machine
open Sys2Proof Sys2Proof.Laws Sys2Proof.Safety

section
variable {s s0 : State} {k c t : Nat} {ups : List (Nat × Nat)} (h0 : s.advance t = s0)
include h0

section
variable (hEn : (s0.stack k).scrubEn = true) (hZero : (s0.stack k).zeroing = false)
include hEn hZero

theorem exec_lakeScrubVisit_wakes (hPower : ((s0.stack k).chan c).power = 1) : exec (.lakeScrubVisit k c ups t) s = .next ((s0.lakeStrike ups).askWake (k, c)) := by
  have asleep : ((s0.stack k).chan c).power ≠ 0 := by rw [hPower]; decide
  have scrubs : ¬ ((!(s0.stack k).scrubEn) = true ∨ (s0.stack k).zeroing = true ∨ ((s0.stack k).chan c).power = 2) := by rw [hEn, hZero, hPower]; decide
  change execLakeScrubVisit k c ups t s = _
  unfold execLakeScrubVisit
  rw [h0]
  exact (if_neg scrubs).trans (if_pos asleep)

variable (hPower : ((s0.stack k).chan c).power = 0)
include hPower

omit h0 in
theorem scrubs_awake : ¬ ((!(s0.stack k).scrubEn) = true ∨ (s0.stack k).zeroing = true ∨ ((s0.stack k).chan c).power = 2) ∧ ¬ ((s0.stack k).chan c).power ≠ 0 := by
  rw [hEn, hZero, hPower]
  decide

section
variable (hCopies : s0.lakeCopies [lakeUn s0.lake.mode k (chSo c (64 * ((s0.stack k).chan c).scrubAt))] = false)
  (hFirst : s0.burstWaits (lakeUn s0.lake.mode k (chSo c (64 * ((s0.stack k).chan c).scrubAt))) = false)
include hCopies hFirst

omit h0 hEn hZero hPower in
theorem scrub_first : ¬ (s0.lakeCopies [lakeUn s0.lake.mode k (chSo c (64 * ((s0.stack k).chan c).scrubAt))] = true ∨
    s0.burstWaits (lakeUn s0.lake.mode k (chSo c (64 * ((s0.stack k).chan c).scrubAt))) = true) := by
  rw [hCopies, hFirst]
  decide

theorem exec_lakeScrubVisit_asks (hMay : s0.mayUse 2 (k * 32 + c) 2 = false) : exec (.lakeScrubVisit k c ups t) s = .next ((s0.lakeStrike ups).askGrant 2 (k * 32 + c) 2) := by
  obtain ⟨scrubs, awake⟩ := scrubs_awake hEn hZero hPower
  change execLakeScrubVisit k c ups t s = _
  unfold execLakeScrubVisit
  rw [h0]
  exact (if_neg scrubs).trans ((if_neg awake).trans ((if_neg (scrub_first hCopies hFirst)).trans (if_pos (congrArg not hMay))))

/-- A visit moves the scrub of its channel on by one burst, whatever its words hold. -/
theorem exec_lakeScrubVisit_moves (hMay : s0.mayUse 2 (k * 32 + c) 2 = true) : let v := (s0.stack k).chan c
    ∃ u, exec (.lakeScrubVisit k c ups t) s = .next u ∧ ((u.stack k).chan c).power = 0 ∧ ((u.stack k).chan c).scrubAt = (if 25165824 ≤ v.scrubAt + 1 then 0 else v.scrubAt + 1) ∧
      ((u.stack k).chan c).passes = (if 25165824 ≤ v.scrubAt + 1 then min 0xFFFFFFFF (v.passes + 1) else v.passes) := by
  intro v
  obtain ⟨scrubs, awake⟩ := scrubs_awake hEn hZero hPower
  have may : ¬ (!s0.mayUse 2 (k * 32 + c) 2) = true := by rw [hMay]; decide
  have stands (s2 : State) (h : (s2.stack k).chan c = v) : let wrap := decide (25165824 ≤ v.scrubAt + 1)
      let w : Chan := { (s2.stack k).chan c with scrubAt := if wrap = true then 0 else v.scrubAt + 1, passes := if wrap = true then min 0xFFFFFFFF (((s2.stack k).chan c).passes + 1) else ((s2.stack k).chan c).passes }
      let s3 := s2.setStack k ((s2.stack k).setChan c w)
      let u := if wrap = true then s3.passOver k c else s3
      ((u.stack k).chan c).power = 0 ∧ ((u.stack k).chan c).scrubAt = (if 25165824 ≤ v.scrubAt + 1 then 0 else v.scrubAt + 1) ∧
      ((u.stack k).chan c).passes = (if 25165824 ≤ v.scrubAt + 1 then min 0xFFFFFFFF (v.passes + 1) else v.passes) := by
    intro wrap w s3 u
    have set : (s3.stack k).chan c = w := (congrArg (fun st : Stack => st.chan c) (State.stack_setStack ..)).trans (chan_setChan ..)
    have kept : (u.stack k).chan c = w := by
      unfold u
      split
      · exact (congrArg (fun st : Stack => st.chan c) (State.stack_setStack ..)).trans set
      · exact set
    rw [kept]
    dsimp only [w, wrap]
    rw [h]
    simp only [decide_eq_true_eq]
    exact ⟨hPower, trivial, trivial⟩
  change ∃ u, execLakeScrubVisit k c ups t s = .next u ∧ _
  unfold execLakeScrubVisit
  rw [h0]
  refine ⟨_, (if_neg scrubs).trans ((if_neg awake).trans ((if_neg (scrub_first hCopies hFirst)).trans (if_neg may))), ?_⟩
  exact stands _ (congrArg (fun t : Tab Chan => Tab.get Chan.zero t c) ((sameChans_lakeFound ..).chans k))

end

end

end

/-- The stack of a finished copy, whether or not a word of its row was lost. -/
theorem spares_copied {k row n loc d : Nat} {s1 : State} {st2 : Stack} {b : Bool} (h : Tab.get 0 st2.spares row = n) :
    Tab.get 0 (((if b then (s1.setStack k st2).recordFault 3 true 0xFFFF k d else s1.setStack k st2).markDefect 4 loc n).stack k).spares row = n := by
  rw [stack_markDefect]
  cases b with
  | true =>
    rw [if_pos rfl, stack_recordFault, State.stack_setStack]
    exact h
  | false =>
    rw [if_neg Bool.false_ne_true, State.stack_setStack]
    exact h

/-- The oldest copy of a stack gives its row the next spare row of its bank. -/
theorem exec_lakeSpareCopyDone {s : State} {k row : Nat} {rest : List Nat} {rsp : List (Nat × List (Nat × Nat))} (hCopy : (s.stack k).copying = row :: rest) (hZero : (s.stack k).zeroing = false)
    (hMay : s.mayUse 2 (k * 32 + row / 12288 / 64) 2 = true) : ∃ u : State, exec (.lakeSpareCopyDone k rsp) s = .next (u.lakeRetry rsp) ∧
      Tab.get 0 (u.stack k).spares row = (s.stack k).bankUsed (row / 12288) - ((s.stack k).copying.filter (fun r => decide (r / 12288 = row / 12288))).length := by
  have turn : ¬ (!s.mayUse 2 (k * 32 + row / 12288 / 64) 2) = true := by rw [hMay]; decide
  change ∃ u : State, execLakeSpareCopyDone k rsp s = .next (u.lakeRetry rsp) ∧ _
  unfold execLakeSpareCopyDone
  dsimp only
  rw [hZero, if_neg Bool.false_ne_true, hCopy]
  refine ⟨_, if_neg turn, spares_copied ?_⟩
  split
  · rw [spares_noteDbe]
    exact Tab.get_set_same ..
  · exact Tab.get_set_same ..

end Sys2Proof.Machine

namespace Sys2Proof.Safety
open Sys2Proof Sys2Proof.Machine Sys2Proof.Laws

/-- Settles O38: refresh, scrub and sparing copies of a channel, and its power states, by the branch that each hypothesis opens. -/
theorem lakeChannelsAndScrub : Obligations.LakeChannelsAndScrub := by
  intro s k c t ups rsp s0 st v
  refine ⟨rfl, ?_, fun row rest => exec_lakeSpareCopyDone, ?_, ?_, ?_⟩
  · intro a hEn hZero
    exact ⟨exec_lakeScrubVisit_wakes rfl hEn hZero, exec_lakeScrubVisit_asks rfl hEn hZero, exec_lakeScrubVisit_moves rfl hEn hZero⟩
  · intro hPower hWake hUse hZero hWaits
    exact if_pos ⟨hPower, hWake, hUse, congrArg not hZero, congrArg not hWaits⟩
  · intro hPower hWake hUse hCtx hZero hWaits
    exact if_pos ⟨hPower, hWake, hUse, congrArg not hCtx, congrArg not hZero, congrArg not hWaits⟩
  · intro w hWake hDue
    change execLakeChannelWake k c rsp t s = _
    unfold execLakeChannelWake
    simp only [show ((s.advance t).stack k).chan c = v from rfl, hWake]
    exact if_neg (Nat.not_lt.mpr hDue)

end Sys2Proof.Safety
end

section
/-!
PROOFS. The channels of descriptor DMA (R226, R233, R234, R236, R237, R240).
-/
set_option Elab.async false
namespace Sys2Proof.Machine
open Sys2Proof

@[simp] theorem State.setCh_setCh (s : State) (c : Nat) (v w : DmaCh) : (s.setCh c v).setCh c w = s.setCh c w :=
  congrArg (fun d => { s with dma := d }) (Tab.set_set ..)

/-- The limits of R228 count requests alone. -/
theorem State.dmaRoom_setCh {s : State} {c : Nat} {v : DmaCh} (h : v.reqs = (s.ch c).reqs) : (s.setCh c v).dmaRoom c = s.dmaRoom c := by
  have kept (j : Nat) : ((s.setCh c v).ch j).reqs = (s.ch j).reqs := by
    by_cases hj : j = c
    · rw [hj, State.ch_setCh, h]
    · rw [State.ch_setCh_ne s c j v hj]
  unfold State.dmaRoom State.dmaTotal
  simp only [kept]

theorem dmaReach_of_claim {s : State} {c : Nat} (h : (s.ch c).claim ≠ 1) : ¬ s.dmaReach c true = true := by
  simp [State.dmaReach, h]

/-- A channel with no descriptor and no read to issue does nothing. -/
theorem dmaCheck_idle {s : State} {c : Nat} (hCur : (s.ch c).cur = none) (hFetch : (s.ch c).fetching = false) : s.dmaCheck c = s := by
  have decide : s.dmaDecide c = s := by unfold State.dmaDecide; dsimp only; rw [hCur]
  have status : s.dmaStatus c = s := by unfold State.dmaStatus; dsimp only; rw [hCur]
  have close : s.dmaClose c = s := by unfold State.dmaClose; rw [hCur]
  have pass : s.dmaPass c = s := by unfold State.dmaPass; rw [decide, status, close]
  unfold State.dmaCheck
  rw [pass, pass]
  exact if_pos (.inl (congrArg not hFetch))

/-- A descriptor read that waits is issued where nothing holds it. -/
theorem dmaIssue_reads {u : State} {c : Nat} (hFetch : (u.ch c).fetching = true) (hFree : (u.ch c).reqs.any (fun r => r.what == 1) = false) (hMay : u.dmaMay = true)
    (hCopy : ¬(c = 15 ∧ u.spr.copying = true)) (hNext : u.nextOk (u.ch c).next = true) (hRoom : u.dmaRoom c = true) :
    u.dmaIssue c = (u.setCh c { u.ch c with tagGen := u.ctx.gen }).dmaRead c 1 (u.ch c).next 0 64 false := by
  unfold State.dmaIssue
  dsimp only
  rw [hFetch, hFree, hMay, hNext, hRoom, if_neg hCopy]
  rfl

section
variable {s s0 : State} {c t : Nat} {byHost : Bool} (h0 : s.advance t = s0) (hReach : s0.dmaReach c byHost = true)
include h0 hReach

/-- A doorbell that starts a channel reads the descriptor at `DMA_NEXT`. -/
theorem exec_dmaDoorbell_starts (hMay : s0.dmaMay = true) (hState : (s0.ch c).state = 0 ∨ (s0.ch c).state = 3) (hCopy : ¬(c = 15 ∧ s0.spr.copying = true)) (hNext : s0.nextOk (s0.ch c).next = true)
    (hRoom : s0.dmaRoom c = true) (hFree : (s0.ch c).reqs.any (fun r => r.what == 1) = false) : exec (.dmaDoorbell c byHost t) s = .next
      ((s0.setCh c { s0.ch c with state := 1, fetchErr := false, lastStatus := 0, fetching := true, tagGen := s0.ctx.gen, stopReq := false }).dmaRead c 1 (s0.ch c).next 0 64 false) := by
  have rung : s0.dmaRing c = ((s0.setCh c { s0.ch c with fetchErr := false, lastStatus := 0 }).dmaFetch c).dmaIssue c :=
    (if_neg (by rw [hMay]; rcases hState with h | h <;> rw [h] <;> decide)).trans (if_neg (by rcases hState with h | h <;> rw [h] <;> decide))
  let v := { s0.ch c with fetchErr := false, lastStatus := 0, state := 1, fetching := true, stopReq := false }
  have fetched : (s0.setCh c { s0.ch c with fetchErr := false, lastStatus := 0 }).dmaFetch c = s0.setCh c v := by
    unfold State.dmaFetch
    rw [State.ch_setCh, State.setCh_setCh]
  have at' : (s0.setCh c v).ch c = v := State.ch_setCh ..
  have reads := dmaIssue_reads (u := s0.setCh c v) (c := c) (congrArg DmaCh.fetching at') ((congrArg (fun w : DmaCh => w.reqs.any (fun r => r.what == 1)) at').trans hFree) hMay hCopy
    ((congrArg (fun w : DmaCh => (s0.setCh c v).nextOk w.next) at').trans hNext) ((State.dmaRoom_setCh (v := v) rfl).trans hRoom)
  change ok (if (s.advance t).dmaReach c byHost then (s.advance t).dmaRing c else s.advance t) = _
  rw [h0, if_pos hReach, rung, fetched, reads, at', State.setCh_setCh]
  rfl

/-- A doorbell that starts nothing stays pending. -/
theorem exec_dmaDoorbell_pends (h : s0.dmaMay = false ∨ (s0.ch c).state = 1) : exec (.dmaDoorbell c byHost t) s = .next (s0.setCh c { s0.ch c with pend := true }) := by
  change ok (if (s.advance t).dmaReach c byHost then (s.advance t).dmaRing c else s.advance t) = _
  rw [h0, if_pos hReach]
  exact congrArg ok (if_pos (h.imp (congrArg not) id))

/-- A stop leaves the descriptor that runs, but for one taken up in its own cycle. -/
theorem exec_dmaStop_running (hCur : (s0.ch c).cur ≠ none) (hOk : ∀ a, (s0.ch c).okAt = some a → dmaCyc a ≠ dmaCyc s0.time.now) : exec (.dmaStop c byHost t) s = .next
    ((s0.setCh c { s0.ch c with
      stopReq := true, stopAt := s0.time.now, shadow := none, pend := false, fetching := false, reqs := ((s0.ch c).reqs.map (DmaReq.cancel 1)).map (DmaReq.cancel 2) }).dmaCheck c) := by
  obtain ⟨d, hd⟩ := Option.ne_none_iff_exists'.mp hCur
  change ok (if (s.advance t).dmaReach c byHost then (s.advance t).dmaStop c else s.advance t) = _
  rw [h0, if_pos hReach]
  unfold State.dmaStop
  dsimp only
  cases hAt : (s0.ch c).okAt with
  | none =>
    simp only [hd, Bool.false_eq_true, if_false, Option.isSome_some, if_true]
    rfl
  | some a =>
    simp only [hd, hOk a hAt, decide_false, Bool.false_and, Bool.false_eq_true, if_false, Option.isSome_some, if_true]
    rfl

/-- A stop of a channel without a descriptor leaves it idle. -/
theorem exec_dmaStop_idle (hCur : (s0.ch c).cur = none) : exec (.dmaStop c byHost t) s = .next
    (s0.setCh c { s0.ch c with
      stopReq := false, stopAt := s0.time.now, shadow := none, pend := false, fetching := false, state := 0, reqs := ((s0.ch c).reqs.map (DmaReq.cancel 1)).map (DmaReq.cancel 2) }) := by
  change ok (if (s.advance t).dmaReach c byHost then (s.advance t).dmaStop c else s.advance t) = _
  rw [h0, if_pos hReach]
  unfold State.dmaStop
  dsimp only
  simp only [hCur, Bool.false_eq_true, if_false, Option.isSome_none]
  exact congrArg ok (dmaCheck_idle (congrArg DmaCh.cur (State.ch_setCh ..)) (congrArg DmaCh.fetching (State.ch_setCh ..)))

end

/-- A half of `DMA_NEXT` is written while the channel runs nothing. -/
theorem exec_dmaNextWrite {s : State} {c v : Nat} {byHost hi : Bool} (hReach : s.dmaReach c byHost = true) (hPaused : s.dmaPaused = false) (hState : (s.ch c).state = 0 ∨ (s.ch c).state = 3) :
    ∃ u, exec (.dmaNextWrite c byHost hi v) s = .next u ∧ u = s.setCh c { s.ch c with next := (u.ch c).next } ∧
      (hi = true → (u.ch c).next = (s.ch c).next % 2 ^ 32 + v % 2 ^ 32 * 2 ^ 32) ∧ (hi = false → (u.ch c).next = (s.ch c).next / 2 ^ 32 * 2 ^ 32 + v % 2 ^ 32) := by
  have written (n : Nat) : ((s.setCh c { s.ch c with next := n }).ch c).next = n := congrArg DmaCh.next (State.ch_setCh ..)
  let n := if hi then (s.ch c).next % 2 ^ 32 + place v 32 32 else (s.ch c).next / 2 ^ 32 * 2 ^ 32 + v % 2 ^ 32
  have runs : exec (.dmaNextWrite c byHost hi v) s = .next (s.setCh c { s.ch c with next := n }) := by
    change execDmaNextWrite c byHost hi v s = _
    unfold execDmaNextWrite
    dsimp only
    rw [if_pos ⟨hReach, congrArg not hPaused, hState⟩]
    rfl
  refine ⟨_, runs, ?_, fun h => ?_, fun h => ?_⟩
  · rw [written]
  · rw [written]
    unfold n
    rw [if_pos h, place, Nat.shiftLeft_eq]
  · rw [written]
    unfold n
    rw [h, if_neg Bool.false_ne_true]

/-! ### The descriptor read -/

/-- A failure is registered in a descriptor that moves data and has none. -/
theorem ch_dmaFail {s : State} {c code : Nat} {d : DmaDesc} (hCur : (s.ch c).cur = some d) (hStage : d.stage = 0) (hStop : (s.ch c).stopReq = false) (hFail : d.fail = none) :
    s.dmaFail c code = s.setCh c { s.ch c with cur := some { d with fail := some code, failAt := s.time.now } } := by
  unfold State.dmaFail
  simp only [hCur, hStage, hStop, hFail]
  rfl

/-- A descriptor begins with the failure that R226 and R240 name, or with none. -/
theorem ch_dmaBegin {w : State} {c a g : Nat} {ws : List Nat} (hStop : (w.ch c).stopReq = false) : let d := DmaDesc.start ws a g
    let begun := w.dmaBegin c ws a g
    (begun.ch c).state = 1 ∧ ∃ e, (begun.ch c).cur = some e ∧ e = { d with fail := e.fail, failAt := e.failAt } ∧
      e.fail = (if g ≠ w.ctx.gen then some 6 else if w.descBad c d = true then some 1 else if bitAt (ws.getD 0 0) 27 = true ∧ fld (ws.getD 11 0) 15 0 ≠ w.ctx.gen then some 6 else none) := by
  intro d begun
  let s1 := w.setCh c { w.ch c with state := 1, fetching := false, tagGen := g, cur := some d }
  have runs : s1.ch c = { w.ch c with state := 1, fetching := false, tagGen := g, cur := some d } := State.ch_setCh ..
  have failed (code : Nat) : ((s1.dmaFail c code).ch c).state = 1 ∧ ∃ e, ((s1.dmaFail c code).ch c).cur = some e ∧ e = { d with fail := e.fail, failAt := e.failAt } ∧ e.fail = some code := by
    rw [ch_dmaFail (d := d) (congrArg DmaCh.cur runs) rfl ((congrArg DmaCh.stopReq runs).trans hStop) rfl, State.ch_setCh, runs]
    exact ⟨rfl, _, rfl, rfl, rfl⟩
  unfold begun State.dmaBegin
  dsimp only
  by_cases hGen : g ≠ w.ctx.gen
  · rw [if_pos hGen, if_pos hGen]
    exact failed 6
  by_cases hBad : w.descBad c d = true
  · rw [if_neg hGen, if_neg hGen, if_pos hBad, if_pos hBad]
    exact failed 1
  by_cases hChk : bitAt (ws.getD 0 0) 27 = true ∧ fld (ws.getD 11 0) 15 0 ≠ w.ctx.gen
  · rw [if_neg hGen, if_neg hGen, if_neg hBad, if_neg hBad, if_pos hChk]
    exact (congrArg (fun u : State => (u.ch c).state = 1 ∧ ∃ e, (u.ch c).cur = some e ∧ e = { d with fail := e.fail, failAt := e.failAt } ∧ e.fail = some 6) (if_pos hChk)).mpr (failed 6)
  · rw [if_neg hGen, if_neg hGen, if_neg hBad, if_neg hBad, if_neg hChk]
    refine (congrArg (fun u : State => (u.ch c).state = 1 ∧ ∃ e, (u.ch c).cur = some e ∧ e = { d with fail := e.fail, failAt := e.failAt } ∧ e.fail = none) (if_neg hChk)).mpr ?_
    rw [runs]
    exact ⟨rfl, d, rfl, rfl, rfl⟩

section
variable {s s0 : State} {c code t : Nat} {data : BitVec 2048} {r : DmaReq} (h0 : s.advance t = s0)
include h0

/-- An answer in time to the descriptor read of a channel. -/
theorem exec_dmaDescFetch {st : Nat} {bs : List Byte} {u : State} (hReq : (s0.ch c).req (fun r => r.what == 1) = some r) (hTime : s0.dmaInTime r = true)
    (hAnswer : s0.dmaAnswer c r code data = some (st, bs, u)) : exec (.dmaDescFetch c code data t) s =
      .next ((if st ≠ 0 then (u.dmaTake c r).dmaFetchFail c st else (u.dmaTake c r).dmaCopyRead c (descWords bs)).dmaSettle c) := by
  change execDmaDescFetch c code data t s = _
  unfold execDmaDescFetch
  rw [h0]
  simp only [hReq, hAnswer, hTime]
  rfl

/-- The copy ahead of the next descriptor is read once. -/
theorem exec_dmaShadowRead_peeked {d : DmaDesc} (hCur : (s0.ch c).cur = some d) (hPeek : d.peeked = true) : exec (.dmaShadowRead c t) s = .next s0 := by
  change execDmaShadowRead c t s = _
  unfold execDmaShadowRead
  rw [h0]
  simp only [hCur, hPeek, true_or, or_true, if_true]
  rfl

theorem exec_dmaShadowRead {d : DmaDesc} (hCur : (s0.ch c).cur = some d) (hLast : d.last = false) (hChain : d.chain = false) (hPeek : d.peeked = false) (hShadow : (s0.ch c).shadow = none)
    (hFree : (s0.ch c).reqs.any (fun r => r.what == 2) = false) (hStop : (s0.ch c).stopReq = false) (hPaused : s0.dmaPaused = false) (hRoom : s0.dmaRoom c = true)
    (hNext : s0.nextOk d.nextA = true) (hFail : d.fail = none) :
    exec (.dmaShadowRead c t) s = .next ((s0.setCh c { s0.ch c with cur := some { d with peeked := true } }).dmaRead c 2 d.nextA 0 64 false) := by
  change execDmaShadowRead c t s = _
  unfold execDmaShadowRead
  rw [h0]
  simp only [hCur, hLast, hChain, hPeek, hShadow, hFree, hStop, hPaused, hRoom, hNext, hFail]
  rfl

end

/-- A failed descriptor read halts its channel with the status of the failure. -/
theorem ch_dmaFetchFail (s : State) (c st : Nat) : ((s.dmaFetchFail c st).ch c).state = 3 ∧ ((s.dmaFetchFail c st).ch c).lastStatus = st := by
  have halted (u : State) : (u.dmaHalt c).ch c = { u.ch c with state := 3 } := State.ch_setCh ..
  unfold State.dmaFetchFail
  rw [halted, State.ch_setCh]
  exact ⟨rfl, rfl⟩

/-- What the copy of a descriptor does: the channel parks, runs it, or reads it again. -/
theorem dmaCopyRead_parks {w : State} {c : Nat} {ws : List Nat} (hOwn : bitAt (ws.getD 0 0) 31 = false) (hPend : (w.ch c).pend = false) :
    w.dmaCopyRead c ws = w.setCh c { w.ch c with fetching := false, state := 2 } := by
  unfold State.dmaCopyRead
  dsimp only
  rw [hOwn, hPend]
  rfl

theorem dmaCopyRead_begins {w : State} {c : Nat} {ws : List Nat} (hOwn : bitAt (ws.getD 0 0) 31 = true) (h : w.dmaMay = true ∨ w.dmaPaused = true ∨ (w.ch c).tagGen ≠ w.ctx.gen) :
    w.dmaCopyRead c ws = w.dmaBegin c ws (w.ch c).next (w.ch c).tagGen := by
  refine (if_pos hOwn).trans (if_neg fun ⟨hGen, hMay, hPaused⟩ => ?_)
  rcases h with h | h | h
  · rw [h] at hMay
    cases hMay
  · rw [h] at hPaused
    cases hPaused
  · exact h hGen

theorem dmaCopyRead_again {w : State} {c : Nat} {ws : List Nat} (hOwn : bitAt (ws.getD 0 0) 31 = true) (h : ¬ (w.dmaMay = true ∨ w.dmaPaused = true ∨ (w.ch c).tagGen ≠ w.ctx.gen)) :
    w.dmaCopyRead c ws = w.dmaFetch c := by
  obtain ⟨hMay, hPaused, hGen⟩ := not_or.mp h |>.imp_right not_or.mp
  exact (if_pos hOwn).trans (if_pos ⟨Decidable.not_not.mp hGen, congrArg not (Bool.eq_false_iff.mpr hMay), congrArg not (Bool.eq_false_iff.mpr hPaused)⟩)

end Sys2Proof.Machine

namespace Sys2Proof.Safety
open Sys2Proof Sys2Proof.Machine Sys2Proof.Laws

/-- Settles O39: the registers of a channel, the descriptor read by the copy's words, and the copy ahead. -/
theorem dmaChannelsRun : Obligations.DmaChannelsRun := by
  refine ⟨fun s c v t byHost hi => ?_, fun s c code t data r => ?_⟩
  · intro s0 x
    refine ⟨exec_dmaDoorbell_starts rfl, exec_dmaDoorbell_pends rfl, exec_dmaStop_running rfl, exec_dmaStop_idle rfl, exec_dmaNextWrite, fun hClaim => ⟨?_, ?_⟩, fun hClaim => ?_⟩
    · exact congrArg ok (if_neg (dmaReach_of_claim hClaim))
    · exact congrArg ok (if_neg (dmaReach_of_claim hClaim))
    · exact if_neg fun h => dmaReach_of_claim hClaim h.1
  · intro s0
    refine ⟨fun hReq hTime => ⟨fun bs u hAnswer => ?_, fun st bs u hSt hAnswer => ?_⟩, fun d => exec_dmaShadowRead_peeked rfl, fun d => exec_dmaShadowRead rfl⟩
    · intro w v ws d begun begins
      have fetched := exec_dmaDescFetch rfl hReq hTime hAnswer
      rw [if_neg (fun h => h rfl)] at fetched
      refine ⟨fun hOwn hPend => ?_, fun hOwn hBegins => ?_, fun hOwn hBegins => ?_, ch_dmaBegin⟩
      · rw [fetched, dmaCopyRead_parks hOwn hPend]
      · rw [fetched, dmaCopyRead_begins hOwn hBegins]
      · rw [fetched, dmaCopyRead_again hOwn hBegins]
    · have fetched := exec_dmaDescFetch rfl hReq hTime hAnswer
      rw [if_pos hSt] at fetched
      exact ⟨fetched, ch_dmaFetchFail ..⟩

end Sys2Proof.Safety
end

section
/-!
PROOFS. The data of descriptor DMA (R228, R229, R238 to R242).
-/
set_option Elab.async false
namespace Sys2Proof.Machine
open Sys2Proof

/-! ### Moving data -/

section
variable {s : State} {c xf : Nat} {d : DmaDesc} (hCur : (s.ch c).cur = some d) (hXf : d.xform = xf) (hFail : d.fail = none) (hStage : d.stage = 0) (hStop : (s.ch c).stopReq = false)
  (hPaused : s.dmaPaused = false) (hRoom : s.dmaRoom c = true)
include hCur hXf hFail hStage hStop hPaused hRoom

/-- A descriptor with source bytes left reads its next part. -/
theorem dmaMove_reads (hLeft : d.readAt < d.srcLen) : let n := reqLen (d.srcA + d.readAt) (d.srcLen - d.readAt)
    s.dmaMove c xf false = (s.setCh c { s.ch c with cur := some { d with readAt := d.readAt + n } }).dmaRead c 0 (d.srcA + d.readAt) d.readAt n d.mirror := by
  unfold State.dmaMove
  dsimp only
  rw [hCur]
  dsimp only
  rw [if_neg (by simp [hXf, hFail, hStage, hStop, hPaused, hRoom]), if_pos (by rfl), if_pos hLeft]

/-- A descriptor whose next destination bytes are known writes them. -/
theorem dmaMove_writes {bs : List Byte} (hLeft : d.writeAt < d.dstLen) (hBytes : bytesFrom d.dstByte d.writeAt (reqLen (d.dstA + d.writeAt) (d.dstLen - d.writeAt)) = some bs) :
    let n := reqLen (d.dstA + d.writeAt) (d.dstLen - d.writeAt)
    s.dmaMove c xf true = ((s.setCh c { s.ch c with cur := some { d with writeAt := d.writeAt + n } }).dmaWrite c 5 (d.dstA + d.writeAt) d.writeAt bs d.mirror).dmaCheck c := by
  unfold State.dmaMove
  dsimp only
  rw [hCur]
  dsimp only
  rw [if_neg (by simp [hXf, hFail, hStage, hStop, hPaused, hRoom]), if_neg (by decide), if_pos hLeft, hBytes]

end

/-! ### Answers -/

section
variable {s s0 : State} {c tok code t : Nat} {data : BitVec 2048} {r : DmaReq} (h0 : s.advance t = s0)
include h0

theorem exec_dmaRequestAnswer {st : Nat} {bs : List Byte} {u : State} (hReq : (s0.ch c).req (fun r => r.tok == tok && r.what ≠ 1) = some r) (hTime : s0.dmaInTime r = true)
    (hAnswer : s0.dmaAnswer c r code data = some (st, bs, u)) : exec (.dmaRequestAnswer c tok code data t) s = .next (((u.dmaTake c r).dmaAnswered c r st bs).dmaSettle c) := by
  change execDmaRequestAnswer c tok code data t s = _
  unfold execDmaRequestAnswer
  rw [h0]
  simp only [hReq, hAnswer, hTime]
  rfl

/-- An answer to a request given up is discarded. -/
theorem exec_dmaRequestAnswer_late (hGone : (s0.ch c).reqs.any (fun r => r.tok == tok) = false) : exec (.dmaRequestAnswer c tok code data t) s = .next (s0.dmaLate c tok) := by
  have none : (s0.ch c).req (fun r => r.tok == tok && r.what ≠ 1) = none := by
    rw [List.any_eq_false] at hGone
    exact List.find?_eq_none.mpr fun r hr => by simpa using fun h => absurd (by simpa using h) (hGone r hr)
  change execDmaRequestAnswer c tok code data t s = _
  unfold execDmaRequestAnswer
  rw [h0]
  simp only [none, hGone]
  rfl

theorem exec_dmaRequestTimeout_inTime (hReq : (s0.ch c).req (fun r => r.tok == tok) = some r) (hTime : s0.dmaInTime r = true) : exec (.dmaRequestTimeout c tok t) s = .next s0 := by
  change execDmaRequestTimeout c tok t s = _
  unfold execDmaRequestTimeout
  rw [h0]
  simp only [hReq, hTime]
  rfl

/-- A data request that is not answered in time fails its descriptor with status 4. -/
theorem exec_dmaRequestTimeout_fails (hReq : (s0.ch c).req (fun r => r.tok == tok) = some r) (hTime : s0.dmaInTime r = false) (hHost : r.host = false)
    (hData : r.what = 0 ∨ r.what = 5 ∨ r.what = 6 ∨ r.what = 7) : exec (.dmaRequestTimeout c tok t) s = .next
      (((s0.setCh c { s0.ch c with reqs := (s0.ch c).reqs.erase r, late := (s0.ch c).late ++ [(r.tok, r.host)] }).dmaFail c 4).dmaSettle c) := by
  have what : r.what ≠ 1 ∧ r.what ≠ 3 ∧ r.isData = true := by
    unfold DmaReq.isData
    rcases hData with h | h | h | h <;> rw [h] <;> decide
  change execDmaRequestTimeout c tok t s = _
  unfold execDmaRequestTimeout
  rw [h0]
  simp only [hReq, hTime, Bool.false_eq_true, if_false]
  unfold State.dmaExpire
  simp only [hHost, Bool.false_eq_true, if_false, if_neg what.1, if_neg what.2.1, what.2.2, if_true]
  rfl

end

section
variable {s : State} {c st : Nat} {r : DmaReq} {bs : List Byte} {d : DmaDesc} (hCur : (s.ch c).cur = some d)
include hCur

/-- Source bytes are kept at their stream offset. -/
theorem dmaAnswered_source (hWhat : r.what = 0) :
    s.dmaAnswered c r 0 bs = s.setCh c { s.ch c with cur := some { d with src := (bs.foldl (fun (a : Tab Byte × Nat) b => (Tab.set a.1 a.2 b, a.2 + 1)) (d.src, r.off)).1 } } := by
  unfold State.dmaAnswered DmaReq.isData
  simp only [hCur, hWhat]
  rfl

/-- A written range joins the ranges written. -/
theorem dmaAnswered_written (hWhat : r.what = 5) : s.dmaAnswered c r 0 bs = s.setCh c { s.ch c with cur := some (d.wrote r.off r.len) } := by
  unfold State.dmaAnswered DmaReq.isData
  simp only [hCur, hWhat]
  rfl

/-- The copy of the next descriptor becomes the shadow. -/
theorem dmaAnswered_shadow (hWhat : r.what = 2) (hStop : (s.ch c).stopReq = false) : s.dmaAnswered c r 0 bs = s.setCh c { s.ch c with shadow := some (descWords bs) } := by
  unfold State.dmaAnswered
  simp only [hCur, hWhat, hStop]
  rfl

/-- An error of a data request fails the descriptor. -/
theorem dmaAnswered_fails (hSt : st ≠ 0) (hData : r.what = 0 ∨ r.what = 5 ∨ r.what = 6 ∨ r.what = 7) : s.dmaAnswered c r st bs = s.dmaFail c st := by
  have what : r.what ≠ 2 ∧ r.what ≠ 3 ∧ r.isData = true := by
    unfold DmaReq.isData
    rcases hData with h | h | h | h <;> rw [h] <;> decide
  unfold State.dmaAnswered
  simp only [hCur, if_neg what.1, if_neg what.2.1, what.2.2, Bool.not_true, Bool.false_eq_true, if_false, if_pos hSt]

end

end Sys2Proof.Machine

namespace Sys2Proof.Safety
open Sys2Proof Sys2Proof.Machine Sys2Proof.Laws

/-- Settles O40: the transforms issue the next part of their streams, and an answer is taken by what it answers. -/
theorem dmaMovesItsBytes : Obligations.DmaMovesItsBytes := by
  intro s c tok code t wr data d s0
  refine ⟨?_, ⟨_, rfl⟩, ⟨_, rfl⟩, ⟨_, rfl⟩, ⟨_, rfl⟩, ?_,
    exec_dmaRequestAnswer_late rfl, fun r => exec_dmaRequestTimeout_inTime rfl, fun r => exec_dmaRequestTimeout_fails rfl⟩
  · intro hCur hFail hStage hStop hPaused hRoom rn wn reads writes moves
    have moved (xf : Nat) (hXf : d.xform = xf) : moves (ok (s0.dmaMove c xf wr)) := by
      refine ⟨?_, ?_⟩
      · rintro rfl hLeft
        exact congrArg ok (dmaMove_reads hCur hXf hFail hStage hStop hPaused hRoom hLeft)
      · rintro bs rfl hLeft hBytes
        exact congrArg ok (dmaMove_writes hCur hXf hFail hStage hStop hPaused hRoom hLeft hBytes)
    exact ⟨moved 0, moved 1, moved 2, moved 3⟩
  · intro r hReq hTime st bs u hAnswer w hCur
    have taken := exec_dmaRequestAnswer rfl hReq hTime hAnswer
    refine ⟨?_, ?_, ?_, fun hSt hData => by rw [taken, dmaAnswered_fails hCur hSt hData]⟩
    · rintro rfl hWhat
      rw [taken, dmaAnswered_source hCur hWhat]
    · rintro rfl hWhat
      rw [taken, dmaAnswered_written hCur hWhat]
    · rintro rfl hWhat hStop
      rw [taken, dmaAnswered_shadow hCur hWhat hStop]

end Sys2Proof.Safety
end

section
/-!
PROOFS. Frames, acknowledgements and replay (R250 to R262, R286).
-/
set_option Elab.async false
namespace Sys2Proof.Laws
open Sys2Proof Sys2Proof.Machine Sys2Proof.Safety

/-! ### What link operations leave -/

@[simp] theorem link_timStamp (s : State) (l : Nat) (x : Slot) (ft j : Nat) : (s.timStamp l x ft).link j = s.link j :=
  congrArg (fun v : Stoith => Tab.get Link.reset v.links j) (Changes.timStamp.same .links (by simp)).symm

@[simp] theorem out_timStamp (s : State) (l : Nat) (x : Slot) (ft : Nat) : (s.timStamp l x ft).out = s.out := (Changes.timStamp.same .out (by simp)).symm

@[simp] theorem link_restamp (s : State) (l a n j : Nat) : (s.restamp l a n).link j = s.link j :=
  congrArg (fun v : Stoith => Tab.get Link.reset v.links j) (Changes.restamp.same .links (by simp)).symm

@[simp] theorem out_restamp (s : State) (l a n : Nat) : (s.restamp l a n).out = s.out := (Changes.restamp.same .out (by simp)).symm

@[simp] theorem link_sendCtl (s : State) (l : Nat) (x : Slot) (j : Nat) : (s.sendCtl l x).link j = s.link j :=
  congrArg (fun v : Stoith => Tab.get Link.reset v.links j) (Changes.sendCtl.same .links (by simp)).symm

/-- A link that carries frames sends its control slot. -/
theorem mem_out_sendCtl {s : State} {l : Nat} {x : Slot} (h : (s.link l).frames = true) : Out.slot l x ∈ (s.sendCtl l x).out := by
  unfold State.sendCtl
  rw [if_neg (by rw [h]; decide)]
  exact List.mem_append_right _ (List.mem_cons_self ..)

end Sys2Proof.Laws

namespace Sys2Proof.Machine
open Sys2Proof Sys2Proof.Laws

/-! ### Frames -/

section
variable {s s0 : State} {l corrected t : Nat} {frame : BitVec 5140} {fecBad : Bool} (h0 : s.advance t = s0) (hFrames : (s0.link l).frames = true)
include h0 hFrames

/-- A frame that is bad and sequenced is answered by a `NAK` where none stands. -/
theorem exec_frameRx_bad (hBad : fecBad = true ∨ frameCrc frame.toNat ≠ fld frame.toNat 5134 5120 ∨ (11 ≤ fld frame.toNat 5138 5135 ∧ fld frame.toNat 5138 5135 ≤ 14))
    (hIns : fld frame.toNat 5138 5135 ≠ 15) (hStop : (s0.link l).rx.stopped = false) (hNak : (s0.link l).rx.nak = false) :
    let k := s0.link l
    exec (.frameRx l frame fecBad corrected t) s = .next ((s0.setLink l { k with
      fecCorr := min 0xFFFFFFFF (k.fecCorr + corrected), badFrames := satInc 16 k.badFrames, rx := { k.rx with nak := true, nakAt := s0.time.now } }).sendCtl l (.ack k.rx.lastSeq true k.rx.freed)) := by
  intro k
  have bad : (fecBad || frameCrc frame.toNat ≠ fld frame.toNat 5134 5120 || (decide (11 ≤ fld frame.toNat 5138 5135) && decide (fld frame.toNat 5138 5135 ≤ 14))) = true := by
    simpa only [Bool.or_eq_true, Bool.and_eq_true, decide_eq_true_eq, or_assoc] using hBad
  change execFrameRx l frame fecBad corrected t s = _
  unfold execFrameRx
  rw [h0]
  dsimp only
  rw [if_neg (by rw [hFrames]; decide), if_pos bad, if_neg (by rw [hStop]; exact not_or.mpr ⟨hIns, Bool.false_ne_true⟩), if_neg (by rw [hNak]; decide)]
  rfl

omit h0 hFrames in
theorem rx_accepts (r : LinkRx) (hNak : r.nak = false) (hStop : r.stopped = false) : ({ r with
    nak := false, stopped := false, accepted := r.accepted + 1, sinceAck := r.sinceAck + 1, part := if false = true then none else r.part, skip := if false = true then 0 else r.skip } : LinkRx) =
      { r with accepted := r.accepted + 1, sinceAck := r.sinceAck + 1 } := by
  obtain ⟨⟩ := r
  cases hNak
  cases hStop
  rfl

/-- A good sequenced frame without `RSTART` is accepted in order. -/
theorem exec_frameRx_good (hFec : fecBad = false) (hCrc : frameCrc frame.toNat = fld frame.toNat 5134 5120) (hIns : fld frame.toNat 5138 5135 ≤ 10) (hStop : (s0.link l).rx.stopped = false)
    (hNak : (s0.link l).rx.nak = false) (hStart : bitAt frame.toNat 5139 = false) :
    let k := s0.link l
    exec (.frameRx l frame fecBad corrected t) s = .next (s0.setLink l ((({ k with
      fecCorr := min 0xFFFFFFFF (k.fecCorr + corrected), rx := { k.rx with accepted := k.rx.accepted + 1, sinceAck := k.rx.sinceAck + 1 } }).frameIn frame.toNat (fld frame.toNat 5138 5135)).stampTim
        s0.time.ft)) := by
  intro k
  have good : ¬ (fecBad || frameCrc frame.toNat ≠ fld frame.toNat 5134 5120 || (decide (11 ≤ fld frame.toNat 5138 5135) && decide (fld frame.toNat 5138 5135 ≤ 14))) = true := by
    simp only [hFec, Bool.or_eq_true, Bool.and_eq_true, decide_eq_true_eq, Bool.false_eq_true, false_or, not_or]
    exact ⟨not_not_intro hCrc, by omega⟩
  change execFrameRx l frame fecBad corrected t s = _
  unfold execFrameRx
  rw [h0]
  dsimp only
  rw [if_neg (by rw [hFrames]; decide), if_neg good, if_neg (by omega), if_neg (by simp [hStop, hNak]), hStart, rx_accepts _ hNak hStop]
  rfl

theorem exec_nakRepeat (hNak : (s0.link l).rx.nak = true) (hDue : (s0.link l).rx.nakAt + us ≤ s0.time.now) : let k := s0.link l
    exec (.nakRepeat l t) s = .next ((s0.setLink l { k with rx := { k.rx with nakAt := s0.time.now } }).sendCtl l (.ack k.rx.lastSeq true k.rx.freed)) := by
  intro k
  change execNakRepeat l t s = _
  unfold execNakRepeat
  rw [h0]
  exact if_pos ⟨hFrames, hNak, hDue⟩

theorem exec_ackSend (hNak : (s0.link l).rx.nak = false) : let k := s0.link l
    exec (.ackSend l t) s = .next ((s0.setLink l { k with rx := { k.rx with sinceAck := 0, ackAt := s0.time.now } }).sendCtl l (.ack k.rx.lastSeq false k.rx.freed)) := by
  intro k
  change execAckSend l t s = _
  unfold execAckSend
  rw [h0]
  exact if_pos ⟨hFrames, congrArg not hNak⟩

end

section
variable {s s1 : State} {l t : Nat} (h1 : (s.advance t).flushTx l = s1)
include h1

/-- The closed output gate stops the count of a replay's exhaustion. -/
theorem exec_replayExhaustion_gated (hGate : s1.gate = true) : exec (.replayExhaustion l t) s = .next s1 := by
  change execReplayExhaustion l t s = _
  unfold execReplayExhaustion
  rw [h1]
  exact if_neg fun h => by rw [hGate] at h; exact Bool.false_ne_true h.1

theorem exec_replayExhaustion (hGate : s1.gate = false) (hFrames : (s1.link l).frames = true)
    (hOut : (s1.link l).tx.resentOut = true ∨ (0 < (s1.link l).tx.outstanding ∧ (s1.link l).tx.ackAt + 4 * us < s1.time.now)) : exec (.replayExhaustion l t) s = .next (s1.fastStart l) := by
  have late : (s1.link l).tx.resentOut = true ∨ s1.ackLate l = true := hOut.imp_right fun ⟨h, h'⟩ => by
    unfold State.ackLate
    simp only [hGate, hFrames, h, h', decide_true]
    rfl
  change execReplayExhaustion l t s = _
  unfold execReplayExhaustion
  rw [h1]
  exact if_pos ⟨congrArg not hGate, hFrames, late⟩

end

/-! ### Acknowledgements and replay -/

def isAckSlot : Slot → Bool
  | .ack _ _ _ => true
  | _ => false

/-- A link's transmit side after an `ACK` that covers `n` more frames. -/
def LinkTx.ackedBy (x : LinkTx) (n now : Nat) (cr : List Nat) : LinkTx :=
  { x with acked := x.acked + n, buf := x.buf.drop n, sent := x.sent.filter (fun e => decide (x.acked + n ≤ e.last)), credit := cr, ackAt := now }

theorem exec_ack {s f u : State} {l t q : Nat} {nak : Bool} {cr : List Nat} (hf : (s.advance t).flushTx l = f)
    (hTake : (if f.ackLate l = true then f.fastStart l else f).takeRx l isAckSlot = some (.ack q nak cr, u)) (hPos : 0 < (q + 1 + 4096 - (u.link l).tx.acked % 4096) % 4096)
    (hLe : (q + 1 + 4096 - (u.link l).tx.acked % 4096) % 4096 ≤ (u.link l).tx.buf.length) :
    ∃ w : State, exec (.ack l t) s = .next (if nak = true ∧ (u.link l).frames = true then w.replay l else w) ∧
      (w.link l).tx = (u.link l).tx.ackedBy ((q + 1 + 4096 - (u.link l).tx.acked % 4096) % 4096) u.time.now cr := by
  change ∃ w : State, execAck l t s = _ ∧ _
  unfold execAck
  rw [hf]
  dsimp only
  split
  · next q' nak' cr' u' heq =>
    obtain ⟨hp, rfl⟩ := Prod.mk.inj (Option.some.inj (heq.symm.trans hTake))
    cases hp
    refine ⟨_, rfl, (congrArg Link.tx (State.link_setLink ..) :).trans ?_⟩
    have adv : (decide (0 < (q + 1 + 4096 - (u'.link l).tx.acked % 4096) % 4096) && decide ((q + 1 + 4096 - (u'.link l).tx.acked % 4096) % 4096 ≤ (u'.link l).tx.buf.length)) = true := by
      rw [decide_eq_true hPos, decide_eq_true hLe]
      rfl
    unfold LinkTx.ackedBy
    simp only [adv, if_true, Nat.add_sub_cancel_left, ← decide_not, Nat.not_lt]
  · next hOther => exact absurd hTake (hOther q nak cr u)

/-- A single frame that is outstanding is sent again with `RSTART`. -/
theorem replay_one {s : State} {l r : Nat} {f : Frame} (hGate : s.gate = false) (hBuf : (s.link l).tx.buf = [(f, r)]) :
    (s.replay l).out = s.out ++ [.frame l ((s.link l).lane (s.link l).tx.acked) { f with rstart := true }] ∧ ((s.replay l).link l).tx.buf = [(f, r + 1)] := by
  have ready : ¬ (s.gate = true ∨ (s.link l).tx.buf.isEmpty = true) := by
    rw [hGate, hBuf]
    exact not_or.mpr ⟨Bool.false_ne_true, Bool.false_ne_true⟩
  unfold State.replay
  dsimp only
  rw [if_neg ready, out_restamp, link_restamp, hBuf]
  exact ⟨rfl, (congrArg (fun k : Link => k.tx.buf) (State.link_setLink ..) :)⟩

end Sys2Proof.Machine
end

section
/-!
PROOFS. The egress arbiter and the identity exchange (R252, R254, R265, R278 to R282).
-/
set_option Elab.async false
namespace Sys2Proof.Laws
open Sys2Proof Sys2Proof.Machine

/-! ### Flits that take their places -/

/-- From `s` to `u` link `l` keeps its queue, the packets in its frames and its credits, and what left has left. -/
structure SameQueue (l : Nat) (s u : State) : Prop where
  q : (u.link l).tx.q = (s.link l).tx.q
  sent : (u.link l).tx.sent = (s.link l).tx.sent
  used : (u.link l).tx.used = (s.link l).tx.used
  out : ∀ o ∈ s.out, o ∈ u.out

namespace SameQueue
variable {l : Nat} {s t u : State}

theorem refl : SameQueue l s s := ⟨rfl, rfl, rfl, fun _ h => h⟩

theorem trans (h : SameQueue l s t) (g : SameQueue l t u) : SameQueue l s u := ⟨g.q.trans h.q, g.sent.trans h.sent, g.used.trans h.used, fun o ho => g.out o (h.out o ho)⟩

theorem setLink {r : State} {v : Link} (ho : ∀ o ∈ s.out, o ∈ r.out) (hq : v.tx.q = (s.link l).tx.q) (hs : v.tx.sent = (s.link l).tx.sent) (hu : v.tx.used = (s.link l).tx.used) :
    SameQueue l s (r.setLink l v) :=
  ⟨(congrArg (fun k : Link => k.tx.q) (State.link_setLink ..) :).trans hq, (congrArg (fun k : Link => k.tx.sent) (State.link_setLink ..) :).trans hs,
    (congrArg (fun k : Link => k.tx.used) (State.link_setLink ..) :).trans hu, ho⟩

theorem closeFrame : SameQueue l s (s.closeFrame l) :=
  ⟨(congrArg (fun k : Link => k.tx.q) (State.link_setLink ..) :), (congrArg (fun k : Link => k.tx.sent) (State.link_setLink ..) :), (congrArg (fun k : Link => k.tx.used) (State.link_setLink ..) :),
    fun _ h => List.mem_append_left _ h⟩

theorem placeFlit {f : Nat} : SameQueue l s (s.placeFlit l f) := by
  unfold State.placeFlit
  dsimp only
  split
  · refine trans ?_ closeFrame
    refine setLink (fun _ h => h) ?_ ?_ ?_
    all_goals rfl
  · refine setLink (fun _ h => h) ?_ ?_ ?_
    all_goals rfl

theorem placeFlits : ∀ {s : State} (fs : List Nat), SameQueue l s (fs.foldl (fun (u : State) f => u.placeFlit l f) s)
  | _, [] => refl
  | _, _ :: fs => placeFlit.trans (placeFlits fs)

theorem alignFrame {n : Nat} : SameQueue l s (s.alignFrame l n) := by
  unfold State.alignFrame
  split
  · exact closeFrame
  · exact refl

theorem placeSlot {x : Slot} : SameQueue l s (s.placeSlot l x) := by
  have placed := (alignFrame (s := s) (l := l) (n := x.flits)).trans (placeFlits x.flitList)
  unfold State.placeSlot
  dsimp only
  split
  · refine placed.trans ?_
    refine setLink (fun _ h => h) ?_ ?_ ?_
    all_goals rfl
  · exact placed

theorem rideSlot {h : Nat} {x : Slot} : SameQueue l s (s.rideSlot l h x) := by
  refine setLink (fun _ h => h) ?_ ?_ ?_
  all_goals rfl

end SameQueue

/-- The place of the next flit of a link, counted from link initialisation. -/
def flitPos (s : State) (l : Nat) : Nat := 10 * (s.link l).tx.frames + (s.link l).tx.cur.length

theorem link_closeFrame (s : State) (l : Nat) : ((s.closeFrame l).link l).tx.frames = (s.link l).tx.frames + 1 ∧ ((s.closeFrame l).link l).tx.cur = [] := by
  rw [show (s.closeFrame l).link l = { s.link l with tx := (s.link l).tx.close.1 } from State.link_setLink ..]
  exact ⟨rfl, rfl⟩

/-- A flit takes one place, and the tenth completes its frame. -/
theorem flitPos_placeFlit {s : State} {l f : Nat} (h : (s.link l).tx.cur.length ≤ 9) : flitPos (s.placeFlit l f) l = flitPos s l + 1 ∧ ((s.placeFlit l f).link l).tx.cur.length ≤ 9 := by
  unfold State.placeFlit flitPos
  dsimp only
  split
  · next hFull =>
    obtain ⟨frames, cur⟩ := link_closeFrame (({ s with st := { s.st with flits := s.st.flits + 1 } } : State).setLink l { s.link l with tx := { (s.link l).tx with
      cur := (s.link l).tx.cur ++ [f], curAt := if (s.link l).tx.cur.isEmpty then s.time.now else (s.link l).tx.curAt,
      curFt := if (s.link l).tx.cur.isEmpty then s.time.ft else (s.link l).tx.curFt } }) l
    rw [frames, cur, State.link_setLink]
    simp only [List.length_nil]
    omega
  · next hFull =>
    rw [State.link_setLink]
    simp only [List.length_append, List.length_singleton]
    omega

theorem flitPos_placeFlits {l : Nat} : ∀ {s : State} (fs : List Nat), (s.link l).tx.cur.length ≤ 9 →
    flitPos (fs.foldl (fun (u : State) f => u.placeFlit l f) s) l = flitPos s l + fs.length
  | _, [], _ => rfl
  | s, f :: fs, h => by
    obtain ⟨pos, room⟩ := flitPos_placeFlit (f := f) h
    exact (flitPos_placeFlits fs room).trans (by rw [pos, List.length_cons]; omega)

theorem length_dataFlits : ∀ (n : Nat) (ws : List Word), (dataFlits n ws).length = n
  | 0, _ => rfl
  | n + 1, ws => congrArg (· + 1) (length_dataFlits n (ws.drop 16))

theorem length_flitList (x : Slot) : x.flitList.length = x.flits := by
  cases x with
  | pkt p => exact (congrArg (· + 1) (length_dataFlits ..)).trans (Nat.add_comm ..)
  | _ => rfl

/-- A slot takes the next places, from a new frame on where it does not fit in the one under construction. -/
theorem flitPos_placeSlot {s : State} {l : Nat} {x : Slot} (h : (s.link l).tx.cur.length ≤ 9) : flitPos (s.placeSlot l x) l =
    (if (s.link l).tx.cur ≠ [] ∧ 10 < (s.link l).tx.cur.length + x.flits then 10 * ((s.link l).tx.frames + 1) else 10 * (s.link l).tx.frames + (s.link l).tx.cur.length) + x.flits := by
  have aligned : flitPos (s.alignFrame l x.flits) l = (if (s.link l).tx.cur ≠ [] ∧ 10 < (s.link l).tx.cur.length + x.flits then 10 * ((s.link l).tx.frames + 1)
      else 10 * (s.link l).tx.frames + (s.link l).tx.cur.length) ∧ ((s.alignFrame l x.flits).link l).tx.cur.length ≤ 9 := by
    unfold State.alignFrame flitPos
    simp only [Bool.not_eq_true', List.isEmpty_eq_false_iff]
    split
    · rw [(link_closeFrame s l).1, (link_closeFrame s l).2]
      exact ⟨rfl, Nat.zero_le _⟩
    · exact ⟨rfl, h⟩
  have placed := flitPos_placeFlits x.flitList aligned.2
  rw [aligned.1, length_flitList] at placed
  refine Eq.trans ?_ placed
  unfold State.placeSlot flitPos
  dsimp only
  split
  · rw [State.link_setLink]
  · rfl

end Sys2Proof.Laws

namespace Sys2Proof.Machine
open Sys2Proof Sys2Proof.Laws

/-! ### The egress arbiter -/

/-- A link's transmit side as the granted entry leaves its queue. -/
def LinkTx.granted (x : LinkTx) (e : QEnt) (rank now : Nat) : LinkTx :=
  { x with
    q := x.q.erase e, used := if e.slot.pool ≤ 5 then x.used.set e.slot.pool ((nth x.used e.slot.pool + e.slot.flits) % 65536) else x.used,
    arb := { x.arb with grants := x.arb.grants + 1, inUse := some rank, beats := e.slot.flits }, ackAt := if x.outstanding = 0 then now else x.ackAt }

/-- The granted slot takes its place in the frame under construction. -/
def egressPlaced (s : State) (l : Nat) (e : QEnt) : State :=
  match (s.link l).tx.ride e.slot with
  | some h => s.rideSlot l h e.slot
  | none => s.placeSlot l e.slot

/-- The granted slot is kept under the number of the frame that took its last flit. -/
def egressKept (s : State) (l : Nat) (e : QEnt) : State :=
  (s.setLink l { s.link l with tx := { (s.link l).tx with sent := (s.link l).tx.sent ++ [⟨e, (s.link l).tx.lastFrame⟩] } }).timStamp l e.slot (s.link l).tx.curFt

/-- The state in which the granted entry has left the queue and goes out. -/
def egressTaken (s : State) (l : Nat) (e : QEnt) (rank : Nat) : State :=
  { s.setLink l { s.link l with tx := (s.link l).tx.granted e rank s.time.now } with out := s.out ++ [Out.slot l e.slot] }

theorem exec_egressGrant {s s1 : State} {l t : Nat} {w : Nat × Nat × Nat} {e : QEnt} (h1 : (s.advance t).flushTx l = s1) (hGate : s1.gate = false) (hUsable : (s1.link l).usable = true)
    (hRoom : (s1.link l).tx.ride e.slot ≠ none ∨ (s1.link l).tx.roomFor e.slot.flits = true) (hReplay : (s1.link l).tx.replayTo ≤ s1.time.now) (hHandoff : (s1.link l).handoff = none)
    (hWin : ({ (s1.link l).tx.arb with waiting := s1.egressHeads l } : Arb).winner 16 = some w) (hHead : (s1.link l).tx.q.find? (fun e => e.rank == w.1) = some e) :
    exec (.egressGrant l t) s = .next (egressKept (egressPlaced (egressTaken s1 l e w.1) l e) l e) := by
  have free : ¬ (s1.gate = true ∨ (!(s1.link l).usable) = true ∨ s1.time.now < (s1.link l).tx.replayTo ∨ (s1.link l).handoff.isSome = true) := by
    rw [hGate, hUsable, hHandoff]
    simpa using hReplay
  have room : ¬ (((s1.link l).tx.ride e.slot).isNone = true ∧ (!(s1.link l).tx.roomFor e.slot.flits) = true) := by
    rintro ⟨hRide, hFull⟩
    rcases hRoom with h | h
    · exact h (Option.isNone_iff_eq_none.mp hRide)
    · rw [h] at hFull
      cases hFull
  have taken : (egressTaken s1 l e w.1).link l = { s1.link l with tx := (s1.link l).tx.granted e w.1 s1.time.now } := State.link_setLink ..
  change execEgressGrant l t s = _
  unfold execEgressGrant
  rw [h1]
  dsimp only
  rw [if_neg free, hWin]
  dsimp only
  rw [hHead]
  dsimp only
  rw [if_neg room]
  unfold egressPlaced
  rw [taken]
  rfl

section
variable {s : State} {l : Nat} {e : QEnt} {rank : Nat}

theorem link_egressTaken : (egressTaken s l e rank).link l = { s.link l with tx := (s.link l).tx.granted e rank s.time.now } := State.link_setLink ..

theorem sameQueue_egressPlaced : SameQueue l s (egressPlaced s l e) := by
  unfold egressPlaced
  split
  · exact .rideSlot
  · exact .placeSlot

theorem link_egressKept : (egressKept s l e).link l = { s.link l with tx := { (s.link l).tx with sent := (s.link l).tx.sent ++ [⟨e, (s.link l).tx.lastFrame⟩] } } := by
  unfold egressKept
  rw [link_timStamp, State.link_setLink]

theorem out_egressKept : (egressKept s l e).out = s.out := by
  unfold egressKept
  rw [out_timStamp]
  rfl

/-- Where the slot rides in another packet's header flit, no further place is taken. -/
theorem egressPlaced_rides {h : Nat} (hRide : (s.link l).tx.ride e.slot = some h) :
    ((egressPlaced s l e).link l).tx.frames = (s.link l).tx.frames ∧ ((egressPlaced s l e).link l).tx.cur = (s.link l).tx.cur.modify h (fun f => f + 2 ^ 256 * e.slot.bits) := by
  unfold egressPlaced
  rw [hRide]
  dsimp only
  unfold State.rideSlot
  rw [State.link_setLink]
  exact ⟨rfl, rfl⟩

theorem egressPlaced_places (hRide : (s.link l).tx.ride e.slot = none) : egressPlaced s l e = s.placeSlot l e.slot := by
  unfold egressPlaced
  rw [hRide]

end

/-- What a grant does to its link and sends. -/
theorem egressGranted (s1 : State) (l : Nat) (e : QEnt) (rank : Nat) : let x := (s1.link l).tx
    let u := egressKept (egressPlaced (egressTaken s1 l e rank) l e) l e
    (u.link l).tx.q = x.q.erase e ∧ Out.slot l e.slot ∈ u.out ∧ (u.link l).tx.sent = x.sent ++ [⟨e, (u.link l).tx.lastFrame⟩] ∧
      (∀ h, x.ride e.slot = some h → (u.link l).tx.frames = x.frames ∧ (u.link l).tx.cur = x.cur.modify h (fun f => f + 2 ^ 256 * e.slot.bits)) ∧
      (x.cur.length ≤ 9 → x.ride e.slot = none →
        let start := if x.cur ≠ [] ∧ 10 < x.cur.length + e.slot.flits then 10 * (x.frames + 1) else 10 * x.frames + x.cur.length
        10 * (u.link l).tx.frames + (u.link l).tx.cur.length = start + e.slot.flits) ∧
      (e.slot.pool ≤ 5 → (u.link l).tx.used = x.used.set e.slot.pool ((nth x.used e.slot.pool + e.slot.flits) % 65536)) := by
  intro x u
  have taken := link_egressTaken (s := s1) (l := l) (e := e) (rank := rank)
  have tx : ((egressTaken s1 l e rank).link l).tx = x.granted e rank s1.time.now := congrArg Link.tx taken
  have placed := sameQueue_egressPlaced (s := egressTaken s1 l e rank) (l := l) (e := e)
  have kept := link_egressKept (s := egressPlaced (egressTaken s1 l e rank) l e) (l := l) (e := e)
  have kq : (u.link l).tx.q = _ := congrArg (fun k : Link => k.tx.q) kept
  have ks : (u.link l).tx.sent = _ := congrArg (fun k : Link => k.tx.sent) kept
  have ku : (u.link l).tx.used = _ := congrArg (fun k : Link => k.tx.used) kept
  have kf : (u.link l).tx.frames = _ := congrArg (fun k : Link => k.tx.frames) kept
  have kc : (u.link l).tx.cur = _ := congrArg (fun k : Link => k.tx.cur) kept
  have kl : (u.link l).tx.lastFrame = _ := congrArg (fun k : Link => k.tx.lastFrame) kept
  refine ⟨kq.trans (placed.q.trans (congrArg LinkTx.q tx)), ?_, ?_, fun h hRide => ?_, fun hCur hRide => ?_, fun hPool => ?_⟩
  · rw [show u.out = _ from out_egressKept]
    exact placed.out _ (List.mem_append_right _ (List.mem_singleton.mpr rfl))
  · rw [ks, kl]
    exact congrArg (· ++ _) (placed.sent.trans (congrArg LinkTx.sent tx :))
  · obtain ⟨frames, cur⟩ := egressPlaced_rides (s := egressTaken s1 l e rank) (l := l) (e := e) (h := h) ((congrArg (LinkTx.ride · e.slot) tx).trans hRide)
    exact ⟨kf.trans (frames.trans (congrArg LinkTx.frames tx :)), kc.trans (cur.trans (congrArg (fun y : LinkTx => y.cur.modify h (fun f => f + 2 ^ 256 * e.slot.bits)) tx :))⟩
  · have pos := flitPos_placeSlot (s := egressTaken s1 l e rank) (l := l) (x := e.slot) (tx ▸ hCur)
    rw [tx] at pos
    rw [kf, kc, egressPlaced_places ((congrArg (LinkTx.ride · e.slot) tx).trans hRide)]
    exact pos
  · exact ku.trans (placed.used.trans ((congrArg LinkTx.used tx).trans (if_pos hPool)))

/-! ### Identity -/

def isIdentSlot : Slot → Bool
  | .ident _ => true
  | _ => false

/-- What a link learns of its far end from an identity block. -/
def Link.identified (k : Link) (b : Nat) : Link :=
  { k with
    farId := fld b 18 0, farLpn := fld b 33 19, farLpnValid := bitAt b 34, farRole := fld b 36 35, farPort := fld b 43 37, farDev := fld b 51 44,
    farTim := bitAt b 60, farHandoff := bitAt b 61, farPlan := fld b 127 64, identGot := true }

theorem exec_ident {s u : State} {l t b : Nat} (hTake : (s.advance t).takeRx l isIdentSlot = some (.ident b, u)) :
    exec (.ident l t) s = .next ((u.setLink l ((u.link l).identified b)).compareWiring l) := by
  change execIdent l t s = _
  unfold execIdent
  dsimp only
  split
  · next b' u' heq =>
    obtain ⟨hp, rfl⟩ := Prod.mk.inj (Option.some.inj (heq.symm.trans hTake))
    cases hp
    rfl
  · next hOther => exact absurd hTake (hOther b u)

/-- Without an image nothing is compared, and the exchange is done. -/
theorem compareWiring_unplanned {s : State} {l : Nat} (hImage : s.cfg.image = none) : s.compareWiring l = (s.setLink l { s.link l with planMismatch := false }).identDone l := by
  have differs : s.planDiffers (s.link l) = false := by
    unfold State.planDiffers
    rw [hImage]
  have plan : (s.setLink l { s.link l with planMismatch := false }).plan l = none := by
    unfold State.plan
    rw [State.setLink_cfg, hImage]
  unfold State.compareWiring
  dsimp only
  rw [differs, plan]

/-- The end of the exchange moves a link to credit initialisation, with an `ACK` of its pools, or leaves it. -/
theorem identDone_link (s : State) (l : Nat) : ((s.identDone l).link l = s.link l ∨ (s.identDone l).link l = { s.link l with phase := 4, phaseAt := s.time.now }) ∧
    ((s.link l).state = 2 → (s.link l).phase = 3 → (s.link l).identGot = true → ((s.identDone l).link l).phase = 4 ∧
      Out.slot l (.ack (s.link l).rx.lastSeq false (s.link l).rx.freed) ∈ (s.identDone l).out) := by
  have frames (v : Link) (h : v.state = 2) : v.frames = true := by unfold Link.frames; rw [h]; rfl
  have at' (v : Link) : (s.setLink l v).link l = v := State.link_setLink ..
  unfold State.identDone
  dsimp only
  split
  · next h =>
    rw [link_sendCtl, at']
    exact ⟨.inr rfl, fun _ _ _ => ⟨rfl, mem_out_sendCtl (by rw [at']; exact frames _ h.1)⟩⟩
  · next h => exact ⟨.inl rfl, fun h2 h3 hGot => absurd ⟨h2, h3, hGot⟩ h⟩

theorem exec_identSend {s s0 : State} {l t : Nat} (h0 : s.advance t = s0) (hDue : ((s0.link l).state = 2 ∧ (s0.link l).identGot = false ∧ (s0.link l).identAt + 10 * us ≤ s0.time.now) ∨
    (((s0.link l).state = 3 ∨ (s0.link l).state = 4) ∧ (s0.link l).identAt + 1000 * ms ≤ s0.time.now)) :
    exec (.identSend l t) s = .next ((s0.setLink l { s0.link l with identAt := s0.time.now }).sendCtl l (.ident (s0.identBlock l))) := by
  change execIdentSend l t s = _
  unfold execIdentSend
  rw [h0]
  exact if_pos (by simpa [and_assoc] using hDue)

theorem Link.lane_eq (k : Link) (n i : Nat) : (k.solo = some i → k.state = 5 → k.lane n = i) ∧ (k.solo = none ∨ k.state ≠ 5 → k.lane n = n % 2) := by
  unfold Link.lane
  refine ⟨fun h h5 => by rw [if_pos h5, h]; rfl, fun h => ?_⟩
  rcases h with h | h
  · rw [h]
    exact ite_self _
  · rw [if_neg h]

end Sys2Proof.Machine

namespace Sys2Proof.Safety
open Sys2Proof Sys2Proof.Machine Sys2Proof.Laws

/-- Settles O41: frames and their acknowledgement, the grant of the egress arbiter, and the identity exchange. -/
theorem linkTrafficCompletes : Obligations.LinkTrafficCompletes := by
  refine ⟨fun s l corrected t frame fecBad => ?_, fun s l t => ?_⟩
  · intro s0 k k1 ins
    refine ⟨fun hFrames => ⟨exec_frameRx_bad rfl hFrames, exec_frameRx_good rfl hFrames, exec_nakRepeat rfl hFrames, exec_ackSend rfl hFrames⟩,
      ⟨exec_replayExhaustion_gated rfl, exec_replayExhaustion rfl⟩, ?_, fun f r => replay_one⟩
    intro f q nak cr u hTake x n hPos hLe
    obtain ⟨w, runs, tx⟩ := exec_ack rfl hTake hPos hLe
    exact ⟨w, runs, congrArg LinkTx.acked tx, congrArg LinkTx.credit tx, congrArg LinkTx.buf tx, congrArg LinkTx.sent tx, congrArg LinkTx.ackAt tx⟩
  · intro s0 k
    refine ⟨?_, ?_, fun n => ?_, exec_identSend rfl⟩
    · intro w e s1 x hGate hUsable hRoom hReplay hHandoff hWin hHead
      exact ⟨_, exec_egressGrant rfl hGate hUsable hRoom hReplay hHandoff hWin hHead, egressGranted s1 l e w.1⟩
    · intro b u hTake hImage
      have at' : (u.setLink l ((u.link l).identified b)).link l = (u.link l).identified b := State.link_setLink ..
      obtain ⟨kept, done⟩ := identDone_link ((u.setLink l ((u.link l).identified b)).setLink l { (u.link l).identified b with planMismatch := false }) l
      rw [State.link_setLink] at kept done
      have compared := compareWiring_unplanned (s := u.setLink l ((u.link l).identified b)) (l := l) hImage
      rw [at'] at compared
      refine ⟨_, (exec_ident hTake).trans (congrArg ok compared), ?_⟩
      rcases kept with h | h
      · rw [h] at done ⊢
        exact ⟨rfl, rfl, rfl, rfl, rfl, rfl, rfl, rfl, fun h2 h3 => done h2 h3 rfl⟩
      · rw [h] at done ⊢
        exact ⟨rfl, rfl, rfl, rfl, rfl, rfl, rfl, rfl, fun h2 h3 => done h2 h3 rfl⟩
    · split
      · next h5 =>
        split
        · next i hi => exact (Link.lane_eq k n i).1 hi h5
        · next hi => exact (Link.lane_eq k n 0).2 (.inl hi)
      · next h5 => exact (Link.lane_eq k n 0).2 (.inr h5)

end Sys2Proof.Safety
end

section
/-!
PROOFS. The handoff of a failed link (R267, R269, R270, R285).
-/
set_option Elab.async false
namespace Sys2Proof.Laws
open Sys2Proof Sys2Proof.Machine

/-! ### What a move of a slot leaves of the links -/

/-- What a new value of one link has in common with the old one, every link keeps. -/
theorem keeps_setLink {β : Type} (g : Link → β) {s : State} {l : Nat} {v : Link} (h : g v = g (s.link l)) (j : Nat) : g ((s.setLink l v).link j) = g (s.link j) := by
  by_cases hj : j = l
  · rw [hj, State.link_setLink, h]
  · rw [State.link_setLink_ne s l j v hj]

theorem link_setOctet (s : State) (o : Nat) (v : Octet) (j : Nat) : (s.setOctet o v).link j = s.link j := rfl

/-- The slots that a failed link hands over leave what each link receives and has counted. -/
theorem keeps_moveSlot {β : Type} (g : Link → β) (hg : ∀ (k : Link) st sch, g { k with state := st, sch := sch } = g k) (s : State) (o sl l j : Nat) : g ((s.moveSlot o sl l).link j) = g (s.link j) := by
  unfold State.moveSlot
  dsimp only
  rw [keeps_setLink g (hg ..), keeps_setLink g (hg ..), link_setOctet]

theorem keeps_learnMove {β : Type} (g : Link → β) (hg : ∀ (k : Link) st sch was, g { k with state := st, sch := sch, wasSch := was } = g k) (s : State) (x l j : Nat) :
    g ((s.learnMove x l).link j) = g (s.link j) := by
  unfold State.learnMove
  dsimp only
  split
  · rfl
  · rw [keeps_setLink g (hg ..)]
    split
    · exact keeps_moveSlot g (fun k st sch => hg k st sch k.wasSch) ..
    · rfl

/-- A slot that moves leaves every link's state, or brings the spare up. -/
theorem frames_moveSlot {s : State} {o sl l j : Nat} (h : (s.link j).frames = true) : ((s.moveSlot o sl l).link j).frames = true := by
  unfold State.moveSlot
  dsimp only
  by_cases hj : j = 8 * o + (s.octet o).spareIdx
  · rw [hj, State.link_setLink]
    rfl
  · rw [State.link_setLink_ne _ _ _ _ hj]
    refine (keeps_setLink Link.frames ?_ j).trans h
    rfl

theorem frames_learnMove {s : State} {x l j : Nat} (h : (s.link j).frames = true) : ((s.learnMove x l).link j).frames = true := by
  unfold State.learnMove
  dsimp only
  split
  · exact h
  · refine (keeps_setLink Link.frames ?_ j).trans ?_
    · rfl
    split
    · exact frames_moveSlot h
    · exact h

/-- The spare that the far end has put a slot on carries it from then on. -/
theorem link_learnMove_spare {s : State} {x l sl : Nat} (hSch : (s.link x).sch = some sl) (hx : x ≠ l) (hSpare : s.spareReady (x / 8) = true) (hl : l = 8 * (x / 8) + (s.octet (x / 8)).spareIdx) :
    ((s.learnMove x l).link l).state = 3 ∧ ((s.learnMove x l).link l).sch = some sl ∧ ((s.learnMove x l).link x).sch = none := by
  have moved : s.learnMove x l = (s.moveSlot (x / 8) sl x).setLink x { (s.moveSlot (x / 8) sl x).link x with sch := none, wasSch := some sl } := by
    unfold State.learnMove
    dsimp only
    rw [hSch]
    dsimp only
    rw [if_pos ⟨hSpare, hl⟩]
  have up : ((s.moveSlot (x / 8) sl x).link l).state = 3 ∧ ((s.moveSlot (x / 8) sl x).link l).sch = some sl := by
    unfold State.moveSlot
    dsimp only
    rw [← hl, State.link_setLink]
    exact ⟨rfl, rfl⟩
  rw [moved, State.link_setLink_ne _ _ _ _ (Ne.symm hx), State.link_setLink]
  exact ⟨up.1, up.2, rfl⟩

theorem frames_takeRx {s u : State} {l j : Nat} {f : Slot → Bool} {x : Slot} (h : s.takeRx l f = some (x, u)) : (u.link j).frames = (s.link j).frames := by
  unfold State.takeRx at h
  dsimp only at h
  split at h <;> cases h
  · refine keeps_setLink Link.frames ?_ j
    rfl
  · unfold State.freeCredit
    dsimp only
    split
    · refine keeps_setLink Link.frames ?_ j
      rfl
    · refine (keeps_setLink Link.frames ?_ j).trans (keeps_setLink Link.frames ?_ j)
      · rfl
      · rfl

end Sys2Proof.Laws

namespace Sys2Proof.Machine
open Sys2Proof Sys2Proof.Laws

def isHandoffReq : Slot → Bool
  | .handoffReq _ => true
  | _ => false

def isHandoffRsp : Slot → Bool
  | .handoffRsp _ _ => true
  | _ => false

/-- A receiver that a handoff stops, with its credits as at initialisation. -/
def stopRx (s : State) (x : Nat) : Link :=
  { s.link x with
    rx := { (s.link x).rx with stopped := true, part := none, skip := 0, nak := false, freed := (s.link x).rx.refilled (s.pools x), held := [0, 0, 0, 0, 0, 0] },
    handoffs := satInc 8 (s.link x).handoffs }

/-- The state in which a handoff has stopped the receiver of link `x`, before the slot map follows. -/
def handoffStopped (s : State) (x : Nat) : State :=
  { s.setLink x (stopRx s x) with st := { (s.setLink x (stopRx s x)).st with handoffs := (s.st.handoffs + 1) % 2 ^ 32 } }

theorem exec_handoffReq_unframed {s : State} {l t : Nat} (h : ((s.advance t).link l).frames = false) : exec (.handoffReq l t) s = .next (s.advance t) := if_pos (congrArg not h)

theorem exec_handoffReq {s u : State} {l n x t : Nat} (hFrames : ((s.advance t).link l).frames = true) (hTake : (s.advance t).takeRx l isHandoffReq = some (.handoffReq n, u))
    (hFar : u.linkOfFar l n = some x) :
    exec (.handoffReq l t) s = .next (((handoffStopped u x).learnMove x l).sendCtl l (.handoffRsp n ((u.link x).rx.accepted % 4096))) := by
  change execHandoffReq l t s = _
  unfold execHandoffReq
  dsimp only
  rw [hFrames, if_neg (by decide)]
  split
  · next n' u' heq =>
    obtain ⟨hp, rfl⟩ := Prod.mk.inj (Option.some.inj (heq.symm.trans hTake))
    cases hp
    rw [hFar]
    rfl
  · next hOther => exact absurd hTake (hOther n u)

theorem link_handoffStopped (s : State) (x : Nat) : (handoffStopped s x).link x = stopRx s x := State.link_setLink ..

theorem link_handoffStopped_ne (s : State) {x j : Nat} (h : j ≠ x) : (handoffStopped s x).link j = s.link j := State.link_setLink_ne s x j (stopRx s x) h

/-- A handoff stops the failed link's receiver and is answered with the next frame expected. -/
theorem handoffReq_stops {u : State} {l n x : Nat} (hFrames : (u.link l).frames = true) :
    let v := ((handoffStopped u x).learnMove x l).sendCtl l (.handoffRsp n ((u.link x).rx.accepted % 4096))
    (v.link x).rx.stopped = true ∧ (v.link x).handoffs = satInc 8 (u.link x).handoffs ∧ Out.slot l (.handoffRsp n ((u.link x).rx.accepted % 4096)) ∈ v.out := by
  intro v
  have framed : ((handoffStopped u x).link l).frames = true := (keeps_setLink (l := x) (v := stopRx u x) Link.frames rfl l).trans hFrames
  refine ⟨?_, ?_, mem_out_sendCtl (frames_learnMove framed)⟩
  · rw [link_sendCtl, keeps_learnMove (fun k => k.rx.stopped) fun _ _ _ _ => rfl, link_handoffStopped]
    rfl
  · rw [link_sendCtl, keeps_learnMove Link.handoffs fun _ _ _ _ => rfl, link_handoffStopped]
    rfl

/-- Where the request came on the octet's spare, the spare takes the failed link's slot. -/
theorem handoffReq_moves {u : State} {l x sl : Nat} {y : Slot} (hSch : (u.link x).sch = some sl) (hx : x ≠ l) (hSpare : u.spareReady (x / 8) = true)
    (hl : l = 8 * (x / 8) + (u.octet (x / 8)).spareIdx) : let v := ((handoffStopped u x).learnMove x l).sendCtl l y
    (v.link l).state = 3 ∧ (v.link l).sch = some sl ∧ (v.link x).sch = none := by
  intro v
  have spare : (handoffStopped u x).spareReady (x / 8) = true := by
    unfold State.spareReady at hSpare ⊢
    dsimp only at hSpare ⊢
    rw [show (handoffStopped u x).octet (x / 8) = u.octet (x / 8) from rfl, ← hl, link_handoffStopped_ne u (Ne.symm hx)]
    rwa [← hl] at hSpare
  rw [link_sendCtl, link_sendCtl]
  exact link_learnMove_spare (by rw [link_handoffStopped]; exact hSch) hx spare hl

/-- An answer in time puts what the failed link had not delivered, and its queue, ahead on the link that took over. -/
theorem exec_handoffRsp {s u : State} {l n e at_ t : Nat} (hTake : (s.advance t).takeRx l isHandoffRsp = some (.handoffRsp n e, u)) (hHandoff : (u.link n).handoff = some (l, at_)) (hn : n ≠ l)
    (hGate : u.gate = false) (hTime : u.time.now ≤ at_ + 20 * us) : let y := (u.link n).tx
    let exp := y.acked + (e + 4096 - y.acked % 4096) % 4096
    ∃ v, exec (.handoffRsp l t) s = .next v ∧ v.link n = { u.link n with handoff := none, tx := y.handedOff exp } ∧
      (v.link l).tx.q = ((y.sent.filter (fun p => decide (exp ≤ p.last))).map (fun p => p.ent) ++ y.q).filter (fun e => e.rank != 0) ++ (u.link l).tx.q := by
  intro y exp
  let s2 := u.setLink n { u.link n with handoff := none, tx := y.handedOff exp }
  let v := s2.setLink l { s2.link l with tx := { (s2.link l).tx with
    q := ((y.sent.filter (fun p => decide (exp ≤ p.last))).map (fun p => p.ent) ++ y.q).filter (fun e => e.rank != 0) ++ (s2.link l).tx.q } }
  have runs : exec (.handoffRsp l t) s = .next (if u.time.now = at_ + 20 * us then v.nearMissEvent 5 else v) := by
    change execHandoffRsp l t s = _
    unfold execHandoffRsp
    dsimp only
    split
    · next n' e' u' heq =>
      obtain ⟨hp, rfl⟩ := Prod.mk.inj (Option.some.inj (heq.symm.trans hTake))
      cases hp
      rw [hHandoff]
      dsimp only
      rw [if_neg (not_or.mpr ⟨not_not_intro rfl, Nat.not_lt.mpr hTime⟩)]
      have open' : ∀ w : Link, ¬ (u'.setLink n w).gate = true := fun w h => Bool.false_ne_true (hGate.symm.trans h)
      rw [if_neg (open' _)]
      rfl
    · next hOther => exact absurd hTake (hOther n e u)
  have event (j : Nat) : (v.nearMissEvent 5).link j = v.link j := rfl
  have links (j : Nat) : (if u.time.now = at_ + 20 * us then v.nearMissEvent 5 else v).link j = v.link j := by
    split
    · exact event j
    · rfl
  refine ⟨_, runs, ?_, ?_⟩
  · rw [links, State.link_setLink_ne _ _ _ _ hn]
    exact State.link_setLink ..
  · rw [links, State.link_setLink, State.link_setLink_ne _ _ _ _ (Ne.symm hn)]

theorem exec_handoffTimeout {s : State} {l g at_ t : Nat} (hHandoff : ((s.advance t).link l).handoff = some (g, at_)) (hTime : at_ + 20 * us < (s.advance t).time.now) :
    exec (.handoffTimeout l t) s = .next ((s.advance t).handoffFail l) := by
  change execHandoffTimeout l t s = _
  unfold execHandoffTimeout
  dsimp only
  rw [hHandoff]
  exact if_pos hTime

theorem exec_retrain {s u : State} {l t : Nat} {y : Slot} (hTake : (s.advance t).takeRx l (fun x => x == .retrain) = some (y, u)) : exec (.retrain l t) s = .next (u.fastStart l) := by
  change execRetrain l t s = _
  unfold execRetrain
  dsimp only
  rw [hTake]
  rfl

end Sys2Proof.Machine

namespace Sys2Proof.Safety
open Sys2Proof Sys2Proof.Machine Sys2Proof.Laws

/-- Settles O42: a handoff stops the failed link's receiver, and its answer moves what was not delivered. -/
theorem handoffMovesTheTraffic : Obligations.HandoffMovesTheTraffic := by
  intro s u l n e x t s0
  refine ⟨exec_handoffReq_unframed, fun hFrames hTake hFar => ?_, fun hTake at_ hHandoff hn hGate hTime => ?_, fun g at_ => exec_handoffTimeout, fun y => exec_retrain⟩
  · obtain ⟨stopped, counted, sent⟩ := handoffReq_stops (n := n) (x := x) ((frames_takeRx hTake).trans hFrames)
    exact ⟨_, exec_handoffReq hFrames hTake hFar, stopped, counted, sent, fun sl => handoffReq_moves⟩
  · obtain ⟨v, runs, failed, queued⟩ := exec_handoffRsp hTake hHandoff hn hGate hTime
    refine ⟨v, runs, ?_⟩
    rw [failed]
    exact ⟨rfl, rfl, rfl, rfl, queued⟩

end Sys2Proof.Safety
end

section
/-!
PROOFS. The life of a link (R262, R281 to R285): training, losses and retrains.
-/
set_option Elab.async false
namespace Sys2Proof.Laws
open Sys2Proof Sys2Proof.Machine Sys2Proof.Safety

/-! ### Queues that grow -/

/-- From `s` to `u` no link differs but in its transmit side. -/
structure OnlyTx (s u : State) : Prop where
  links : ∀ j, ∃ tx, u.link j = { s.link j with tx := tx }

namespace OnlyTx
variable {s t u : State}

theorem refl : OnlyTx s s := ⟨fun j => ⟨(s.link j).tx, rfl⟩⟩

theorem trans (h : OnlyTx s t) (g : OnlyTx t u) : OnlyTx s u := ⟨fun j => by
  obtain ⟨x, hx⟩ := h.links j
  obtain ⟨y, hy⟩ := g.links j
  exact ⟨y, by rw [hy, hx]⟩⟩

theorem of_link (h : ∀ j, u.link j = s.link j) : OnlyTx s u := ⟨fun j => ⟨(s.link j).tx, h j⟩⟩

theorem setLink {l : Nat} {tx : LinkTx} : OnlyTx s (s.setLink l { s.link l with tx := tx }) := ⟨fun j => by
  by_cases hj : j = l
  · rw [hj, State.link_setLink]
    exact ⟨tx, rfl⟩
  · rw [State.link_setLink_ne _ _ _ _ hj]
    exact ⟨(s.link j).tx, rfl⟩⟩

theorem queueFrom {l : Nat} {x : Slot} {sch arr : Option Nat} : OnlyTx s (s.queueFrom l x sch arr) := by
  unfold State.queueFrom
  dsimp only
  split
  · exact refl
  · exact setLink

theorem queueEm {l : Nat} {m : Mgt} : OnlyTx s (s.queueEm l m) := by
  unfold State.queueEm
  dsimp only
  split
  · exact refl
  · exact setLink

theorem countUnreach {lpn : Nat} {sch : Bool} : OnlyTx s (s.countUnreach lpn sch) := of_link fun _ => rfl

theorem sendRsp {p : LPkt} {arr : Nat} : OnlyTx s (s.sendRsp p arr) := by
  unfold State.sendRsp
  dsimp only
  split
  · exact queueFrom
  split
  · exact queueFrom
  · exact countUnreach

theorem sendMgt {m : Mgt} : OnlyTx s (s.sendMgt m) := by
  unfold State.sendMgt
  split
  · split
    · exact queueEm
    · exact queueFrom
  · exact countUnreach

theorem sendRemote {p : LPkt} {tid : Nat} (h : s.sendRemote p tid = some u) : OnlyTx s u := by
  unfold State.sendRemote at h
  split at h
  · cases h
    exact queueFrom
  · cases h

theorem answerUnreach {p : LPkt} : OnlyTx s (s.answerUnreach p) := of_link fun j =>
  congrArg (fun v : Stoith => Tab.get Link.reset v.links j) (Changes.answerUnreach.same .links (by simp)).symm

theorem relink {e : QEnt} : OnlyTx s (s.relink e) := by
  unfold State.relink
  split
  · split
    · split
      · exact sendRsp
      split
      · exact queueFrom
      · exact countUnreach
    · split
      · exact sendRemote ‹_›
      · exact countUnreach.trans answerUnreach
  · split
    · exact refl
    · exact sendMgt
  · exact refl

theorem relinks : ∀ {s : State} (es : List QEnt), OnlyTx s (es.foldl (fun (u : State) e => u.relink e) s)
  | _, [] => refl
  | _, _ :: es => relink.trans (relinks es)

end OnlyTx

/-- A handoff that fails leaves its link without a handoff, and every link else but for its transmit side. -/
theorem link_handoffFail (s : State) (l : Nat) : ∃ tx, (s.handoffFail l).link l = { s.link l with handoff := none, tx := tx } := by
  let s1 := s.setLink l { s.link l with handoff := none, tx := (s.link l).tx.handedOff (s.link l).tx.acked }
  obtain ⟨tx, h⟩ := (OnlyTx.relinks (s := s1) ((s.link l).tx.q.filter (fun e => e.rank == 1 || e.rank == 3 || e.rank == 5))).links l
  refine ⟨tx, Eq.trans ?_ (h.trans ?_)⟩
  · unfold State.handoffFail
    dsimp only
    split
    · rfl
    · rfl
  · rw [show s1.link l = _ from State.link_setLink ..]

end Sys2Proof.Laws

namespace Sys2Proof.Machine
open Sys2Proof Sys2Proof.Laws

/-! ### Full training -/

section
variable {s s0 : State} {l lane t : Nat} {pmd : Option Nat} {asym : Int} {ok0 ok1 : Bool} (h0 : s.advance t = s0)
include h0

/-- A link that is due and not held enters full training at once where links do not train one by one. -/
theorem exec_linkTrainStart {r : Nat} (hState : (s0.link l).state = 0) (hRetry : (s0.link l).retryAt = some r) (hDue : r ≤ s0.time.now) (hUsed : s0.linkUnused l = false) (hMode : s0.st.trainMode ≠ 1) :
    ∃ u, exec (.linkTrainStart l pmd t) s = .next u ∧ (u.link l).pmdEnd = pmd.map (max s0.time.now) ∧ (u.link l).state = 1 ∧ (u.link l).phase = 1 ∧ (u.link l).fast = false ∧
      (u.link l).identGot = false ∧ (u.link l).fullTrains = satInc 8 (s0.link l).fullTrains := by
  have due : s0.trainDue l = true := by
    unfold State.trainDue
    dsimp only
    rw [hState, hRetry, hUsed]
    simpa using hDue
  have alone (b : Bool) : ¬ (s0.st.trainMode == 1 && b) = true := by
    rw [beq_eq_false_iff_ne.mpr hMode]
    exact Bool.false_ne_true
  change ∃ u, execLinkTrainStart l pmd t s = .next u ∧ _
  unfold execLinkTrainStart
  rw [h0]
  dsimp only
  refine ⟨_, (if_neg (by rw [due]; decide)).trans (if_neg (alone _)), ?_⟩
  rw [State.link_setLink]
  exact ⟨rfl, rfl, rfl, rfl, rfl, rfl⟩

theorem exec_trainPhaseTimeout (hPhase : (s0.link l).phase ≠ 0) (hFast : (s0.link l).fast = false)
    (hTime : ((s0.link l).phaseNow s0.time.now).2 + phaseBound ((s0.link l).phaseNow s0.time.now).1 < s0.time.now) :
    exec (.trainPhaseTimeout l t) s = .next (s0.linkDown l (s0.time.now + 1000 * ms)) := by
  change execTrainPhaseTimeout l t s = _
  unfold execTrainPhaseTimeout
  rw [h0]
  exact if_pos ⟨hPhase, congrArg not hFast, hTime⟩

omit h0 in
/-- A fresh link layer, with the full pools free and the queue kept. -/
theorem link_linkAfresh (s : State) (l : Nat) : ((s.linkAfresh l).link l).state = (s.link l).state ∧ ((s.linkAfresh l).link l).lane0 = (s.link l).lane0 ∧
    ((s.linkAfresh l).link l).lane1 = (s.link l).lane1 ∧ ((s.linkAfresh l).link l).phase = (s.link l).phase ∧ ((s.linkAfresh l).link l).identGot = (s.link l).identGot ∧
    ((s.link l).handoff = none → ((s.linkAfresh l).link l).rx.freed = s.pools l ∧ ((s.linkAfresh l).link l).rx.accepted = 0 ∧ ((s.linkAfresh l).link l).tx.frames = 0 ∧
      ((s.linkAfresh l).link l).tx.buf = [] ∧ ((s.linkAfresh l).link l).tx.q = (s.link l).tx.q) := by
  unfold State.linkAfresh
  dsimp only
  rw [State.link_setLink]
  by_cases hHandoff : (s.link l).handoff.isSome
  · rw [if_pos hHandoff]
    obtain ⟨tx, h⟩ := link_handoffFail s l
    rw [h]
    refine ⟨rfl, rfl, rfl, rfl, rfl, fun hNone => ?_⟩
    rw [hNone] at hHandoff
    cases hHandoff
  · rw [if_neg hHandoff]
    exact ⟨rfl, rfl, rfl, rfl, rfl, fun _ => ⟨rfl, rfl, rfl, rfl, rfl⟩⟩

/-- Lock on the second lane leads a full training to the identity exchange. -/
theorem exec_codewordLock (hState : (s0.link l).state = 1) (hFast : (s0.link l).fast = false) (hOther : (lane % 2 = 0 ∧ (s0.link l).lane1 = true) ∨ (lane % 2 = 1 ∧ (s0.link l).lane0 = true)) :
    ∃ u, exec (.codewordLock l lane t) s = .next u ∧ (u.link l).state = 2 ∧ (u.link l).lane0 = true ∧ (u.link l).lane1 = true ∧ (u.link l).phase = 3 ∧ (u.link l).identGot = false ∧
      ((s0.link l).handoff = none → (u.link l).rx.freed = s0.pools l ∧ (u.link l).rx.accepted = 0 ∧ (u.link l).tx.frames = 0 ∧ (u.link l).tx.buf = [] ∧ (u.link l).tx.q = (s0.link l).tx.q) := by
  let k1 : Link := if lane % 2 = 0 then { s0.link l with lane0 := true } else { s0.link l with lane1 := true }
  have both : k1.lane0 = true ∧ k1.lane1 = true ∧ k1.handoff = (s0.link l).handoff ∧ k1.tx = (s0.link l).tx := by
    unfold k1
    rcases hOther with ⟨h, h'⟩ | ⟨h, h'⟩
    · rw [if_pos h]
      exact ⟨rfl, h', rfl, rfl⟩
    · rw [if_neg (by omega)]
      exact ⟨h', rfl, rfl, rfl⟩
  let k2 : Link := { k1 with state := 2, phase := 3, phaseAt := s0.time.now, identGot := false, identAt := 0 }
  have runs : exec (.codewordLock l lane t) s = .next ((s0.setLink l k2).linkAfresh l) := by
    change execCodewordLock l lane t s = _
    unfold execCodewordLock
    rw [h0]
    dsimp only
    exact (if_neg (by rw [hState]; decide)).trans ((if_pos ⟨hState, congrArg not hFast⟩).trans (if_pos ⟨both.1, both.2.1⟩))
  have fresh := link_linkAfresh (s0.setLink l k2) l
  rw [State.link_setLink] at fresh
  obtain ⟨state, lane0, lane1, phase, ident, layer⟩ := fresh
  refine ⟨_, runs, state, lane0.trans both.1, lane1.trans both.2.1, phase, ident, fun hNone => ?_⟩
  obtain ⟨freed, accepted, frames, buf, q⟩ := layer (both.2.2.1.trans hNone)
  exact ⟨freed, accepted, frames, buf, q.trans (congrArg LinkTx.q both.2.2.2)⟩

/-- Credit initialisation ends training, in `UP` where no image says otherwise. -/
theorem exec_linkTrainComplete (hState : (s0.link l).state = 2) (hPhase : (s0.link l).phase = 4) (hCredit : (s0.link l).tx.credit.any (fun c => c != 0) = true) (hImage : s0.cfg.image = none) :
    ∃ u, exec (.linkTrainComplete l asym t) s = .next u ∧ (u.link l).state = 3 ∧ (u.link l).asym = asym ∧ (u.link l).phase = 0 ∧ (u.link l).rx = (s0.link l).rx ∧
      (u.link l).tx.credit = (s0.link l).tx.credit ∧ (u.link l).tx.q = (s0.link l).tx.q := by
  have up : s0.trainedState l = 3 := by
    unfold State.trainedState State.plan
    rw [hImage]
  let s2 := s0.setLink l { s0.link l with
    state := 3, prev := 3, phase := 0, solo := none, wasSch := none, asym := asym, sch := s0.slotOfLink l, tx := { (s0.link l).tx with ackAt := s0.time.now } }
  have runs : exec (.linkTrainComplete l asym t) s =
      .next (if (s2.octet (l / 8)).short ∧ s2.octetFull (l / 8) then s2.setOctet (l / 8) { s2.octet (l / 8) with short := false } else s2) := by
    change execLinkTrainComplete l asym t s = _
    unfold execLinkTrainComplete
    rw [h0]
    dsimp only
    rw [up, if_pos ⟨hState, hPhase, hCredit⟩]
    rfl
  refine ⟨_, runs, ?_⟩
  have kept : (if (s2.octet (l / 8)).short ∧ s2.octetFull (l / 8) then s2.setOctet (l / 8) { s2.octet (l / 8) with short := false } else s2).link l = s2.link l := by
    split
    · rfl
    · rfl
  rw [kept, State.link_setLink]
  exact ⟨rfl, rfl, rfl, rfl, rfl, rfl⟩

theorem exec_linkTrainComplete_waits (hCredit : (s0.link l).tx.credit.any (fun c => c != 0) = false) : exec (.linkTrainComplete l asym t) s = .next s0 := by
  change execLinkTrainComplete l asym t s = _
  unfold execLinkTrainComplete
  rw [h0]
  exact if_neg fun ⟨_, _, h⟩ => Bool.false_ne_true (hCredit.symm.trans h)

/-! ### Losses -/

theorem exec_lossOfSignal_down (hState : (s0.link l).state ≠ 0) (hIdent : (s0.link l).state ≠ 2) (hFull : (s0.link l).state ≠ 1 ∨ (s0.link l).fast = true) :
    exec (.lossOfSignal l t) s = .next (s0.linkDown l s0.time.now) := by
  change execLossOfSignal l t s = _
  unfold execLossOfSignal
  rw [h0]
  refine (if_neg hState).trans (if_neg ?_)
  rintro (⟨h1, hFast⟩ | h2)
  · rcases hFull with h | h
    · exact h h1
    · rw [h] at hFast
      cases hFast
  · exact hIdent h2

theorem exec_lossOfSignal_training (h : (s0.link l).state = 2 ∨ ((s0.link l).state = 1 ∧ (s0.link l).fast = false)) :
    exec (.lossOfSignal l t) s = .next (s0.setLink l { s0.link l with lane0 := false, lane1 := false }) := by
  have state : (s0.link l).state ≠ 0 := by
    rcases h with h | ⟨h, -⟩ <;> rw [h] <;> decide
  change execLossOfSignal l t s = _
  unfold execLossOfSignal
  rw [h0]
  exact (if_neg state).trans (if_pos (h.symm.imp_left fun ⟨h1, hFast⟩ => ⟨h1, congrArg not hFast⟩))

theorem exec_laneLockLoss (hState : (s0.link l).state ≠ 0) : exec (.laneLockLoss l lane t) s =
    .next ((s0.setLink l (if lane % 2 = 0 then { s0.link l with lane0 := false } else { s0.link l with lane1 := false })).fastStart l) := by
  change execLaneLockLoss l lane t s = _
  unfold execLaneLockLoss
  rw [h0]
  exact if_neg hState

/-! ### The fast retrain -/

omit h0 in
/-- A link that carries frames again keeps its state. -/
theorem link_retrained (s : State) (l : Nat) : ((s.retrained l).link l).state = (s.link l).state ∧ ((s.retrained l).link l).fast = (s.link l).fast ∧
    ((s.retrained l).link l).lastFast = (s.link l).lastFast ∧ ((s.retrained l).link l).degAt = (s.link l).degAt ∧ ((s.retrained l).link l).solo = (s.link l).solo := by
  have replayed (u : State) : ∃ n tx, (u.replay l).link l = { u.link l with replays := n, tx := tx } := by
    unfold State.replay
    dsimp only
    split
    · exact ⟨(u.link l).replays, (u.link l).tx, rfl⟩
    · rw [link_restamp]
      exact ⟨_, _, State.link_setLink ..⟩
  let s1 := s.setLink l { s.link l with tx := { (s.link l).tx with buf := (s.link l).tx.buf.map (fun e => (e.1, 0)), ackAt := s.time.now } }
  let s2 := s1.sendCtl l (.ack (s.link l).rx.lastSeq false (s.pools l))
  have sent : s2.link l = { s.link l with tx := { (s.link l).tx with buf := (s.link l).tx.buf.map (fun e => (e.1, 0)), ackAt := s.time.now } } := by
    rw [link_sendCtl, State.link_setLink]
  obtain ⟨n, tx, h⟩ := replayed s2
  rw [sent] at h
  rw [show s.retrained l = (s2.replay l).identDone l from rfl]
  rcases (identDone_link (s2.replay l) l).1 with hd | hd
  · rw [hd, h]
    exact ⟨rfl, rfl, rfl, rfl, rfl⟩
  · rw [hd, h]
    exact ⟨rfl, rfl, rfl, rfl, rfl⟩

section
variable (hState : (s0.link l).state = 1) (hFast : (s0.link l).fast = true)
include hState hFast

section
variable (hTime : s0.time.now ≤ (s0.link l).fastAt + 100 * us)
include hTime

theorem exec_fastRetrainEnd_both (hk0 : ok0 = true) (hk1 : ok1 = true) : ∃ u, exec (.fastRetrainEnd l ok0 ok1 t) s = .next u ∧ (u.link l).state = (s0.link l).prev ∧ (u.link l).fast = false ∧
    (u.link l).lastFast = some s0.time.now := by
  let k1 := ({ s0.link l with fast := false, lane0 := ok0, lane1 := ok1, lastFast := some s0.time.now } : Link).creditInit (s0.pools l)
  have runs : exec (.fastRetrainEnd l ok0 ok1 t) s = .next ((s0.setLink l { k1 with state := (s0.link l).prev }).retrained l) := by
    change execFastRetrainEnd l ok0 ok1 t s = _
    unfold execFastRetrainEnd
    rw [h0]
    exact (if_pos ⟨hState, hFast, hTime⟩).trans (if_pos ⟨hk0, hk1⟩)
  obtain ⟨state, fast, last, -, -⟩ := link_retrained (s0.setLink l { k1 with state := (s0.link l).prev }) l
  rw [State.link_setLink] at state fast last
  exact ⟨_, runs, state, fast, last⟩

theorem exec_fastRetrainEnd_one (hOne : ok0 ≠ ok1) (hSch : (s0.link l).sch = none ∨ (s0.link l).prev = 5) : ∃ u, exec (.fastRetrainEnd l ok0 ok1 t) s = .next u ∧ (u.link l).state = 5 ∧
    (u.link l).degAt = (if (s0.link l).prev = 5 then (s0.link l).degAt else s0.time.now) ∧ (u.link l).solo = some (if ok0 then 0 else 1) := by
  let k1 := ({ s0.link l with fast := false, lane0 := ok0, lane1 := ok1, lastFast := some s0.time.now } : Link).creditInit (s0.pools l)
  let k2 : Link := { k1 with state := 5, prev := 5, solo := some (if ok0 then 0 else 1), degAt := if (s0.link l).prev = 5 then (s0.link l).degAt else s0.time.now }
  have both : ¬ (ok0 = true ∧ ok1 = true) := fun ⟨h, h'⟩ => hOne (h.trans h'.symm)
  have some' : ok0 = true ∨ ok1 = true := by
    cases ok0 with
    | true => exact .inl rfl
    | false => exact .inr ((Bool.eq_false_or_eq_true ok1).resolve_right (Ne.symm hOne))
  have stays : ¬ ((s0.link l).sch.isSome = true ∧ (s0.link l).prev ≠ 5) := by
    rintro ⟨h, h'⟩
    rcases hSch with hs | hs
    · rw [hs] at h
      cases h
    · exact h' hs
  have runs : exec (.fastRetrainEnd l ok0 ok1 t) s = .next ((s0.setLink l k2).retrained l) := by
    change execFastRetrainEnd l ok0 ok1 t s = _
    unfold execFastRetrainEnd
    rw [h0]
    exact (if_pos ⟨hState, hFast, hTime⟩).trans ((if_neg both).trans ((if_pos some').trans (congrArg ok (if_neg stays))))
  obtain ⟨state, -, -, deg, solo⟩ := link_retrained (s0.setLink l k2) l
  rw [State.link_setLink] at state deg solo
  exact ⟨_, runs, state, deg, solo⟩

theorem exec_fastRetrainEnd_none (hk0 : ok0 = false) (hk1 : ok1 = false) : exec (.fastRetrainEnd l ok0 ok1 t) s = .next (s0.linkDown l s0.time.now) := by
  change execFastRetrainEnd l ok0 ok1 t s = _
  unfold execFastRetrainEnd
  rw [h0, hk0, hk1]
  exact (if_pos ⟨hState, hFast, hTime⟩).trans ((if_neg (by decide)).trans (if_neg (by decide)))

end

theorem exec_fastRetrainTimeout (hTime : (s0.link l).fastAt + 100 * us < s0.time.now) : exec (.fastRetrainTimeout l t) s = .next (s0.linkDown l s0.time.now) := by
  change execFastRetrainTimeout l t s = _
  unfold execFastRetrainTimeout
  rw [h0]
  exact if_pos ⟨hState, hFast, hTime⟩

end

theorem exec_degradedTimeout (hState : (s0.link l).state = 5) (hTime : (s0.link l).degAt + 1000 * ms ≤ s0.time.now) (hSpare : (s0.octet (l / 8)).spare ≠ 0xFE)
    (hHeld : (s0.link (8 * (l / 8) + (s0.octet (l / 8)).spareIdx)).state = 6) (hClaim : (s0.link (8 * (l / 8) + (s0.octet (l / 8)).spareIdx)).claim ≠ 2) :
    exec (.degradedTimeout l t) s = .next (s0.linkDown l s0.time.now) := by
  have ready : s0.spareReady (l / 8) = true := by
    unfold State.spareReady
    simp only [hHeld, bne_iff_ne.mpr hSpare, bne_iff_ne.mpr hClaim]
    rfl
  change execDegradedTimeout l t s = _
  unfold execDegradedTimeout
  rw [h0]
  exact if_pos ⟨hState, hTime, ready⟩

end

end Sys2Proof.Machine

namespace Sys2Proof.Safety
open Sys2Proof Sys2Proof.Machine Sys2Proof.Laws

/-- Settles O43: the steps of training, the losses and the retrains of a link. -/
theorem linksTrain : Obligations.LinksTrain := by
  intro s l lane t pmd asym ok0 ok1 s0 k
  refine ⟨fun r => exec_linkTrainStart rfl, exec_trainPhaseTimeout rfl, exec_codewordLock rfl, exec_linkTrainComplete rfl, exec_linkTrainComplete_waits rfl, exec_lossOfSignal_down rfl,
    exec_lossOfSignal_training rfl, fun hState hLane => ?_, fun hState hLane => ?_, fun hState hFast hTime => ⟨exec_fastRetrainEnd_both rfl hState hFast hTime,
      exec_fastRetrainEnd_one rfl hState hFast hTime, exec_fastRetrainEnd_none rfl hState hFast hTime⟩, exec_fastRetrainTimeout rfl, exec_degradedTimeout rfl⟩
  · exact (exec_laneLockLoss rfl hState).trans (congrArg (fun v : Link => ok ((s0.setLink l v).fastStart l)) (if_pos hLane))
  · exact (exec_laneLockLoss rfl hState).trans (congrArg (fun v : Link => ok ((s0.setLink l v).fastStart l)) (if_neg (by omega)))

end Sys2Proof.Safety
end

section
/-!
PROOFS. The CXL port (R10, R11, R161, R287 to R292): its resets leave host memory alone to the channels.
-/
set_option Elab.async false
namespace Sys2Proof.Laws
open Sys2Proof Sys2Proof.Machine Sys2Proof.Safety

/-! ### What the channels leave of the port -/

/-- From `s` to `u` nothing of the host attachment differs but host memory. -/
structure OnlyHostMem (s u : State) : Prop where
  host : ∃ m, u.h = { s.h with mem := m }

namespace OnlyHostMem
variable {s t u : State}

theorem of_h (h : u.h = s.h) : OnlyHostMem s u := ⟨s.h.mem, h⟩

theorem trans (h : OnlyHostMem s t) (g : OnlyHostMem t u) : OnlyHostMem s u := by
  obtain ⟨m, hm⟩ := h.host
  obtain ⟨n, hn⟩ := g.host
  exact ⟨n, by rw [hn, hm]⟩

theorem of_changes {ps : List Part} (h : Changes ps s u) (hp : Part.host ∉ ps) : OnlyHostMem s u := of_h (h.same .host hp).symm

theorem dmaWrite {c what a off : Nat} {bs : List Byte} {mir : Bool} : OnlyHostMem s (s.dmaWrite c what a off bs mir) := by
  unfold State.dmaWrite
  split
  · dsimp only
    split
    · split
      · exact ⟨_, rfl⟩
      · exact ⟨_, rfl⟩
    · exact ⟨_, rfl⟩
  · exact (of_changes Changes.dmaNote (by simp)).trans (of_changes Changes.dmaPkg (by simp))

theorem setCh {c : Nat} {v : DmaCh} : OnlyHostMem s (s.setCh c v) := of_h rfl

theorem ite {p : Prop} [Decidable p] (h : OnlyHostMem s t) (g : OnlyHostMem s u) : OnlyHostMem s (if p then t else u) := by
  split
  · exact h
  · exact g

theorem dmaStatus {c : Nat} : OnlyHostMem s (s.dmaStatus c) := by
  unfold State.dmaStatus
  dsimp only
  split
  · exact ite (of_h rfl) <| ite (ite (of_h rfl) <| of_changes Changes.chainEnd (by simp)) <| ite (of_h rfl) <|
      (ite (of_changes Changes.dmaFlag (by simp)) (of_h rfl)).trans <| setCh.trans dmaWrite
  · exact of_h rfl

theorem dmaClose {c : Nat} : OnlyHostMem s (s.dmaClose c) := by
  unfold State.dmaClose
  split
  · refine ite (of_h rfl) <| ite (ite (dmaWrite.trans setCh) ?_) <| dmaWrite.trans <| ite setCh <| setCh.trans <| of_changes Changes.dmaHalt (by simp)
    split
    · exact dmaWrite.trans <| setCh.trans <| ite (of_changes Changes.dmaBegin (by simp)) <| of_changes Changes.dmaFetch (by simp)
    · exact dmaWrite.trans <| setCh.trans <| of_changes Changes.dmaFetch (by simp)
  · exact of_h rfl

theorem dmaCheck {c : Nat} : OnlyHostMem s (s.dmaCheck c) := by
  have pass {w : State} : OnlyHostMem w (w.dmaPass c) := (trans (of_changes Changes.dmaDecide (by simp)) dmaStatus).trans dmaClose
  exact (pass.trans pass).trans (of_changes Changes.dmaIssue (by simp))

theorem dmaPortReset {c : Nat} : OnlyHostMem s (s.dmaPortReset c) := by
  unfold State.dmaPortReset
  refine ite (of_h rfl) ?_
  dsimp only
  split
  · exact setCh.trans <| (of_changes Changes.dmaFail (by simp)).trans dmaCheck
  · exact setCh.trans <| ite (of_changes Changes.dmaFetchFail (by simp)) (of_h rfl)

theorem dmaPortResets : ∀ {s : State} (cs : List Nat), OnlyHostMem s (cs.foldl State.dmaPortReset s)
  | _, [] => of_h rfl
  | _, _ :: cs => dmaPortReset.trans (dmaPortResets cs)

end OnlyHostMem

/-- What a reset of the port clears. -/
theorem host_portReset (s : State) : s.portReset.h.perst = s.h.perst ∧ s.portReset.h.linkUp = false ∧ s.portReset.h.smEn = false ∧ s.portReset.h.hdmCommit = false ∧ s.portReset.h.space = [] := by
  unfold State.portReset
  dsimp only
  obtain ⟨m, hm⟩ := (OnlyHostMem.dmaPortResets (s := State.dropHdm _) (List.range 16)).host
  rw [hm, ← Changes.dropHdm.same .host (by simp)]
  exact ⟨rfl, rfl, rfl, rfl, rfl⟩

end Sys2Proof.Laws

namespace Sys2Proof.Machine
open Sys2Proof Sys2Proof.Laws Sys2Proof.Safety

/-! ### The port -/

section
variable {s s0 : State} {reg v rate width addr size same t : Nat} {cxl : Bool} (h0 : s.advance t = s0)
include h0

theorem exec_configRequest_write (hUp : s0.portUp = true) : exec (.configRequest true reg v t) s = .next ((s0.cfgWrite (reg / 4 * 4) v).emit 11 0) := by
  change execConfigRequest true reg v t s = _
  unfold execConfigRequest
  rw [h0]
  exact (if_neg (by rw [hUp]; decide)).trans (if_pos rfl)

theorem exec_configRequest_read (hUp : s0.portUp = true) : exec (.configRequest false reg v t) s = .next (s0.emit 11 (s0.cfgValue (reg / 4 * 4) % 2 ^ 32)) := by
  change execConfigRequest false reg v t s = _
  unfold execConfigRequest
  rw [h0]
  exact (if_neg (by rw [hUp]; decide)).trans (if_neg Bool.false_ne_true)

omit h0 in
/-- A register other than the error status registers keeps what is written. -/
theorem cfgWrite_kept (s : State) (h1 : reg / 4 ≠ 0x41) (h2 : reg / 4 ≠ 0x44) :
    s.cfgWrite (reg / 4 * 4) v = { s with h := { s.h with space := Tab.set s.h.space (reg / 4 * 4) (v % 2 ^ 32) } } :=
  (if_neg (by omega)).trans (if_neg (by omega))

theorem exec_cxlLinkTrain {r w : Nat} (hUp : s0.portUp = true) (hPerst : s0.h.perst = false) (hRate : bestOf [128, 64, 32] rate = some r) (hWidth : bestOf [16, 8, 4] width = some w) :
    exec (.cxlLinkTrain cxl rate width t) s = .next { s0 with h := { s0.h with linkUp := true, cxl := cxl, rate := r, width := w } } := by
  change execCxlLinkTrain cxl rate width t s = _
  unfold execCxlLinkTrain
  rw [h0, hRate, hWidth]
  exact if_neg (by rw [hUp, hPerst]; decide)

theorem exec_cxlLinkDown : ∃ u, exec (.cxlLinkDown t) s = .next u ∧ u.h = { s0.h with linkUp := false } := by
  refine ⟨State.dropHdm { s0 with h := { s0.h with linkUp := false } }, ?_, (Changes.dropHdm.same .host (by simp)).symm⟩
  rw [← h0]
  rfl

theorem exec_perstN : exec (.perstN t) s = .next { s0.portReset with h := { s0.portReset.h with perst := true, cfgReady := false } } := by
  change execPerstN t s = _
  unfold execPerstN
  rw [h0]
  rfl

omit h0 in
theorem held_perst {w : State} (hUp : w.h.linkUp = false) (hMirror : w.h.smEn = false) (hCommit : w.h.hdmCommit = false) :
    let u : State := { w with h := { w.h with perst := true, cfgReady := false } }
    u.h.perst = true ∧ u.h.cfgReady = false ∧ u.h.linkUp = false ∧ u.h.smEn = false ∧ u.h.hdmCommit = false := ⟨rfl, rfl, hUp, hMirror, hCommit⟩

theorem exec_hotReset : exec (.hotReset t) s = .next s0.portReset := by
  change execHotReset t s = _
  unfold execHotReset
  rw [h0]
  rfl

/-! ### Reads and writes of registers -/

section
variable (hUp : s0.h.linkUp = true)
include hUp

/-- An aligned 4-byte access of BAR0, and the 8-byte ones of FT and of the TAI offset, are served; another is not supported. -/
theorem exec_rcRead_bar0 (hAlign : addr % 4 = 0) (hIn : addr < 0x10000) (hFt : addr ≠ 0x2000) :
    exec (.rcRead true addr 4 same t) s = .next ((s0.bar0Clear addr same).emit 7 (s0.bar0Shown addr same)) := by
  change execRcRead true addr 4 same t s = _
  unfold execRcRead
  rw [h0]
  dsimp only
  rw [if_pos rfl, if_neg (by rw [hUp]; decide), if_neg (by omega), if_neg (by omega), if_neg (by omega), if_neg hFt]
  rfl

theorem exec_rcRead_ft : exec (.rcRead true 0x2000 8 same t) s = .next (s0.emit 7 (s0.time.ft % 2 ^ 64)) := by
  change execRcRead true 0x2000 8 same t s = _
  unfold execRcRead
  rw [h0]
  exact (if_pos rfl).trans ((if_neg (by rw [hUp]; decide)).trans (if_pos ⟨rfl, rfl⟩))

theorem exec_rcRead_tai : exec (.rcRead true 0x2018 8 same t) s = .next (s0.emit 7 (toBits 64 s0.time.tai)) := by
  change execRcRead true 0x2018 8 same t s = _
  unfold execRcRead
  rw [h0]
  exact (if_pos rfl).trans ((if_neg (by rw [hUp]; decide)).trans ((if_neg (by decide)).trans (if_pos ⟨rfl, rfl⟩)))

theorem exec_rcRead_ftLo : exec (.rcRead true 0x2000 4 same t) s = .next s0.ftLoRead := by
  change execRcRead true 0x2000 4 same t s = _
  unfold execRcRead
  rw [h0]
  exact (if_pos rfl).trans ((if_neg (by rw [hUp]; decide)).trans ((if_neg (by decide)).trans ((if_neg (by decide)).trans ((if_neg (by decide)).trans (if_pos rfl)))))

theorem exec_rcRead_unsupported (h4 : size ≠ 4) (h8 : size ≠ 8) : exec (.rcRead true addr size same t) s = .next s0.urRead := by
  change execRcRead true addr size same t s = _
  unfold execRcRead
  rw [h0]
  exact (if_pos rfl).trans ((if_neg (by rw [hUp]; decide)).trans ((if_neg fun h => h8 h.1).trans ((if_neg fun h => h8 h.1).trans (if_pos (.inl h4)))))

theorem exec_registerWrite_unsupported (h4 : size ≠ 4) : exec (.registerWrite true addr v size t) s = .next s0.urWrite := by
  change execRegisterWrite true addr v size t s = _
  unfold execRegisterWrite
  rw [h0]
  exact (if_neg (by decide)).trans ((if_neg (by rw [hUp]; decide)).trans (if_pos (.inl h4)))

end

theorem exec_registerWrite_package : exec (.registerWrite false addr v 4 t) s = .next (s0.regWrite addr (v % 2 ^ 32)) := by
  rw [← h0]
  rfl

omit h0 in
/-- The timeout register of a channel in the package map. -/
theorem regWrite_timeout (s : State) {c : Nat} (hc : c < 16) : s.regWrite (0x1F070000014 + c * 0x1000) v = s.setCh c { s.ch c with timeoutUs := v % 2 ^ 24 } := by
  have at' : regAt (0x1F070000014 + c * 0x1000) = .dma c 0x14 := by
    unfold regAt
    rw [if_neg (by omega), if_neg (by omega), if_neg (by omega), if_pos (by omega), show (0x1F070000014 + c * 0x1000 - 0x1F070000000) / 0x1000 = c by omega,
      show (0x1F070000014 + c * 0x1000) % 0x1000 = 0x14 by omega]
  unfold State.regWrite
  rw [at']
  rfl

theorem exec_registerWrite_timeout (hUp : s0.h.linkUp = true) {c : Nat} (hc : c < 16) (hClaim : (s0.ch c).claim = 1) :
    exec (.registerWrite true (0x4014 + c * 0x100) v 4 t) s = .next (s0.setCh c { s0.ch c with timeoutUs := v % 2 ^ 24 }) := by
  change execRegisterWrite true (0x4014 + c * 0x100) v 4 t s = _
  unfold execRegisterWrite
  rw [h0]
  dsimp only
  rw [if_neg (by decide), if_neg (by rw [hUp]; decide), if_neg (by omega), if_neg (by omega), if_neg (by omega), if_pos (by omega),
    show (0x4014 + c * 0x100 - 0x4000) / 0x100 = c by omega, if_pos hClaim, show 0x1F070000000 + c * 0x1000 + (0x4014 + c * 0x100) % 0x100 = 0x1F070000014 + c * 0x1000 by omega,
    regWrite_timeout s0 hc]
  rfl

end

theorem regShown_alone (s : State) (a : Nat) : s.regShown a 0 = s.regValue a := by
  unfold State.regShown
  rw [Nat.sub_self, Nat.sub_zero]

theorem bar0Shown_alone (s : State) (a : Nat) : s.bar0Shown a 0 = s.bar0 a := by
  unfold State.bar0Shown
  rw [Nat.sub_self, Nat.sub_zero]

/-- The identity that configuration space shows (R288). -/
theorem cfgValue_identity (s : State) : s.cfgValue 0 % 2 ^ 32 / 2 ^ 16 = 0x0960 ∧ s.cfgValue 8 / 2 ^ 8 = 0x120000 := by
  have device : s.cfgValue 0 = Config.cfgReg 0 (Tab.get 0 s.h.space 0) % 2 ^ 16 + 0x09600000 := by
    unfold State.cfgValue
    exact if_pos rfl
  have cls : s.cfgValue 8 = 0x120000B0 := by
    unfold State.cfgValue
    exact (if_neg (by decide)).trans ((if_neg (by decide)).trans (if_pos rfl))
  rw [device, cls]
  omega

end Sys2Proof.Machine

namespace Sys2Proof.Safety
open Sys2Proof Sys2Proof.Machine Sys2Proof.Laws

/-- Settles O44: the port's configuration space, its training and resets, and the registers behind it. -/
theorem hostPortComplete : Obligations.HostPortComplete := by
  intro s reg v rate width addr size same t cxl refclk s0
  refine ⟨fun hUp => ⟨fun h1 h2 => ?_, fun _ => exec_configRequest_write rfl hUp, exec_configRequest_read rfl hUp⟩, cfgValue_identity s, fun r w => exec_cxlLinkTrain rfl, ?_, ?_, ?_, rfl, rfl,
    regShown_alone s0 addr, fun hUp => ⟨fun hAlign hIn hFt => ⟨exec_rcRead_bar0 rfl hUp hAlign hIn hFt, bar0Shown_alone s0 addr⟩, exec_rcRead_ft rfl hUp, exec_rcRead_tai rfl hUp,
      exec_rcRead_ftLo rfl hUp, fun h4 h8 => ⟨exec_rcRead_unsupported rfl hUp h4 h8, exec_registerWrite_unsupported rfl hUp h4⟩⟩, exec_registerWrite_package rfl,
    fun hUp c => exec_registerWrite_timeout rfl hUp, fun c hc => ?_⟩
  · rw [exec_configRequest_write rfl hUp, cfgWrite_kept _ h1 h2]
  · obtain ⟨u, hu, host⟩ := exec_cxlLinkDown (s := s) (t := t) rfl
    exact ⟨u, hu, (congrArg HostSt.linkUp host :), (congrArg HostSt.mem host :), (congrArg HostSt.ram host :)⟩
  · obtain ⟨-, up, mirror, commit, -⟩ := host_portReset (s.advance t)
    exact ⟨_, exec_perstN rfl, held_perst up mirror commit⟩
  · obtain ⟨perst, up, mirror, commit, space⟩ := host_portReset (s.advance t)
    exact ⟨_, exec_hotReset rfl, perst, up, mirror, commit, space⟩
  · rw [exec_registerWrite_package rfl, regWrite_timeout _ hc, show v % 2 ^ 32 % 2 ^ 24 = v % 2 ^ 24 by omega]

end Sys2Proof.Safety
end

section
/-!
PROOFS. BAR2, the HDM window, the doorbells, the status mirror and the mailbox deadlines (R293 to R306).
-/
set_option Elab.async false
namespace Sys2Proof.Machine
open Sys2Proof Sys2Proof.Laws

/-! ### BAR2 -/

theorem ram_keepSlot (s : State) (a : Nat) : (s.keepSlot a).h.ram = s.h.ram := by
  unfold State.keepSlot
  dsimp only
  split
  · rfl
  split
  · rfl
  split
  · rfl
  · rfl

section
variable {s s0 : State} {addr len t : Nat} {data : BitVec 2048} {ups : List (Nat × Nat)} (h0 : s.advance t = s0) (hUp : s0.h.linkUp = true) (hPos : 1 ≤ len) (hLen : len ≤ 256)
  (hEnd : addr + len ≤ 0x1000000) (hOne : addr / 256 = (addr + len - 1) / 256)
include h0 hUp hPos hLen hEnd hOne

/-- A write within the SRAM stores exactly its bytes. -/
theorem exec_bar2Access_write (hBacked : bar2Backed addr = true) :
    ∃ u, exec (.bar2Access true addr len data false ups t) s = .next u ∧ u.h.ram = Mem.store s0.h.ram addr ((leBytes 256 data.toNat).take len) := by
  have inside : ¬ (len = 0 ∨ 256 < len ∨ 0x1000000 < addr + len ∨ addr / 256 ≠ (addr + len - 1) / 256) := by omega
  let s1 : State := { s0 with h := { s0.h with ramFlips := strike s0.h.ramFlips ups } }
  have runs : exec (.bar2Access true addr len data false ups t) s = .next { s1.keepSlot addr with h := { (s1.keepSlot addr).h with
      ram := Mem.store (s1.keepSlot addr).h.ram addr ((leBytes 256 data.toNat).take len), ramFlips := clearFlips (s1.keepSlot addr).h.ramFlips addr len } } := by
    change execBar2Access true addr len data false ups t s = _
    unfold execBar2Access
    rw [h0]
    dsimp only
    rw [if_neg (by rw [hUp]; decide), if_neg inside, if_pos rfl, if_neg (by decide), if_neg (by rw [hBacked]; decide)]
    rfl
  exact ⟨_, runs, congrArg (Mem.store · addr _) (ram_keepSlot ..)⟩

/-- A read where no SRAM stands returns zeros. -/
theorem exec_bar2Access_zeros (hBacked : bar2Backed addr = false) : ∃ u, exec (.bar2Access false addr len data false ups t) s = .next u ∧ u.out = s0.out ++ [.bytes 7 (zeros len)] := by
  have inside : ¬ (len = 0 ∨ 256 < len ∨ 0x1000000 < addr + len ∨ addr / 256 ≠ (addr + len - 1) / 256) := by omega
  let s1 : State := { s0 with h := { s0.h with ramFlips := strike s0.h.ramFlips ups } }
  have runs : exec (.bar2Access false addr len data false ups t) s = .next (s1.emitBytes 7 (zeros len)) := by
    change execBar2Access false addr len data false ups t s = _
    unfold execBar2Access
    rw [h0]
    dsimp only
    rw [if_neg (by rw [hUp]; decide), if_neg inside, if_neg (by decide), hBacked]
    rfl
  exact ⟨_, runs, rfl⟩

end

/-! ### The HDM window -/

section
variable {s s0 : State} {hpa tag t a : Nat} {line : BitVec 512} {req rsp ups : List (Nat × Nat)} (hUp : s0.h.linkUp = true) (hAddr : s0.hdmAddr hpa = some a)
include hUp hAddr

theorem exec_hdmWrite (h0 : s.advance t = s0) (hTrained : s0.pkg.lakeTrained = true) :
    exec (.hdmWrite hpa tag line false req rsp t) s = .next ((s0.addPkt (s0.hdmPkt a tag 0x03 (wordsOf (leBytes 64 line.toNat)))).lakeServe s0.net.seq (fun _ => true) req rsp) := by
  change execHdmWrite hpa tag line false req rsp t s = _
  unfold execHdmWrite
  rw [h0]
  dsimp only
  rw [hUp, hAddr, hTrained]
  rfl

theorem exec_hdmWrite_poisoned (h0 : s.advance t = s0) : exec (.hdmWrite hpa tag line true req rsp t) s = .next (s0.aer aerPoisoned) := by
  change execHdmWrite hpa tag line true req rsp t s = _
  unfold execHdmWrite
  rw [h0]
  dsimp only
  rw [hUp, hAddr]
  rfl

variable (h0 : (s.advance t).lakeStrike ups = s0)
include h0

theorem exec_hdmRead (hTrained : s0.pkg.lakeTrained = true) : exec (.hdmRead hpa tag req rsp ups t) s = .next ((s0.addPkt (s0.hdmPkt a tag 0x01 [])).lakeServe s0.net.seq (fun _ => true) req rsp) := by
  change execHdmRead hpa tag req rsp ups t s = _
  unfold execHdmRead
  rw [h0]
  dsimp only
  rw [hUp, hAddr, hTrained]
  rfl

theorem exec_hdmRead_untrained (hTrained : s0.pkg.lakeTrained = false) : exec (.hdmRead hpa tag req rsp ups t) s = .next (s0.hdmPoison tag) := by
  change execHdmRead hpa tag req rsp ups t s = _
  unfold execHdmRead
  rw [h0]
  dsimp only
  rw [hUp, hAddr, hTrained]
  rfl

end

/-! ### Doorbells and the mirror -/

section
variable {s s0 : State} {n v r reg t : Nat} (h0 : s.advance t = s0)
include h0

section
variable (hn : n < 4) (hUp : s0.h.linkUp = true) (hBooted : s0.booted = true)
include hn hUp hBooted

omit h0 in
theorem prod_served : ¬ (4 ≤ n ∨ (!s0.h.linkUp) = true ∨ (!s0.booted) = true) := by
  rw [hUp, hBooted]
  simp
  omega

/-- A `PROD` that stays within 64 of `CONS` registers its commands. -/
theorem exec_prodWrite (hIn : (v % 65536 + 65536 - (s0.mbx n).prod) % 65536 ≤ ((s0.mbx n).cons + 64 + 65536 - (s0.mbx n).prod) % 65536) :
    exec (.prodWrite n v t) s = .next (s0.registerN n ((v % 65536 + 65536 - (s0.mbx n).prod) % 65536)) := by
  change execProdWrite n v t s = _
  unfold execProdWrite
  rw [h0]
  exact (if_neg (prod_served hn hUp hBooted)).trans (if_pos hIn)

theorem exec_prodWrite_error (hOut : ((s0.mbx n).cons + 64 + 65536 - (s0.mbx n).prod) % 65536 < (v % 65536 + 65536 - (s0.mbx n).prod) % 65536) :
    exec (.prodWrite n v t) s = .next (s0.setMbx n { s0.mbx n with prodErr := true }) := by
  change execProdWrite n v t s = _
  unfold execProdWrite
  rw [h0]
  exact (if_neg (prod_served hn hUp hBooted)).trans (if_neg (Nat.not_le.mpr hOut))

end

/-- Each half of the page address is written while the mirror is off. -/
theorem exec_smAddrWrite {hi : Bool} (hUp : s0.h.linkUp = true) (hOff : s0.h.smEn = false) : exec (.smAddrWrite hi v t) s = .next { s0 with h := { s0.h with
    smAddr := if hi then s0.h.smAddr % 2 ^ 32 + place v 32 32 else s0.h.smAddr / 2 ^ 32 * 2 ^ 32 + v % 2 ^ 32 / 4096 * 4096 } } := by
  change execSmAddrWrite hi v t s = _
  unfold execSmAddrWrite
  rw [h0]
  exact if_neg (by rw [hUp, hOff]; decide)

/-- The mirror turns on: the whole page is written, and then it is active. -/
theorem exec_statusMirrorEnable (hUp : s0.h.linkUp = true) (hOff : s0.h.smEn = false) : let w := ({ s0 with h := { s0.h with smEn := true } } : State).writePage
    exec (.statusMirrorEnable t) s = .next { w with h := { w.h with smActive := true } } := by
  intro w
  change execStatusMirrorEnable t s = _
  unfold execStatusMirrorEnable
  rw [h0]
  dsimp only
  rw [if_pos hUp]
  unfold State.mirrorOn
  rw [if_neg (by rw [hOff]; decide)]
  dsimp only [w]
  rfl

theorem exec_statusRecordWrite (hOn : s0.h.smEn = true) (hr : r < 64) : exec (.statusRecordWrite r t) s = .next (s0.writeRecord r) := by
  change execStatusRecordWrite r t s = _
  unfold execStatusRecordWrite
  rw [h0]
  exact congrArg ok (if_pos ⟨hOn, hr⟩)

theorem exec_statusMirrorRefresh (hOn : s0.h.smEn = true) : exec (.statusMirrorRefresh t) s = .next s0.writePage := by
  change execStatusMirrorRefresh t s = _
  unfold execStatusMirrorRefresh
  rw [h0]
  exact congrArg ok (if_pos hOn)

/-- The heartbeat counts each millisecond, but in a handover or a rollback. -/
theorem exec_mirrorHeartbeat (hRuns : s0.pkg.mordRuns = true) (hBooted : s0.booted = true) (hAct : s0.fw.act < 3 ∨ s0.fw.act = 6) (hDue : s0.h.beatAt + ms ≤ s0.time.now) :
    exec (.mirrorHeartbeat t) s = .next { s0 with
      h := { s0.h with heartbeat := (s0.h.heartbeat + 1) % 2 ^ 32, beatAt := s0.time.now },
      fw := { s0.fw with fail := if s0.beatStood = true ∧ s0.fw.fail = 0 then 3 else s0.fw.fail } } := by
  have counts : (!(s0.fw.act == 3 || s0.fw.act == 4 || s0.fw.act == 5 || s0.fw.act == 7)) = true := by
    simp
    omega
  change execMirrorHeartbeat t s = _
  unfold execMirrorHeartbeat
  rw [h0]
  exact congrArg ok (if_pos ⟨hRuns, hBooted, counts, hDue⟩)

omit h0 in
/-- A command past its deadline fails a check of R302, the sixth at the latest. -/
theorem headerStatus_expired {s : State} {c : Cmd} {unlisted : Bool} (hHandover : (s.mbx n).handover = false) (hExpired : s.expired n reg = true) :
    1 ≤ s.headerStatus n reg c unlisted ∧ s.headerStatus n reg c unlisted ≤ 6 := by
  unfold State.headerStatus
  dsimp only
  refine iteInduction (motive := fun st => 1 ≤ st ∧ st ≤ 6) (fun _ => by decide) fun _ => ?_
  refine iteInduction (motive := fun st => 1 ≤ st ∧ st ≤ 6) (fun _ => by decide) fun _ => ?_
  refine iteInduction (motive := fun st => 1 ≤ st ∧ st ≤ 6) (fun _ => by decide) fun _ => ?_
  refine iteInduction (motive := fun st => 1 ≤ st ∧ st ≤ 6) (fun _ => by decide) fun _ => ?_
  rw [if_neg (by rw [hHandover]; decide), if_pos hExpired]
  decide

theorem exec_mailboxDeadlineExpiry {i : Nat} (hn : n < 6) (hHead : s0.headReg n = some (i, reg)) (hRuns : s0.mbxRuns = true) (hHandover : (s0.mbx n).handover = false)
    (hExpired : s0.expired n reg = true) : exec (.mailboxDeadlineExpiry n t) s = .next
      ((s0.slotErrors n).answer n (Resp.err (s0.headerStatus n reg (cmdOf (s0.slotF n 0 2)) (!opcodes.contains (s0.slotF n 0 2))))) := by
  change execMailboxDeadlineExpiry n t s = _
  unfold execMailboxDeadlineExpiry
  rw [h0]
  dsimp only
  rw [hHead]
  exact congrArg ok (if_pos ⟨hRuns, hn, congrArg not hHandover, hExpired⟩)

end

end Sys2Proof.Machine

namespace Sys2Proof.Safety
open Sys2Proof Sys2Proof.Machine Sys2Proof.Laws

/-- Settles O45: BAR2, the HDM window, the doorbells, the mirror and the deadlines, each by the branch that its hypotheses open. -/
theorem hostMemoryAndMirrorComplete : Obligations.HostMemoryAndMirrorComplete := by
  intro s addr len hpa tag n v r reg t data line req rsp ups s0
  refine ⟨exec_bar2Access_write rfl, exec_bar2Access_zeros rfl, fun a hUp hAddr => exec_hdmWrite hUp hAddr rfl, fun a hUp hAddr => exec_hdmWrite_poisoned hUp hAddr rfl, ?_, ?_, fun hUp hOff =>
    ⟨exec_smAddrWrite rfl hUp hOff, exec_smAddrWrite rfl hUp hOff, exec_statusMirrorEnable rfl hUp hOff⟩, fun hOn => ⟨exec_statusRecordWrite rfl hOn, exec_statusMirrorRefresh rfl hOn⟩,
    exec_mirrorHeartbeat rfl, ?_⟩
  · intro a w hUp hAddr
    exact ⟨exec_hdmRead hUp hAddr rfl, exec_hdmRead_untrained hUp hAddr rfl⟩
  · intro hn hUp hBooted m d
    exact ⟨exec_prodWrite rfl hn hUp hBooted, exec_prodWrite_error rfl hn hUp hBooted⟩
  · intro i hn hHead hRuns hHandover hExpired st
    obtain ⟨low, high⟩ := headerStatus_expired (c := cmdOf (s0.slotF n 0 2)) (unlisted := !opcodes.contains (s0.slotF n 0 2)) hHandover hExpired
    exact ⟨low, high, exec_mailboxDeadlineExpiry rfl hn hHead hRuns hHandover hExpired⟩

end Sys2Proof.Safety
end

section
/-!
PROOFS. The management datagram, the manager's absence and I3C (R315 to R319, R374).
-/
set_option Elab.async false
namespace Sys2Proof.Laws
open Sys2Proof Sys2Proof.Machine

/-! ### Mailboxes -/

/-- Registering one command at `PROD`. -/
theorem registerN_one {s : State} {n : Nat} :
    s.registerN n 1 = s.setMbx n { s.mbx n with prod := ((s.mbx n).prod + 1) % 65536, regs := (s.mbx n).regs ++ [((s.mbx n).prod, s.time.now)] } := rfl

theorem mbx_setMbx {s : State} {n : Nat} {v : Mbx} : (s.setMbx n v).mbx n = v := Tab.get_set_same ..

theorem mbx_registerN_one {s : State} {n : Nat} :
    (s.registerN n 1).mbx n = { s.mbx n with prod := ((s.mbx n).prod + 1) % 65536, regs := (s.mbx n).regs ++ [((s.mbx n).prod, s.time.now)] } := mbx_setMbx

/-- A datagram that passes its checks is heard at its time. -/
theorem mgrHeard_dgramHeard {s : State} {b : List Byte} : (s.dgramHeard b).m.mgrHeard = some (s.dgramHeard b).time.now := rfl

theorem time_dgramHeard {s : State} {b : List Byte} : (s.dgramHeard b).time = s.time := ((Changes.dgramHeard (s := s) (b := b)).same .time (by simp)).symm

end Sys2Proof.Laws

namespace Sys2Proof.Machine
open Sys2Proof.Laws

/-! ### Datagrams -/

/-- A request of the rack manager in its slot: the memory with its bytes, the note on its key, and the keys that authenticated the requests. -/
def State.dgramKept (s : State) (ram : List (Nat × Byte)) (reqKey : Tab Nat) (reqAuth : Tab KeySlot) : State :=
  { s with h := { s.h with ram := ram }, m := { s.m with reqKey := reqKey, reqAuth := reqAuth } }

section
variable {s s0 : State} {b : List Byte} {t : Nat} (h0 : s.advance t = s0) (hOn : s0.mmbOn = true)
include h0 hOn

section
variable (hReq : leAt b 5 1 ≠ 3)
include hReq

omit h0 in
theorem request_taken : ¬ ((!s0.mmbOn) = true ∨ leAt b 5 1 = 3) := by
  rw [hOn]
  simp [hReq]

/-- A datagram that fails its checks is counted with its reason. -/
theorem exec_mmbDatagram_dropped (hBad : s0.dgramBad b ≠ 0) : exec (.mmbDatagram b t) s = .next (s0.dgramDrop (s0.dgramBad b)) := by
  change execMmbDatagram b t s = _
  unfold execMmbDatagram
  rw [h0]
  exact (if_neg (request_taken hOn hReq)).trans (if_pos hBad)

/-- A request at `PROD` with room is kept in its slot and registered. -/
theorem exec_mmbDatagram_kept (hGood : s0.dgramBad b = 0) (hProd : leAt b 20 2 = ((s0.dgramHeard b).mbx 4).prod)
    (hRoom : (((s0.dgramHeard b).mbx 4).prod + 65536 - ((s0.dgramHeard b).mbx 4).cons) % 65536 < 64) :
    ∃ reqKey reqAuth, exec (.mmbDatagram b t) s = .next (((s0.dgramHeard b).dgramKept
      (Mem.store (Mem.store (s0.dgramHeard b).h.ram (slotAddr 4 (leAt b 20 2)) ((b.drop 24).take 256)) (mmbReq + leAt b 20 2 % 64 * 1024) ((b.drop 280).take (leAt b 22 2)))
      reqKey reqAuth).registerN 4 1) := by
  change ∃ reqKey reqAuth, execMmbDatagram b t s = _
  unfold execMmbDatagram
  rw [h0]
  exact ⟨_, _, (if_neg (request_taken hOn hReq)).trans ((if_neg (not_not_intro hGood)).trans (if_pos ⟨hProd, decide_eq_true hRoom⟩))⟩

end

/-- A good index query is answered with `CONS` and `PROD`. -/
theorem exec_indexQuery (hQuery : leAt b 5 1 = 3) (hGood : s0.dgramBad b = 0) : exec (.indexQuery b t) s = .next ((s0.dgramHeard b).sendDgram
    ((s0.dgramHeard b).keySlot (leAt b 6 2)) (leAt b 6 2) 4 ((s0.dgramHeard b).mbx 4).cons ((s0.dgramHeard b).mbx 4).prod (zeros 256) []) := by
  have taken : ¬ ((!s0.mmbOn) = true ∨ leAt b 5 1 ≠ 3) := by
    rw [hOn, hQuery]
    decide
  change execIndexQuery b t s = _
  unfold execIndexQuery
  rw [h0]
  exact (if_neg taken).trans (if_neg (not_not_intro hGood))

end

/-- The manager's absence of 30 s. -/
theorem absentLapse_due {s : State} {im : Image} (hImage : s.cfg.image = some im) (hMgr : im.mgr = true) (hFrom : s.m.mgrFrom ≠ none) (hOnce : s.m.mgrFired ≠ some s.absentFrom)
    (hRuns : s.pkg.watchStall = false) (hDue : watchCycle s.absentDue < watchCycle s.time.now) :
    s.absentLapse = { s with m := { s.m with capMgr := im.orphanCap, orphan := true, mgrFired := some s.absentFrom }, pw := { s.pw with capMgrWas := im.orphanCap } } := by
  unfold State.absentLapse
  rw [hImage]
  refine if_neg ?_
  rintro (hNone | hNone | hFired | hStall | hEarly)
  · rw [hMgr] at hNone
    cases hNone
  · exact hFrom (Option.isNone_iff_eq_none.mp hNone)
  · exact hOnce hFired
  · rw [hRuns] at hStall
    cases hStall
  · exact Nat.not_le.mpr hDue hEarly

/-- What stands after a request was kept and registered. -/
theorem registered_dgramKept {s : State} {ram : List (Nat × Byte)} {reqKey : Tab Nat} {reqAuth : Tab KeySlot} : let u := (s.dgramKept ram reqKey reqAuth).registerN 4 1
    (u.mbx 4).prod = ((s.mbx 4).prod + 1) % 65536 ∧ (u.mbx 4).regs = (s.mbx 4).regs ++ [((s.mbx 4).prod, s.time.now)] ∧ u.m.mgrHeard = s.m.mgrHeard ∧ u.h.ram = ram :=
  ⟨congrArg Mbx.prod mbx_registerN_one, congrArg Mbx.regs mbx_registerN_one, rfl, rfl⟩

/-! ### I3C -/

section
variable {s s0 : State} {b : List Byte} {addr t : Nat} (h0 : s.advance t = s0)
include h0

section
variable (hBooted : s0.booted = true)
include hBooted

theorem exec_entdaa : exec (.entdaa addr t) s = .next (({ s0 with m := { s0.m with i3cAddr := some (addr % 128) } } : State).emit 9 s0.i3cId) := by
  change execEntdaa addr t s = _
  unfold execEntdaa
  rw [h0]
  exact if_neg (by rw [hBooted]; decide)

section
variable (hAddr : s0.m.i3cAddr ≠ none)
include hAddr

omit h0 in
theorem i3c_taken : ¬ ((!s0.booted) = true ∨ s0.m.i3cAddr.isNone = true) := by
  rw [hBooted, Option.isNone_iff_eq_none]
  simp [hAddr]

/-- The slot of a written command: the bytes not written are zero. -/
theorem exec_i3cPrivateWrite (hFree : s0.m.i3cPending = false) : exec (.i3cPrivateWrite b t) s = .next ((({ s0 with
    h := { s0.h with ram := Mem.store (Mem.zero s0.h.ram i3cSlot 256) i3cSlot (b.take 256) }, m := { s0.m with i3cPending := true, i3cReady := false } } : State).registerN 5 1).emit 9 1) := by
  change execI3cPrivateWrite b t s = _
  unfold execI3cPrivateWrite
  rw [h0]
  exact (if_neg (i3c_taken hBooted hAddr)).trans (if_neg (by rw [hFree]; decide))

theorem exec_i3cPrivateRead (hReady : s0.m.i3cReady = true) : exec (.i3cPrivateRead t) s = .next
    (({ s0 with m := { s0.m with i3cReady := false } } : State).emitBytes 9 (Mem.bytes s0.h.ram i3cSlot (16 + Mem.le s0.h.ram (i3cSlot + 8) 2))) := by
  change execI3cPrivateRead t s = _
  unfold execI3cPrivateRead
  rw [h0]
  exact (if_neg (i3c_taken hBooted hAddr)).trans (if_neg (by rw [hReady]; decide))

end

end

theorem exec_i3cPresenceTimeout (hAbsent : s0.i3cPresent = false) : exec (.i3cPresenceTimeout t) s = .next { s0 with m := { s0.m with i3cAt := none } } := by
  change execI3cPresenceTimeout t s = _
  unfold execI3cPresenceTimeout
  rw [h0]
  exact if_neg (by rw [hAbsent]; decide)

end

end Sys2Proof.Machine

namespace Sys2Proof.Safety
open Sys2Proof Sys2Proof.Machine Sys2Proof.Laws

/-- Settles O46: the datagrams, the manager's absence and the four I3C commands, each by the branch that its hypotheses open. -/
theorem datagramsAndI3cComplete : Obligations.DatagramsAndI3cComplete := by
  intro s addr t b s0
  refine ⟨exec_mmbDatagram_dropped rfl, ?_, fun hOn hQuery hGood => exec_indexQuery rfl hOn hQuery hGood,
    fun im hImage hMgr hFrom hOnce hRuns hDue => congrArg ok (absentLapse_due hImage hMgr hFrom hOnce hRuns hDue),
    fun hBooted => ⟨exec_entdaa rfl hBooted, fun hAddr => ⟨fun hFree => ?_, exec_i3cPrivateRead rfl hBooted hAddr⟩⟩, exec_i3cPresenceTimeout rfl⟩
  · intro hOn hType hGood s1 m i n hProd hRoom
    obtain ⟨reqKey, reqAuth, hExec⟩ := exec_mmbDatagram_kept rfl hOn (by rw [hType]; decide) hGood hProd hRoom
    obtain ⟨hNext, hRegs, hHeard, hRam⟩ := registered_dgramKept (s := s1) (reqKey := reqKey) (reqAuth := reqAuth)
      (ram := Mem.store (Mem.store s1.h.ram (slotAddr 4 i) ((b.drop 24).take 256)) (mmbReq + i % 64 * 1024) ((b.drop 280).take n))
    exact ⟨_, hExec, hNext, hRegs, hHeard.trans (mgrHeard_dgramHeard.trans (congrArg (fun time => some time.now) time_dgramHeard)), hRam⟩
  · exact ⟨_, exec_i3cPrivateWrite rfl hBooted hAddr hFree, rfl, rfl, rfl, rfl, congrArg Mbx.regs mbx_registerN_one⟩

end Sys2Proof.Safety
end

section
/-!
FACTS. What is left of a mailbox command that begins, by the answer of its body (R298 to R303).
-/
set_option Elab.async false
namespace Sys2Proof.Laws
open Sys2Proof Sys2Proof.Machine Sys2Proof.Safety

section
variable {s u v : State} {r : Req} {mb t : Nat} {c : Cmd} (hBegins : begins s mb t c = some (u, r))
include hBegins

/-- A command whose body answers no data is answered. -/
theorem command_ok {body : State → Req → State × Option Resp} {status : Nat} {p : List Byte} (hBody : body u r = (v, some ⟨status, p, []⟩)) :
    s.command mb t c body = answered u v mb ⟨status, p, []⟩ := by
  rw [command_of_begins body hBegins, hBody]
  exact if_neg fun h => absurd h.2 (Nat.not_lt_zero _)

theorem commandNow_ok {body : State → Req → State × Resp} {status : Nat} {p : List Byte} (hBody : body u r = (v, ⟨status, p, []⟩)) :
    s.commandNow mb t c body = answered u v mb ⟨status, p, []⟩ :=
  command_ok hBegins (congrArg (fun x => (x.1, some x.2)) hBody)

/-- A command whose body's data fit is answered. -/
theorem commandNow_data {body : State → Req → State × Resp} {a : Resp} (hBody : body u r = (v, a)) (hFits : a.data.length ≤ r.cap) : s.commandNow mb t c body = answered u v mb a := by
  rw [commandNow_of_begins body hBegins, hBody]
  exact if_neg fun h => absurd h.2 (Nat.not_lt.mpr hFits)

/-- A command whose body does not answer yet. -/
theorem command_waits {body : State → Req → State × Option Resp} (hBody : body u r = (v, none)) : s.command mb t c body = v := by
  rw [command_of_begins body hBegins, hBody]

end

end Sys2Proof.Laws
end

section
/-!
PROOFS. The commands of identity and configuration (R320 to R323).
-/
set_option Elab.async false
namespace Sys2Proof.Machine
open Sys2Proof.Laws Sys2Proof.Safety

/-! ### Identity and configuration -/

section
variable {s u : State} {r : Req} {mb t : Nat}

/-- A part of the image that begins the buffer anew, or continues it. -/
theorem exec_cfgPart (hBegins : begins s mb t (Cmd.fixed 0x0201 8 [1] true []) = some (u, r)) (hPlace : r.f 0 4 = 0 ∨ (r.f 0 4 = u.cfg.buf.length ∧ r.f 4 4 = u.cfg.bufLen))
    (hMax : r.f 4 4 ≤ 0x400000) (hRoom : r.f 0 4 + r.data.length ≤ r.f 4 4) :
    exec (.cfgPart mb t) s = .next (answered u { u with cfg := { u.cfg with buf := if r.f 0 4 = 0 then r.data else u.cfg.buf ++ r.data, bufLen := r.f 4 4 } } mb
      (Resp.ok_ (leBytes 4 (if r.f 0 4 = 0 then r.data else u.cfg.buf ++ r.data).length))) := by
  refine congrArg ok (commandNow_ok hBegins ?_)
  dsimp only
  have room : ¬ (0x400000 < r.f 4 4 ∨ r.f 4 4 < r.f 0 4 + r.data.length) := by omega
  by_cases hZero : r.f 0 4 = 0
  · rw [if_pos hZero, if_pos hZero, if_pos hZero]
    exact (if_neg (by rw [hZero]; simp)).trans (if_neg room)
  · obtain ⟨hOff, hLen⟩ := hPlace.resolve_left hZero
    rw [if_neg hZero, if_neg hZero, if_neg hZero]
    exact (if_neg (by rw [← hOff, hLen]; simp)).trans (if_neg room)

theorem exec_cfgCommit {im : Image} (hBegins : begins s mb t (Cmd.fixed 0x0202 4 [1] false []) = some (u, r)) (hFree : u.ctx.accepted = false) (hLen : r.f 0 4 ≤ u.cfg.buf.length)
    (hValid : u.validate (r.f 0 4) = .inr im) : exec (.cfgCommit mb t) s = .next (answered u (u.applyImage im) mb (Resp.ok_ im.digest)) := by
  refine congrArg ok (commandNow_ok hBegins ((if_neg (by rw [hFree]; decide)).trans ((if_neg (Nat.not_lt.mpr hLen)).trans ?_)))
  rw [hValid]
  rfl

theorem exec_cfgClear (hBegins : begins s mb t (Cmd.fixed 0x0204 0 [1] false []) = some (u, r)) (hFree : u.ctx.accepted = false) :
    exec (.cfgClear mb t) s = .next (answered u u.clearImage mb (Resp.ok_ [])) :=
  congrArg ok (commandNow_ok hBegins (if_neg (by rw [hFree]; decide)))

/-- A claim of feature 0 removes the explicit claim of a resource. -/
theorem exec_claimSet {im : Image} (hBegins : begins s mb t (Cmd.fixed 0x0205 8 [1] false [(6, 2)]) = some (u, r)) (hImage : u.cfg.image = some im) (hFree : u.ctx.accepted = false)
    (hKind : r.f 0 2 ≠ 1) (hNone : r.f 4 2 = 0) (hExists : resExists (r.f 0 2) (r.f 2 2) = true) : exec (.claimSet mb t) s = .next (answered u
      (u.setClaims im (im.claims.filter (fun c => !(c.1 == r.f 0 2 && c.2.1 == r.f 2 2))) (r.f 0 2) (r.f 2 2)) mb (Resp.ok_ [])) := by
  have mayClaim : ¬ ((r.f 0 2 = 1 ∧ r.f 2 2 < 16 ∧ u.dmaShown (r.f 2 2) ≠ 0) ∨ (r.f 0 2 ≠ 1 ∧ u.ctx.accepted = true)) := by
    rw [hFree]
    simp [hKind]
  refine congrArg ok (commandNow_ok hBegins ?_)
  dsimp only
  rw [hImage]
  exact (if_neg mayClaim).trans ((if_pos hNone).trans (if_pos hExists))

theorem exec_cfgInfo (hBegins : begins s mb t (Cmd.fixed 0x0203 0 [1] false []) = some (u, r)) :
    (u.cfg.image = none → exec (.cfgInfo mb t) s = .next (answered u u mb (Resp.ok_ (zeros 80)))) ∧
    (∀ im, u.cfg.image = some im → exec (.cfgInfo mb t) s = .next (answered u u mb (Resp.ok_ (im.digest ++ leBytes 4 im.len ++ zeros 4 ++ leBytes 8 im.ft)))) := by
  refine ⟨fun hImage => congrArg ok (commandNow_ok hBegins ?_), fun im hImage => congrArg ok (commandNow_ok hBegins ?_)⟩ <;>
  · rw [hImage]
    rfl

end

end Sys2Proof.Machine

namespace Sys2Proof.Safety
open Sys2Proof Sys2Proof.Machine Sys2Proof.Laws

/-- Settles O47: each command begins, and its body answers by the branch that its hypotheses open. -/
theorem configurationCommandsAnswer : Obligations.ConfigurationCommandsAnswer := by
  intro s u r mb t
  refine ⟨fun hBegins _ => congrArg ok (commandNow_ok hBegins rfl), fun hBegins _ => congrArg ok (commandNow_ok hBegins rfl), exec_cfgPart, fun im hBegins _ => exec_cfgCommit hBegins,
    fun hBegins _ => ?_, fun hBegins _ => exec_cfgClear hBegins, fun im hBegins _ => exec_claimSet hBegins⟩
  obtain ⟨hNone, hSome⟩ := exec_cfgInfo hBegins
  cases hImage : u.cfg.image with
  | none => exact hNone hImage
  | some im => exact hSome im hImage

end Sys2Proof.Safety
end

section
/-!
PROOFS. The context commands and the loader (R324 to R326, R363, R364).
-/
set_option Elab.async false
namespace Sys2Proof.Machine
open Sys2Proof.Laws Sys2Proof.Safety

/-! ### The context commands -/

section
variable {s u : State} {r : Req} {mb t : Nat}

theorem exec_ctxAccept (hBegins : begins s mb t (Cmd.fixed 0x0301 8 [1] false [(6, 2)]) = some (u, r)) (hGen : u.genBad r 4 = false) (hStatus : u.acceptStatus (r.f 0 4) = 0) :
    exec (.ctxAccept mb t) s = .next (answered u (u.accept (r.f 0 4)) mb (Resp.ok_ (leBytes 2 (u.accept (r.f 0 4)).ctx.gen
      ++ allDies.flatMap (fun d => leBytes 1 ((u.accept (r.f 0 4)).die d).skipRow) ++ leBytes 2 0 ++ leBytes 8 (u.accept (r.f 0 4)).time.ft))) := by
  refine congrArg ok (commandNow_ok hBegins ((if_neg (by rw [hGen]; decide)).trans ?_))
  dsimp only
  rw [hStatus]
  rfl

/-- A load of whole rows within the bundle store begins. -/
theorem exec_bundleLoad (hIdle : s.ld.active = false)
    (hBegins : begins s mb t ⟨0x0302, fun _ p => p.length == 80, [1], true, fun p => decide (leAt p 4 4 < 2)⟩ = some (u, r)) (hGen : u.genBad r 0 = false) (hLive : u.ctxLive = true)
    (hData : r.data ≠ []) (hWhole : r.data.length % 64 = 0) (hRange : r.f 2 2 + r.data.length / 64 ≤ 4096) (hTiles : r.f 8 72 ≠ 0) :
    exec (.bundleLoad mb t) s = .next (u.loadBegin mb r).loadStep := by
  have valid : ¬ (r.data.isEmpty = true ∨ r.data.length % 64 ≠ 0 ∨ 4096 < r.f 2 2 + r.data.length / 64 ∨ r.f 8 72 = 0) := by
    rw [List.isEmpty_iff]
    simp [hData, hWhole, hTiles]
    omega
  change execBundleLoad mb t s = _
  unfold execBundleLoad
  rw [if_neg (by rw [hIdle]; simp)]
  exact congrArg (fun v => ok (State.loadStep v))
    (command_waits hBegins ((if_neg (by rw [hGen]; decide)).trans ((if_neg (by rw [hLive]; decide)).trans (if_neg valid))))

/-- The entries of a step write are written, or reported. -/
theorem exec_stepWrite (hBegins : begins s mb t (Cmd.fixed 0x0303 4 [1] true []) = some (u, r)) (hGen : u.genBad r 0 = false) (hLive : u.ctxLive = true) (hIdle : u.seq.runActive = false)
    (hData : r.data ≠ []) (hWhole : r.data.length % 128 = 0) (hRange : r.f 2 2 + r.data.length / 128 ≤ 1024) :
    let n := r.data.length / 128
    let w := (List.range n).foldl (fun (a : State × List Nat) k => State.writeStep a (r.f 2 2 + k) ((r.data.drop (128 * k)).take 128)) (u, [])
    exec (.stepWrite mb t) s = .next (answered u w.1 mb ⟨if w.2.isEmpty then 0 else 0x030A, leBytes 2 (n - w.2.length) ++ leBytes 2 (w.2.headD 0xFFFF), []⟩) := by
  have valid : ¬ (r.data.isEmpty = true ∨ r.data.length % 128 ≠ 0 ∨ 1024 < r.f 2 2 + r.data.length / 128) := by
    rw [List.isEmpty_iff]
    simp [hData, hWhole]
    omega
  exact congrArg ok (commandNow_ok hBegins
    ((if_neg (by rw [hGen]; decide)).trans ((if_neg (by rw [hLive]; decide)).trans ((if_neg (by rw [hIdle]; decide)).trans (if_neg valid)))))

/-- A run of written entries is submitted. -/
theorem exec_runSubmit
    (hBegins : begins s mb t ⟨0x0304, fun st p => if st then p.length == 4 else p.length == 4 + 2 * leAt p 2 2, [1], true, fun _ => true⟩ = some (u, r)) (hGen : u.genBad r 0 = false)
    (hLive : u.ctxLive = true) (hIdle : u.seq.runActive = false) (hHold : u.shown ≠ psHold) (hSome : 1 ≤ r.f 2 2) (hMax : r.f 2 2 ≤ 4096)
    (hStaged : r.staged = true → r.data.length = 2 * r.f 2 2) (hEntries : ∀ i ∈ r.runList, i < 1024 ∧ Tab.has u.seq.table i = true) :
    exec (.runSubmit mb t) s = .next (answered u (u.submit r.runList) mb (Resp.ok_ (leBytes 4 (u.submit r.runList).seq.runNo))) := by
  have inTable : (r.runList.any fun i => decide (1024 ≤ i)) = false := List.any_eq_false.mpr fun i hi => by simpa using (hEntries i hi).1
  have written : (r.runList.any fun i => !Tab.has u.seq.table i) = false := List.any_eq_false.mpr fun i hi => by simpa using (hEntries i hi).2
  have valid : ¬ (r.f 2 2 = 0 ∨ 4096 < r.f 2 2 ∨ (r.staged = true ∧ r.data.length ≠ 2 * r.f 2 2) ∨ (r.runList.any fun i => decide (1024 ≤ i)) = true) := by
    rw [inTable]
    rintro (hZero | hLong | ⟨hOn, hLen⟩ | hOut)
    · omega
    · omega
    · exact hLen (hStaged hOn)
    · cases hOut
  refine congrArg ok (commandNow_ok hBegins ?_)
  exact (if_neg (by rw [hGen]; decide)).trans <| (if_neg (by rw [hLive]; decide)).trans <| (if_neg (by rw [hIdle]; decide)).trans <| (if_neg hHold).trans <| (if_neg valid).trans <|
    if_neg (by rw [written]; decide)

theorem exec_runStop (hBegins : begins s mb t (Cmd.fixed 0x0305 4 [1] false [(2, 2)]) = some (u, r)) (hGen : u.genBad r 0 = false) (hRuns : u.seq.runActive = true) :
    exec (.runStop mb t) s = .next (answered u ({ u with seq := { u.seq with stopReq := true } }).runEnd mb (Resp.ok_ (leBytes 2 u.seq.nextEntry ++ leBytes 2 0))) :=
  congrArg ok (commandNow_ok hBegins ((if_neg (by rw [hGen]; decide)).trans (if_neg (by rw [hRuns]; decide))))

theorem exec_ctxKill (hBegins : begins s mb t (Cmd.fixed 0x0306 4 [1] false [(2, 2)]) = some (u, r)) (hGen : u.genBad r 0 = false) (hLive : u.ctxLive = true) :
    exec (.ctxKill mb t) s = .next (u.beginKill 3 u.lpn u.ctx.id true) :=
  congrArg ok (command_waits hBegins ((if_neg (by rw [hGen]; decide)).trans (if_neg (by rw [hLive]; decide))))

theorem exec_ctxEnd (hBegins : begins s mb t (Cmd.fixed 0x0307 4 [1] false [(2, 2)]) = some (u, r)) (hGen : u.genBad r 0 = false) (hLive : u.ctxLive = true) (hIdle : u.seq.runActive = false) :
    exec (.ctxEnd mb t) s = .next (u.beginKill 0 0 0 false) :=
  congrArg ok (command_waits hBegins ((if_neg (by rw [hGen]; decide)).trans ((if_neg (by rw [hLive]; decide)).trans (if_neg (by rw [hIdle]; decide)))))

theorem exec_warmReset (hBegins : begins s mb t (Cmd.fixed 0x0308 4 [1, 2] false [(2, 2)]) = some (u, r)) (hGen : u.genBad r 0 = false) :
    exec (.warmReset mb t) s = .next (answered u (u.warmReset 1) mb (Resp.ok_ [])) :=
  congrArg ok (commandNow_ok hBegins (if_neg (by rw [hGen]; decide)))

end

/-! ### The loader -/

section
variable {s u : State} {q : Pkt} {t : Nat}

theorem exec_loaderPacket_none (hTake : (s.advance t).takeLoad false = none) : exec (.loaderPacket t) s = .next (s.advance t).loadStep := by
  change execLoaderPacket t s = _
  unfold execLoaderPacket
  dsimp only
  rw [hTake]
  rfl

section
variable (hTake : (s.advance t).takeLoad false = some (q, u))
include hTake

/-- A piece of a load that another package sent. -/
theorem exec_loaderPacket_piece (hOther : q.asker ≠ .loader) : exec (.loaderPacket t) s = .next (u.loadPiece q).loadStep := by
  change execLoaderPacket t s = _
  unfold execLoaderPacket
  dsimp only
  rw [hTake]
  dsimp only
  split
  · next hLoader => exact absurd hLoader hOther
  · rfl

section
variable (hOwn : q.asker = .loader)
include hOwn

/-- A child that cannot be reached is lost. -/
theorem exec_loaderPacket_lost (hKind : q.kind = 0x20) (hChild : q.tag < loaderTag 16) (hTag : q.tag ≠ loaderTag 8) :
    exec (.loaderPacket t) s = .next (u.loadLost (q.tag - loaderTag 0)).loadStep := by
  change execLoaderPacket t s = _
  unfold execLoaderPacket
  dsimp only
  rw [hTake]
  dsimp only
  rw [hOwn]
  exact (if_neg (Nat.not_le.mpr hChild)).trans (congrArg (fun v => ok (State.loadStep v)) (if_pos ⟨hKind, hTag⟩))

theorem exec_loaderPacket_cast (hTag : loaderTag 16 ≤ q.tag) :
    exec (.loaderPacket t) s = .next (State.loadStep { u with ld := u.ld.castAnswered q.tag q.kind (q.extWord 0 % 2 ^ 16) }) := by
  change execLoaderPacket t s = _
  unfold execLoaderPacket
  dsimp only
  rw [hTake]
  dsimp only
  rw [hOwn]
  exact if_pos hTag

end

end

/-- Nothing lapses before the own writes are made. -/
theorem reportLapse_unwritten {s : State} (hWrites : s.ld.written = false) : s.reportLapse = s := by
  unfold State.reportLapse
  exact if_pos (.inr (.inl (by rw [hWrites]; rfl)))

/-- A report of a child that is waited for counts. -/
theorem exec_loaderReport {w : State} (hTake : (s.advance t).takeLoad true = some (q, u)) (hw : u.hubAnswer (q.answer 0x04 [0, 0, 0, 0] []) = w) (hActive : w.ld.active = true)
    (hWaits : w.ld.waiting.contains ((q.addr - loaderBase - 0x40080) / 16) = true) (hLoad : leAt (bytesOfWords q.data) 0 4 = w.ld.f 0 4) (hWrites : w.ld.written = false) :
    exec (.loaderReport t) s = .next ({ w with ld := { w.ld with
      waiting := w.ld.waiting.erase ((q.addr - loaderBase - 0x40080) / 16)
      refused := w.ld.refused + leAt (bytesOfWords q.data) 4 4
      missing := w.ld.missing + leAt (bytesOfWords q.data) 8 4 } } : State).loadStep := by
  change execLoaderReport t s = _
  unfold execLoaderReport
  dsimp only
  rw [hTake]
  dsimp only
  rw [hw, reportLapse_unwritten hWrites]
  refine (if_neg (by rw [hActive, hWaits]; simp [hLoad])).trans ?_
  rw [if_neg (by rw [hWrites]; simp)]
  rfl

theorem exec_loaderReportTimeout {s0 : State} (h0 : s.advance t = s0) (hActive : s0.ld.active = true) (hWrites : s0.ld.written = true)
    (hDue : watchCycle (s0.ld.wroteAt + 100 * ms) < watchCycle s0.time.now) : exec (.loaderReportTimeout t) s = .next (s0.ld.waiting.foldl State.loadLost s0).loadStep := by
  have due : ¬ ((!s0.ld.active) = true ∨ (!s0.ld.written) = true ∨ watchCycle s0.time.now ≤ watchCycle (s0.ld.wroteAt + 100 * ms)) := by
    rw [hActive, hWrites]
    simpa using hDue
  change execLoaderReportTimeout t s = _
  unfold execLoaderReportTimeout
  rw [h0]
  refine (if_neg due).trans (congrArg (fun v => ok (State.loadStep v)) ?_)
  exact if_neg due

end

end Sys2Proof.Machine

namespace Sys2Proof.Safety
open Sys2Proof Sys2Proof.Machine Sys2Proof.Laws

/-- Settles O48: each command begins, and its body goes by the branch that its hypotheses open; the loader by what it takes. -/
theorem contextCommandsAnswer : Obligations.ContextCommandsAnswer := by
  intro s u r mb t
  refine ⟨fun hBegins _ => exec_ctxAccept hBegins, exec_bundleLoad, exec_stepWrite, exec_runSubmit, fun hBegins _ => exec_runStop hBegins, exec_ctxKill, exec_ctxEnd,
    fun hBegins _ => exec_warmReset hBegins, fun q hTake => ⟨exec_loaderPacket_piece hTake, exec_loaderPacket_lost hTake, exec_loaderPacket_cast hTake⟩, exec_loaderPacket_none, ?_, ?_⟩
  · intro q hTake w c bs hActive hWaits hLoad hWrites
    exact exec_loaderReport hTake rfl hActive hWaits hLoad hWrites
  · intro s0 hActive hWrites hDue
    exact exec_loaderReportTimeout rfl hActive hWrites hDue

end Sys2Proof.Safety
end

section
/-!
PROOFS. The commands of power and time (R327 to R330, R372 to R376).
-/
set_option Elab.async false
namespace Sys2Proof.Laws
open Sys2Proof Sys2Proof.Machine

/-- What an order log entry, where one is made, leaves as it was. -/
theorem addOrder_if {s : State} {p : Prop} [Decidable p] {op party other seq value otherValue : Nat} : let w := if p then s.addOrder op party other seq value otherValue else s
    w.m = s.m ∧ w.pw = s.pw ∧ w.pert = s.pert ∧ w.time = s.time ∧ w.logs.events = s.logs.events := by
  dsimp only
  split <;> exact ⟨rfl, rfl, rfl, rfl, rfl⟩

end Sys2Proof.Laws

namespace Sys2Proof.Machine
open Sys2Proof.Laws Sys2Proof.Safety

/-! ### Power and time -/

section
variable {s u : State} {r : Req} {mb t : Nat}

/-- A cap in range is taken; where the other party's cap or the hardware's is lower, that is logged as well. -/
theorem exec_capSet (hBegins : begins s mb t (Cmd.fixed 0x0401 4 [1, 2] false [(2, 2)]) = some (u, r)) (hLow : 1200 ≤ r.f 0 2) (hHigh : r.f 0 2 ≤ 2800) :
    ∃ v, exec (.capSet mb t) s = .next (answered u v mb (Resp.ok_ v.capBytes)) ∧
      v.m = (if r.party = 1 then { u.m with capHost := r.f 0 2, capBy := partyCode mb } else { u.m with capMgr := r.f 0 2, orphan := false }) ∧ v.pw = u.pw := by
  refine ⟨_, congrArg ok (commandNow_ok hBegins ((if_neg (Nat.not_lt.mpr hHigh)).trans (if_neg (Nat.not_lt.mpr hLow)))), ?_⟩
  have owns : ∀ {w : State}, (if (r.party == 1) = true then { u with m := { u.m with capHost := r.f 0 2, capBy := partyCode mb } }
        else { u with m := { u.m with capMgr := r.f 0 2, orphan := false } }) = w →
      w.m = (if r.party = 1 then { u.m with capHost := r.f 0 2, capBy := partyCode mb } else { u.m with capMgr := r.f 0 2, orphan := false }) ∧ w.pw = u.pw := by
    rintro w rfl
    by_cases hHost : r.party = 1
    · rw [if_pos (beq_iff_eq.mpr hHost), if_pos hHost]
      exact ⟨rfl, rfl⟩
    · rw [if_neg fun h => hHost (beq_iff_eq.mp h), if_neg hHost]
      exact ⟨rfl, rfl⟩
  obtain ⟨hm, hpw⟩ := owns rfl
  exact ⟨addOrder_if.1.trans hm, addOrder_if.2.1.trans hpw⟩

theorem exec_holdRelease (hBegins : begins s mb t (Cmd.fixed 0x0404 0 [2, 3] false []) = some (u, r)) (hHolds : u.m.holders.contains (holdBit r.party) = true) :
    exec (.holdRelease mb t) s = .next (answered u (u.dropHold (holdBit r.party)) mb (Resp.ok_ (leBytes 2 (u.dropHold (holdBit r.party)).holdersMask))) :=
  congrArg ok (commandNow_ok hBegins (if_pos hHolds))

/-- A party's permission to sprint. -/
theorem exec_sprintSet (hBegins : begins s mb t (Cmd.fixed 0x0405 4 [1, 2] false [(1, 3)]) = some (u, r)) (hFlag : r.f 0 1 ≤ 1) :
    ∃ v, exec (.sprintSet mb t) s = .next (answered u v mb (Resp.ok_ (leBytes 2 (b2n v.m.sprintHost + 2 * b2n v.m.sprintMgr + 4 * b2n u.pw.sprintAt.isSome)))) ∧
      v = { u with m := if r.party = 1 then { u.m with sprintHost := r.f 0 1 == 1 } else { u.m with sprintMgr := r.f 0 1 == 1 } } := by
  have permits : (if r.party = 1 then { u with m := { u.m with sprintHost := r.f 0 1 == 1 } } else { u with m := { u.m with sprintMgr := r.f 0 1 == 1 } }) =
      ({ u with m := if r.party = 1 then { u.m with sprintHost := r.f 0 1 == 1 } else { u.m with sprintMgr := r.f 0 1 == 1 } } : State) := by
    by_cases hHost : r.party = 1
    · rw [if_pos hHost, if_pos hHost]
    · rw [if_neg hHost, if_neg hHost]
  refine ⟨_, ?_, rfl⟩
  exact congrArg ok (commandNow_ok hBegins ((if_neg (Nat.not_lt.mpr hFlag)).trans
    (congrArg (fun w : State => (w, Resp.ok_ (leBytes 2 (b2n w.m.sprintHost + 2 * b2n w.m.sprintMgr + 4 * b2n w.pw.sprintAt.isSome)))) permits)))

/-- The master's TAI offset is set, and FT goes on. -/
theorem exec_taiSet (hBegins : begins s mb t (Cmd.fixed 0x0502 8 [1, 2] false []) = some (u, r)) (hMaster : u.time.tstate = 5) :
    ∃ v, exec (.taiSet mb t) s = .next (answered u v mb (Resp.ok_ [])) ∧ v.time.tai = sext 64 (r.f 0 8) ∧ v.time.ft = u.time.ft ∧ v.m.taiBy = partyCode mb := by
  refine ⟨_, congrArg ok (commandNow_ok hBegins (if_neg (not_not_intro hMaster))), rfl, ?_, rfl⟩
  change TimeSt.ft (State.time (ite _ _ _)) = _
  exact congrArg TimeSt.ft addOrder_if.2.2.2.1

theorem exec_masterSet {im : Image} (hBegins : begins s mb t (Cmd.fixed 0x0503 4 [1] false [(2, 2)]) = some (u, r)) (hImage : u.cfg.image = some im) (hLpn : r.f 0 2 < 32768)
    (hFree : u.ctx.accepted = false) : exec (.masterSet mb t) s = .next
      (answered u (({ u with cfg := { u.cfg with image := some { im with timeMaster := r.f 0 2 } } } : State).timeConfigured true) mb (Resp.ok_ [])) := by
  refine congrArg ok (commandNow_ok hBegins ?_)
  dsimp only
  rw [hImage]
  exact (if_neg (Nat.not_le.mpr hLpn)).trans (if_neg (by rw [hFree]; decide))

end

end Sys2Proof.Machine

namespace Sys2Proof.Safety
open Sys2Proof Sys2Proof.Machine Sys2Proof.Laws

/-- Settles O49: each command begins, and its body answers by the branch that its hypotheses open. -/
theorem powerAndTimeCommandsAnswer : Obligations.PowerAndTimeCommandsAnswer := by
  intro s u r mb t _
  exact ⟨exec_capSet, fun hBegins => congrArg ok (commandNow_ok hBegins rfl), fun hBegins => congrArg ok (commandNow_ok hBegins rfl), exec_holdRelease, exec_sprintSet,
    fun hBegins => congrArg ok (commandNow_ok hBegins rfl), fun hBegins => congrArg ok (commandNow_ok hBegins rfl), exec_taiSet, fun _ => exec_masterSet,
    fun hBegins => congrArg ok (commandNow_ok hBegins rfl)⟩

end Sys2Proof.Safety
end

section
/-!
PROOFS. The commands of spares, reports, keys and logs (R331, R332, R335 to R337).
-/
set_option Elab.async false
namespace Sys2Proof.Machine
open Sys2Proof.Laws Sys2Proof.Safety

/-! ### Spares -/

section
variable {s u : State} {r : Req} {mb t : Nat}

theorem exec_spareBind (hBegins : begins s mb t ⟨0x0601, fun _ p => p.length == 8 + 8 * leAt p 2 2, [2], false,
      fun p => (List.range (leAt p 2 2)).all (fun j => zeroAt p (15 + 8 * j) 1) && (leAt p 1 1 != 0 || leAt p 4 4 == 0)⟩ = some (u, r)) (hStatus : u.bindStatus r = 0) :
    exec (.spareBind mb t) s = .next (answered u (u.bind (r.f 0 1) (r.f 1 1) r.entries (r.f 4 4)) mb (Resp.ok_ [])) :=
  congrArg ok (commandNow_ok hBegins (if_neg (not_not_intro hStatus)))

theorem exec_spareUnbind (hBegins : begins s mb t (Cmd.fixed 0x0602 4 [2] false [(1, 3)]) = some (u, r)) (hBound : u.spr.role ≠ 0) (hGroup : r.f 0 1 = u.spr.group) :
    exec (.spareUnbind mb t) s = .next (answered u u.unbind mb (Resp.ok_ [])) :=
  congrArg ok (commandNow_ok hBegins ((if_neg hBound).trans (if_neg (not_not_intro hGroup))))

section
variable (hGen : u.genBad r 0 = false) (hMember : u.spr.role = 1) (hMirror : u.mirrorEn = true) (hIdle : u.spr.copying = false)
include hGen hMember hMirror hIdle

/-- Regions within the budget are taken. -/
theorem exec_mirrorRegions (hBegins : begins s mb t ⟨0x0604, fun _ p => p.length == 4 + 16 * leAt p 2 2, [1], false, fun _ => true⟩ = some (u, r)) (hCount : r.regionList.length ≤ 14)
    (hOk : ∀ x ∈ r.regionList, regionOk x = true) (hBudget : regionTotal r.regionList ≤ (if u.spr.budget = 0 then lakeEnd else u.spr.budget * 2 ^ 20)) :
    exec (.mirrorRegions mb t) s = .next (answered u { u with spr := { u.spr with regions := r.regionList } } mb (Resp.ok_ (leBytes 4 (regionTotal r.regionList / 2 ^ 20)))) := by
  refine congrArg ok (commandNow_ok hBegins ?_)
  exact (if_neg (by rw [hGen]; decide)).trans <| (if_neg (not_not_intro hMember)).trans <| (if_neg (by rw [hMirror]; decide)).trans <| (if_neg (by rw [hIdle]; decide)).trans <|
    (if_neg (Nat.not_lt.mpr hCount)).trans <| (if_neg (by rw [List.all_eq_true.mpr hOk]; decide)).trans <| if_neg (Nat.not_lt.mpr hBudget)

theorem exec_mirrorPoint (hBegins : begins s mb t (Cmd.fixed 0x0605 4 [1] false [(2, 2)]) = some (u, r)) :
    exec (.mirrorPoint mb t) s = .next (answered u u.startPoint mb (Resp.ok_ (leBytes 4 u.startPoint.spr.txPoint))) := by
  refine congrArg ok (commandNow_ok hBegins ?_)
  exact (if_neg (by rw [hGen]; decide)).trans <| (if_neg (not_not_intro hMember)).trans <| (if_neg (by rw [hMirror]; decide)).trans <| if_neg (by rw [hIdle]; decide)

end

/-! ### Reports, keys and logs -/

theorem exec_attest (hBegins : begins s mb t (Cmd.fixed 0x0801 40 [1, 2] true [(36, 4)]) = some (u, r)) (hOff : r.f 32 4 < reportLen) :
    exec (.attest mb t) s = .next (answered u (u.report mb (r.payload.take 32)).1 mb
      ⟨0, leBytes 4 reportLen ++ leBytes 4 (r.f 32 4), ((reportOf (u.report mb (r.payload.take 32)).2).drop (r.f 32 4)).take r.cap⟩) :=
  congrArg ok (commandNow_data hBegins (if_neg (Nat.not_le.mpr hOff)) (List.length_take_le ..))

theorem exec_identity (hBegins : begins s mb t (Cmd.fixed 0x0802 4 [1, 2] true []) = some (u, r)) (hOff : r.f 0 4 < blobLen) :
    exec (.identity mb t) s = .next (answered u u mb ⟨0, leBytes 4 blobLen ++ leBytes 4 (r.f 0 4), (u.identityBlob.drop (r.f 0 4)).take r.cap⟩) :=
  congrArg ok (commandNow_data hBegins (if_neg (Nat.not_le.mpr hOff)) (List.length_take_le ..))

/-- A key is set, and its bytes are wiped from the request. -/
theorem exec_keySet (hBegins : begins s mb t (Cmd.fixed 0x0803 36 [1, 2] false [(1, 3)]) = some (u, r)) (hSlot : r.f 0 1 ≤ 3) (hMay : r.party ≠ 1 ∨ Tab.has u.m.keys (r.f 0 1) = false) :
    ∃ v, exec (.keySet mb t) s = .next (answered u v mb (Resp.ok_ [])) ∧ v.m.keys = Tab.set u.m.keys (r.f 0 1) ⟨(r.payload.drop 4).take 32, 0, 0⟩ ∧ v.h = (u.wipePayload mb 36).h := by
  have may : ¬ (r.party = 1 ∧ Tab.has u.m.keys (r.f 0 1) = true) := by
    rintro ⟨hHost, hHas⟩
    rcases hMay with hOther | hFree
    · exact hOther hHost
    · rw [hFree] at hHas
      cases hHas
  exact ⟨_, congrArg ok (commandNow_ok hBegins ((if_neg (Nat.not_lt.mpr hSlot)).trans (if_neg may))), rfl, rfl⟩

theorem exec_keyClear (hBegins : begins s mb t (Cmd.fixed 0x0804 4 [2] false [(1, 3)]) = some (u, r)) (hSlot : r.f 0 1 ≤ 3)
    (hMay : Tab.has u.m.keys (r.f 0 1) = false ∨ u.m.keys.length ≠ 1) :
    exec (.keyClear mb t) s = .next (answered u { u with m := { u.m with keys := Tab.del u.m.keys (r.f 0 1) } } mb (Resp.ok_ [])) := by
  have may : ¬ (Tab.has u.m.keys (r.f 0 1) = true ∧ u.m.keys.length = 1) := by
    rintro ⟨hHas, hLast⟩
    rcases hMay with hFree | hMore
    · rw [hFree] at hHas
      cases hHas
    · exact hMore hLast
  exact congrArg ok (commandNow_ok hBegins ((if_neg (Nat.not_lt.mpr hSlot)).trans (if_neg may)))

section
variable (hBegins : begins s mb t (Cmd.fixed 0x0901 12 [1, 2] true [(1, 3), (10, 2)]) = some (u, r)) (hLog : r.f 0 1 ≤ 3)
include hBegins hLog

/-- Without staged data the entries follow the heads, at most seven. -/
theorem exec_logRead_plain (hPlain : r.staged = false) : let x := u.logEntries (r.f 0 1)
    let oldest := x.1.length - x.2
    exec (.logRead mb t) s = .next (answered u u mb
      (Resp.ok_ (leBytes 4 oldest ++ leBytes 4 x.1.length ++ ((x.1.drop (max oldest (r.f 4 4))).take (min 7 (r.f 8 2))).flatten))) := by
  refine congrArg ok (commandNow_ok hBegins ((if_neg (Nat.not_lt.mpr hLog)).trans ?_))
  dsimp only
  rw [hPlain]
  rfl

theorem exec_logRead_staged (hStaged : r.staged = true) : let x := u.logEntries (r.f 0 1)
    let oldest := x.1.length - x.2
    let es := ((x.1.drop (max oldest (r.f 4 4))).take (r.f 8 2)).flatten
    es.length ≤ r.cap → exec (.logRead mb t) s = .next (answered u u mb ⟨0, leBytes 4 oldest ++ leBytes 4 x.1.length, es⟩) := by
  intro x oldest es hFits
  refine congrArg ok (commandNow_data hBegins ((if_neg (Nat.not_lt.mpr hLog)).trans ?_) hFits)
  dsimp only
  rw [hStaged]
  rfl

end

theorem exec_regRead {same : List Nat} (hBegins : begins s mb t (Cmd.fixed 0x0902 12 [1, 2] false [(10, 2)]) = some (u, r)) (hAligned : r.f 0 8 % 4 = 0) (hSome : 1 ≤ r.f 8 2)
    (hMax : r.f 8 2 ≤ 56) (hIn : regRanges.any (fun x => decide (x.1 ≤ r.f 0 8 ∧ r.f 0 8 + 4 * r.f 8 2 ≤ x.2)) = true) :
    exec (.regRead mb same t) s = .next (answered u (u.regRead (r.f 0 8) same (r.f 8 2)).1 mb (Resp.ok_ ((u.regRead (r.f 0 8) same (r.f 8 2)).2.flatMap (leBytes 4)))) := by
  have valid : ¬ (r.f 0 8 % 4 ≠ 0 ∨ r.f 8 2 = 0 ∨ 56 < r.f 8 2 ∨ (!regRanges.any (fun x => decide (x.1 ≤ r.f 0 8 ∧ r.f 0 8 + 4 * r.f 8 2 ≤ x.2))) = true) := by
    rw [hIn]
    simp [hAligned]
    omega
  exact congrArg ok (commandNow_ok hBegins (if_neg valid))

end

end Sys2Proof.Machine

namespace Sys2Proof.Safety
open Sys2Proof Sys2Proof.Machine Sys2Proof.Laws

/-- Settles O50: each command begins, and its body answers by the branch that its hypotheses open. -/
theorem spareAndReportCommandsAnswer : Obligations.SpareAndReportCommandsAnswer := by
  intro s u r mb t same
  exact ⟨fun hBegins _ => exec_spareBind hBegins, fun hBegins _ => exec_spareUnbind hBegins, fun hBegins _ => congrArg ok (commandNow_ok hBegins rfl),
    fun hBegins _ hGen hMember hMirror hIdle => exec_mirrorRegions hGen hMember hMirror hIdle hBegins,
    fun hBegins _ hGen hMember hMirror hIdle => exec_mirrorPoint hGen hMember hMirror hIdle hBegins, exec_attest, exec_identity, fun hBegins _ => exec_keySet hBegins,
    fun hBegins _ => exec_keyClear hBegins, fun hBegins hLog => ⟨exec_logRead_plain hBegins hLog, exec_logRead_staged hBegins hLog⟩, fun hBegins _ => exec_regRead hBegins⟩

end Sys2Proof.Safety
end

section
/-!
PROOFS. Firmware staging and the request of an activation (R333, R334, R444 to R449).
-/
set_option Elab.async false
namespace Sys2Proof.Machine
open Sys2Proof.Laws Sys2Proof.Safety

/-! ### Staging -/

/-- The parts of a chunk with one more: while some are missing they are kept, and a whole chunk is written where its digest is the manifest's (R446). -/
def State.chunkPart (s : State) (c : Nat) (parts : Tab (List Byte)) : State × Option Resp :=
  let n := partCount s.fw.stageLen c
  let b := (List.range n).flatMap (fun i => Tab.get [] parts (c * 64 + i))
  let rest := parts.filter (fun (e : Nat × List Byte) => decide (e.1 / 64 ≠ c))
  if (List.range n).any (fun i => !Tab.has parts (c * 64 + i)) then
    let v : State := { s with fw := { s.fw with parts := parts } }
    (v, some (v.chunkResp c))
  else if shake256 b 4 = (s.fw.manifest.drop (4 * c)).take 4 then ({ s with fw := { s.fw with parts := rest, writing := some (c, b) } }, none)
  else ({ s with fw := { s.fw with parts := rest } }, some (Resp.err 0x0702))

section
variable {s u : State} {r : Req} {mb t : Nat}

section
variable (hBegins : begins s mb t (Cmd.fixed 0x0701 72 [2] true []) = some (u, r)) (hIdle : u.fw.act = 0) (hMax : r.f 0 4 ≤ fwMax) (hChunks : r.f 4 4 = fwChunks (r.f 0 4))
  (hManifest : r.data.length = 4 * fwChunks (r.f 0 4))
include hBegins hIdle hMax hChunks hManifest

omit hBegins hIdle in
theorem manifest_fits : ¬ (fwMax < r.f 0 4 ∨ r.f 4 4 ≠ fwChunks (r.f 0 4) ∨ r.data.length ≠ 4 * fwChunks (r.f 0 4)) := by
  rintro (hLong | hCount | hData)
  · exact Nat.not_lt.mpr hMax hLong
  · exact hCount hChunks
  · exact hData hManifest

/-- With the digest held the staging resumes. -/
theorem exec_fwStageBegin_resumes (hHeld : u.fw.staging = true) (hDigest : u.fw.stageDigest = (r.payload.drop 8).take 64) :
    exec (.fwStageBegin mb t) s = .next (answered u u mb (Resp.ok_ (leBytes 4 u.fw.chunks.length ++ u.fw.bitmap))) :=
  congrArg ok (command_ok hBegins ((if_neg (not_not_intro hIdle)).trans ((if_neg (manifest_fits hMax hChunks hManifest)).trans (if_pos ⟨hHeld, hDigest⟩))))

/-- Another digest erases the staging area, and the answer comes after. -/
theorem exec_fwStageBegin_erases (hNew : u.fw.staging = false ∨ u.fw.stageDigest ≠ (r.payload.drop 8).take 64) : exec (.fwStageBegin mb t) s = .next { u with fw := { u.fw with
    staging := true, erasing := true, stageLen := r.f 0 4, stageDigest := (r.payload.drop 8).take 64, manifest := r.data, chunks := [], parts := [], writing := none } } := by
  have fresh : ¬ (u.fw.staging = true ∧ u.fw.stageDigest = (r.payload.drop 8).take 64) := by
    rintro ⟨hHeld, hDigest⟩
    rcases hNew with hNone | hOther
    · rw [hNone] at hHeld
      cases hHeld
    · exact hOther hDigest
  exact congrArg ok (command_waits hBegins ((if_neg (not_not_intro hIdle)).trans ((if_neg (manifest_fits hMax hChunks hManifest)).trans (if_neg fresh))))

end

theorem exec_stagingEraseDone {v : State} (hErasing : (s.advance t).fw.erasing = true) (hv : { s.advance t with fw := { (s.advance t).fw with erasing := false } } = v) :
    exec (.stagingEraseDone t) s = .next (v.answerOp 0x0701 (Resp.ok_ (leBytes 4 v.fw.chunks.length ++ v.fw.bitmap))) := by
  subst hv
  exact congrArg ok (if_pos hErasing)

section
variable {parts : Tab (List Byte)} (hIdle : u.fw.act = 0) (hStaging : u.fw.staging = true)
  (hErased : u.fw.erasing = false) (hParts : Tab.set u.fw.parts (r.f 0 2 * 64 + r.f 2 1) r.data = parts) (hChunk : r.f 0 2 < fwChunks u.fw.stageLen) (hPart : r.f 2 1 ≤ 63)
  (hSome : 0 < partLen u.fw.stageLen (r.f 0 2) (r.f 2 1)) (hLen : r.data.length = partLen u.fw.stageLen (r.f 0 2) (r.f 2 1)) (hNew : Tab.has u.fw.chunks (r.f 0 2) = false)
include hIdle hStaging hErased hParts hChunk hPart hSome hLen hNew

/-- A part of a chunk still missing is kept with the parts before. -/
theorem exec_fwChunk_part : ∃ body, exec (.fwChunk mb t) s = .next (s.command mb t (Cmd.fixed 0x0702 4 [2] true [(3, 1)]) body) ∧ body u r = u.chunkPart (r.f 0 2) parts := by
  subst hParts
  have open_ : ¬ ((!u.fw.staging) = true ∨ u.fw.erasing = true) := by
    rw [hStaging, hErased]
    decide
  have fits : ¬ (fwChunks u.fw.stageLen ≤ r.f 0 2 ∨ 63 < r.f 2 1 ∨ partLen u.fw.stageLen (r.f 0 2) (r.f 2 1) = 0 ∨ r.data.length ≠ partLen u.fw.stageLen (r.f 0 2) (r.f 2 1)) := by
    omega
  exact ⟨_, rfl, (if_neg (not_not_intro hIdle)).trans ((if_neg open_).trans ((if_neg fits).trans (if_neg (by rw [hNew]; decide))))⟩

section
variable (hBegins : begins s mb t (Cmd.fixed 0x0702 4 [2] true [(3, 1)]) = some (u, r))
include hBegins

/-- Where parts of the chunk are missing, the part is kept and answered at once. -/
theorem exec_fwChunk_kept (hMissing : (List.range (partCount u.fw.stageLen (r.f 0 2))).any (fun i => !Tab.has parts (r.f 0 2 * 64 + i)) = true) :
    exec (.fwChunk mb t) s = .next (answered u { u with fw := { u.fw with parts := parts } } mb (({ u with fw := { u.fw with parts := parts } } : State).chunkResp (r.f 0 2))) := by
  obtain ⟨body, hExec, hBody⟩ := exec_fwChunk_part hIdle hStaging hErased hParts hChunk hPart hSome hLen hNew
  exact hExec.trans (congrArg ok (command_ok hBegins (hBody.trans (if_pos hMissing))))

section
variable (hWhole : (List.range (partCount u.fw.stageLen (r.f 0 2))).any (fun i => !Tab.has parts (r.f 0 2 * 64 + i)) = false)
include hWhole

/-- A whole chunk of its manifest's digest is written, and the answer comes after. -/
theorem exec_fwChunk_written
    (hDigest : shake256 ((List.range (partCount u.fw.stageLen (r.f 0 2))).flatMap (fun i => Tab.get [] parts (r.f 0 2 * 64 + i))) 4 = (u.fw.manifest.drop (4 * r.f 0 2)).take 4) :
    exec (.fwChunk mb t) s = .next { u with fw := { u.fw with
      parts := parts.filter (fun (e : Nat × List Byte) => decide (e.1 / 64 ≠ r.f 0 2)),
      writing := some (r.f 0 2, (List.range (partCount u.fw.stageLen (r.f 0 2))).flatMap (fun i => Tab.get [] parts (r.f 0 2 * 64 + i))) } } := by
  obtain ⟨body, hExec, hBody⟩ := exec_fwChunk_part hIdle hStaging hErased hParts hChunk hPart hSome hLen hNew
  exact hExec.trans (congrArg ok (command_waits hBegins (hBody.trans ((if_neg (by rw [hWhole]; decide)).trans (if_pos hDigest)))))

/-- A whole chunk of another digest is dropped. -/
theorem exec_fwChunk_dropped
    (hDigest : shake256 ((List.range (partCount u.fw.stageLen (r.f 0 2))).flatMap (fun i => Tab.get [] parts (r.f 0 2 * 64 + i))) 4 ≠ (u.fw.manifest.drop (4 * r.f 0 2)).take 4) :
    exec (.fwChunk mb t) s = .next (answered u { u with fw := { u.fw with parts := parts.filter (fun (e : Nat × List Byte) => decide (e.1 / 64 ≠ r.f 0 2)) } } mb (Resp.err 0x0702)) := by
  obtain ⟨body, hExec, hBody⟩ := exec_fwChunk_part hIdle hStaging hErased hParts hChunk hPart hSome hLen hNew
  exact hExec.trans (congrArg ok (command_ok hBegins (hBody.trans ((if_neg (by rw [hWhole]; decide)).trans (if_neg hDigest)))))

end

end

end

theorem exec_chunkWriteDone {c : Nat} {b : List Byte} {v : State} (hWriting : (s.advance t).fw.writing = some (c, b))
    (hv : { s.advance t with fw := { (s.advance t).fw with writing := none, chunks := Tab.set (s.advance t).fw.chunks c b } } = v) :
    exec (.chunkWriteDone t) s = .next (v.answerOp 0x0702 (v.chunkResp c)) := by
  subst hv
  change execChunkWriteDone t s = _
  unfold execChunkWriteDone
  dsimp only
  rw [hWriting]
  rfl

/-! ### The request of an activation -/

theorem exec_fwActivate (hBegins : begins s mb t (Cmd.fixed 0x0704 0 [2] false []) = some (u, r)) (hStatus : u.activateStatus = 0) : exec (.fwActivate mb t) s = .next (answered u
    { u with fw := { u.fw with act := 1, reqAt := u.time.now, reqSeq := r.seq, leaseEnd := none, leaseUsed := false, prepared := false, fail := 0 } } mb (Resp.ok_ (leBytes 4 0 ++ leBytes 4 60))) :=
  congrArg ok (commandNow_ok hBegins (if_neg (not_not_intro hStatus)))

/-- The one lease of a request. -/
theorem exec_fwDefer (hBegins : begins s mb t (Cmd.fixed 0x0705 4 [1] false []) = some (u, r)) (hNotice : u.fw.act = 1) (hFree : u.fw.leaseUsed = false) (hLow : 1 ≤ r.f 0 4)
    (hHigh : r.f 0 4 ≤ 86400) : exec (.fwDefer mb t) s = .next (answered u
      { u.addOrder 0x0704 2 (partyCode mb) u.fw.reqSeq 1 1 with fw := { u.fw with leaseEnd := some (u.time.now + r.f 0 4 * 1000 * ms), leaseUsed := true } } mb (Resp.ok_ (leBytes 4 (r.f 0 4)))) := by
  have asked : max 1 (min 86400 (r.f 0 4)) = r.f 0 4 := by omega
  refine congrArg ok (commandNow_ok hBegins ((if_neg (not_not_intro hNotice)).trans ((if_neg (by rw [hFree]; decide)).trans ?_)))
  dsimp only
  rw [asked]
  rfl

end

end Sys2Proof.Machine

namespace Sys2Proof.Safety
open Sys2Proof Sys2Proof.Machine Sys2Proof.Laws

/-- Settles O51: each command begins, and its body goes by the branch that its hypotheses open. -/
theorem firmwareStagingCompletes : Obligations.FirmwareStagingCompletes := by
  intro s u r mb t
  refine ⟨fun hBegins hIdle hMax hChunks hManifest => ⟨exec_fwStageBegin_resumes hBegins hIdle hMax hChunks hManifest, exec_fwStageBegin_erases hBegins hIdle hMax hChunks hManifest⟩,
    fun hErasing => exec_stagingEraseDone hErasing rfl, ?_, fun c b hWriting => exec_chunkWriteDone hWriting rfl, fun hBegins _ => congrArg ok (commandNow_ok hBegins rfl),
    fun hBegins _ => exec_fwActivate hBegins, fun hBegins _ => exec_fwDefer hBegins⟩
  intro hBegins hIdle hStaging hErased c q n parts rest b hChunk hPart hSome hLen hNew
  exact ⟨exec_fwChunk_kept hIdle hStaging hErased rfl hChunk hPart hSome hLen hNew hBegins, exec_fwChunk_written hIdle hStaging hErased rfl hChunk hPart hSome hLen hNew hBegins,
    exec_fwChunk_dropped hIdle hStaging hErased rfl hChunk hPart hSome hLen hNew hBegins⟩

end Sys2Proof.Safety
end

section
/-!
PROOFS. The activation: handover, self-check, rollback and the boot record (R441, R448 to R453).
-/
set_option Elab.async false
namespace Sys2Proof.Laws
open Sys2Proof Sys2Proof.Machine

/-! ### The handover of the mailboxes -/

theorem mbx_setMbx_of {s : State} {k n : Nat} {v : Mbx} : (s.setMbx k v).mbx n = if n = k then v else s.mbx n := Tab.get_set ..

/-- The mailboxes of a list handed over hold the flag, and the others as before. -/
theorem handover_foldl {b : Bool} {n : Nat} {l : List Nat} : ∀ {s : State},
    ((l.foldl (fun (u : State) k => u.setMbx k { u.mbx k with handover := b, hoHidden := false }) s).mbx n).handover = if n ∈ l then b else (s.mbx n).handover := by
  induction l with
  | nil => exact fun {s} => rfl
  | cons k l ih =>
    intro s
    rw [List.foldl_cons, ih, mbx_setMbx_of]
    by_cases hl : n ∈ l
    · rw [if_pos hl, if_pos (List.mem_cons_of_mem k hl)]
    · by_cases hk : n = k
      · rw [if_neg hl, if_pos hk, if_pos (List.mem_cons.mpr (.inl hk))]
      · rw [if_neg hl, if_neg hk, if_neg (by simp [hl, hk])]

theorem handover_setHandover {s : State} {b : Bool} {n : Nat} (hn : n < 6) : ((s.setHandover b).mbx n).handover = b :=
  handover_foldl.trans (if_pos (List.mem_range.mpr hn))

theorem fw_setHandover {s : State} {b : Bool} : (s.setHandover b).fw = s.fw := ((Changes.setHandover (s := s) (b := b)).same .firmware (by simp)).symm

theorem fw_event {s : State} {code source data : Nat} : (s.event code source data).fw = s.fw := rfl

theorem mbx_event {s : State} {code source data n : Nat} : (s.event code source data).mbx n = s.mbx n := rfl

/-! ### The boot record -/

theorem length_kMake {f : Nat → Nat → Dword} : (kMake f).length = 25 := (List.length_map _).trans List.length_range

theorem length_kRounds : ∀ (n r : Nat) (a : List Dword), a.length = 25 → (kRounds n r a).length = 25
  | 0, _, _, h => h
  | n + 1, _, _, _ => length_kRounds n _ _ (List.length_set.trans length_kMake)

theorem length_kAbsorbAll : ∀ (n : Nat) (a : List Dword) (m : List Byte), a.length = 25 → (kAbsorbAll n a m).length = 25
  | 0, _, _, h => h
  | n + 1, _, m, _ => length_kAbsorbAll n _ (m.drop 136) (length_kRounds 24 1 _ ((List.length_map _).trans List.length_range))

theorem length_kBytes {a : List Dword} : (kBytes a).length = 8 * a.length := by
  induction a with
  | nil => rfl
  | cons v r ih =>
    change (leBytes 8 v.toNat ++ kBytes r).length = 8 * (r.length + 1)
    rw [List.length_append, length_leBytes, ih, Nat.mul_succ, Nat.add_comm]

/-- A digest is 64 of the 200 bytes of a state. -/
theorem digest_length {m : List Byte} : (shake256 m 64).length = 64 := by
  simp [shake256, sponge, kSqueeze, length_kBytes, length_kAbsorbAll]

/-- A copy written whole holds its digest. -/
theorem good_written {slot seq : Nat} : (BootRec.mk slot seq (bootDigest slot seq)).good = true := by
  have filled : (bootDigest slot seq).isEmpty = false := by
    rw [Bool.eq_false_iff, ne_eq, List.isEmpty_iff_length_eq_zero]
    exact fun hNone => absurd (digest_length.symm.trans hNone) (by decide)
  unfold BootRec.good
  rw [filled, beq_self_eq_true]
  rfl

theorem digest_of_good {r : BootRec} (h : r.good = true) : r.digest.isEmpty = false := by
  unfold BootRec.good at h
  rw [Bool.and_eq_true] at h
  exact Bool.not_eq_true' _ |>.mp h.1

/-- The reader takes the good copy, and of two the one with the higher sequence number. -/
theorem bootRec_pair {f : Fw} {a b : BootRec} (hRecs : f.recs = [a, b]) :
    f.bootRec = if a.good then (if b.good ∧ a.seq < b.seq then b else a) else if b.good then b else ⟨0, 0, []⟩ := by
  unfold Fw.bootRec
  rw [hRecs]
  cases ha : a.good <;> cases hb : b.good <;> simp [ha, hb]
  have filled : a.digest ≠ [] := fun hEmpty => absurd (digest_of_good ha) (by rw [hEmpty]; decide)
  simp [filled]

theorem pair_of_length {α : Type} : ∀ {l : List α}, l.length = 2 → ∃ a b, l = [a, b]
  | [a, b], _ => ⟨a, b, rfl⟩

theorem olderRec_pair {f : Fw} {a b : BootRec} (hRecs : f.recs = [a, b]) : f.olderRec = if !a.good then 0 else if !b.good then 1 else if b.seq < a.seq then 1 else 0 := by
  unfold Fw.olderRec
  rw [hRecs]
  rfl

/-- The newer good copy is the one that the reader takes, in either place. -/
theorem bootRec_newer {f : Fw} {x c : BootRec} (hRecs : f.recs = [x, c] ∨ f.recs = [c, x]) (hGood : x.good = true) (hNewer : c.good = true → c.seq < x.seq) : f.bootRec = x := by
  rcases hRecs with hRecs | hRecs
  · rw [bootRec_pair hRecs, if_pos hGood, if_neg fun h => Nat.lt_asymm h.2 (hNewer h.1)]
  · rw [bootRec_pair hRecs]
    by_cases hc : c.good = true
    · rw [if_pos hc, if_pos ⟨hGood, hNewer hc⟩]
    · rw [if_neg hc, if_pos hGood]

theorem seq_le_bootSeq {f : Fw} {c d : BootRec} (hRecs : f.recs = [c, d] ∨ f.recs = [d, c]) (hGood : c.good = true) : c.seq ≤ f.bootSeq := by
  unfold Fw.bootSeq
  by_cases hNewer : d.good = true → d.seq < c.seq
  · exact Nat.le_of_eq (congrArg BootRec.seq (bootRec_newer hRecs hGood hNewer)).symm
  · obtain ⟨hd, hLater⟩ := Classical.not_imp.mp hNewer
    rcases hRecs with hRecs | hRecs <;> rw [bootRec_pair hRecs]
    · rw [if_pos hGood]
      split
      · omega
      · exact Nat.le_refl _
    · rw [if_pos hd]
      split
      · exact Nat.le_refl _
      · omega

section
variable {f : Fw} {slot : Nat} (hTwo : f.recs.length = 2)
include hTwo

/-- A whole write of the boot record is what the reader takes, whichever copy it replaces. -/
theorem bootRec_writeBoot (hSeq : f.bootSeq + 1 < 2 ^ 32) : (f.writeBoot slot false).bootRec = ⟨slot, f.bootSeq + 1, bootDigest slot (f.bootSeq + 1)⟩ := by
  obtain ⟨a, b, hRecs⟩ := pair_of_length hTwo
  have hNew : (f.writeBoot slot false).recs = [a, b].set f.olderRec ⟨slot, f.bootSeq + 1, bootDigest slot (f.bootSeq + 1)⟩ := by
    unfold Fw.writeBoot
    rw [hRecs, Nat.mod_eq_of_lt hSeq]
    rfl
  have place : f.olderRec = 0 ∨ f.olderRec = 1 := by
    rw [olderRec_pair hRecs]
    split
    · exact .inl rfl
    · split
      · exact .inr rfl
      · split
        · exact .inr rfl
        · exact .inl rfl
  rcases place with hPlace | hPlace <;> rw [hPlace] at hNew
  · exact bootRec_newer (.inl hNew) good_written fun hb => Nat.lt_succ_of_le (seq_le_bootSeq (.inr hRecs) hb)
  · exact bootRec_newer (.inr hNew) good_written fun ha => Nat.lt_succ_of_le (seq_le_bootSeq (.inl hRecs) ha)

/-- A write cut short leaves the record in force: it replaces the older of two good copies. -/
theorem bootRec_writeBoot_cut (hFirst : (f.recs.getD 0 ⟨0, 0, []⟩).good = true) (hSecond : (f.recs.getD 1 ⟨0, 0, []⟩).good = true)
    (hOrder : (f.recs.getD 0 ⟨0, 0, []⟩).seq ≠ (f.recs.getD 1 ⟨0, 0, []⟩).seq) : (f.writeBoot slot true).bootRec = f.bootRec := by
  obtain ⟨a, b, hRecs⟩ := pair_of_length hTwo
  rw [hRecs] at hFirst hSecond hOrder
  have ha : a.good = true := hFirst
  have hb : b.good = true := hSecond
  have hSeq : a.seq ≠ b.seq := hOrder
  have hNew : (f.writeBoot slot true).recs = [a, b].set f.olderRec ⟨slot, (f.bootSeq + 1) % 2 ^ 32, []⟩ := by
    unfold Fw.writeBoot
    rw [hRecs]
    rfl
  rw [olderRec_pair hRecs, ha, hb] at hNew
  by_cases hOlder : b.seq < a.seq
  · rw [show (if (!true) = true then 0 else if (!true) = true then 1 else if b.seq < a.seq then 1 else 0) = 1 from if_pos hOlder] at hNew
    exact (bootRec_newer (.inl hNew) ha fun h => Bool.noConfusion h).trans (bootRec_newer (.inl hRecs) ha fun _ => hOlder).symm
  · rw [show (if (!true) = true then 0 else if (!true) = true then 1 else if b.seq < a.seq then 1 else 0) = 0 from if_neg hOlder] at hNew
    exact (bootRec_newer (.inr hNew) hb fun h => Bool.noConfusion h).trans (bootRec_newer (.inr hRecs) hb fun _ => by omega).symm

end

end Sys2Proof.Laws

namespace Sys2Proof.Machine
open Sys2Proof.Laws

/-! ### An activation -/

section
variable {s s0 : State} {left : List Byte} {t : Nat} (h0 : s.advance t = s0)
include h0

section
variable (hNotice : s0.fw.act = 1)
include hNotice

section
variable (hRaw : s0.fw.prepared = false)
include hRaw

omit h0 in
theorem not_prepared : ¬ (s0.fw.act ≠ 1 ∨ s0.fw.prepared = true) := by
  rw [hRaw]
  simp [hNotice]

theorem exec_activationPrepDone (hValid : s0.fwValid s0.fw.staged = true) : exec (.activationPrepDone true left t) s = .next { s0 with
    fw := { s0.fw with prepared := true, slots := s0.fw.slots.set (1 - s0.fw.run) s0.fw.staged, standby := fwPart s0.fw.staged 1, watchBank := fwPart s0.fw.staged 2 } } := by
  change execActivationPrepDone true left t s = _
  unfold execActivationPrepDone
  rw [h0]
  exact (if_neg (not_prepared hNotice hRaw)).trans (if_pos ⟨rfl, hValid⟩)

/-- A preparation that fails cancels the activation. -/
theorem exec_activationPrepDone_failed : ∃ u, exec (.activationPrepDone false left t) s = .next u ∧ u.fw.act = 0 ∧ u.fw.slots = s0.fw.slots.set (1 - s0.fw.run) left := by
  refine ⟨({ s0 with fw := { s0.fw with slots := s0.fw.slots.set (1 - s0.fw.run) left } } : State).cancelActivation 1, ?_, ?_⟩
  · change execActivationPrepDone false left t s = _
    unfold execActivationPrepDone
    rw [h0]
    exact (if_neg (not_prepared hNotice hRaw)).trans (if_neg fun h => Bool.noConfusion h.1)
  · unfold State.cancelActivation
    rw [if_pos (show s0.fw.act = 1 from hNotice)]
    exact ⟨rfl, rfl⟩

end

/-- After the notice or the lease the drain begins. -/
theorem exec_activationBegin (hReady : s0.fw.prepared = true) (hDue : watchCycle s0.fw.beginsAt < watchCycle s0.time.now) (hBoot : s0.shown ≠ psBoot) (hTrain : s0.shown ≠ psTrain)
    (hTear : s0.shown ≠ psTear) (hSpare : s0.spr.state ≠ 3) (hLoad : s0.ld.active = false) :
    ∃ u, exec (.activationBegin t) s = .next u ∧ u.fw = { s0.fw with act := 2, leaseEnd := none } ∧ u.logs.events.length = s0.logs.events.length + 1 := by
  have begins : ¬ (s0.fw.act ≠ 1 ∨ (!s0.fw.prepared) = true ∨ watchCycle s0.time.now ≤ watchCycle s0.fw.beginsAt ∨
      (s0.shown == psBoot || s0.shown == psTrain || s0.shown == psTear) = true ∨ s0.spr.state = 3 ∨ s0.ld.active = true) := by
    rw [hReady, hLoad, beq_false_of_ne hBoot, beq_false_of_ne hTrain, beq_false_of_ne hTear]
    simp [hNotice, hSpare, Nat.not_le.mpr hDue]
  change ∃ u, execActivationBegin t s = _ ∧ _
  unfold execActivationBegin
  rw [h0]
  exact ⟨_, if_neg begins, rfl, List.length_append ..⟩

end

/-- With no command executing the handover begins. -/
theorem exec_handoverStart (hDrain : s0.fw.act = 2) (hFree : ∀ n, n < 6 → (s0.mbx n).busy = false ∧ (s0.mbx n).ghost = none) :
    exec (.handoverStart t) s = .next (({ s0 with fw := { s0.fw with
      act := 3, record := some s0.handRecord, run := 1 - s0.fw.run, prev := s0.fw.run, runImage := s0.fw.slots.getD (1 - s0.fw.run) [], region := s0.fw.standby, standby := s0.fw.region,
      prepared := false, runAt := s0.time.now } } : State).setHandover true) := by
  have drained : (List.range 6).any (fun n => (s0.mbx n).busy || (s0.mbx n).ghost.isSome) = false := by
    refine List.any_eq_false.mpr fun n hn => ?_
    obtain ⟨hBusy, hGhost⟩ := hFree n (List.mem_range.mp hn)
    rw [hBusy, hGhost]
    decide
  change execHandoverStart t s = _
  unfold execHandoverStart
  rw [h0]
  exact if_neg (by rw [drained]; simp [hDrain])

section
variable (hHandover : s0.fw.act = 3) (hWell : s0.fw.fail = 0)
include hHandover hWell

omit h0 in
theorem imports : ¬ (s0.fw.act ≠ 3 ∨ s0.fw.fail ≠ 0) := by simp [hHandover, hWell]

theorem exec_handoverImport {r : HandRec} (hRecord : s0.fw.record = some r) (hGood : r.good = true) :
    exec (.handoverImport true t) s = .next { s0 with fw := { s0.fw with act := 4 } } := by
  change execHandoverImport true t s = _
  unfold execHandoverImport
  rw [h0]
  exact (if_neg (imports hHandover hWell)).trans (if_pos ⟨rfl, by rw [hRecord]; exact hGood⟩)

theorem exec_handoverImport_failed : exec (.handoverImport false t) s = .next { s0 with fw := { s0.fw with fail := 1 } } := by
  change execHandoverImport false t s = _
  unfold execHandoverImport
  rw [h0]
  exact (if_neg (imports hHandover hWell)).trans (if_neg fun h => Bool.noConfusion h.1)

end

theorem exec_watchBankSwitch (hImported : s0.fw.act = 4) (hRuns : s0.pkg.watchStall = false) (hBoundary : s0.atBoundary = true) : exec (.watchBankSwitch t) s = .next { s0 with
    fw := { s0.fw with act := 5, watch := s0.fw.watchBank, watchBank := s0.fw.watch, watchNext := none } } := by
  change execWatchBankSwitch t s = _
  unfold execWatchBankSwitch
  rw [h0]
  exact congrArg ok (if_pos ⟨hImported, by rw [hRuns]; rfl, hBoundary⟩)

theorem exec_handoverEnd (hSwitched : s0.fw.act = 5) : exec (.handoverEnd t) s = .next
    (({ s0 with fw := { s0.fw with act := 6, selfAt := s0.time.now, record := none, fail := 0 } } : State).setHandover false) := by
  change execHandoverEnd t s = _
  unfold execHandoverEnd
  rw [h0]
  exact if_pos hSwitched

/-! ### Self-check, rollback and level -/

/-- The self-check passes after 60 s: the boot record names the slot that runs, unless its write is cut short. -/
theorem exec_selfCheckPass {cut : Bool} (hCheck : s0.fw.act = 6) (hWell : s0.fw.fail = 0) (hBeats : s0.beatStood = false) (hDue : s0.fw.selfAt + 60000 * ms ≤ s0.time.now) :
    ∃ u, exec (.selfCheckPass cut t) s = .next u ∧ u.fw.recs = (s0.fw.writeBoot s0.fw.run cut).recs ∧ (cut = true → u.fw.act = 6) ∧
      (cut = false → u.fw.act = 0 ∧ u.fw.staging = false ∧ u.fw.chunks = [] ∧ u.fw.arb = min 64 (max s0.fw.arb (fwSvn s0.fw.runImage))) := by
  have passes : ¬ (s0.fw.act ≠ 6 ∨ s0.fw.fail ≠ 0 ∨ s0.beatStood = true ∨ s0.time.now < s0.fw.selfAt + 60000 * ms) := by
    rw [hBeats]
    simp [hCheck, hWell, hDue]
  change ∃ u, execSelfCheckPass cut t s = _ ∧ _
  unfold execSelfCheckPass
  rw [h0]
  cases cut
  · exact ⟨_, (if_neg passes).trans (if_neg Bool.false_ne_true), rfl, fun h => Bool.noConfusion h, fun _ => ⟨rfl, rfl, rfl, rfl⟩⟩
  · exact ⟨_, (if_neg passes).trans (if_pos rfl), rfl, fun _ => hCheck, fun h => Bool.noConfusion h⟩

/-- A failure met in the self-check rolls back to the previous image and region. -/
theorem exec_rollback {own : Bool} (hCheck : s0.fw.act = 6) (hFailed : s0.fw.fail ≠ 0) :
    ∃ u, exec (.rollback own t) s = .next u ∧ u.fw.act = 7 ∧ u.fw.run = s0.fw.prev ∧ u.fw.runImage = s0.fw.slots.getD s0.fw.prev [] ∧ u.fw.region = s0.fw.standby ∧
      u.fw.watchNext = some s0.fw.watchBank ∧ u.fw.rolled = true ∧ (∀ n, n < 6 → (u.mbx n).handover = true) := by
  have cause : s0.rollCause own = some s0.fw.fail := by
    unfold State.rollCause
    exact (if_neg (by rw [hCheck]; simp)).trans ((if_neg (not_not_intro hCheck)).trans (if_pos hFailed))
  change ∃ u, execRollback own t s = _ ∧ _
  unfold execRollback
  rw [h0]
  dsimp only
  rw [cause]
  refine ⟨_, rfl, ?_⟩
  rw [fw_event, fw_setHandover]
  exact ⟨rfl, rfl, rfl, rfl, if_pos hCheck, rfl, fun n hn => (congrArg Mbx.handover mbx_event).trans (handover_setHandover hn)⟩

theorem exec_arbRaise (hBooted : s0.booted = true) (hVerified : s0.pkg.bootOk = true) (hNoCheck : s0.fw.act ≠ 6) (hNoRoll : s0.fw.act ≠ 7) (hSlot : s0.fw.run = s0.fw.active)
    (hDue : s0.fw.runAt + 60000 * ms ≤ s0.time.now) : exec (.arbRaise t) s = .next { s0 with
      fw := { s0.fw with arb := min 64 (max s0.fw.arb (fwSvn s0.fw.runImage)), revoked := s0.fw.revoked ||| (leAt s0.fw.runImage 13 1 % 16) } } := by
  have rises : ¬ ((!s0.booted) = true ∨ (!s0.pkg.bootOk) = true ∨ s0.fw.act = 6 ∨ s0.fw.act = 7 ∨ s0.fw.run ≠ s0.fw.active ∨ s0.time.now < s0.fw.runAt + 60000 * ms) := by
    rw [hBooted, hVerified]
    simp [hNoCheck, hNoRoll, hSlot, hDue]
  change execArbRaise t s = _
  unfold execArbRaise
  rw [h0]
  exact congrArg ok (if_neg rises)

end

end Sys2Proof.Machine

namespace Sys2Proof.Safety
open Sys2Proof Sys2Proof.Machine Sys2Proof.Laws

/-- Settles O52: the steps of an activation in their order, and the boot record by its two copies. -/
theorem firmwareHandsOverAndRollsBack : Obligations.FirmwareHandsOverAndRollsBack := by
  intro s left own cut t s0 f
  refine ⟨exec_activationPrepDone rfl, exec_activationPrepDone_failed rfl, exec_activationBegin rfl, beq_self_eq_true _, ?_, fun r hHandover hWell => exec_handoverImport rfl hHandover hWell,
    exec_handoverImport_failed rfl, exec_watchBankSwitch rfl, ?_, exec_selfCheckPass rfl, fun slot hSeq hTwo => ?_, exec_rollback rfl, exec_arbRaise rfl⟩
  · intro hDrain hFree
    exact ⟨_, exec_handoverStart rfl hDrain hFree, fun n hn => handover_setHandover hn, fw_setHandover⟩
  · intro hSwitched
    exact ⟨_, exec_handoverEnd rfl hSwitched, fun n hn => handover_setHandover hn, fw_setHandover⟩
  · have written : (f.writeBoot slot false).bootRec = _ := bootRec_writeBoot hTwo hSeq
    exact ⟨congrArg BootRec.slot written, congrArg BootRec.seq written, fun hFirst hSecond hOrder => congrArg BootRec.slot (bootRec_writeBoot_cut hTwo hFirst hSecond hOrder)⟩

end Sys2Proof.Safety
end

section
/-!
PROOFS. Scopes and perturbation registers (R338, R339, R458 to R460).
-/
set_option Elab.async false
namespace Sys2Proof.Laws
open Sys2Proof Sys2Proof.Machine

/-! ### What the scopes and the sheds leave of the perturbations -/

/-- A reset of the perturbations keeps the scopes' ends. -/
theorem pert_pertReset {s : State} : s.pertReset.pert = { s.pert with regs := [], eff := [], setBy := [], on := false, shedEnd := none, shedNew := false } := by
  have low : s.trigLow.pert = s.pert := ((Changes.trigLow (s := s)).same .perturb (by simp)).symm
  have freed : ∀ {w : State}, (w.st.links.foldl (fun (u : State) e => (List.range 6).foldl (fun v p => v.freeCredit e.1 p 0) u) w).pert = w.pert :=
    fun {w} => ((Changes.settleCredits (s := w)).same .perturb (by simp)).symm
  unfold State.pertReset
  dsimp only
  split
  · rw [freed, low]
  · rw [← (Changes.applyChecks).same .perturb (by simp), freed, low]

/-- With both scopes ended neither has an end. -/
theorem pert_endScopes_both {s : State} {cause : Nat} : (s.endScopes 3 cause).pert.pertEnd = none ∧ (s.endScopes 3 cause).pert.debugEnd = none := by
  have logged : ∀ {w : State} {n code source data : Nat}, (if n = 0 then w else w.event code source data).pert = w.pert := by
    intro w n code source data
    split <;> rfl
  unfold State.endScopes
  dsimp only
  rw [logged, if_pos (show bitAt 3 0 = true from rfl), pert_pertReset]
  exact ⟨rfl, rfl⟩

theorem pert_startShed {s : State} : ∃ e, s.startShed.pert = { s.pert with shedEnd := e } := by
  have responds : ∀ {w : State}, w.respond.pert = w.pert := fun {w} => ((Changes.respond (s := w)).same .perturb (by simp)).symm
  have freezes : ∀ {w : State} {ds : List Nat}, (w.hwFreeze ds).pert = w.pert := fun {w ds} => ((Changes.hwFreeze (s := w) (ds := ds)).same .perturb (by simp)).symm
  unfold State.startShed
  dsimp only
  split
  · exact ⟨_, rfl⟩
  · rw [responds]
    split
    · exact ⟨_, rfl⟩
    · rw [freezes]
      exact ⟨_, rfl⟩

theorem Changes.shown {s : State} : Changes [.links, .out] s s.settleCredits.showTrigger := .step .settleCredits <| .of .showTrigger

theorem pert_shown {s : State} : s.settleCredits.showTrigger.pert = s.pert := ((Changes.shown (s := s)).same .perturb (by simp)).symm

/-- An edge of the window changes only its state and the shed. -/
theorem pert_setWindow {s : State} {b : Bool} : ∃ on e, (s.setWindow b).pert = { s.pert with on := on, shedEnd := e } := by
  unfold State.setWindow
  split
  · exact ⟨_, _, rfl⟩
  · rw [pert_shown]
    split
    · obtain ⟨e, he⟩ := pert_startShed (s := { s with pert := { s.pert with on := b } })
      exact ⟨_, _, he⟩
    · exact ⟨_, _, rfl⟩

theorem eff_takeReg {s : State} {n : Nat} : Tab.get 0 (s.takeReg n).pert.eff n = Tab.get 0 s.pert.regs n := Tab.get_put_same ..

theorem eff_takeReg_ne {s : State} {n k : Nat} (h : k ≠ n) : Tab.get 0 (s.takeReg n).pert.eff k = Tab.get 0 s.pert.eff k := Tab.get_put_ne _ _ _ _ _ h

end Sys2Proof.Laws

namespace Sys2Proof.Machine
open Sys2Proof.Laws Sys2Proof.Safety

/-! ### Scopes -/

/-- A perturbation register holds the value that a party gave it (R459). -/
def State.pertStored (s : State) (n v who : Nat) : State := { s with pert := { s.pert with
  regs := Tab.set s.pert.regs n v, setBy := Tab.set s.pert.setBy n who, timerSet := if n = 12 then s.time.now else s.pert.timerSet, shedNew := s.pert.shedNew || n == 8 } }

theorem event_pertStored {s : State} {n v who code source data : Nat} : let w := (s.pertStored n v who).event code source data
    w.pert.regs = Tab.set s.pert.regs n v ∧ w.pert.eff = s.pert.eff ∧ w.logs.events = s.logs.events ++ [⟨s.time.ft, code, source, data⟩] := ⟨rfl, rfl, rfl⟩

section
variable {s u : State} {r : Req} {mb t : Nat}

/-- An enable of the perturbation scope is kept, and a scope that it enables is logged. -/
theorem exec_debugEnable {v : State} (hBegins : begins s mb t ⟨0x0A01, fun _ p => p.length == 8, [1, 2], false, fun p => leAt p 0 1 / 4 == 0 && zeroAt p 1 3⟩ = some (u, r))
    (hLow : u.pert.strapLow = true) (hScope : r.f 0 1 = 1) (hSome : 1 ≤ r.f 4 4) (hMax : r.f 4 4 ≤ 86400)
    (hv : (if (u.askScope (askParty r) 0 (r.f 4 4)).2 then (u.askScope (askParty r) 0 (r.f 4 4)).1.event 0x0030 5 (1 + 256 * partyCode mb) else (u.askScope (askParty r) 0 (r.f 4 4)).1) = v) :
    exec (.debugEnable mb t) s = .next (answered u v mb v.scopeResp) := by
  have valid : ¬ (r.f 0 1 = 0 ∨ r.f 4 4 = 0 ∨ 86400 < r.f 4 4) := by omega
  refine congrArg ok (commandNow_ok hBegins ((if_neg (by rw [hLow]; decide)).trans ((if_neg valid).trans ?_)))
  dsimp only
  rw [hScope, if_pos (show bitAt 1 0 = true from rfl), if_neg (show ¬ bitAt 1 1 = true by decide), ← hv]
  generalize u.askScope (askParty r) 0 (r.f 4 4) = a
  obtain ⟨w, on⟩ := a
  cases on <;> rfl

/-- With the other party's enable the scope is enabled for the shorter duration. -/
theorem askScope_enables {o : ScopeAsk} {p secs : Nat} (hOther : u.askOf (1 - p) 0 = some o) (hOff : u.pert.pertEnd = none) : (u.askScope p 0 secs).2 = true ∧
    (u.askScope p 0 secs).1.pert.pertEnd = some (u.time.now + min secs o.secs * 1000 * ms) := by
  unfold State.askScope
  rw [hOther]
  dsimp only
  rw [if_neg (show ¬ (if (0 : Nat) = 0 then State.pertOn _ else State.debugOn _) = true by unfold State.pertOn; rw [if_pos rfl, hOff]; decide)]
  exact ⟨rfl, rfl⟩

theorem exec_debugDisable (hBegins : begins s mb t ⟨0x0A02, fun _ p => p.length == 4, [1, 2], false, fun p => leAt p 0 1 / 4 == 0 && zeroAt p 1 3⟩ = some (u, r)) (hScope : r.f 0 1 ≠ 0) :
    exec (.debugDisable mb t) s = .next (answered u (u.endScopes (r.f 0 1) 2) mb (u.endScopes (r.f 0 1) 2).scopeResp) :=
  congrArg ok (commandNow_ok hBegins (if_neg hScope))

section
variable (hLow : 1 ≤ r.f 0 2) (hHigh : r.f 0 2 ≤ 12)
include hLow hHigh

theorem register_listed : ¬ (r.f 0 2 = 0 ∨ 12 < r.f 0 2) := by omega

/-- A value that is acceptable is stored and logged. -/
theorem exec_perturbSet (hBegins : begins s mb t (Cmd.fixed 0x0A03 8 [1, 2] false [(2, 2)]) = some (u, r)) (hScope : u.pertScope (u.regTime mb) = true) (hStrap : u.pert.strapLow = true)
    (hValue : u.pertValueOk (r.f 0 2) (r.f 4 4) = true) (hFree : u.pertClash (r.f 0 2) (r.f 4 4) = none) : ∃ w : State, w.pert = u.pert ∧ w.time = u.time ∧ w.logs.events = u.logs.events ∧
      exec (.perturbSet mb t) s = .next (answered u ((w.pertStored (r.f 0 2) (r.f 4 4) (partyCode mb)).event 0x0032 5 (r.f 0 2 % 256 + 256 * partyCode mb + 2 ^ 32 * r.f 4 4)) mb
        (Resp.ok_ (leBytes 4 (r.f 4 4)))) := by
  obtain ⟨-, -, hPert, hTime, hEvents⟩ := addOrder_if (s := u) (p := Tab.get 0 u.pert.setBy (r.f 0 2) % 16 ≠ 0 ∧ Tab.get 0 u.pert.setBy (r.f 0 2) % 16 ≠ r.party) (op := 0x0A03)
    (party := partyCode mb) (other := Tab.get 0 u.pert.setBy (r.f 0 2)) (seq := r.seq) (value := r.f 4 4) (otherValue := Tab.get 0 u.pert.regs (r.f 0 2))
  refine ⟨_, hPert, hTime, hEvents, congrArg ok (commandNow_ok hBegins ?_)⟩
  refine (if_neg (register_listed hLow hHigh)).trans <| (if_neg (by rw [hScope]; decide)).trans <| (if_neg (by rw [hStrap]; decide)).trans <| (if_neg (by rw [hValue]; decide)).trans ?_
  rw [hFree]
  rfl

theorem exec_perturbGet (hBegins : begins s mb t (Cmd.fixed 0x0A04 4 [1, 2] false [(2, 2)]) = some (u, r)) :
    exec (.perturbGet mb t) s = .next (answered u u mb (Resp.ok_ (leBytes 4 (Tab.get 0 u.pert.regs (r.f 0 2))))) :=
  congrArg ok (commandNow_ok hBegins (if_neg (register_listed hLow hHigh)))

end

end

/-! ### Registers that take effect at a boundary -/

section
variable {s s0 : State} {t : Nat} (h0 : s.advance t = s0)
include h0

section
variable (hBoundary : s0.atBoundary = true)
include hBoundary

theorem exec_ptMeasOfs : exec (.ptMeasOfs t) s = .next (s0.takeReg 5).showTrigger := by
  subst h0
  exact congrArg ok (if_pos hBoundary)

theorem exec_ptTempOfs : exec (.ptTempOfs t) s = .next (s0.takeReg 6).showTrigger := by
  subst h0
  exact congrArg ok (if_pos hBoundary)

theorem exec_ptFlowOfs : exec (.ptFlowOfs t) s = .next (s0.takeReg 7).showTrigger := by
  subst h0
  exact congrArg ok (if_pos hBoundary)

theorem exec_ptChecks : exec (.ptChecks t) s = .next (s0.takeReg 10).applyChecks := by
  subst h0
  exact congrArg ok (if_pos hBoundary)

section
variable (hNew : s0.pert.shedNew = true)
include hNew

omit h0 in
theorem shed_taken : ¬ ((!s0.atBoundary) = true ∨ (!s0.pert.shedNew) = true) := by
  rw [hBoundary, hNew]
  decide

/-- A write of `SHED` = 1 starts a shed at the boundary, where no timer does. -/
theorem exec_ptForceShed_starts (hShed : bitAt (Tab.get 0 s0.pert.regs 8) 0 = true) (hNoTimer : s0.timerEn = false) :
    exec (.ptForceShed t) s = .next (State.startShed { s0.takeReg 8 with pert := { (s0.takeReg 8).pert with shedNew := false } }).showTrigger := by
  have timer : bitAt (Tab.get 0 (s0.takeReg 8).pert.eff 12) 3 = false := by
    rw [eff_takeReg_ne (by decide)]
    exact hNoTimer
  change execPtForceShed t s = _
  unfold execPtForceShed
  rw [h0]
  refine (if_neg (shed_taken hBoundary hNew)).trans (congrArg (fun v => ok (State.showTrigger v)) ((if_neg ?_).trans (if_neg ?_)))
  · rw [eff_takeReg, hShed]
    decide
  · unfold State.timerEn
    rw [timer]
    decide

/-- A write of `SHED` = 0 ends one. -/
theorem exec_ptForceShed_ends (hShed : bitAt (Tab.get 0 s0.pert.regs 8) 0 = false) :
    exec (.ptForceShed t) s = .next (State.endShed { s0.takeReg 8 with pert := { (s0.takeReg 8).pert with shedNew := false } }).showTrigger := by
  change execPtForceShed t s = _
  unfold execPtForceShed
  rw [h0]
  refine (if_neg (shed_taken hBoundary hNew)).trans (congrArg (fun v => ok (State.showTrigger v)) (if_pos ?_))
  rw [eff_takeReg, hShed]
  decide

end

omit hBoundary in
theorem exec_ptForceShed_idle (hOld : s0.pert.shedNew = false) : exec (.ptForceShed t) s = .next s0 := by
  change execPtForceShed t s = _
  unfold execPtForceShed
  rw [h0]
  exact if_pos (.inr (by rw [hOld]; rfl))

theorem exec_ptTrigger (hOn : bitAt (Tab.get 0 s0.pert.regs 11) 0 = true) : exec (.ptTrigger t) s = .next (s0.takeReg 11).showTrigger := by
  change execPtTrigger t s = _
  unfold execPtTrigger
  rw [h0]
  exact (if_neg (by rw [hBoundary]; decide)).trans (congrArg ok (if_pos (by rw [eff_takeReg]; exact hOn)))

/-- The window's periods count from the write. -/
theorem exec_ptTimer : ∃ v, exec (.ptTimer t) s = .next v ∧ v.pert.eff = (s0.takeReg 12).pert.eff ∧ v.pert.timerAt = s0.pert.timerSet := by
  change ∃ v, execPtTimer t s = _ ∧ _
  unfold execPtTimer
  rw [h0]
  refine ⟨_, if_neg (by rw [hBoundary]; decide), ?_⟩
  rw [pert_shown]
  generalize hb : (State.timerEn _ && State.inWindow _) = b
  obtain ⟨on, e, hPert⟩ := pert_setWindow (s := { s0.takeReg 12 with pert := { (s0.takeReg 12).pert with timerAt := (s0.takeReg 12).pert.timerSet, on := false } }) (b := b)
  rw [hPert]
  exact ⟨rfl, rfl⟩

end

theorem exec_forcedShedEnd {e : Nat} (hEnd : s0.pert.shedEnd = some e) (hDue : e ≤ s0.time.now) : exec (.forcedShedEnd t) s = .next s0.endShed.showTrigger := by
  change execForcedShedEnd t s = _
  unfold execForcedShedEnd
  rw [h0]
  dsimp only
  rw [hEnd]
  exact congrArg ok (if_pos (.inl hDue))

theorem exec_ptTimerEdge (hTimer : s0.timerEn = true) : exec (.ptTimerEdge t) s = .next (s0.setWindow s0.inWindow) := by
  subst h0
  exact congrArg ok (if_pos hTimer)

/-- The perturbation scope ends at its end. -/
theorem exec_debugScopeExpiry {e : Nat} (hEnd : s0.pert.pertEnd = some e) (hDue : e ≤ s0.time.now) (hNoDebug : s0.pert.debugEnd = none) :
    exec (.debugScopeExpiry t) s = .next (s0.endScopes 1 1) := by
  change execDebugScopeExpiry t s = _
  unfold execDebugScopeExpiry
  rw [h0]
  dsimp only
  rw [hEnd, hNoDebug]
  dsimp only
  simp only [hDue, decide_true]
  rfl

end

end Sys2Proof.Machine

namespace Sys2Proof.Safety
open Sys2Proof Sys2Proof.Machine Sys2Proof.Laws

/-- Settles O53: the scope commands by their bodies, and each register by the boundary at which it takes effect. -/
theorem scopesAndPerturbationsComplete : Obligations.ScopesAndPerturbationsComplete := by
  intro s u r mb t s0
  refine ⟨?_, fun hBegins _ => exec_debugDisable hBegins, ?_, fun hBegins _ hLow hHigh => exec_perturbGet hLow hHigh hBegins, rfl, rfl, rfl,
    rfl, rfl, fun hBoundary => ⟨exec_ptMeasOfs rfl hBoundary, exec_ptTempOfs rfl hBoundary, exec_ptFlowOfs rfl hBoundary, exec_ptChecks rfl hBoundary, ?_, exec_ptForceShed_idle rfl,
      exec_ptTrigger rfl hBoundary, exec_ptTimer rfl hBoundary⟩, fun e hEnd => exec_forcedShedEnd rfl hEnd, exec_ptTimerEdge rfl, fun e hEnd => exec_debugScopeExpiry rfl hEnd, rfl, ?_⟩
  · intro hBegins _ hLow hScope hSome hMax a v
    refine ⟨exec_debugEnable hBegins hLow hScope hSome hMax rfl, fun o hOther hOff => ?_⟩
    obtain ⟨hOn, hEnd⟩ := askScope_enables (secs := r.f 4 4) hOther hOff
    exact (congrArg (fun w : State => w.pert.pertEnd) (if_pos hOn)).trans hEnd
  · intro hBegins _ hLow hHigh hScope hStrap hValue hFree
    obtain ⟨w, hPert, hTime, hEvents, hExec⟩ := exec_perturbSet hLow hHigh hBegins hScope hStrap hValue hFree
    obtain ⟨hRegs, hEff, hLogs⟩ := event_pertStored (s := w) (n := r.f 0 2) (v := r.f 4 4) (who := partyCode mb) (code := 0x0032) (source := 5)
      (data := r.f 0 2 % 256 + 256 * partyCode mb + 2 ^ 32 * r.f 4 4)
    rw [hPert] at hRegs hEff
    rw [hEvents, hTime] at hLogs
    exact ⟨_, hExec, hRegs, hEff, hLogs⟩
  · intro w v hNew
    exact ⟨exec_ptForceShed_starts rfl hBoundary hNew, exec_ptForceShed_ends rfl hBoundary hNew⟩
  · exact ⟨_, rfl, rfl, pert_endScopes_both.1, pert_endScopes_both.2⟩

end Sys2Proof.Safety
end

section
/-!
PROOFS. The test port and the debug accesses (R465 to R467).
-/
set_option Elab.async false
namespace Sys2Proof.Machine
open Sys2Proof.Laws

/-! ### The test port -/

/-- With power an instruction is taken. -/
theorem jtagOn_powered {s : State} {f : State → State} (hPower : s.pkg.under ≠ psOff) : s.jtagOn f = f s := if_neg hPower

/-- In `OFF` none is. -/
theorem jtagOn_off {s : State} {f : State → State} (hOff : s.pkg.under = psOff) : s.jtagOn f = s := if_pos hOff

/-- With no window access under way nothing goes on. -/
theorem dapServe_idle {s : State} (hIdle : s.jtag.access = none) : s.dapServe = s := by
  unfold State.dapServe
  rw [hIdle]

section
variable {s : State} {lands shift : Nat} (hPower : s.pkg.under ≠ psOff)
include hPower

theorem exec_extest (hFree : s.jtagFree = true) : exec (.extest lands shift) s = .next ((s.setIr 3).boundaryScan lands shift) :=
  congrArg ok ((jtagOn_powered hPower).trans (if_pos hFree))

theorem exec_extest_bypass (hHeld : s.jtagFree = false) : exec (.extest lands shift) s = .next ((s.setIr 3).emit 10 0) :=
  congrArg ok ((jtagOn_powered hPower).trans (if_neg (by rw [hHeld]; decide)))

theorem exec_dap (hIdle : s.jtag.access = none) : exec .dap s = .next ((s.setIr 0x10).emit 10 (place s.jtag.data 32 41 + place s.jtag.status 3 73)) :=
  congrArg ok ((jtagOn_powered hPower).trans (congrArg (fun u => (State.setIr u 0x10).captureDr) (dapServe_idle hIdle)))

end

/-! ### Debug accesses -/

/-- An address in lake lies below the registers. -/
theorem not_register {a : Nat} (hLake : a < lakeEnd) : ¬ regBase ≤ a := Nat.not_le.mpr (Nat.lt_trans hLake (by decide))

section
variable {s u : State} {a v same : Nat} {req rsp : List (Nat × Nat)}

theorem dapWrite_window {x : DapAccess} (hData : x.data = some v) (hLow : lakeEnd ≤ a) (hHigh : a < regBase) (hWindow : s.dapWindow a = some (x.pti, x.space, x.off)) :
    s.dapWrite a v req rsp = ({ s with jtag := { s.jtag with access := some x } }.dapEnd 1 none).dapServe := by
  unfold State.dapWrite
  rw [if_neg (Nat.not_le.mpr hHigh), if_neg (Nat.not_lt.mpr hLow), hWindow, ← hData]
  rfl

end

section
variable {s s0 s1 : State} {f : State → State} (hPower : s0.pkg.under ≠ psOff) (hDap : s0.jtag.ir = 0x10) (hIdle : s0.jtag.access = none)
  (h1 : s0.emit 10 (place s0.jtag.data 32 41 + place s0.jtag.status 3 73) = s1)
include hPower hDap hIdle h1

/-- Without the debug scope a scan ends with status 3. -/
theorem dapScan_closed (hClosed : s0.debugOn = false) : s0.jtagOn (fun w => w.dapScan f) = s1.dapEnd 3 none := by
  subst h1
  refine (jtagOn_powered hPower).trans ((if_neg (not_not_intro hDap)).trans ?_)
  rw [dapServe_idle hIdle]
  refine (if_neg (show ¬ s0.jtag.access.isSome = true by rw [hIdle]; decide)).trans (if_pos ?_)
  exact congrArg not hClosed

/-- In an enabled debug scope the access is made. -/
theorem dapScan_open (hOpen : s0.debugOn = true) : s0.jtagOn (fun w => w.dapScan f) = f s1 := by
  subst h1
  refine (jtagOn_powered hPower).trans ((if_neg (not_not_intro hDap)).trans ?_)
  rw [dapServe_idle hIdle]
  refine (if_neg (show ¬ s0.jtag.access.isSome = true by rw [hIdle]; decide)).trans (if_neg (show ¬ (!s0.debugOn) = true by rw [hOpen]; decide))

end

end Sys2Proof.Machine

namespace Sys2Proof.Safety
open Sys2Proof Sys2Proof.Machine Sys2Proof.Laws

/-- Settles O54: each instruction by the package's power, each access by its scope and its address. -/
theorem jtagAndDebugAccessComplete : Obligations.JtagAndDebugAccessComplete := by
  intro s lands shift a v same t req rsp s0
  refine ⟨fun hOff => ?off, fun hPower => ?powered, ?scan⟩
  case off =>
    exact ⟨congrArg ok (jtagOn_off hOff), congrArg ok (jtagOn_off hOff), congrArg ok (jtagOn_off hOff), congrArg ok (jtagOn_off hOff), congrArg ok (jtagOn_off hOff),
      congrArg ok (jtagOn_off hOff), congrArg ok (jtagOn_off hOff)⟩
  case powered =>
    exact ⟨congrArg ok (jtagOn_powered hPower), congrArg ok (jtagOn_powered hPower), exec_extest hPower, exec_extest_bypass hPower, congrArg ok (jtagOn_powered hPower),
      congrArg ok (jtagOn_powered hPower), congrArg ok (jtagOn_powered hPower), exec_dap hPower⟩
  case scan =>
    intro hPower hDap hIdle s1
    refine ⟨fun hClosed => ?closed, ?register, ?lake, ?window⟩
    case closed =>
      exact ⟨congrArg ok (dapScan_closed hPower hDap hIdle rfl hClosed), congrArg ok (dapScan_closed hPower hDap hIdle rfl hClosed)⟩
    case register =>
      intro hOpen hReg b
      refine ⟨?_, fun hMay => ?_, fun hMay => ?_⟩
      · exact congrArg ok ((dapScan_open hPower hDap hIdle rfl hOpen).trans (if_pos hReg))
      · exact congrArg ok ((dapScan_open hPower hDap hIdle rfl hOpen).trans ((if_pos hReg).trans (if_pos hMay)))
      · exact congrArg ok ((dapScan_open hPower hDap hIdle rfl hOpen).trans ((if_pos hReg).trans (if_neg (by rw [hMay]; decide))))
    case lake =>
      intro hOpen hLake
      exact ⟨congrArg ok ((dapScan_open hPower hDap hIdle rfl hOpen).trans ((if_neg (not_register hLake)).trans (if_pos hLake))),
        congrArg ok ((dapScan_open hPower hDap hIdle rfl hOpen).trans ((if_neg (not_register hLake)).trans (if_pos hLake)))⟩
    case window =>
      intro x hOpen hData hLow hHigh hWindow
      exact congrArg ok ((dapScan_open hPower hDap hIdle rfl hOpen).trans (dapWrite_window hData hLow hHigh hWindow))

end Sys2Proof.Safety
end

section
/-!
PROOFS. The marks of one lake row and the merge of defects (R346).
-/
set_option Elab.async false
namespace Sys2Proof.Safety
open Sys2Proof Sys2Proof.Machine

/-- The marks of one lake row, spared (kind 4) and left without a spare (kind 5), are of one unit (R346). -/
theorem same_spared_unspared {ft source location spare ft' source' spare' : Nat} :
    (⟨ft, 4, source, location, spare⟩ : Defect).same ⟨ft', 5, source', location, spare'⟩ = true := by
  unfold Defect.same
  rw [beq_self_eq_true]
  rfl

/-- Refutes O55: its last clause asks equal kinds of the marks of one unit, and a lake row is one unit whether it is spared or not. -/
theorem not_killsAndTeardownComplete : ¬ Obligations.KillsAndTeardownComplete := by
  intro h
  obtain ⟨-, -, -, -, -, -, -, -, kinds⟩ := h State.reset 0 0 0 0 []
  have same : decide ((5 : Nat) = 4 ∧ (0 : Nat) = 0) = true := (kinds ⟨0, 4, 0, 0, 0⟩ ⟨0, 5, 0, 0, 0⟩).symm.trans same_spared_unspared
  exact absurd same (by decide)

end Sys2Proof.Safety
end

section
/-!
PROOFS. The responses of the power manager (R366 to R370, R388 to R393, R414).
-/
set_option Elab.async false
namespace Sys2Proof.Machine
open Sys2Proof.Laws

/-! ### What a response leaves of the power manager -/

/-- A bit that was set reads as set. -/
theorem bitAt_or_two_pow {v n : Nat} : bitAt (v ||| 2 ^ n) n = true := by
  unfold bitAt
  rw [Nat.shiftRight_eq_div_pow, ← Nat.testBit_eq_decide_div_mod_eq, Nat.testBit_or, Nat.testBit_two_pow_self, Bool.or_true]

theorem sprintTick_pw {s : State} : ∃ bin mark, s.sprintTick.pw = { s.pw with curBin := bin, sprintMark := mark } := by
  unfold State.sprintTick
  split
  · exact ⟨_, _, rfl⟩
  · exact ⟨_, _, rfl⟩

theorem endSprint_pw {s : State} : ∃ bin mark e low, s.endSprint.pw = { s.pw with curBin := bin, sprintMark := mark, sprintAt := none, sprintEnd := e, sprintLow := low } := by
  obtain ⟨bin, mark, hTick⟩ := sprintTick_pw (s := s)
  unfold State.endSprint
  split
  · exact ⟨bin, mark, _, _, by rw [hTick]⟩
  · next hNone => exact ⟨_, _, _, _, by rw [← Option.not_isSome_iff_eq_none.mp hNone]⟩

/-- A response ends a sprint, and is new. -/
theorem respond_pw {s : State} : ∃ bin mark e low, s.respond.pw = { s.pw with curBin := bin, sprintMark := mark, sprintAt := none, sprintEnd := e, sprintLow := low, respNew := true } := by
  obtain ⟨bin, mark, e, low, hEnd⟩ := endSprint_pw (s := s)
  exact ⟨bin, mark, e, low, by unfold State.respond; rw [hEnd]⟩

theorem frozenDie_respond {s : State} {d : Nat} : s.respond.frozenDie d = s.frozenDie d :=
  congrArg (Tab.get false · d) ((Changes.respond (s := s)).same .dieFrozen (by simp)).symm

theorem freezes_pw (l : List Nat) : ∀ {s : State}, ∃ f, (l.foldl (fun (u : State) d => u.setFrozen d true) s).pw = { s.pw with frozenAt := f } := by
  induction l with
  | nil => exact fun {s} => ⟨_, rfl⟩
  | cons d l ih =>
    intro s
    obtain ⟨f, first⟩ := State.setFrozen_pw s d true
    obtain ⟨g, rest⟩ := ih (s := s.setFrozen d true)
    exact ⟨g, by rw [List.foldl_cons, rest, first]⟩

/-- A freeze by hardware keeps the rest of the power manager. -/
theorem hwFreeze_pw {s : State} {ds : List Nat} : ∃ f z, (s.hwFreeze ds).pw = { s.pw with frozenAt := f, hwFreeze := z } := by
  obtain ⟨f, hf⟩ := freezes_pw ds (s := { s with pw := { s.pw with hwFreeze := s.pw.hwFreeze ++ ds.filter (fun d => !s.pw.hwFreeze.contains d) } })
  exact ⟨f, _, hf⟩

theorem frozenDie_setFrozen {s : State} {d k : Nat} : (s.setFrozen d true).frozenDie k = if k = d then true else s.frozenDie k := by
  unfold State.setFrozen
  by_cases hFrozen : s.frozenDie d = true
  · rw [if_pos hFrozen]
    by_cases hk : k = d
    · rw [if_pos hk, hk, hFrozen]
    · rw [if_neg hk]
  · rw [if_neg hFrozen]
    exact Tab.get_set ..

theorem frozenDie_foldl {l : List Nat} {k : Nat} : ∀ {s : State}, (l.foldl (fun (u : State) d => u.setFrozen d true) s).frozenDie k = if k ∈ l then true else s.frozenDie k := by
  induction l with
  | nil => exact fun {s} => rfl
  | cons d l ih =>
    intro s
    rw [List.foldl_cons, ih, frozenDie_setFrozen]
    by_cases hl : k ∈ l
    · rw [if_pos hl, if_pos (List.mem_cons_of_mem d hl)]
    · by_cases hk : k = d
      · rw [if_neg hl, if_pos hk, if_pos (List.mem_cons.mpr (.inl hk))]
      · rw [if_neg hl, if_neg hk, if_neg (by simp [hl, hk])]

/-- The dies that hardware freezes are frozen. -/
theorem frozenDie_hwFreeze {s : State} {ds : List Nat} {k : Nat} (hk : k ∈ ds) : (s.hwFreeze ds).frozenDie k = true := frozenDie_foldl.trans (if_pos hk)

theorem mem_allDies {k : Nat} (hk : k < 4) : k ∈ allDies := by
  simp only [allDies, List.mem_cons, List.not_mem_nil, or_false]
  omega

/-- A controlled stop stands once it is asked for. -/
theorem startStop_pw {s : State} {cause : Nat} : ∃ c free, (s.startStop cause).pw = { s.pw with cstop := some c, stopFree := free } := by
  unfold State.startStop
  split
  · exact ⟨_, _, rfl⟩
  · exact ⟨_, _, rfl⟩

theorem frozenDie_startStop {s : State} {cause d : Nat} : (s.startStop cause).frozenDie d = s.frozenDie d := by
  unfold State.startStop
  split <;> rfl

/-- The power manager at the start of a flow response, before the sprint ends. -/
def Power.flowStarted (p : Power) (now : Nat) : Power := { p with flowResp := some now, flowGood := none, flows := satInc 8 p.flows, run := [0, 0, 0, 0] }

theorem flowStart_pw {s : State} (hRuns : s.pkg.watchStall = false) (hNone : s.pw.flowResp = none) (hBooted : s.booted = true) :
    ∃ f bin mark e low, s.flowStart.pw =
      { s.pw.flowStarted s.time.now with frozenAt := f, curBin := bin, sprintMark := mark, sprintAt := none, sprintEnd := e, sprintLow := low, respNew := true } := by
  have starts : ¬ (s.pkg.watchStall = true ∨ s.pw.flowResp.isSome = true ∨ (!s.booted) = true) := by
    rw [hRuns, hNone, hBooted]
    decide
  unfold State.flowStart
  rw [if_neg starts]
  obtain ⟨f, hf⟩ := State.applyDuties_pw allDies { s with pw := s.pw.flowStarted s.time.now }
  obtain ⟨bin, mark, e, low, hr⟩ := respond_pw (s := allDies.foldl State.applyDuty { s with pw := s.pw.flowStarted s.time.now })
  exact ⟨f, bin, mark, e, low, by rw [hf] at hr; exact hr⟩

/-- A flow response keeps the edges. -/
theorem edges_flowStart {s : State} : s.flowStart.pw.edges = s.pw.edges := by
  by_cases hStart : s.pkg.watchStall = true ∨ s.pw.flowResp.isSome = true ∨ (!s.booted) = true
  · exact congrArg (fun u : State => u.pw.edges) (if_pos hStart)
  · simp only [not_or, Bool.not_eq_true, Option.isSome_eq_false_iff, Option.isNone_iff_eq_none, Bool.not_eq_false'] at hStart
    obtain ⟨hRuns, hNone, hBooted⟩ := hStart
    obtain ⟨f, bin, mark, e, low, hp⟩ := flowStart_pw hRuns hNone hBooted
    rw [hp]
    rfl

theorem time_flowStart {s : State} : s.flowStart.time = s.time := ((Changes.flowStart (s := s)).same .time (by simp)).symm

/-! ### Shed, leak and flow -/

section
variable {s s0 : State} {t : Nat} (h0 : s.advance t = s0)
include h0

theorem exec_shedNAssert (hHigh : s0.pw.shedLow = false) : let v : State := { s0 with pw := { s0.pw with shedLow := true, sheds := satInc 8 s0.pw.sheds } }
    exec (.shedNAssert t) s = .next (if s0.forced then v else v.hwFreeze allDies).respond := by
  intro v
  change execShedNAssert t s = _
  unfold execShedNAssert
  rw [h0]
  exact if_neg (by rw [hHigh]; decide)

/-- The leak response: every die frozen, a controlled stop and no sprint. -/
theorem exec_leakNAssert (hHigh : s0.pw.leakLow = false) : ∃ u, exec (.leakNAssert t) s = .next u ∧ u.pw.leakLow = true ∧ u.pw.leakResp = true ∧ u.pw.leaks = satInc 8 s0.pw.leaks ∧
    u.pw.cstop.isSome = true ∧ u.pw.sprintAt = none ∧ ∀ k, k < 4 → u.frozenDie k = true := by
  change ∃ u, execLeakNAssert t s = _ ∧ _
  unfold execLeakNAssert
  rw [h0]
  refine ⟨_, if_neg (by rw [hHigh]; decide), ?_⟩
  generalize hs1 : ({ s0 with pw := { s0.pw with leakLow := true, leakResp := true, leakHighAt := none, leaks := satInc 8 s0.pw.leaks } } : State) = s1
  have hLow : s1.pw.leakLow = true ∧ s1.pw.leakResp = true ∧ s1.pw.leaks = satInc 8 s0.pw.leaks := hs1 ▸ ⟨rfl, rfl, rfl⟩
  obtain ⟨f, z, hFreeze⟩ := hwFreeze_pw (s := s1) (ds := allDies)
  obtain ⟨c, free, hStop⟩ := startStop_pw (s := s1.hwFreeze allDies) (cause := 1)
  obtain ⟨bin, mark, e, low, hRespond⟩ := respond_pw (s := (s1.hwFreeze allDies).startStop 1)
  rw [hRespond, hStop, hFreeze]
  exact ⟨hLow.1, hLow.2.1, hLow.2.2, rfl, rfl, fun k hk => frozenDie_respond.trans (frozenDie_startStop.trans (frozenDie_hwFreeze (mem_allDies hk)))⟩

theorem exec_leakNDeassert (hLow : s0.pw.leakLow = true) : exec (.leakNDeassert t) s = .next { s0 with pw := { s0.pw with leakLow := false, leakHighAt := some s0.time.now } } := by
  change execLeakNDeassert t s = _
  unfold execLeakNDeassert
  rw [h0]
  exact if_pos hLow

theorem exec_leakRelease (hResp : s0.pw.leakResp = true) (hFree : s0.pw.leakFree s0.time.now = true) :
    exec (.leakRelease t) s = .next { s0 with pw := { s0.pw with leakResp := false } } := by
  change execLeakRelease t s = _
  unfold execLeakRelease
  rw [h0]
  exact if_pos ⟨hResp, hFree⟩

/-- A flow edge is kept, the latest first. -/
theorem exec_flowPulseEdge (hTaken : bitAt (s0.ptReg 7) 8 = false) : ∃ u, exec (.flowPulseEdge t) s = .next u ∧ u.pw.edges = (s0.time.now :: s0.pw.edges).take 17 := by
  have started : (s0.flowStart.time.now :: s0.flowStart.pw.edges).take 17 = (s0.time.now :: s0.pw.edges).take 17 := by rw [edges_flowStart, time_flowStart]
  change ∃ u, execFlowPulseEdge t s = _ ∧ _
  unfold execFlowPulseEdge
  rw [h0]
  refine ⟨_, if_neg (by rw [hTaken]; decide), ?_⟩
  dsimp only
  split
  · split
    · rfl
    · split
      · exact started
      · rfl
  · split
    · exact started
    · rfl

/-- Bad flow holds every die at 0. -/
theorem exec_flowTimeout (hRuns : s0.pkg.watchStall = false) (hNone : s0.pw.flowResp = none) (hBad : s0.flowBad = true) (hBooted : s0.booted = true) :
    ∃ u, exec (.flowTimeout t) s = .next u ∧ u.pw.flowResp = some s0.time.now ∧ u.pw.run = [0, 0, 0, 0] ∧ u.pw.flows = satInc 8 s0.pw.flows ∧ u.pw.sprintAt = none := by
  obtain ⟨f, bin, mark, e, low, hp⟩ := flowStart_pw hRuns hNone hBooted
  refine ⟨s0.flowStart, ?_, ?_⟩
  · subst h0
    exact congrArg ok (if_pos hBad)
  · rw [hp]
    exact ⟨rfl, rfl, rfl, rfl⟩

theorem exec_flowRelease {a : Nat} (hGood : s0.pw.flowGood = some a) (hResp : s0.pw.flowResp ≠ none) (hDue : a + 1000 * ms ≤ s0.time.now) (hFlow : s0.flowBad = false)
    (hRuns : s0.pkg.watchStall = false) : exec (.flowRelease t) s = .next { s0 with pw := { s0.pw with flowResp := none, stopFree := some s0.time.now } } := by
  change execFlowRelease t s = _
  unfold execFlowRelease
  rw [h0]
  dsimp only
  rw [hGood]
  exact if_pos ⟨Option.isSome_iff_ne_none.mpr hResp, hDue, by rw [hFlow]; rfl, by rw [hRuns]; rfl⟩

theorem exec_flowStopTimeout {a : Nat} (hResp : s0.pw.flowResp = some a) (hDue : a + 5000 * ms ≤ s0.time.now) (hRuns : s0.pkg.watchStall = false)
    (hNew : s0.pw.cstop.any (fun c => bitAt c.cause 1) = false) : exec (.flowStopTimeout t) s = .next (s0.startStop 2).respond := by
  change execFlowStopTimeout t s = _
  unfold execFlowStopTimeout
  rw [h0]
  dsimp only
  rw [hResp]
  exact if_pos ⟨hDue, by rw [hRuns]; rfl, by rw [hNew]; rfl⟩

/-! ### The controlled stop -/

/-- The busy dies are held, and their runs are 0. -/
theorem exec_controlledStopFreeze {c : CStop} (hStop : s0.pw.cstop = some c) (hDue : c.start + 100 * ms ≤ s0.time.now ∨ s0.busyDies = []) :
    ∃ u, exec (.controlledStopFreeze t) s = .next u ∧ u.pw.cstop = some { c with held := s0.busyDies } ∧
      u.pw.run = allDies.map (fun d => if s0.busyDies.contains d then 0 else s0.pw.run.getD d 16) := by
  obtain ⟨f, hf⟩ := State.applyDuties_pw s0.busyDies { s0 with pw := { s0.pw with
    cstop := some { c with held := s0.busyDies }, run := allDies.map (fun d => if s0.busyDies.contains d then 0 else s0.pw.run.getD d 16) } }
  refine ⟨_, ?_, (congrArg Power.cstop hf).trans rfl, (congrArg Power.run hf).trans rfl⟩
  change execControlledStopFreeze t s = _
  unfold execControlledStopFreeze
  rw [h0]
  dsimp only
  rw [hStop]
  exact if_pos (hDue.imp_right List.isEmpty_iff.mpr)

/-- A stop of a leak alone ends with the leak. -/
theorem exec_controlledStopEnd {c : CStop} (hStop : s0.pw.cstop = some c) (hCause : c.cause = 1) (hFree : s0.pw.leakFree s0.time.now = true) (hFlow : s0.pw.flowResp = none) :
    exec (.controlledStopEnd t) s = .next { s0 with pw := { s0.pw with cstop := none } } := by
  change execControlledStopEnd t s = _
  unfold execControlledStopEnd
  rw [h0]
  dsimp only
  rw [hStop]
  dsimp only
  rw [hCause, hFree, hFlow]
  exact if_pos ⟨rfl, by simp, by simp⟩

/-! ### Limits, converters and sensors -/

theorem exec_regulatorCurrentLimit {d : Nat} (hd : d < 4) :
    exec (.regulatorCurrentLimit d t) s = .next (s0.hwFreeze [d]).respond ∧ ((s0.hwFreeze [d]).respond).frozenDie d = true := by
  refine ⟨?_, frozenDie_respond.trans (frozenDie_hwFreeze (List.mem_singleton_self d))⟩
  subst h0
  exact if_pos hd

/-- A failed phase is counted and is a fault. -/
theorem exec_converterPhaseFail {reg phase : Nat} (hReg : reg < 6) :
    ∃ u, exec (.converterPhaseFail reg phase t) s = .next u ∧ u.pw.phases = s0.pw.phases.set reg (s0.pw.phases.getD reg 0 + 1) ∧ bitAt u.faults.sticky 8 = true := by
  have marked : ∀ {w : State} {kind location spare : Nat}, w.pw = (w.markDefect kind location spare).pw ∧ w.faults = (w.markDefect kind location spare).faults :=
    fun {w kind location spare} => ⟨Changes.markDefect.same .power (by simp), Changes.markDefect.same .faults (by simp)⟩
  change ∃ u, execConverterPhaseFail reg phase t s = _ ∧ _
  unfold execConverterPhaseFail
  rw [h0]
  refine ⟨_, if_neg (Nat.not_le.mpr hReg), ?_⟩
  rw [← marked.1, ← marked.2]
  exact ⟨rfl, bitAt_or_two_pow⟩

theorem exec_sensorDisagree {location a : Nat} (hSince : Tab.find s0.pw.sensorSince location = some a) (hDue : a + 100 * ms ≤ s0.time.now) :
    exec (.sensorDisagree location t) s = .next (s0.recordFault 9 false 0xFFFF location 0) := by
  change execSensorDisagree location t s = _
  unfold execSensorDisagree
  rw [h0]
  dsimp only
  rw [hSince, Option.any_some, decide_eq_true hDue]
  rfl

theorem exec_coldPlateRead {inlet outlet pressure : Nat} : exec (.coldPlateRead true inlet outlet pressure t) s = .next { s0 with pw := { s0.pw with
    inlet := s0.tempRead 6 (inlet, inlet), outlet := s0.tempRead 7 (outlet, outlet), pressure := pressure, coldFail := none, coldAbsent := false } } := by
  subst h0
  rfl

/-- A cold plate without an answer for 100 ms is absent, and a fault. -/
theorem exec_coldPlateRead_absent {inlet outlet pressure a : Nat} (hFail : s0.pw.coldFail = some a) (hDue : a + 100 * ms ≤ s0.time.now) (hNew : s0.pw.coldAbsent = false) :
    ∃ u, exec (.coldPlateRead false inlet outlet pressure t) s = .next u ∧ u.pw.coldAbsent = true ∧ u.pw.inlet = 160 ∧ bitAt u.faults.sticky 9 = true := by
  change ∃ u, execColdPlateRead false inlet outlet pressure t s = _ ∧ _
  unfold execColdPlateRead
  rw [h0]
  refine ⟨_, (if_neg Bool.false_ne_true).trans (if_pos ⟨?_, ?_⟩), rfl, rfl, bitAt_or_two_pow⟩
  · rw [hFail]
    exact hDue
  · rw [hNew]
    rfl

/-! ### The watch core -/

/-- A stalled watch core leaves every die at 4. -/
theorem exec_watchCoreStall : ∃ u, exec (.watchCoreStall t) s = .next u ∧ u.pkg.watchStall = true ∧ u.pw.safeCap = true ∧ u.pw.run = [4, 4, 4, 4] ∧ u.pw.sprintAt = none := by
  have touched : ∀ {w : State}, Changes [.seq, .dieFrozen, .power] w (allDies.foldl State.applyDuty w).respond := .trans (.foldl fun _ _ => .applyDuty) (.of .respond)
  have kept : ∀ {w : State}, w.pkg = ((allDies.foldl State.applyDuty w).respond).pkg := touched.same .pkg (by simp)
  change ∃ u, execWatchCoreStall t s = _ ∧ _
  unfold execWatchCoreStall
  rw [h0]
  refine ⟨_, rfl, congrArg Pkg.watchStall kept.symm, ?_⟩
  obtain ⟨f, hf⟩ := State.applyDuties_pw allDies { s0 with pkg := { s0.pkg with watchStall := true }, pw := { s0.pw with safeCap := true, run := [4, 4, 4, 4] } }
  obtain ⟨bin, mark, e, low, hr⟩ := respond_pw (s := allDies.foldl State.applyDuty { s0 with pkg := { s0.pkg with watchStall := true }, pw := { s0.pw with safeCap := true, run := [4, 4, 4, 4] } })
  rw [hr, hf]
  exact ⟨rfl, rfl, rfl⟩

theorem exec_watchCoreRestart (hStalled : s0.pkg.watchStall = true) : ∃ u, exec (.watchCoreRestart t) s = .next u ∧ u.pkg.watchStall = false ∧ u.pw.safeCap = false ∧
    u.faults.watchRestarts = satInc 8 s0.faults.watchRestarts ∧ u.logs.faults.length = s0.logs.faults.length + 1 := by
  change ∃ u, execWatchCoreRestart t s = _ ∧ _
  unfold execWatchCoreRestart
  rw [h0]
  exact ⟨_, if_neg (by rw [hStalled]; decide), rfl, rfl, rfl, List.length_append ..⟩

end

/-- The hold of a party stands once it is asked for. -/
theorem contains_addHold {s : State} {b : Nat} : (s.addHold b).m.holders.contains b = true := by
  unfold State.addHold
  split
  · next hHeld => exact hHeld
  · exact List.contains_iff_mem.mpr (List.mem_append_right _ (List.mem_singleton_self b))

end Sys2Proof.Machine

namespace Sys2Proof.Safety
open Sys2Proof Sys2Proof.Machine Sys2Proof.Laws

/-- Settles O57: each response by its condition; the power manager after it is known but for the freezes and the sprint's account. -/
theorem powerResponsesComplete : Obligations.PowerResponsesComplete := by
  intro s d reg phase location inlet outlet pressure t s0 p
  obtain ⟨bin, mark, e, low, hRespond⟩ := respond_pw (s := s)
  exact ⟨exec_shedNAssert rfl, rfl, exec_leakNAssert rfl, exec_leakNDeassert rfl, exec_leakRelease rfl, exec_flowPulseEdge rfl, exec_flowTimeout rfl, fun a => exec_flowRelease rfl,
    fun a => exec_flowStopTimeout rfl, fun c => exec_controlledStopFreeze rfl, fun c => exec_controlledStopEnd rfl, rfl, contains_addHold, rfl, rfl, exec_regulatorCurrentLimit rfl,
    congrArg Power.sprintAt hRespond, congrArg Power.respNew hRespond, exec_converterPhaseFail rfl, rfl, fun a => exec_sensorDisagree rfl, exec_coldPlateRead rfl,
    fun a => exec_coldPlateRead_absent rfl, exec_watchCoreStall rfl, exec_watchCoreRestart rfl⟩

end Sys2Proof.Safety
end

section
/-!
PROOFS. The pins: blade power, boot, standby and the fence (R340, R475 to R483).
-/
set_option Elab.async false
namespace Sys2Proof.Laws
open Sys2Proof Sys2Proof.Machine Sys2Proof.Safety

/-! ### What the fence and the standby leave -/

/-- A kill changes only the state in the package block. -/
theorem pkg_beginKill {s : State} {cause origin abortId : Nat} {abort : Bool} : ∃ x, (s.beginKill cause origin abortId abort).pkg = { s.pkg with under := x } := by
  have kept : ∀ {w : State}, Changes [.tiles, .seq, .context, .logs] s w → (w.setUnder psTear).pkg = { s.pkg with under := psTear } :=
    fun {w} h => congrArg (fun p : Pkg => { p with under := psTear }) (h.same .pkg (by simp)).symm
  unfold State.beginKill
  dsimp only
  split
  · exact ⟨_, rfl⟩
  · refine ⟨psTear, kept ?_⟩
    exact .trans (.foldl fun _ _ => .of .recordStep) <| .step .runEnd <| .step (.writes [.tiles, .seq, .context]) <| .ite .refl <| .of .event

theorem gate_closeGate {s : State} : s.closeGate.gate = true := by
  unfold State.closeGate
  exact (Changes.beginKill.same .gate (by simp)).symm

theorem pkg_closeGate {s : State} : ∃ x, s.closeGate.pkg = { s.pkg with under := x } := by
  unfold State.closeGate
  obtain ⟨x, hx⟩ := pkg_beginKill (cause := 5) (abort := false)
  have low : s.trigLow.pkg = s.pkg := (Changes.trigLow.same .pkg (by simp)).symm
  exact ⟨x, hx.trans (congrArg (fun p : Pkg => { p with under := x }) low)⟩

theorem ft_closeGate {s : State} : s.closeGate.time.ft = s.time.ft := by
  unfold State.closeGate
  have low : s.trigLow.time.ft = s.time.ft := congrArg TimeSt.ft (Changes.trigLow.same .time (by simp)).symm
  exact Eq.trans (congrArg TimeSt.ft (Changes.beginKill.same .time (by simp)).symm) low

theorem ft_timeLost {s : State} : s.timeLost.time.ft = s.time.ft := by
  unfold State.timeLost State.timeFreed
  dsimp only
  split <;> rfl

/-- The package block in `STANDBY`: no core supply, no boot and no LPN, and the role that the straps give. -/
def standbyPkg (p : Pkg) : Pkg := { p with
  pgOut := false, hPower := false, stage1 := false, mordRuns := false, mordBack := none, bootOk := false, bistOk := false, lakeTrained := false, lpnValid := false, fenced := false,
  reason := 0, under := psStandby, role := bitAt p.straps 19 }

section
variable {s : State} (hUp : psBoot ≤ s.pkg.under)
include hUp

/-- From `BOOT` on a fall to `STANDBY` closes the gate, clears lake and the context, and lets FT stand as it was. -/
theorem toStandby_spec : ∃ x, s.toStandby.pkg = standbyPkg { s.pkg with under := x } ∧ s.toStandby.gate = true ∧ s.toStandby.lake.mem = [] ∧ s.toStandby.ctx.accepted = false ∧
    s.toStandby.time.ft = s.time.ft := by
  have notOff : s.pkg.under ≠ psOff := Nat.ne_of_gt (Nat.lt_of_lt_of_le (by decide) hUp)
  have notStandby : s.pkg.under ≠ psStandby := Nat.ne_of_gt (Nat.lt_of_lt_of_le (by decide) hUp)
  have ends : Changes [.tiles, .net, .lake, .logs, .links, .perturb, .firmware, .out] s.closeGate ((s.closeGate.cancelActivation 3).endScopes 1 4) := .step .cancelActivation <| .of .endScopes
  generalize hw : ((s.closeGate.cancelActivation 3).endScopes 1 4).timeLost = w
  have hPkg : w.pkg = s.closeGate.pkg := hw ▸ ((Changes.timeLost.same .pkg (by simp)).symm.trans (ends.same .pkg (by simp)).symm)
  have hGate : w.gate = true := hw ▸ ((Changes.timeLost.same .gate (by simp)).symm.trans ((ends.same .gate (by simp)).symm.trans gate_closeGate))
  have hFt : w.time.ft = s.time.ft := hw ▸ (ft_timeLost.trans ((congrArg TimeSt.ft (ends.same .time (by simp)).symm).trans ft_closeGate))
  obtain ⟨x, hx⟩ := pkg_closeGate (s := s)
  have standing : standbyPkg w.pkg = standbyPkg { s.pkg with under := x } := congrArg standbyPkg (hPkg.trans hx)
  unfold State.toStandby
  rw [if_neg notOff, if_neg notStandby, hw]
  exact ⟨x, standing, hGate, rfl, rfl, hFt⟩

end

/-- What a fall to `OFF` leaves of the package block. -/
theorem setUnder_off {s : State} : ∃ u : State, (({ s with pkg := { s.pkg with bladeLow := none, pgOut := false } } : State).setUnder psOff) = u ∧ u.pkg.under = psOff ∧
    u.pkg.pgOut = false ∧ u.pkg.bladeLow = none := ⟨_, rfl, rfl, rfl, rfl⟩

/-! ### Boot -/

/-- The package that a boot begins, before the fence is looked at. -/
def bootBegun (s : State) : State :=
  let s1 := s.sampleStraps
  (({ s1 with
    gate := false
    ctx := { Ctx.reset with phase := s1.ctx.phase, oldGen := s1.ctx.oldGen }
    faults := { Faults.reset with lastReset := if s1.pkg.unclean then 5 else s1.faults.lastReset,
                                  mordRestarts := s1.faults.mordRestarts, watchRestarts := s1.faults.watchRestarts,
                                  tileDrop := s1.faults.tileDrop, nackRx := s1.faults.nackRx }
    pkg := { s1.pkg with warm := false, stage1 := true, bootOk := false, bistOk := false, mordRuns := false, unclean := false, lakeTries := 0 }
    pw := { s1.pw with coreV := (List.range 6).map coreVolts }
    fw := { s1.fw with boots := s1.fw.boots + 1 } } : State).setUnder psBoot).event 0x0001 5 0

/-- The package with a low fence closed. -/
def fenceShown (s : State) : State := if s.pkg.fenceLow then { s with gate := true, pkg := { s.pkg with fenced := true } } else s

theorem tryBoot_begun {s : State} (h : s.pkg.under = psStandby ∧ s.pwrOk ∧ s.pkg.mated ∧ !s.pkg.therm ∧ !s.pkg.thermExt) : s.tryBoot = fenceShown (bootBegun s) := if_pos h

theorem tryBoot_cases {s : State} : s.tryBoot = fenceShown (bootBegun s) ∨ s.tryBoot = s := by
  unfold State.tryBoot
  split
  · exact .inl rfl
  · exact .inr rfl

theorem pkg_fenceShown {s : State} : ∃ fenced, (fenceShown s).pkg = { s.pkg with fenced := fenced } := by
  unfold fenceShown
  split
  · exact ⟨_, rfl⟩
  · exact ⟨_, rfl⟩

/-- Apart from the gate and the sign of the fence, a low fence leaves the package. -/
theorem fenceShown_keeps {s : State} : (fenceShown s).pid = s.pid ∧ (fenceShown s).fw = s.fw ∧ (fenceShown s).ctx = s.ctx ∧ (fenceShown s).pw = s.pw := by
  unfold fenceShown
  split
  · exact ⟨rfl, rfl, rfl, rfl⟩
  · exact ⟨rfl, rfl, rfl, rfl⟩

theorem gate_fenceShown {s : State} (h : s.gate = false) : (fenceShown s).gate = s.pkg.fenceLow := by
  unfold fenceShown
  split
  · next hLow => exact hLow.symm
  · next hHigh => exact h.trans (Bool.eq_false_iff.mpr hHigh).symm

/-- A boot that nothing holds up. -/
theorem tryBoot_spec {s : State} (hUnder : s.pkg.under = psStandby) (hPower : s.pwrOk = true) (hMated : s.pkg.mated = true) (hTherm : s.pkg.therm = false) (hExt : s.pkg.thermExt = false) :
    s.tryBoot.pid = s.pkg.straps % 2 ^ 19 ∧ s.tryBoot.pkg.under = psBoot ∧ s.tryBoot.pkg.stage1 = true ∧ s.tryBoot.pkg.warm = false ∧ s.tryBoot.pkg.mated = s.pkg.mated ∧
    s.tryBoot.pkg.thermExt = s.pkg.thermExt ∧ s.tryBoot.fw.boots = s.fw.boots + 1 ∧ s.tryBoot.ctx.gen = 0 ∧ s.tryBoot.gate = s.pkg.fenceLow ∧
    s.tryBoot.pw.coreV = (List.range 6).map coreVolts := by
  rw [tryBoot_begun ⟨hUnder, hPower, hMated, by rw [hTherm]; rfl, by rw [hExt]; rfl⟩]
  obtain ⟨hPid, hFw, hCtx, hPw⟩ := fenceShown_keeps (s := bootBegun s)
  obtain ⟨fenced, hPkg⟩ := pkg_fenceShown (s := bootBegun s)
  rw [hPid, hFw, hCtx, hPw, hPkg, gate_fenceShown rfl]
  exact ⟨rfl, rfl, rfl, rfl, rfl, rfl, rfl, rfl, rfl, rfl⟩

theorem blade_tryBoot {s : State} : s.tryBoot.pkg.blade = s.pkg.blade := by
  obtain h | h := tryBoot_cases (s := s)
  · obtain ⟨fenced, hPkg⟩ := pkg_fenceShown (s := bootBegun s)
    rw [h, hPkg]
    rfl
  · rw [h]

theorem pid_tryBoot {s : State} (hPid : s.pid = s.pkg.straps % 2 ^ 19) : s.tryBoot.pid = s.pkg.straps % 2 ^ 19 := by
  obtain h | h := tryBoot_cases (s := s)
  · rw [h, fenceShown_keeps.1]
    rfl
  · rw [h, hPid]

/-- `THERMTRIP_N` low holds the boot up. -/
theorem tryBoot_tripped {s : State} (hExt : s.pkg.thermExt = true) : s.tryBoot = s :=
  if_neg fun ⟨_, _, _, _, hLow⟩ => absurd hLow (by rw [hExt]; decide)

/-- A package that the fence released: the gate is open, and the reset is the warm one of the release. -/
def Released (s : State) : Prop := s.pkg.fenced = false ∧ s.gate = false ∧ s.pkg.warm = true ∧ s.faults.lastReset = 4

theorem released_resumed {s : State} {p : Prop} [Decidable p] {l : List Nat} (h : Released s) : Released (if p then l.foldl State.linkResume s else s) := by
  have resumes : Changes [.time, .links] s (if p then l.foldl State.linkResume s else s) := .ite (.foldl fun _ _ => .of .linkResume) .refl
  unfold Released
  rw [← resumes.same .pkg (by simp), ← resumes.same .gate (by simp), ← resumes.same .faults (by simp)]
  exact h

theorem booted_released {s : State} {c1 s1 d1 c2 s2 d2 : Nat} (h : Released s) : let u := ((s.sampleStraps.setUnder psBoot).event c1 s1 d1).event c2 s2 d2
    u.pkg.under = psBoot ∧ u.pkg.fenced = false ∧ u.gate = false ∧ u.pkg.warm = true ∧ u.faults.lastReset = 4 := ⟨rfl, h⟩

/-- With the fence high a warm boot opens the gate. -/
theorem warmBoot_released {s : State} (hHigh : s.pkg.fenceLow = false) : (s.warmBoot 3).pkg.under = psBoot ∧ (s.warmBoot 3).pkg.fenced = false ∧ (s.warmBoot 3).gate = false ∧
    (s.warmBoot 3).pkg.warm = true ∧ (s.warmBoot 3).faults.lastReset = 4 := by
  have ends : Changes [.tiles, .net, .lake, .logs, .links, .perturb, .firmware, .out] s ((s.cancelActivation 2).endScopes 1 4) := .step .cancelActivation <| .of .endScopes
  unfold State.warmBoot
  generalize hw : (s.cancelActivation 2).endScopes 1 4 = w
  have hPkg : w.pkg = s.pkg := hw ▸ (ends.same .pkg (by simp)).symm
  have released : (w.pkg.fenced && (decide ((3 : Nat) ≠ 3) || w.pkg.fenceLow)) = false := by
    rw [hPkg, hHigh]
    exact Bool.and_false _
  dsimp only
  rw [released]
  exact booted_released (released_resumed ⟨rfl, rfl, rfl, rfl⟩)

/-- The warm reset of a fence's release, with no context in the way. -/
theorem warmReset_released {s : State} (hFree : s.ctx.accepted = false) (hIdle : s.ctx.killing = false) (hHigh : s.pkg.fenceLow = false) :
    (s.warmReset 3).pkg.under = psBoot ∧ (s.warmReset 3).pkg.fenced = false ∧ (s.warmReset 3).gate = false ∧ (s.warmReset 3).pkg.warm = true ∧ (s.warmReset 3).faults.lastReset = 4 := by
  unfold State.warmReset
  rw [if_neg (by rw [hIdle]; simp), if_neg (by rw [hFree]; decide)]
  refine warmBoot_released (Eq.trans ?_ hHigh)
  refine congrArg Pkg.fenceLow (Changes.same (ps := [.tiles, .context, .lake]) ?_ .pkg (by simp)).symm
  exact .step (.writes [.tiles, .context]) <| .foldl fun _ _ => .of .setStack

end Sys2Proof.Laws

namespace Sys2Proof.Machine
open Sys2Proof.Laws Sys2Proof.Safety

/-- The straps that were sampled give the package number. -/
theorem straps_pid {n : Nat} : n % 2 ^ 20 % 2 ^ 19 = n % 2 ^ 19 := Nat.mod_mod_of_dvd n (by decide)

/-! ### Blade power -/

/-- The rise of the blade samples the straps and holds FT at 0. -/
theorem exec_bladePowerUp {s : State} {straps : Nat} {thermLow : Bool} (hDown : s.pkg.blade = false) (hOff : s.pkg.under = psOff) :
    ∃ u, exec (.bladePowerUp straps thermLow) s = .next u ∧ u.pkg.blade = true ∧ u.pid = straps % 2 ^ 19 ∧ u.time.ft = 0 ∧ (thermLow = true → u.pkg.under = psStandby) := by
  generalize hp : s.powerUp = p
  have hFt : p.time.ft = 0 := hp ▸ rfl
  have hBlade : p.pkg.blade = true := hp ▸ rfl
  generalize hw : ((({ p with pkg := { p.pkg with straps := straps % 2 ^ 20, thermExt := thermLow } } : State).setUnder psStandby).sampleStraps) = w
  have hExec : exec (.bladePowerUp straps thermLow) s = .next w.tryBoot := by
    change execBladePowerUp straps thermLow s = _
    unfold execBladePowerUp
    rw [if_neg (by rw [hDown]; decide), if_neg (not_not_intro hOff), hp]
    exact congrArg (fun v => ok (State.tryBoot v)) hw
  obtain ⟨wBlade, wStraps, wPid, wFt, wExt, wUnder⟩ : w.pkg.blade = p.pkg.blade ∧ w.pkg.straps = straps % 2 ^ 20 ∧ w.pid = straps % 2 ^ 20 % 2 ^ 19 ∧ w.time.ft = p.time.ft ∧
      w.pkg.thermExt = thermLow ∧ w.pkg.under = psStandby := hw ▸ ⟨rfl, rfl, rfl, rfl, rfl, rfl⟩
  refine ⟨_, hExec, blade_tryBoot.trans (wBlade.trans hBlade), ?_, (congrArg TimeSt.ft (Changes.tryBoot.same .time (by simp)).symm).trans (wFt.trans hFt), fun hLow => ?_⟩
  · rw [pid_tryBoot (by rw [wPid, wStraps]), wStraps, straps_pid]
  · rw [tryBoot_tripped (wExt.trans hLow), wUnder]

section
variable {s s0 : State} {straps t : Nat} (h0 : s.advance t = s0)
include h0

theorem exec_bladePowerLoss (hUp : s0.pkg.blade = true) : exec (.bladePowerLoss t) s = .next { s0 with pkg := { s0.pkg with blade := false, bladeLow := some s0.time.now } } := by
  subst h0
  exact congrArg ok (if_pos hUp)

theorem exec_holdUpExpiry {a : Nat} (hLow : s0.pkg.bladeLow = some a) (hDue : a + 10 * ms ≤ s0.time.now) :
    ∃ u, exec (.holdUpExpiry t) s = .next u ∧ u.pkg.under = psOff ∧ u.pkg.pgOut = false ∧ u.pkg.bladeLow = none := by
  obtain ⟨u, hu, hState⟩ := setUnder_off (s := s0.toStandby)
  refine ⟨u, ?_, hState⟩
  change execHoldUpExpiry t s = _
  unfold execHoldUpExpiry
  rw [h0]
  dsimp only
  rw [hLow]
  exact (if_neg (Nat.not_lt.mpr hDue)).trans (congrArg ok hu)

/-! ### The way to `BOOT` -/

section
variable (hUnder : s0.pkg.under = psStandby) (hTherm : s0.pkg.therm = false)
include hUnder hTherm

/-- A high `PWR_EN` that nothing holds up boots the package with the sampled straps. -/
theorem exec_pwrEnHigh (hCycle : s0.pkg.cycleNeeded = false) (hMated : s0.pkg.mated = true) (hExt : s0.pkg.thermExt = false) :
    ∃ u, exec (.pwrEnHigh straps t) s = .next u ∧ u.pkg.under = psBoot ∧ u.pid = straps % 2 ^ 19 ∧ u.pkg.stage1 = true ∧ u.pkg.warm = false ∧ u.fw.boots = s0.fw.boots + 1 ∧ u.ctx.gen = 0 ∧
      u.gate = s0.pkg.fenceLow ∧ u.pw.coreV = (List.range 6).map coreVolts := by
  have boots : ∀ {c : Bool}, c = false → let u := State.tryBoot { s0 with pkg := { s0.pkg with straps := straps % 2 ^ 20, pwrEn := true, pwrLowAt := none, cycleNeeded := c } }
      u.pkg.under = psBoot ∧ u.pid = straps % 2 ^ 19 ∧ u.pkg.stage1 = true ∧ u.pkg.warm = false ∧ u.fw.boots = s0.fw.boots + 1 ∧ u.ctx.gen = 0 ∧ u.gate = s0.pkg.fenceLow ∧
        u.pw.coreV = (List.range 6).map coreVolts := by
    rintro c rfl
    obtain ⟨hPid, hBoot, hStage, hWarm, _, _, hBoots, hGen, hGate, hVolts⟩ := tryBoot_spec
      (s := { s0 with pkg := { s0.pkg with straps := straps % 2 ^ 20, pwrEn := true, pwrLowAt := none, cycleNeeded := false } }) hUnder rfl hMated hTherm hExt
    exact ⟨hBoot, hPid.trans straps_pid, hStage, hWarm, hBoots, hGen, hGate, hVolts⟩
  subst h0
  exact ⟨_, rfl, boots (by rw [hCycle]; rfl)⟩

theorem exec_prsntNAssert (hEn : s0.pkg.pwrEn = true) (hCycle : s0.pkg.cycleNeeded = false) (hExt : s0.pkg.thermExt = false) :
    ∃ u, exec (.prsntNAssert straps t) s = .next u ∧ u.pkg.under = psBoot ∧ u.pid = straps % 2 ^ 19 ∧ u.pkg.mated = true := by
  obtain ⟨hPid, hBoot, _, _, hIn, _⟩ := tryBoot_spec (s := { s0 with pkg := { s0.pkg with straps := straps % 2 ^ 20, mated := true } }) hUnder
    (show (s0.pkg.pwrEn && !s0.pkg.cycleNeeded) = true by rw [hEn, hCycle]; rfl) rfl hTherm hExt
  subst h0
  exact ⟨_, rfl, hBoot, hPid.trans straps_pid, hIn⟩

theorem exec_thermtripNDeassert (hEn : s0.pkg.pwrEn = true) (hCycle : s0.pkg.cycleNeeded = false) (hMated : s0.pkg.mated = true) :
    ∃ u, exec (.thermtripNDeassert t) s = .next u ∧ u.pkg.under = psBoot ∧ u.pkg.thermExt = false := by
  obtain ⟨_, hBoot, _, _, _, hExt, _⟩ := tryBoot_spec (s := { s0 with pkg := { s0.pkg with thermExt := false } }) hUnder
    (show (s0.pkg.pwrEn && !s0.pkg.cycleNeeded) = true by rw [hEn, hCycle]; rfl) hMated hTherm rfl
  subst h0
  exact ⟨_, rfl, hBoot, hExt⟩

end

/-! ### The way to `STANDBY` -/

section
variable (hUp : psBoot ≤ s0.pkg.under)
include hUp

theorem exec_pwrEnLow : ∃ u, exec (.pwrEnLow t) s = .next u ∧ u.pkg.under = psStandby ∧ u.gate = true ∧ u.pkg.pwrEn = false ∧ u.pkg.stage1 = false ∧ u.lake.mem = [] ∧ u.ctx.accepted = false := by
  obtain ⟨x, hPkg, hGate, hMem, hCtx, _⟩ := toStandby_spec (s := { s0 with pkg := { s0.pkg with pwrEn := false, pwrLowAt := s0.pkg.pwrLowAt.or (some s0.time.now) } }) hUp
  subst h0
  exact ⟨_, rfl, congrArg Pkg.under hPkg, hGate, congrArg Pkg.pwrEn hPkg, congrArg Pkg.stage1 hPkg, hMem, hCtx⟩

omit h0 in
theorem notOff_of_booted : s0.pkg.under ≠ psOff := Nat.ne_of_gt (Nat.lt_of_lt_of_le (by decide) hUp)

/-- A break of `PRSNT_N` is recorded as unclean. -/
theorem exec_prsntNBreak : ∃ u, exec (.prsntNBreak t) s = .next u ∧ u.pkg.under = psStandby ∧ u.gate = true ∧ u.pkg.mated = false ∧ u.pkg.unclean = true := by
  have ended : (s0.event 0x0003 5 s0.shown).endSprint.pkg = s0.pkg := ((Changes.step (ps := [.logs, .power]) .event (.of .endSprint)).same .pkg (by simp)).symm
  have falls : ∀ {v : State}, v.pkg = { s0.pkg with mated := false, unclean := true } →
      v.toStandby.pkg.under = psStandby ∧ v.toStandby.gate = true ∧ v.toStandby.pkg.mated = false ∧ v.toStandby.pkg.unclean = true := by
    intro v hv
    obtain ⟨x, hPkg, hGate, _⟩ := toStandby_spec (s := v) (by rw [hv]; exact hUp)
    rw [hv] at hPkg
    exact ⟨congrArg Pkg.under hPkg, hGate, congrArg Pkg.mated hPkg, congrArg Pkg.unclean hPkg⟩
  change ∃ u, execPrsntNBreak t s = _ ∧ _
  unfold execPrsntNBreak
  rw [h0]
  exact ⟨_, if_neg (notOff_of_booted hUp), falls (congrArg (fun p : Pkg => { p with mated := false, unclean := true }) ended)⟩

theorem exec_thermtrip : ∃ u, exec (.thermtrip false t) s = .next u ∧ u.pkg.under = psStandby ∧ u.gate = true ∧ u.pkg.therm = true := by
  obtain ⟨x, hPkg, hGate, _⟩ := toStandby_spec (s := { s0 with pkg := { s0.pkg with therm := true } }) hUp
  subst h0
  exact ⟨_, (if_neg (notOff_of_booted hUp)).trans (if_neg Bool.false_ne_true), congrArg Pkg.under hPkg, hGate, congrArg Pkg.therm hPkg⟩

theorem exec_thermtrip_tray : exec (.thermtrip true t) s = .next { s0 with pkg := { s0.pkg with thermExt := true } } := by
  subst h0
  exact (if_neg (notOff_of_booted hUp)).trans (if_pos rfl)

section
variable (hStage : s0.pkg.stage1 = true)
include hStage

omit h0 in
/-- A stop of stage 1 asks for a power cycle. -/
theorem stageStop_spec : s0.stageStop.pkg.under = psStandby ∧ s0.stageStop.gate = true ∧ s0.stageStop.pkg.cycleNeeded = true ∧ s0.stageStop.pkg.refLost = s0.pkg.refLost ∧
    s0.stageStop.time.ft = s0.time.ft := by
  obtain ⟨x, hPkg, hGate, _, _, hFt⟩ := toStandby_spec (s := { s0 with pkg := { s0.pkg with cycleNeeded := true } }) hUp
  unfold State.stageStop
  rw [if_pos hStage]
  exact ⟨congrArg Pkg.under hPkg, hGate, congrArg Pkg.cycleNeeded hPkg, by rw [hPkg]; rfl, hFt⟩

theorem exec_bladeUndervoltage : ∃ u, exec (.bladeUndervoltage t) s = .next u ∧ u.pkg.under = psStandby ∧ u.gate = true ∧ u.pkg.cycleNeeded = true := by
  obtain ⟨hFalls, hGate, hCycle, _⟩ := stageStop_spec hUp hStage
  subst h0
  exact ⟨_, rfl, hFalls, hGate, hCycle⟩

theorem exec_bladeOvervoltage : ∃ u, exec (.bladeOvervoltage t) s = .next u ∧ u.pkg.under = psStandby ∧ u.gate = true ∧ u.pkg.cycleNeeded = true := by
  obtain ⟨hFalls, hGate, hCycle, _⟩ := stageStop_spec hUp hStage
  subst h0
  exact ⟨_, rfl, hFalls, hGate, hCycle⟩

theorem exec_powerGood : exec (.powerGood t) s = .next { s0 with pkg := { s0.pkg with pgOut := true, hPower := true } } := by
  subst h0
  exact congrArg ok (if_pos ⟨decide_eq_true hUp, hStage⟩)

end

/-! ### The fence input -/

/-- A low fence closes the gate. -/
theorem exec_fenceInAssert : ∃ u, exec (.fenceInAssert t) s = .next u ∧ u.pkg.fenceLow = true ∧ u.pkg.fenced = true ∧ u.gate = true := by
  obtain ⟨x, hx⟩ := pkg_closeGate (s := { s0 with pkg := { s0.pkg with fenceLow := true, fenced := true } })
  subst h0
  exact ⟨_, congrArg ok (if_pos (decide_eq_true hUp)), congrArg Pkg.fenceLow hx, congrArg Pkg.fenced hx, gate_closeGate⟩

/-- Its release makes a warm reset. -/
theorem exec_fenceRelease (hFenced : s0.pkg.fenced = true) (hFree : s0.ctx.accepted = false) (hIdle : s0.ctx.killing = false) : ∃ u, exec (.fenceRelease t) s = .next u ∧
    u.pkg.under = psBoot ∧ u.pkg.fenced = false ∧ u.gate = false ∧ u.pkg.warm = true ∧ u.faults.lastReset = 4 := by
  have reset := warmReset_released (s := { s0 with pkg := { s0.pkg with fenceLow := false } }) hFree hIdle rfl
  subst h0
  exact ⟨_, congrArg ok (if_pos ⟨hFenced, decide_eq_true hUp⟩), reset⟩

end

theorem exec_thermtripNRelease {a : Nat} (hLow : s0.pkg.pwrLowAt = some a) (hDue : a + 1000 * ms ≤ s0.time.now) :
    exec (.thermtripNRelease t) s = .next { s0 with pkg := { s0.pkg with therm := false } } := by
  change execThermtripNRelease t s = _
  unfold execThermtripNRelease
  rw [h0]
  dsimp only
  rw [hLow]
  exact congrArg ok (if_pos (decide_eq_true hDue))

end

theorem ft_advance_of_refLost {s : State} {t : Nat} (hLost : s.pkg.refLost = true) : (s.advance t).time.ft = s.time.ft := by
  unfold State.advance
  by_cases hNow : t ≤ s.time.now
  · rw [if_pos hNow]
  · rw [if_neg hNow, if_pos hLost]

theorem execRefclkLoss_eq {s v : State} {t : Nat} (hv : s.advance (t - 10 * us) = v) : exec (.refclkLoss t) s = .next (({ v with pkg := { v.pkg with refLost := true } } : State).advance t).stageStop := by
  change execRefclkLoss t s = _
  unfold execRefclkLoss
  rw [hv]
  rfl

/-- Without its reference FT stands as the clock stopped. -/
theorem exec_refclkLoss {s : State} {t : Nat} (hUp : psBoot ≤ (s.advance t).pkg.under) (hStage : (s.advance t).pkg.stage1 = true) :
    ∃ u, exec (.refclkLoss t) s = .next u ∧ u.pkg.under = psStandby ∧ u.gate = true ∧ u.pkg.refLost = true ∧ u.time.ft = (s.advance (t - 10 * us)).time.ft := by
  have pkg : ∀ {w : State} {x : Nat}, (w.advance x).pkg = w.pkg := (Changes.advance.same .pkg (by simp)).symm
  have stops : ∀ {v : State}, v.pkg = s.pkg → let u := (({ v with pkg := { v.pkg with refLost := true } } : State).advance t).stageStop
      u.pkg.under = psStandby ∧ u.gate = true ∧ u.pkg.refLost = true ∧ u.time.ft = v.time.ft := by
    intro v hv
    rw [pkg, ← hv] at hUp hStage
    generalize hw : ({ v with pkg := { v.pkg with refLost := true } } : State) = w
    have hPkg : w.pkg = { v.pkg with refLost := true } := hw ▸ rfl
    have hFt : w.time.ft = v.time.ft := hw ▸ rfl
    obtain ⟨hFalls, hGate, _, hLost, hEnd⟩ := stageStop_spec (s0 := w.advance t) (by rw [pkg, hPkg]; exact hUp) (by rw [pkg, hPkg]; exact hStage)
    exact ⟨hFalls, hGate, by rw [hLost, pkg, hPkg], hEnd.trans ((ft_advance_of_refLost (congrArg Pkg.refLost hPkg)).trans hFt)⟩
  exact ⟨_, execRefclkLoss_eq rfl, stops pkg⟩

end Sys2Proof.Machine

namespace Sys2Proof.Safety
open Sys2Proof Sys2Proof.Machine Sys2Proof.Laws

/-- Settles O58: each pin by what it asks for, the passages to `BOOT` and to `STANDBY` each once. -/
theorem pinsMoveThePackage : Obligations.PinsMoveThePackage := by
  intro s straps t thermLow s0
  refine ⟨exec_bladePowerUp, exec_bladePowerLoss rfl, fun a => exec_holdUpExpiry rfl, fun hUnder hCycle hMated hTherm hExt => exec_pwrEnHigh rfl hUnder hTherm hCycle hMated hExt,
    fun hUnder hEn hCycle hTherm hExt => exec_prsntNAssert rfl hUnder hTherm hEn hCycle hExt, fun hUnder hEn hCycle hTherm hMated => exec_thermtripNDeassert rfl hUnder hTherm hEn hCycle hMated,
    fun hUp => ⟨exec_pwrEnLow rfl hUp, exec_prsntNBreak rfl hUp, exec_thermtrip rfl hUp, fun _ => exec_thermtrip_tray rfl hUp, fun hStage => ?_, exec_fenceInAssert rfl hUp,
      exec_fenceRelease rfl hUp⟩, fun a => exec_thermtripNRelease rfl⟩
  exact ⟨exec_bladeUndervoltage rfl hUp hStage, exec_bladeOvervoltage rfl hUp hStage, exec_refclkLoss hUp hStage, exec_powerGood rfl hUp hStage⟩

end Sys2Proof.Safety
end

section
/-!
PROOFS. Boot, self-test and lake training (R344 to R349, R447).
-/
set_option Elab.async false
namespace Sys2Proof.Laws
open Sys2Proof Sys2Proof.Machine Sys2Proof.Safety

/-! ### Links that are due -/

/-- A link without training is due at once. -/
def trainLink (s : State) (l : Nat) : State := if (s.link l).state = 0 ∧ (s.link l).retryAt.isNone then s.setLink l { s.link l with retryAt := some s.time.now } else s

theorem trainLinks_eq {s : State} : s.trainLinks = allLinks.foldl trainLink s := rfl

theorem time_trainLink {s : State} {l : Nat} : (trainLink s l).time = s.time := by
  unfold trainLink
  split <;> rfl

theorem link_trainLink_ne {s : State} {l k : Nat} (h : l ≠ k) : (trainLink s k).link l = s.link l := by
  unfold trainLink
  split
  · exact State.link_setLink_ne _ _ _ _ h
  · rfl

/-- A link that is due stays due. -/
theorem link_trainLink_due {s : State} {l k : Nat} (hDue : (s.link l).retryAt ≠ none) : (trainLink s k).link l = s.link l := by
  by_cases hk : l = k
  · subst hk
    exact congrArg (State.link · l) (if_neg fun h => hDue (Option.isNone_iff_eq_none.mp h.2))
  · exact link_trainLink_ne hk

theorem foldl_trainLink_due {l : Nat} {L : List Nat} : ∀ {s : State}, (s.link l).retryAt ≠ none → (L.foldl trainLink s).link l = s.link l := by
  induction L with
  | nil => exact fun {s} _ => rfl
  | cons k L ih =>
    intro s hDue
    rw [List.foldl_cons, ih (by rw [link_trainLink_due hDue]; exact hDue), link_trainLink_due hDue]

theorem foldl_trainLink {l : Nat} {L : List Nat} : ∀ {s : State}, l ∈ L → (s.link l).state = 0 → (s.link l).retryAt = none → ((L.foldl trainLink s).link l).retryAt = some s.time.now := by
  induction L with
  | nil => exact fun h => absurd h List.not_mem_nil
  | cons k L ih =>
    intro s hIn hDown hNone
    rw [List.foldl_cons]
    by_cases hk : l = k
    · subst hk
      have due : ((trainLink s l).link l).retryAt = some s.time.now := by
        unfold trainLink
        rw [if_pos ⟨hDown, by rw [hNone]; rfl⟩, State.link_setLink]
      rw [foldl_trainLink_due (by rw [due]; exact Option.some_ne_none _), due]
    · have same := link_trainLink_ne (s := s) hk
      rw [ih ((List.mem_cons.mp hIn).resolve_left hk) (by rw [same]; exact hDown) (by rw [same]; exact hNone), time_trainLink]

theorem retryAt_trainLinks {s : State} {l : Nat} (hl : l < 96) (hDown : (s.link l).state = 0) (hNone : (s.link l).retryAt = none) : (s.trainLinks.link l).retryAt = some s.time.now := by
  rw [trainLinks_eq]
  exact foldl_trainLink (List.mem_range.mpr hl) hDown hNone

/-- Entering a state changes only that of the package block. -/
theorem pkg_enter {s : State} {x : Nat} : (s.enter x).pkg = { s.pkg with under := x } := by
  unfold State.enter
  exact (Changes.dmaResume.same .pkg (by simp)).symm

theorem pkg_notReady {s : State} {reason : Nat} : (s.notReady reason).pkg = { (s.setUnder psNotReady).pkg with reason := reason } := by
  have trains : (s.setUnder psNotReady).pkg = (s.setUnder psNotReady).trainLinks.pkg := Changes.trainLinks.same .pkg (by simp)
  rw [trains]
  rfl

/-- A package that is not ready says why. -/
theorem notReady_says {s : State} {reason : Nat} : (s.notReady reason).pkg.under = psNotReady ∧ (s.notReady reason).pkg.reason = reason := by
  rw [pkg_notReady]
  exact ⟨rfl, rfl⟩

/-! ### The union of the defects -/

section
variable {s : State} (hUnion : s.union = [])
include hUnion

/-- An empty union fits. -/
theorem fits_of_union_nil : s.fits = true := by
  unfold State.fits State.secondRow State.badRows State.badPhases State.bankRows
  rw [hUnion]
  rfl

end

end Sys2Proof.Laws

namespace Sys2Proof.Machine
open Sys2Proof.Laws Sys2Proof.Safety

/-! ### The firmware's start -/

/-- The Mordant complex starts from the image of a slot (R447). -/
def State.fwStarted (s : State) (k : Nat) (rolled : Bool) : State := { s with
  fw := { s.fw with run := k, prev := 1 - k, runImage := s.fw.slots.getD k [], region := fwPart (s.fw.slots.getD k []) 1, watchNext := some (fwPart (s.fw.slots.getD k []) 2), act := 0,
                    prepared := false, record := none, leaseEnd := none, leaseUsed := false, runAt := s.time.now, rolled := rolled, fail := 0 }
  h := { s.h with mbx := s.h.mbx.map (fun (e : Nat × Mbx) => (e.1, { e.2 with handover := false })) }
  pkg := { s.pkg with bootOk := true, mordRuns := true, mordBack := none } }

section
variable {s s0 : State} {t : Nat} (h0 : s.advance t = s0)
include h0

section
variable (hBoot : s0.pkg.under = psBoot)
include hBoot

section
variable (hRaw : s0.pkg.bootOk = false)
include hRaw

omit h0 in
theorem not_verified : ¬ (s0.pkg.under ≠ psBoot ∨ s0.pkg.bootOk = true) := by
  rw [hBoot, hRaw]
  decide

/-- The valid image of the active slot runs. -/
theorem exec_firmwareBootVerify_active (hValid : s0.fwValid (s0.fw.slots.getD (s0.fw.active % 2) []) = true) :
    exec (.firmwareBootVerify t) s = .next (s0.fwStarted (s0.fw.active % 2) (s0.fw.active % 2 != s0.fw.active % 2)) := by
  change execFirmwareBootVerify t s = _
  unfold execFirmwareBootVerify
  rw [h0]
  exact (if_neg (not_verified hBoot hRaw)).trans (if_pos hValid)

section
variable (hBad : s0.fwValid (s0.fw.slots.getD (s0.fw.active % 2) []) = false)
include hBad

/-- Else a valid one of the other slot, with an event. -/
theorem exec_firmwareBootVerify_other (hValid : s0.fwValid (s0.fw.slots.getD (1 - s0.fw.active % 2) []) = true) : exec (.firmwareBootVerify t) s =
    .next ((s0.fwStarted (1 - s0.fw.active % 2) (1 - s0.fw.active % 2 != s0.fw.active % 2)).event 0x0023 5 (1 - s0.fw.active % 2)) := by
  change execFirmwareBootVerify t s = _
  unfold execFirmwareBootVerify
  rw [h0]
  exact (if_neg (not_verified hBoot hRaw)).trans ((if_neg (by rw [hBad]; decide)).trans (if_pos hValid))

theorem exec_firmwareBootVerify_failed (hOther : s0.fwValid (s0.fw.slots.getD (1 - s0.fw.active % 2) []) = false) : exec (.firmwareBootVerify t) s = .next (s0.setUnder psFailed) := by
  change execFirmwareBootVerify t s = _
  unfold execFirmwareBootVerify
  rw [h0]
  exact (if_neg (not_verified hBoot hRaw)).trans ((if_neg (by rw [hBad]; decide)).trans (if_neg (by rw [hOther]; decide)))

end

end

/-! ### The self-test -/

/-- The package as BIST leaves it before its outcome is judged: the results in the union, the spared rows applied where it was a cold boot, the tiles' stores clear. -/
def State.bistMarked (s : State) (results : List (Nat × Nat)) (listOk : Bool) : State :=
  let tested := results.filter (fun (x : Nat × Nat) => x.1 == 1 || x.1 == 2 || x.1 == 3 || x.1 == 7 || (!s.pkg.warm && (x.1 == 4 || x.1 == 6)))
  let s1 := tested.foldl State.bistAdd { s with logs := { s.logs with bist := [], digestOk := s.logs.digestOk && listOk } }
  (if s.pkg.warm then s1 else (List.range 8).foldl State.applySpares s1).sources

/-- That package with its test done. -/
def State.bistCleared (s : State) : State := { s with
  tiles := mapTiles Tile.marched s.tiles
  seq := { s.seq with table := [], steps := [], runActive := false }
  pkg := { s.pkg with bistOk := true }
  pw := { s.pw with phases := (List.range 6).map s.badPhases } }

/-- The outcome of the self-test (R345, R348). -/
def State.bistVerdict (s : State) (hdieOk : Bool) : State :=
  if !hdieOk then s.setUnder psFailed else if !s.logs.digestOk then s.notReady 4 else if !s.fits then s.notReady 1 else if s.listFull then s.notReady 5 else (s.setUnder psTrain).trainLinks

omit h0 hBoot in
theorem bistMarked_pkg {results : List (Nat × Nat)} {listOk : Bool} : Changes [.logs, .lake] s0 (s0.bistMarked results listOk) := by
  unfold State.bistMarked
  exact .step .logs <| .trans (.foldl fun _ _ => .of .bistAdd) <| .trans (.ite .refl (.foldl fun _ _ => .of .applySpares)) <| .of .sources

omit h0 hBoot in
/-- An unreadable list stays unreadable. -/
theorem digestOk_bistMarked {results : List (Nat × Nat)} : (s0.bistMarked results false).logs.digestOk = false := by
  have adds : ∀ {l : List (Nat × Nat)} {w : State}, (l.foldl State.bistAdd w).logs.digestOk = w.logs.digestOk := by
    intro l
    induction l with
    | nil => exact fun {w} => rfl
    | cons x l ih => exact fun {w} => ih
  have spares : ∀ {w : State}, ((List.range 8).foldl State.applySpares w).logs = w.logs :=
    fun {w} => ((Changes.foldl (ps := [.lake]) fun _ _ => .of .applySpares).same .logs (by simp)).symm
  unfold State.bistMarked State.sources
  dsimp only
  split
  · exact adds.trans (Bool.and_false _)
  · exact (congrArg Logs.digestOk spares).trans (adds.trans (Bool.and_false _))

section
variable (hVerified : s0.pkg.bootOk = true) (hRaw : s0.pkg.bistOk = false) (hIdle : s0.ctx.killing = false)
include hVerified hRaw hIdle

omit h0 in
theorem bist_judged : ¬ (s0.pkg.under ≠ psBoot ∨ (!s0.pkg.bootOk) = true ∨ s0.pkg.bistOk = true ∨ s0.ctx.killing = true) := by
  rw [hBoot, hVerified, hRaw, hIdle]
  decide

theorem exec_bistDone {results : List (Nat × Nat)} {hdieOk listOk : Bool} :
    exec (.bistDone results hdieOk listOk t) s = .next ((s0.bistMarked results listOk).bistCleared.bistVerdict hdieOk) := by
  change execBistDone results hdieOk listOk t s = _
  unfold execBistDone
  rw [h0]
  exact if_neg (bist_judged hBoot hVerified hRaw hIdle)

theorem exec_bistDone_failed {results : List (Nat × Nat)} {listOk : Bool} :
    exec (.bistDone results false listOk t) s = .next ((s0.bistMarked results listOk).bistCleared.setUnder psFailed) :=
  (exec_bistDone h0 hBoot hVerified hRaw hIdle).trans (congrArg ok (if_pos rfl))

theorem exec_bistDone_unreadable {results : List (Nat × Nat)} : exec (.bistDone results true false t) s = .next ((s0.bistMarked results false).bistCleared.notReady 4) :=
  (exec_bistDone h0 hBoot hVerified hRaw hIdle).trans
    (congrArg ok ((if_neg (by decide)).trans (if_pos (congrArg not (digestOk_bistMarked (s0 := s0) (results := results))))))

omit h0 hBoot hVerified hRaw hIdle in
theorem bistVerdict_trains (hDigest : s0.logs.digestOk = true) (hFits : s0.fits = true) (hRoom : s0.listFull = false) : s0.bistVerdict true = (s0.setUnder psTrain).trainLinks := by
  unfold State.bistVerdict
  rw [if_neg (by decide), if_neg (by rw [hDigest]; decide), if_neg (by rw [hFits]; decide), if_neg (by rw [hRoom]; decide)]

/-- With no failure and nothing in the union the package trains. -/
theorem exec_bistDone_trains (hDigest : s0.logs.digestOk = true) (hFuses : s0.logs.fuses = []) (hList : s0.logs.defects = []) (hPending : s0.logs.pendingDefects = []) :
    exec (.bistDone [] true true t) s = .next ((s0.bistMarked [] true).bistCleared.setUnder psTrain).trainLinks := by
  have logs : (s0.bistMarked [] true).logs = { s0.logs with bist := [], digestOk := true, defects := [] } := by
    have spares : ∀ {w : State}, ((List.range 8).foldl State.applySpares w).logs = w.logs :=
      fun {w} => ((Changes.foldl (ps := [.lake]) fun _ _ => .of .applySpares).same .logs (by simp)).symm
    unfold State.bistMarked State.sources
    dsimp only
    split
    · simp only [List.filter_nil, List.foldl_nil, hDigest, hList, List.map_nil, Bool.and_self]
    · rw [spares]
      simp only [List.filter_nil, List.foldl_nil, hDigest, hList, List.map_nil, Bool.and_self]
  generalize hw : s0.bistMarked [] true = w at logs
  have union : w.bistCleared.union = [] := by
    change w.logs.fuses ++ w.logs.defects ++ w.logs.bist ++ w.logs.pendingDefects = []
    rw [logs]
    simp [hFuses, hPending]
  have fits := fits_of_union_nil union
  have digest : w.bistCleared.logs.digestOk = true := congrArg Logs.digestOk logs
  have room : w.bistCleared.listFull = false := by
    change (decide (4096 ≤ w.logs.defects.length) && _) = false
    rw [logs]
    rfl
  rw [exec_bistDone h0 hBoot hVerified hRaw hIdle, hw, bistVerdict_trains digest fits room]

end

end

/-! ### The lake's training -/

section
variable (hTrain : s0.pkg.under = psTrain)
include hTrain

/-- The package whose stacks have trained (R349). -/
def State.stacksTrained (s : State) : State :=
  let s1 := (List.range 8).foldl (fun (u : State) k =>
    (u.applySpares k).setStack k { (u.applySpares k).stack k with chans := (List.range 32).map (fun c => (c, { ((u.applySpares k).stack k).chan c with power := 2, wakeReq := none })) }) s
  { s1 with pkg := { s1.pkg with lakeTrained := true, lakeTries := 0 } }

omit h0 hTrain in
theorem stacksTrained_keeps : Changes [.lake, .pkg] s0 s0.stacksTrained := by
  unfold State.stacksTrained
  exact .trans (.foldl fun _ _ => .step .applySpares <| .of .setStack) <| .of .pkg

/-- With every stack trained the package is `CONFIGURED` with an image held, else it awaits one. -/
theorem exec_lakeTrainDone : ∃ u, exec (.lakeTrainDone true t) s = .next u ∧ u.pkg.under = (if s0.cfg.image.isSome then psConf else psAwait) ∧ u.pkg.lakeTrained = true := by
  have entered : ∀ {w : State} {x : Nat}, w.pkg.lakeTrained = true → (w.wakeWaiting.enter x).pkg.under = x ∧ (w.wakeWaiting.enter x).pkg.lakeTrained = true := by
    intro w x hw
    have waits : w.wakeWaiting.pkg = w.pkg := (Changes.wakeWaiting.same .pkg (by simp)).symm
    rw [pkg_enter, waits]
    exact ⟨rfl, hw⟩
  have image : s0.stacksTrained.cfg = s0.cfg := (stacksTrained_keeps.same .cfg (by simp)).symm
  refine ⟨s0.stacksTrained.wakeWaiting.enter (if s0.stacksTrained.cfg.image.isSome then psConf else psAwait), ?_, ?_⟩
  · change execLakeTrainDone true t s = _
    unfold execLakeTrainDone
    rw [h0]
    exact (if_neg (not_not_intro hTrain)).trans (if_neg (by decide))
  · rw [image]
    exact entered rfl

theorem exec_lakeTrainDone_again (hFirst : s0.pkg.lakeTries = 0) : exec (.lakeTrainDone false t) s = .next { s0 with pkg := { s0.pkg with lakeTries := 1 } } := by
  change execLakeTrainDone false t s = _
  unfold execLakeTrainDone
  rw [h0]
  exact (if_neg (not_not_intro hTrain)).trans ((if_pos rfl).trans (congrArg ok (if_pos hFirst)))

theorem exec_lakeTrainDone_failed (hSecond : s0.pkg.lakeTries ≠ 0) :
    exec (.lakeTrainDone false t) s = .next (({ s0 with pkg := { s0.pkg with lakeTrained := false } } : State).notReady 3) := by
  change execLakeTrainDone false t s = _
  unfold execLakeTrainDone
  rw [h0]
  exact (if_neg (not_not_intro hTrain)).trans ((if_pos rfl).trans (congrArg ok (if_neg hSecond)))

end

end

end Sys2Proof.Machine

namespace Sys2Proof.Safety
open Sys2Proof Sys2Proof.Machine Sys2Proof.Laws

/-- Settles O59: the boot by the valid slot, BIST by its outcome, and the lake's training by its attempts. -/
theorem bootTestsAndTrainsThePackage : Obligations.BootTestsAndTrainsThePackage := by
  intro s t s0 img
  refine ⟨fun hBoot hRaw => ⟨fun hValid => ?_, fun hBad hValid => ?_, fun hA hB => ?_⟩, fun hBoot hVerified hRaw hIdle => ⟨fun results listOk => ?_, fun results => ?_, fun hDigest hFuses hList hPending => ?_⟩,
    fun hTrain => ⟨fun hNone => ?_, fun hImage => ?_, exec_lakeTrainDone_again rfl hTrain, fun hSecond => ?_⟩⟩
  · exact ⟨_, exec_firmwareBootVerify_active rfl hBoot hRaw hValid, rfl, rfl, rfl, rfl, bne_self_eq_false _, rfl⟩
  · have other : (1 - s0.fw.active % 2 != s0.fw.active % 2) = true := by
      rw [bne_iff_ne]
      omega
    exact ⟨_, exec_firmwareBootVerify_other rfl hBoot hRaw hBad hValid, rfl, rfl, other, rfl⟩
  · have bad : ∀ k, k < 2 → s0.fwValid (s0.fw.slots.getD k []) = false := fun k hk => by
      rcases Nat.lt_succ_iff_lt_or_eq.mp hk with hZero | rfl
      · rw [Nat.lt_one_iff.mp hZero]
        exact hA
      · exact hB
    exact exec_firmwareBootVerify_failed rfl hBoot hRaw (bad _ (Nat.mod_lt _ (by decide))) (bad _ (by omega))
  · exact ⟨_, exec_bistDone_failed rfl hBoot hVerified hRaw hIdle, rfl⟩
  · exact ⟨_, exec_bistDone_unreadable rfl hBoot hVerified hRaw hIdle, notReady_says⟩
  · have marked := bistMarked_pkg (s0 := s0) (results := []) (listOk := true)
    have hExec := exec_bistDone_trains rfl hBoot hVerified hRaw hIdle hDigest hFuses hList hPending
    generalize s0.bistMarked [] true = w at marked hExec
    have links : (w.bistCleared.setUnder psTrain).st = s0.st := (marked.same .links (by simp)).symm
    have time : (w.bistCleared.setUnder psTrain).time = s0.time := (marked.same .time (by simp)).symm
    have pkg : (w.bistCleared.setUnder psTrain).trainLinks.pkg = (w.bistCleared.setUnder psTrain).pkg := (Changes.trainLinks.same .pkg (by simp)).symm
    refine ⟨_, hExec, congrArg Pkg.under pkg, congrArg Pkg.bistOk pkg, fun l hl hDown hNone => ?_⟩
    have same : (w.bistCleared.setUnder psTrain).link l = s0.link l := congrArg (fun st : Stoith => Tab.get Link.reset st.links l) links
    rw [retryAt_trainLinks hl (by rw [same]; exact hDown) (by rw [same]; exact hNone), time]
  · obtain ⟨u, hExec, hUnder, hTrained⟩ := exec_lakeTrainDone (s := s) (t := t) rfl hTrain
    exact ⟨u, hExec, hUnder.trans (if_neg (by rw [show s0.cfg.image = none from hNone]; decide)), hTrained⟩
  · obtain ⟨u, hExec, hUnder, hTrained⟩ := exec_lakeTrainDone (s := s) (t := t) rfl hTrain
    exact ⟨u, hExec, hUnder.trans (if_pos (Option.isSome_iff_ne_none.mpr hImage)), hTrained⟩
  · exact ⟨_, exec_lakeTrainDone_failed rfl hTrain hSecond, notReady_says⟩

end Sys2Proof.Safety
end

section
/-!
PROOFS. A spare at work: heartbeats, the takeover, claims and mirror writes (R277, R427 to R438).
-/
set_option Elab.async false
namespace Sys2Proof.Laws
open Sys2Proof Sys2Proof.Machine Sys2Proof.Safety

/-! ### A lake request leaves the zeroing of the stacks -/

/-- Every stack zeroes after a step exactly where it did before. -/
def SameZeroing (s u : State) : Prop := ∀ n, (u.stack n).zeroing = (s.stack n).zeroing

namespace SameZeroing

variable {s u v : State} {k : Nat}

theorem refl : SameZeroing s s := fun _ => rfl

theorem trans (h : SameZeroing s u) (h' : SameZeroing u v) : SameZeroing s v := fun n => (h' n).trans (h n)

theorem of_lake (h : u.lake = s.lake) : SameZeroing s u := fun n => congrArg (fun l : Lake => (Tab.get Stack.reset l.stackTab n).zeroing) h

theorem of_changes {ps : List Part} (h : Changes ps s u) (hp : Part.lake ∉ ps) : SameZeroing s u := of_lake (h.same .lake hp).symm

theorem ite {p : Prop} [Decidable p] (h : SameZeroing s u) (h' : SameZeroing s v) : SameZeroing s (if p then u else v) := by
  split
  · exact h
  · exact h'

theorem foldl {α : Type} {f : State → α → State} (h : ∀ w a, SameZeroing w (f w a)) : ∀ {l : List α} {w : State}, SameZeroing w (l.foldl f w) := by
  intro l
  induction l with
  | nil => exact fun {w} => refl
  | cons a l ih => exact fun {w} => (h w a).trans ih

theorem setStack {st : Stack} (h : st.zeroing = (s.stack k).zeroing) : SameZeroing s (s.setStack k st) := by
  intro n
  by_cases hn : n = k
  · rw [hn, State.stack_setStack, h]
  · rw [State.stack_setStack_ne _ _ _ _ hn]

theorem spareRow {row : Nat} : SameZeroing s (s.spareRow k row) := by
  unfold State.spareRow
  exact ite refl (ite (setStack (by rfl)) ((setStack (by rfl)).trans (of_changes Changes.markDefect (by simp))))

theorem counted {st : Stack} {f : Faults} (h : st.zeroing = (s.stack k).zeroing) : SameZeroing s { s.setStack k st with faults := f } := (setStack h).trans (of_lake rfl)

theorem lakeFixed {a : Nat} : SameZeroing s (s.lakeFixed k a) := by
  unfold State.lakeFixed
  exact ite ((counted (by rfl)).trans spareRow) (counted (by rfl))

theorem noted {op : Nat} {scrub : Bool} {so : Nat} {st : Stack} (h : st.zeroing = (s.stack k).zeroing) : SameZeroing s (s.setStack k (st.noteDbe so op scrub)) :=
  setStack ((noteDbe_keeps st so op scrub).2.1.trans h)

theorem recordFault {bit stepId location detail : Nat} {kills : Bool} : SameZeroing s (s.recordFault bit kills stepId location detail) :=
  of_changes Changes.recordFault (by simp)

theorem lakeDbe {a op : Nat} {scrub : Bool} : SameZeroing s (s.lakeDbe k a op scrub) := by
  unfold State.lakeDbe
  exact ((noted rfl).trans (ite recordFault refl)).trans spareRow

theorem lakeFound {op : Nat} {scrub : Bool} {ws : List Ecc} : ∀ {s : State} {a : Nat}, SameZeroing s (s.lakeFound op scrub a ws) := by
  induction ws with
  | nil => exact fun {s a} => refl
  | cons w r ih =>
    intro s a
    unfold State.lakeFound
    exact (ite lakeFixed (ite lakeDbe refl)).trans ih

theorem pinNote {a n : Nat} {bad : Bool} : SameZeroing s (s.pinNote k a n bad) := by
  have corrected : SameZeroing s { s.setStack k { s.stack k with sbe := min 0xFFFF ((s.stack k).sbe + n) } with faults := { s.faults with sbeTotal := s.faults.sbeTotal + n } } :=
    counted rfl
  unfold State.pinNote
  refine ite (corrected.trans ((noted ?_).trans recordFault)) corrected
  exact (corrected k).symm

theorem lakeReply {rsp : List (Nat × Nat)} {p : Pkt} {kind : Nat} {ext : List Nat} {data : List Word} : SameZeroing s (s.lakeReply rsp k p kind ext data) := by
  have found : SameZeroing s (s.pinFound k p (pinCheck (p.answer kind ext data) rsp)) := pinNote
  unfold State.lakeReply
  dsimp only
  split
  · exact ite (ite (found.trans (of_lake (by rfl))) (found.trans (of_lake (by rfl)))) (ite found (found.trans (of_lake (by rfl))))
  · exact ite found (found.trans (of_lake (by rfl)))
  · exact ite found (found.trans (of_changes Changes.reply (by simp)))

theorem delPkt {id : Nat} : SameZeroing s (s.delPkt id) := of_lake rfl

theorem lakeStore {a : Nat} {bs : List Byte} : SameZeroing s (s.lakeStore a bs) := fun _ => rfl

theorem lakeZero {a n : Nat} : SameZeroing s (s.lakeZero a n) := fun _ => rfl

theorem reduceInto {fmt rop base : Nat} {ws : List Ecc} {data : List Word} : SameZeroing s (s.reduceInto fmt rop base ws data) := by
  unfold State.reduceInto
  exact foldl fun _ _ => ite refl lakeStore

theorem palTable {a : Nat} {errs : List (Nat × Nat)} : SameZeroing s (s.palTable k a errs).1 := by
  unfold State.palTable
  generalize s.lakeWords a 2056 = ws
  dsimp only
  generalize pinTable (ws.map Ecc.val) errs = h
  split
  · exact setStack (by rfl)
  · split
    · exact lakeFound
    · split
      · exact lakeFound.trans pinNote
      · exact (lakeFound.trans pinNote).trans (setStack (by rfl))

theorem of_palTable {a : Nat} {errs : List (Nat × Nat)} {x : TabRead} (h : s.palTable k a errs = (u, x)) : SameZeroing s u := by
  have read := palTable (s := s) (k := k) (a := a) (errs := errs)
  rw [h] at read
  exact read

/-- Whatever its kind, a request that is applied starts and ends no zeroing. -/
theorem lakeApply {p : Pkt} {rsp : List (Nat × Nat)} : SameZeroing s (s.lakeApply k p rsp) := by
  unfold State.lakeApply
  dsimp only
  split
  · exact delPkt.trans (lakeFound.trans (ite lakeReply lakeReply))
  · exact delPkt.trans (lakeStore.trans lakeReply)
  · exact delPkt.trans (reduceInto.trans (lakeFound.trans (ite lakeReply lakeReply)))
  · exact delPkt.trans (reduceInto.trans (lakeFound.trans (ite lakeReply lakeReply)))
  · exact delPkt.trans (lakeFound.trans (ite lakeReply lakeReply))
  · refine delPkt.trans (lakeFound.trans (ite lakeReply (ite ((setStack (by rfl)).trans lakeReply) ?_)))
    split
    · next heq => exact (of_palTable heq).trans lakeReply
    · next heq => exact of_palTable heq
    · next heq => exact (of_palTable heq).trans lakeReply
  · exact delPkt.trans (lakeZero.trans lakeReply)
  · exact delPkt.trans lakeReply

theorem drainStack {rsp : List (Nat × List (Nat × Nat))} : SameZeroing s (s.drainStack k rsp) := by
  unfold State.drainStack
  refine (setStack (by rfl)).trans (foldl fun w id => ?_)
  split
  · exact lakeApply
  · exact refl

end SameZeroing

/-- A stack that starts zeroing zeroes, and no other stops. -/
theorem zeroing_zeroStart {s : State} {k n : Nat} : ((s.zeroStart k).stack n).zeroing = (if n = k then true else (s.stack n).zeroing) := by
  unfold State.zeroStart
  by_cases hn : n = k
  · rw [if_pos hn, hn, State.stack_setStack]
  · rw [if_neg hn, State.stack_setStack_ne _ _ _ _ hn]

/-- Every stack drained and put to zeroing. -/
def zeroStacks (rsp : List (Nat × List (Nat × Nat))) (s : State) : State := (List.range 8).foldl (fun (u : State) k => (u.drainStack k rsp).zeroStart k) s

theorem zeroing_drained {rsp : List (Nat × List (Nat × Nat))} {n : Nat} {l : List Nat} : ∀ {s : State},
    ((l.foldl (fun (u : State) k => (u.drainStack k rsp).zeroStart k) s).stack n).zeroing = if n ∈ l then true else (s.stack n).zeroing := by
  induction l with
  | nil => exact fun {s} => rfl
  | cons k l ih =>
    intro s
    rw [List.foldl_cons, ih, zeroing_zeroStart, SameZeroing.drainStack n]
    by_cases hl : n ∈ l
    · rw [if_pos hl, if_pos (List.mem_cons_of_mem k hl)]
    · by_cases hk : n = k
      · rw [if_neg hl, if_pos hk, if_pos (List.mem_cons.mpr (.inl hk))]
      · rw [if_neg hl, if_neg hk, if_neg (by simp [hl, hk])]

theorem zeroing_zeroStacks {s : State} {rsp : List (Nat × List (Nat × Nat))} {n : Nat} (hn : n < 8) : ((zeroStacks rsp s).stack n).zeroing = true :=
  zeroing_drained.trans (if_pos (List.mem_range.mpr hn))

theorem Changes.zeroStacks {s : State} {rsp : List (Nat × List (Nat × Nat))} : Changes [.net, .lake, .context, .faults, .logs, .jtag, .host, .out] s (Laws.zeroStacks rsp s) :=
  .foldl fun _ _ => .step .drainStack <| .of .zeroStart

/-- The package that has taken an LPN claims it. -/
def claimed (s : State) : State :=
  let s1 := s.broadcast s.claimSlot none
  ({ s1 with st := { s1.st with claimAgain := some (s1.time.now + 2000 * ms) } } : State).timeRole false

theorem claimed_spec {s : State} : (claimed s).lpn = s.lpn ∧ (claimed s).pkg = s.pkg ∧ (claimed s).spr = s.spr ∧ (claimed s).st.claimAgain = some (s.time.now + 2000 * ms) := by
  have sent := Changes.broadcast (s := s) (m := s.claimSlot) (but := none)
  unfold claimed
  generalize s.broadcast s.claimSlot none = s1 at sent
  dsimp only
  generalize hw : ({ s1 with st := { s1.st with claimAgain := some (s1.time.now + 2000 * ms) } } : State) = w
  obtain ⟨hLpn, hPkg, hSpr, hAgain⟩ : w.lpn = s1.lpn ∧ w.pkg = s1.pkg ∧ w.spr = s1.spr ∧ w.st.claimAgain = some (s1.time.now + 2000 * ms) := hw ▸ ⟨rfl, rfl, rfl, rfl⟩
  have role := Changes.timeRole (s := w) (listen := false)
  rw [← role.same .lpn (by simp), ← role.same .pkg (by simp), ← role.same .spares (by simp), ← role.same .links (by simp), sent.same .lpn (by simp), sent.same .pkg (by simp),
    sent.same .spares (by simp), sent.same .time (by simp)]
  exact ⟨hLpn, hPkg, hSpr, hAgain⟩

/-! ### The lines of a spare -/

theorem line_setLine {s : State} {k : Nat} {x : SprLine} : (s.setLine k x).spr.line k = x := Tab.get_set_same ..

/-- Arming a line leaves what was heard on it. -/
theorem line_arm {s : State} {k : Nat} : ∃ armed, (s.arm k).spr.line k = { s.spr.line k with armed := armed } := by
  have near : ∀ {p : Prop} [Decidable p], ∃ armed, (if p then s.setLine k { s.spr.line k with armed := true } else s).spr.line k = { s.spr.line k with armed := armed } := by
    intro p _
    split
    · exact ⟨true, line_setLine⟩
    · exact ⟨_, rfl⟩
  have judged : ∀ {w : State}, (if w.spr.members.all (fun m => (w.spr.line m.line).armed) then { w with spr := { w.spr with state := 2 } } else w).spr.line k = w.spr.line k := by
    intro w
    split <;> rfl
  unfold State.arm
  dsimp only
  rw [judged]
  exact near

/-- A displaced package holds no LPN. -/
theorem displaced_displace {s : State} : s.displace.spr.displaced = true ∧ s.displace.pkg.lpnValid = false := by
  unfold State.displace
  generalize hw : ({ s with spr := { s.spr with displaced := true }, pkg := { s.pkg with lpnValid := false } } : State) = w
  have kills : Changes [.tiles, .seq, .time, .context, .logs, .pkg] w ((w.beginKill 5 w.lpn w.ctx.id true).timeRole false) := .step .beginKill <| .of .timeRole
  obtain ⟨x, hx⟩ := pkg_beginKill (s := w) (cause := 5) (origin := w.lpn) (abortId := w.ctx.id) (abort := true)
  refine ⟨(congrArg Spr.displaced (kills.same .spares (by simp)).symm).trans (hw ▸ rfl), (congrArg Pkg.lpnValid (Changes.timeRole.same .pkg (by simp)).symm).trans ?_⟩
  rw [hx, ← hw]

/-- From `s` to `u` nothing of the spare's block differs but the copy of a point. -/
structure OnlyCopy (s u : State) : Prop where
  spares : ∃ copying txLast txDone, u.spr = { s.spr with copying := copying, txLast := txLast, txDone := txDone }

namespace OnlyCopy
variable {s t u : State} {c : Nat}

theorem of_spr (h : u.spr = s.spr) : OnlyCopy s u := ⟨s.spr.copying, s.spr.txLast, s.spr.txDone, h⟩

theorem trans (h : OnlyCopy s t) (g : OnlyCopy t u) : OnlyCopy s u := by
  obtain ⟨a, b, d, h⟩ := h.spares
  obtain ⟨a', b', d', g⟩ := g.spares
  exact ⟨a', b', d', by rw [g, h]⟩

theorem of_changes {ps : List Part} (h : Changes ps s u) (hp : Part.spares ∉ ps) : OnlyCopy s u := of_spr (h.same .spares hp).symm

theorem ite {p : Prop} [Decidable p] (h : OnlyCopy s t) (g : OnlyCopy s u) : OnlyCopy s (if p then t else u) := by
  split
  · exact h
  · exact g

theorem chainNext : OnlyCopy s (s.chainNext c) := by
  unfold State.chainNext
  split
  · exact ⟨_, _, _, rfl⟩
  · exact of_spr rfl

theorem chainStop : OnlyCopy s (s.chainStop c) := ⟨_, _, _, rfl⟩

theorem chainEnd {d : DmaDesc} {code : Nat} : OnlyCopy s (s.chainEnd c d code) := by
  have closed : ∀ {v : DmaCh}, OnlyCopy s { s.setCh c v with spr := { (s.setCh c v).spr with copying := false } } := ⟨_, _, _, rfl⟩
  have moved : ∀ {v : DmaCh}, OnlyCopy s { s.setCh c v with spr := { (s.setCh c v).spr with txDone := (s.setCh c v).spr.txDone + d.len } } := ⟨_, _, _, rfl⟩
  unfold State.chainEnd
  exact ite (moved.trans (ite chainNext (ite chainStop (of_changes Changes.dmaFetch (by simp))))) (closed.trans (ite (of_spr rfl) (of_changes Changes.dmaHalt (by simp))))

theorem dmaStatus : OnlyCopy s (s.dmaStatus c) := by
  unfold State.dmaStatus
  dsimp only
  split
  · exact ite (of_spr rfl) <| ite (ite (of_spr rfl) chainEnd) <| ite (of_spr rfl) <|
      (ite (of_changes Changes.dmaFlag (by simp)) (of_spr rfl)).trans <| (of_changes Changes.setCh (by simp)).trans (of_changes Changes.dmaWrite (by simp))
  · exact of_spr rfl

theorem dmaIssue : OnlyCopy s (s.dmaIssue c) := by
  unfold State.dmaIssue
  exact ite (of_spr rfl) <| ite chainNext <| ite (of_changes Changes.dmaFetchFail (by simp)) <| ite (of_spr rfl) <|
    (of_changes Changes.setCh (by simp)).trans (of_changes Changes.dmaRead (by simp))

theorem dmaCheck : OnlyCopy s (s.dmaCheck c) := by
  have pass {w : State} : OnlyCopy w (w.dmaPass c) := (trans (of_changes Changes.dmaDecide (by simp)) dmaStatus).trans (of_changes Changes.dmaClose (by simp))
  exact (pass.trans pass).trans dmaIssue

theorem dmaRing : OnlyCopy s (s.dmaRing c) := by
  unfold State.dmaRing
  exact ite (of_spr rfl) <| ite ((of_changes Changes.dmaFetch (by simp)).trans dmaIssue) <|
    ((of_changes Changes.setCh (by simp)).trans (of_changes Changes.dmaFetch (by simp))).trans dmaIssue

theorem dmaResume : OnlyCopy s s.dmaResume := by
  unfold State.dmaResume
  generalize List.range 16 = l
  induction l generalizing s with
  | nil => exact of_spr rfl
  | cons c l ih => exact (dmaCheck.trans (ite ((of_changes Changes.setCh (by simp)).trans dmaRing) (of_spr (by rfl)))).trans ih

theorem enter {x : Nat} : OnlyCopy s (s.enter x) := by
  have held : OnlyCopy s (({ s with rows := if x = psAwait then [] else s.rows } : State).setUnder x) := of_spr rfl
  exact held.trans dmaResume

end OnlyCopy

end Sys2Proof.Laws

namespace Sys2Proof.Machine
open Sys2Proof.Laws Sys2Proof.Safety

/-! ### Heartbeats -/

section
variable {s s0 : State} {t : Nat} (h0 : s.advance t = s0)
include h0

theorem exec_heartbeatSend {m : Member} {r : List Member} (hRuns : s0.hbRuns = true) (hMember : s0.spr.role = 1) (hDue : s0.spr.hbAt + ms ≤ s0.time.now) (hPeers : s0.spr.members = m :: r) :
    exec (.heartbeatSend t) s = .next (({ s0 with spr := { s0.spr with hbSeq := (s0.spr.hbSeq + 1) % 2 ^ 32, hbAt := s0.time.now } } : State).sendMgt
      ⟨1, false, 0, m.lpn, s0.lpn, s0.ctx.gen, (s0.spr.hbSeq + 1) % 2 ^ 32⟩) := by
  have due : ¬ ((!s0.hbRuns) = true ∨ s0.spr.role ≠ 1 ∨ s0.time.now < s0.spr.hbAt + ms) := by
    rw [hRuns]
    simp [hMember, hDue]
  change execHeartbeatSend t s = _
  unfold execHeartbeatSend
  rw [h0]
  refine (if_neg due).trans ?_
  dsimp only
  rw [hPeers]
  rfl

/-- A heartbeat of a watched member is kept with its time. -/
theorem exec_heartbeat {l : Nat} {m : Mgt} {u : State} {e : Member} (hTake : s0.takeRx l (isMgt 1) = some (.mgt m, u)) (hLpn : m.dlpn = u.lpn) (hShown : u.spr.displaced = false)
    (hWatch : u.spr.watches = true) (hPeer : u.spr.members.find? (fun e => e.lpn == m.slpn) = some e) :
    ∃ v, exec (.heartbeat l t) s = .next v ∧ (v.spr.line e.line).lastA = some u.time.now ∧ (v.spr.line e.line).aOk = true := by
  have time : (u.pathNear (u.spr.line e.line).lastA).time = u.time := (Changes.pathNear.same .time (by simp)).symm
  obtain ⟨armed, hLine⟩ := line_arm (k := e.line)
    (s := (u.pathNear (u.spr.line e.line).lastA).setLine e.line { u.spr.line e.line with lastA := some (u.pathNear (u.spr.line e.line).lastA).time.now, aOk := true, silentAt := none })
  rw [line_setLine] at hLine
  refine ⟨_, ?_, (congrArg SprLine.lastA hLine).trans (congrArg (fun x : TimeSt => some x.now) time), congrArg SprLine.aOk hLine⟩
  change execHeartbeat l t s = _
  unfold execHeartbeat
  rw [h0]
  dsimp only
  rw [hTake]
  refine (if_neg (by rw [hShown]; simp [hLpn])).trans ((if_neg (by rw [hWatch]; decide)).trans ?_)
  rw [hPeer]
  rfl

/-- An edge of a line is kept with its time and level. -/
theorem exec_hbAckEdge {k : Nat} {high : Bool} (hk : k ≤ 17) : ∃ v, exec (.hbAckEdge k high t) s = .next v ∧ (v.spr.line k).lastB = some s0.time.now ∧ (v.spr.line k).level = high := by
  have heard : ∀ {w : State} {x : SprLine}, ((w.setLine k x).arm k).spr.line k = { x with armed := (((w.setLine k x).arm k).spr.line k).armed } := by
    intro w x
    obtain ⟨armed, hLine⟩ := line_arm (s := w.setLine k x) (k := k)
    rw [hLine, line_setLine]
  change ∃ v, execHbAckEdge k high t s = _ ∧ _
  unfold execHbAckEdge
  rw [h0]
  rw [if_neg (Nat.not_lt.mpr hk)]
  dsimp only
  split
  · exact ⟨_, rfl, congrArg SprLine.lastB heard, congrArg SprLine.level heard⟩
  · exact ⟨_, rfl, congrArg SprLine.lastB line_setLine, congrArg SprLine.level line_setLine⟩

section
variable {k : Nat} (hWatch : s0.spr.watches = true) (hLine : s0.spr.entryOf k ≠ none)
include hWatch hLine

omit h0 in
theorem path_judged {b : Bool} (hExpired : b = true) : ¬ ((!s0.spr.watches) = true ∨ (s0.spr.entryOf k).isNone = true ∨ (!b) = true) := by
  rw [hWatch, hExpired, Option.isNone_iff_eq_none]
  simp [hLine]

theorem exec_heartbeatPathASilent (hExpired : s0.pathExpired (s0.spr.line k).lastA = true) :
    exec (.heartbeatPathASilent k t) s = .next ((s0.setLine k { s0.spr.line k with aOk := false }).judgeSilence k) := by
  change execHeartbeatPathASilent k t s = _
  unfold execHeartbeatPathASilent
  rw [h0]
  exact if_neg (path_judged hWatch hLine hExpired)

theorem exec_heartbeatPathBSilent (hExpired : s0.pathExpired (s0.spr.line k).lastB = true) :
    exec (.heartbeatPathBSilent k t) s = .next ((s0.setLine k { s0.spr.line k with bOk := false }).judgeSilence k) := by
  change execHeartbeatPathBSilent k t s = _
  unfold execHeartbeatPathBSilent
  rw [h0]
  exact if_neg (path_judged hWatch hLine hExpired)

end

/-! ### The takeover -/

theorem exec_takeoverFence (hStep : s0.takeStep 1 = true) (hRuns : s0.pkg.watchStall = false) :
    exec (.takeoverFence t) s = .next { s0 with spr := { s0.spr with fenceOut := s0.spr.fenceOut ||| 2 ^ s0.spr.takeLine, phase := 2, takeAt := s0.time.now } } := by
  change execTakeoverFence t s = _
  unfold execTakeoverFence
  rw [h0]
  exact if_neg (by rw [hStep, hRuns]; decide)

/-- The package with the LPN that a takeover gives it. -/
def State.takes (s : State) (lpn : Nat) : State := { s with lpn := lpn, pkg := { s.pkg with lpnValid := true }, spr := { s.spr with takenLpn := some lpn, phase := 3 } }

section
variable (hStep : s0.takeStep 2 = true)
include hStep

section
variable {errs : List (Nat × List (Nat × Nat))} {a j : Nat} {m : Member} (hSteady : s0.steadyFrom = some a) (hEntry : s0.spr.entryOf s0.spr.takeLine = some (j, m))
  (hDue : a + ms ≤ s0.time.now) (hIn : a + ms ≤ s0.spr.takeAt + 20 * ms)
include hSteady hEntry hDue hIn

omit h0 hSteady hEntry in
theorem takes_lpn : ¬ ((!s0.takeStep 2) = true ∨ s0.time.now < a + ms ∨ s0.spr.takeAt + 20 * ms < a + ms) := by
  rw [hStep]
  simp [hDue, hIn]

theorem exec_takeoverProceed_eq : exec (.takeoverProceed errs t) s = .next (zeroStacks errs (if s0.claimLost m.lpn then (s0.takes m.lpn).displace else claimed (s0.takes m.lpn))) := by
  change execTakeoverProceed errs t s = _
  unfold execTakeoverProceed
  rw [h0]
  dsimp only
  rw [hSteady, hEntry]
  exact if_neg (takes_lpn hStep hDue hIn)

/-- A spare whose LPN another has claimed is displaced. -/
theorem exec_takeoverProceed_lost (hLost : s0.claimLost m.lpn = true) : ∃ v, exec (.takeoverProceed errs t) s = .next v ∧ v.spr.displaced = true ∧ v.pkg.lpnValid = false := by
  obtain ⟨hOut, hInvalid⟩ := displaced_displace (s := s0.takes m.lpn)
  refine ⟨_, exec_takeoverProceed_eq h0 hStep hSteady hEntry hDue hIn, ?_⟩
  rw [if_pos hLost, ← Changes.zeroStacks.same .spares (by simp), ← Changes.zeroStacks.same .pkg (by simp)]
  exact ⟨hOut, hInvalid⟩

/-- Else it takes the LPN, broadcasts its claim, and every stack zeroes. -/
theorem exec_takeoverProceed (hFree : s0.claimLost m.lpn = false) : ∃ v, exec (.takeoverProceed errs t) s = .next v ∧ v.lpn = m.lpn ∧ v.pkg.lpnValid = true ∧
    v.spr.takenLpn = some m.lpn ∧ v.spr.phase = 3 ∧ v.st.claimAgain = some (s0.time.now + 2000 * ms) ∧ ∀ n, n < 8 → (v.stack n).zeroing = true := by
  obtain ⟨hLpn, hPkg, hSpr, hAgain⟩ := claimed_spec (s := s0.takes m.lpn)
  refine ⟨_, exec_takeoverProceed_eq h0 hStep hSteady hEntry hDue hIn, ?_⟩
  rw [if_neg (by rw [hFree]; decide)]
  have kept := Changes.zeroStacks (s := claimed (s0.takes m.lpn)) (rsp := errs)
  rw [← kept.same .lpn (by simp), ← kept.same .pkg (by simp), ← kept.same .spares (by simp), ← kept.same .links (by simp), hLpn, hPkg, hSpr, hAgain]
  exact ⟨rfl, rfl, rfl, rfl, rfl, fun n hn => zeroing_zeroStacks hn⟩

end

/-- Without a steady low the takeover is abandoned. -/
theorem exec_fenceFail (hNone : s0.steadyFrom = none) (hDue : s0.spr.takeAt + 20 * ms ≤ s0.time.now) : ∃ v, exec (.fenceFail t) s = .next v ∧ v.spr.state = 2 ∧ v.spr.phase = 0 ∧
    v.spr.fenceFail = true ∧ v.spr.fenceFails = satInc 8 s0.spr.fenceFails ∧ (v.spr.line s0.spr.takeLine).armed = false := by
  change ∃ v, execFenceFail t s = _ ∧ _
  unfold execFenceFail
  rw [h0]
  dsimp only
  rw [hNone]
  exact ⟨_, if_neg (by rw [hStep]; simp [hDue]), rfl, rfl, rfl, rfl, congrArg SprLine.armed (line_setLine (s := s0))⟩

end

theorem exec_mirrorRestoreDone {regions : List (Nat × Nat)} (hStep : s0.takeStep 3 = true) (hAwake : ∀ n, n < 8 → (s0.stack n).awake = true) :
    ∃ v, exec (.mirrorRestoreDone regions t) s = .next v ∧ v.spr.phase = 4 ∧ v.spr.restored = (s0.spr.line s0.spr.takeLine).lastPoint ∧ v.lake = (s0.restore regions).lake := by
  have awake : (List.range 8).all (fun k => (s0.stack k).awake) = true := List.all_eq_true.mpr fun n hn => hAwake n (List.mem_range.mp hn)
  change ∃ v, execMirrorRestoreDone regions t s = _ ∧ _
  unfold execMirrorRestoreDone
  rw [h0]
  exact ⟨_, if_neg (by rw [hStep, awake]; decide), rfl, rfl, rfl⟩

/-- The takeover ends: the spare holds the place, and a watching package is `CONFIGURED`. -/
theorem exec_takeoverDone {errs : List (Nat × List (Nat × Nat))} (hStep : s0.takeStep 4 = true) : ∃ v, exec (.takeoverDone errs t) s = .next v ∧ v.spr.state = 4 ∧ v.spr.phase = 0 ∧
    v.spr.takeovers = satInc 8 s0.spr.takeovers ∧ (s0.pkg.under = psWatch → v.pkg.under = psConf) := by
  change ∃ v, execTakeoverDone errs t s = _ ∧ _
  unfold execTakeoverDone
  rw [h0]
  refine ⟨_, if_neg (by rw [hStep]; decide), ?_⟩
  dsimp only
  generalize hw : List.foldl _ s0 (List.range 8) = w
  have resumes : Changes [.net, .lake, .context, .faults, .logs, .jtag, .host, .out] s0 w := hw ▸ .foldl fun _ _ => .step .setStack <| .of .lakeResume
  rw [resumes.same .spares (by simp), resumes.same .pkg (by simp)]
  split
  · obtain ⟨copying, txLast, txDone, hEnter⟩ := (OnlyCopy.enter (s := { w with spr := { w.spr with state := 4, phase := 0, takeovers := satInc 8 w.spr.takeovers } }) (x := psConf)).spares
    rw [hEnter, pkg_enter]
    exact ⟨rfl, rfl, rfl, fun _ => rfl⟩
  · next hOther => exact ⟨rfl, rfl, rfl, fun hWatch => absurd hWatch hOther⟩

/-! ### Claims and mirror writes -/

section
variable {l : Nat} {m : Mgt} {u : State} (hTake : s0.takeRx l (isMgt 0x20) = some (.mgt m, u))
include hTake

/-- A claim of the own LPN by another package displaces this one. -/
theorem exec_lpnClaim_displaced (hValid : u.pkg.lpnValid = true) (hOwn : m.slpn = u.lpn) (hPid : fld m.arg 18 0 ≠ u.pid) :
    ∃ v, exec (.lpnClaim l t) s = .next v ∧ v.spr.displaced = true ∧ v.pkg.lpnValid = false := by
  obtain ⟨hOut, hInvalid⟩ := displaced_displace (s := u)
  have goes : ∀ {w x : State}, Changes [.links] w x → w.spr.displaced = true → w.pkg.lpnValid = false → x.spr.displaced = true ∧ x.pkg.lpnValid = false :=
    fun {w x} h hd hv => ⟨(congrArg Spr.displaced (h.same .spares (by simp)).symm).trans hd, (congrArg Pkg.lpnValid (h.same .pkg (by simp)).symm).trans hv⟩
  change ∃ v, execLpnClaim l t s = _ ∧ _
  unfold execLpnClaim
  rw [h0]
  dsimp only
  rw [hTake]
  dsimp only
  rw [if_pos (⟨hValid, hOwn, hPid⟩ : u.pkg.lpnValid = true ∧ m.slpn = u.lpn ∧ fld m.arg 18 0 ≠ u.pid)]
  split
  · exact ⟨_, rfl, goes (.of .setLink) hOut hInvalid⟩
  · exact ⟨_, rfl, goes (.step .links <| .of .broadcast) hOut hInvalid⟩

/-- A fresh claim is kept and relayed. -/
theorem exec_lpnClaim_fresh (hNone : u.pkg.lpnValid = false) (hNew : u.st.claimsSeen = []) : exec (.lpnClaim l t) s = .next
    (({ u with st := { u.st with claimsSeen := [(m.slpn, fld m.arg 18 0, u.time.now)] } } : State).broadcast m (some l)) := by
  change execLpnClaim l t s = _
  unfold execLpnClaim
  rw [h0]
  dsimp only
  rw [hTake]
  dsimp only
  rw [if_neg (show ¬ (u.pkg.lpnValid = true ∧ m.slpn = u.lpn ∧ fld m.arg 18 0 ≠ u.pid) by rw [hNone]; simp), hNew]
  rfl

end

theorem exec_lpnClaimResend {a : Nat} (hAgain : s0.st.claimAgain = some a) (hDue : a ≤ s0.time.now) (hShown : s0.spr.displaced = false) (hValid : s0.pkg.lpnValid = true) :
    let w : State := { s0 with st := { s0.st with claimAgain := none } }
    exec (.lpnClaimResend t) s = .next (w.broadcast w.claimSlot none) := by
  intro w
  change execLpnClaimResend t s = _
  unfold execLpnClaimResend
  rw [h0]
  dsimp only
  rw [hAgain]
  exact (if_neg (Nat.not_lt.mpr hDue)).trans (congrArg ok (if_neg (by rw [hShown, hValid]; decide)))

/-- A mirror write of a watched member within its slot goes to the lake. -/
theorem exec_mirrorWrite {id slpn : Nat} {q : Pkt} {m : Member} {req rsp : List (Nat × Nat)} (hPkt : s0.mirrorPkt id = some (q, slpn))
    (hPeer : s0.spr.members.find? (fun m => m.lpn == slpn) = some m) (hWatch : s0.spr.watches = true) (hKind : q.kind = 0x03) (hPoint : (s0.spr.line m.line).curPoint ≤ q.extWord 0)
    (hSlot : q.addr + 4 * q.words ≤ (s0.spr.mirrorBase (((s0.spr.entryOf m.line).map Prod.fst).getD 0) (q.extWord 0) (q.extWord 1)).2) :
    exec (.mirrorWrite id req rsp t) s = .next (s0.mirrorStore q ((s0.spr.mirrorBase (((s0.spr.entryOf m.line).map Prod.fst).getD 0) (q.extWord 0) (q.extWord 1)).1 + q.addr) req rsp
      (fun u => u.setLine m.line ((u.spr.line m.line).applied (q.extWord 0) (q.extWord 1) (4 * q.words) (s0.spr.double (q.extWord 1))))) := by
  change execMirrorWrite id req rsp t s = _
  unfold execMirrorWrite
  rw [h0]
  dsimp only
  rw [hPkt]
  dsimp only
  rw [hPeer]
  exact (if_neg (by rw [hWatch]; decide)).trans <| (if_neg (not_not_intro hKind)).trans <| (if_neg (Nat.not_lt.mpr hPoint)).trans <| if_neg (Nat.not_lt.mpr hSlot)

end

end Sys2Proof.Machine

namespace Sys2Proof.Safety
open Sys2Proof Sys2Proof.Machine Sys2Proof.Laws

/-- Settles O60: each event of a spare by the branch that its hypotheses open. -/
theorem heartbeatsAndTakeoversComplete : Obligations.HeartbeatsAndTakeoversComplete := by
  intro s l k id t high regions req rsp errs s0 p
  refine ⟨fun m r => exec_heartbeatSend rfl, fun m u e => exec_heartbeat rfl, exec_hbAckEdge rfl, fun hWatch hLine => ⟨exec_heartbeatPathASilent rfl hWatch hLine, exec_heartbeatPathBSilent rfl hWatch hLine⟩,
    exec_takeoverFence rfl, fun hStep => ⟨fun a j m hSteady hEntry hDue hIn => ⟨exec_takeoverProceed_lost rfl hStep hSteady hEntry hDue hIn, exec_takeoverProceed rfl hStep hSteady hEntry hDue hIn⟩,
      exec_fenceFail rfl hStep⟩, exec_mirrorRestoreDone rfl, exec_takeoverDone rfl, fun m u hTake => ⟨exec_lpnClaim_displaced rfl hTake, exec_lpnClaim_fresh rfl hTake⟩,
    fun a => exec_lpnClaimResend rfl, ?_⟩
  intro q slpn m hPkt hPeer hWatch hKind x base hPoint hSlot
  exact exec_mirrorWrite rfl hPkt hPeer hWatch hKind hPoint hSlot

end Sys2Proof.Safety
end
